-- ==== Sys2Proof/Word.lean ====
section
/-!
DEFINITION. The word types of the Vyura S4 and nothing else: 64-bit g registers and addresses, 32-bit instruction words,
bytes, 512-bit v registers and 1 024-bit m registers (R24, R46, R88, R154).
-/

namespace Sys2Proof

/-- A g register, an address, a 64-bit CSR. -/
abbrev W := BitVec 64

/-- One byte of memory. -/
abbrev Byte := BitVec 8

/-- One instruction word (R46). -/
abbrev Word32 := BitVec 32

/-- A v register: 16 lanes of 32 bits, 32 of 16 or 64 of 8 (R24). -/
abbrev VReg := BitVec 512

/-- An m register: 16 means below, 16 variances above (R154). -/
abbrev MReg := BitVec 1024

/-- A logical core number: die in [11:10], row in [9:5], column in [4:0] (R9). -/
abbrev CoreId := BitVec 12

/-- A hart within its core, 0 to 3 (R13). -/
abbrev HartId := BitVec 2

end Sys2Proof
end

