-- ==== Sys2Proof/Syntax.lean ====
section
/-!
DEFINITION. The instructions and steps of the Vyura S4: one constructor per row of the table of operations and events
(spec/opcode_table.json). The first 244 rows are instruction words, whose arguments are the fields of the word (R52) with
the W and L bits last (R46); the others are the package's further steps, whose arguments name what the step acts on.
-/

namespace Sys2Proof

/-- One row of the table of operations and events. -/
inductive Instr where
  /-- BEQ (R120). Branches when gA equals gB. -/
  | beq (o : BitVec 12) (b a : BitVec 5) (w l : Bool)
  /-- BNE (R120). Branches when gA differs from gB. -/
  | bne (o : BitVec 12) (b a : BitVec 5) (w l : Bool)
  /-- BLT (R120). Branches when gA is less than gB, signed. -/
  | blt (o : BitVec 12) (b a : BitVec 5) (w l : Bool)
  /-- BGE (R120). Branches when gA is greater than or equal to gB, signed. -/
  | bge (o : BitVec 12) (b a : BitVec 5) (w l : Bool)
  /-- BLTU (R120). Branches when gA is less than gB, unsigned. -/
  | bltu (o : BitVec 12) (b a : BitVec 5) (w l : Bool)
  /-- BGEU (R120). Branches when gA is greater than or equal to gB, unsigned. -/
  | bgeu (o : BitVec 12) (b a : BitVec 5) (w l : Bool)
  /-- BBS (R120). Branches when bit gB[5:0] of gA is set. -/
  | bbs (o : BitVec 12) (b a : BitVec 5) (w l : Bool)
  /-- BBC (R120). Branches when bit gB[5:0] of gA is clear. -/
  | bbc (o : BitVec 12) (b a : BitVec 5) (w l : Bool)
  /-- JAL (R121). Jumps by a word offset and writes the link address to gD. -/
  | jal (o : BitVec 20) (d : BitVec 5) (w l : Bool)
  /-- JALR (R121). Jumps to gA plus an immediate and writes the link address to gD. -/
  | jalr (i : BitVec 12) (a d : BitVec 5) (w l : Bool)
  /-- LDB (R211). Loads a sign-extended byte. -/
  | ldb (o : BitVec 8) (s r : BitVec 2) (a d : BitVec 5) (w l : Bool)
  /-- LDH (R211). Loads a sign-extended halfword. -/
  | ldh (o : BitVec 8) (s r : BitVec 2) (a d : BitVec 5) (w l : Bool)
  /-- LDW (R211). Loads a sign-extended word. -/
  | ldw (o : BitVec 8) (s r : BitVec 2) (a d : BitVec 5) (w l : Bool)
  /-- LDD (R211). Loads a doubleword. -/
  | ldd (o : BitVec 8) (s r : BitVec 2) (a d : BitVec 5) (w l : Bool)
  /-- LDBU (R211). Loads a zero-extended byte. -/
  | ldbu (o : BitVec 8) (s r : BitVec 2) (a d : BitVec 5) (w l : Bool)
  /-- LDHU (R211). Loads a zero-extended halfword. -/
  | ldhu (o : BitVec 8) (s r : BitVec 2) (a d : BitVec 5) (w l : Bool)
  /-- LDWU (R211). Loads a zero-extended word. -/
  | ldwu (o : BitVec 8) (s r : BitVec 2) (a d : BitVec 5) (w l : Bool)
  /-- STB (R211). Stores the low byte of gD. -/
  | stb (o : BitVec 8) (s r : BitVec 2) (a d : BitVec 5) (w l : Bool)
  /-- STH (R211). Stores the low halfword of gD. -/
  | sth (o : BitVec 8) (s r : BitVec 2) (a d : BitVec 5) (w l : Bool)
  /-- STW (R211). Stores the low word of gD. -/
  | stw (o : BitVec 8) (s r : BitVec 2) (a d : BitVec 5) (w l : Bool)
  /-- STD (R211). Stores the doubleword gD. -/
  | std (o : BitVec 8) (s r : BitVec 2) (a d : BitVec 5) (w l : Bool)
  /-- VLD (R213). Loads a 64-byte block, or n converted elements, into vD. -/
  | vld (o : BitVec 8) (a d : BitVec 5) (w l : Bool)
  /-- VST (R213). Stores vD as one block. -/
  | vst (o : BitVec 8) (a d : BitVec 5) (w l : Bool)
  /-- VLDS (R213). Loads elements at a stride held in gS. -/
  | vlds (s a d : BitVec 5) (w l : Bool)
  /-- VSTS (R213). Stores elements at a stride held in gS. -/
  | vsts (s a d : BitVec 5) (w l : Bool)
  /-- VLDX (R213). Gathers 16 elements at offsets taken from vX. -/
  | vldx (x a d : BitVec 5) (w l : Bool)
  /-- VSTX (R213). Scatters 16 elements to offsets taken from vX. -/
  | vstx (x a d : BitVec 5) (w l : Bool)
  /-- VLDBC (R213). Loads one element and copies it into every lane. -/
  | vldbc (o : BitVec 8) (a d : BitVec 5) (w l : Bool)
  /-- AADD (R216). Atomic add; returns the old value. -/
  | aadd (s r : BitVec 2) (z : Bool) (b a d : BitVec 5) (w l : Bool)
  /-- AAND (R216). Atomic AND; returns the old value. -/
  | aand (s r : BitVec 2) (z : Bool) (b a d : BitVec 5) (w l : Bool)
  /-- AOR (R216). Atomic OR; returns the old value. -/
  | aor (s r : BitVec 2) (z : Bool) (b a d : BitVec 5) (w l : Bool)
  /-- AXOR (R216). Atomic XOR; returns the old value. -/
  | axor (s r : BitVec 2) (z : Bool) (b a d : BitVec 5) (w l : Bool)
  /-- AMIN (R216). Atomic signed minimum. -/
  | amin (s r : BitVec 2) (z : Bool) (b a d : BitVec 5) (w l : Bool)
  /-- AMAX (R216). Atomic signed maximum. -/
  | amax (s r : BitVec 2) (z : Bool) (b a d : BitVec 5) (w l : Bool)
  /-- AMINU (R216). Atomic unsigned minimum. -/
  | aminu (s r : BitVec 2) (z : Bool) (b a d : BitVec 5) (w l : Bool)
  /-- AMAXU (R216). Atomic unsigned maximum. -/
  | amaxu (s r : BitVec 2) (z : Bool) (b a d : BitVec 5) (w l : Bool)
  /-- ASWAP (R216). Atomic swap. -/
  | aswap (s r : BitVec 2) (z : Bool) (b a d : BitVec 5) (w l : Bool)
  /-- ACAS (R216). Atomic compare-and-swap; a failure carries no ordering. -/
  | acas (s r : BitVec 2) (z : Bool) (b a d : BitVec 5) (w l : Bool)
  /-- ACASF (R216). Compare-and-swap that still acquires when it fails. -/
  | acasf (s r : BitVec 2) (z : Bool) (b a d : BitVec 5) (w l : Bool)
  /-- AFADD (R216). Atomic FP32 add, rounded RNE. -/
  | afadd (s r : BitVec 2) (b a d : BitVec 5) (w l : Bool)
  /-- AFMIN (R216). Atomic FP32 minimum. -/
  | afmin (s r : BitVec 2) (b a d : BitVec 5) (w l : Bool)
  /-- AFMAX (R216). Atomic FP32 maximum. -/
  | afmax (s r : BitVec 2) (b a d : BitVec 5) (w l : Bool)
  /-- AVADD (R216). Atomic add of 16 FP32 lanes over 64 bytes. -/
  | avadd (s r : BitVec 2) (b a d : BitVec 5) (w l : Bool)
  /-- AVMAX (R216). Atomic maximum of 16 FP32 lanes over 64 bytes. -/
  | avmax (s r : BitVec 2) (b a d : BitVec 5) (w l : Bool)
  /-- AINCW (R216). Atomic increment that wraps to 0 at the bound gB. -/
  | aincw (s r : BitVec 2) (z : Bool) (b a d : BitVec 5) (w l : Bool)
  /-- TLDW (R237). Ordered-region word load, read by key. -/
  | tldw (o : BitVec 8) (a d : BitVec 5) (w l : Bool)
  /-- TLDD (R237). Ordered-region doubleword load. -/
  | tldd (o : BitVec 8) (a d : BitVec 5) (w l : Bool)
  /-- TSTW (R237). Buffers a word in the ordered store buffer. -/
  | tstw (o : BitVec 8) (a d : BitVec 5) (w l : Bool)
  /-- TSTD (R237). Buffers a doubleword in the ordered store buffer. -/
  | tstd (o : BitVec 8) (a d : BitVec 5) (w l : Bool)
  /-- TLDV (R237). Ordered-region 64-byte load. -/
  | tldv (o : BitVec 8) (a d : BitVec 5) (w l : Bool)
  /-- TSTV (R237). Buffers 64 bytes in the ordered store buffer. -/
  | tstv (o : BitVec 8) (a d : BitVec 5) (w l : Bool)
  /-- FENCE (R228). Orders predecessor accesses, and engine commands under E, before successors at a scope. -/
  | fence (e p q u v : Bool) (s : BitVec 2) (w l : Bool)
  /-- IFENCE (R229). Makes later fetches see stores that happen-before it. -/
  | ifence (w l : Bool)
  /-- WAITA (R230). Polls a location until it differs from gB or WAITLIM elapses, then acquires. -/
  | waita (s : BitVec 2) (z : Bool) (b a d : BitVec 5) (w l : Bool)
  /-- GJOIN (R112). Joins a group and returns the hart's rank. -/
  | gjoin (a d : BitVec 5) (w l : Bool)
  /-- GLEAVE (R112). Leaves a group. -/
  | gleave (a : BitVec 5) (w l : Bool)
  /-- GBAR (R114). Arrives at the group barrier and waits for the episode to complete. -/
  | gbar (a : BitVec 5) (w l : Bool)
  /-- GQRY (R112). Returns the current member count of a group. -/
  | gqry (a d : BitVec 5) (w l : Bool)
  /-- YIELD (R112). Keeps the hart out of the issue contest for up to 4 core cycles. -/
  | yield (w l : Bool)
  /-- NEXT (R281). Waits for the safe inbox head and begins a reaction on it. -/
  | next (d : BitVec 5) (w l : Bool)
  /-- DONE (R281). Ends the active reaction and places it in the reaction window. -/
  | done (w l : Bool)
  /-- POST (R282). Sends a tagged message whose tag is relative to the reaction's tag. -/
  | post (c b a : BitVec 5) (w l : Bool)
  /-- POSTP (R282). Sends a tagged message tagged PTC plus a delay. -/
  | postp (c b a : BitVec 5) (w l : Bool)
  /-- TNOW (R283). Reads PTC into gD. -/
  | tnow (d : BitVec 5) (w l : Bool)
  /-- LATEQ (R283). Returns the address of the oldest unreturned late record and advances the ring. -/
  | lateq (d : BitVec 5) (w l : Bool)
  /-- TWAIT (R283). Waits until PTC reaches gA. -/
  | twait (a : BitVec 5) (w l : Bool)
  /-- ENQ (R307). Sends an 8-byte message to a channel or to the front end. -/
  | enq (q d : BitVec 5) (w l : Bool)
  /-- DEQ (R308). Takes an 8-byte message or an event record, waiting if none is held. -/
  | deq (q d : BitVec 5) (w l : Bool)
  /-- ENQV (R307). Sends a 64-byte message to a channel. -/
  | enqv (q d : BitVec 5) (w l : Bool)
  /-- DEQV (R308). Takes a 64-byte channel message, waiting if none is held. -/
  | deqv (q d : BitVec 5) (w l : Bool)
  /-- ENQN (R307). Sends a message that is refused instead of held when it does not fit. -/
  | enqn (b q d : BitVec 5) (w l : Bool)
  /-- DEQN (R308). Takes a message without waiting and reports the outcome in gB. -/
  | deqn (b q d : BitVec 5) (w l : Bool)
  /-- QLEN (R308). Returns the number of messages or records held now. -/
  | qlen (q d : BitVec 5) (w l : Bool)
  /-- XSHAPE (R296). Loads and checks a shape record into a shape slot. -/
  | xshape (s : BitVec 3) (a : BitVec 5) (w l : Bool)
  /-- XCOPY (R298). Issues a linear byte copy to the streamers. -/
  | xcopy (c b a : BitVec 5) (w l : Bool)
  /-- XCOPYS (R298). Issues a shaped copy described by a slot. -/
  | xcopys (s : BitVec 3) (b a : BitVec 5) (w l : Bool)
  /-- XGATH (R299). Issues a gather of rows chosen by an index list. -/
  | xgath (c b a d : BitVec 5) (w l : Bool)
  /-- XSCAT (R301). Issues a scatter of rows into expert bins. -/
  | xscat (c b a d : BitVec 5) (w l : Bool)
  /-- XFILL (R298). Issues a fill of a range with a repeated 8-byte pattern. -/
  | xfill (c b a : BitVec 5) (w l : Bool)
  /-- BSEAL (R292). Seals the open batch and opens the next. -/
  | bseal (d : BitVec 5) (w l : Bool)
  /-- BWAIT (R292). Waits until at most n sealed batches are unfinished, then acquires. -/
  | bwait (n : BitVec 4) (w l : Bool)
  /-- BSTAT (R293). Returns the status of a batch. -/
  | bstat (a d : BitVec 5) (w l : Bool)
  /-- XMODE (R303). Sets the completion reporting mode, endpoint and handle. -/
  | xmode (c b a : BitVec 5) (w l : Bool)
  /-- LEASH (R182). Requests the lease of an array and queues for it. -/
  | leash (a d : BitVec 5) (w l : Bool)
  /-- LEASHN (R182). Tries once for an array lease without queuing. -/
  | leashn (a d : BitVec 5) (w l : Bool)
  /-- UNLEASH (R182). Releases a held lease or leaves the request FIFO. -/
  | unleash (w l : Bool)
  /-- MXCFG (R186). Checks and sets the accumulator rectangle descriptor and local base. -/
  | mxcfg (b a : BitVec 5) (w l : Bool)
  /-- MXLDB (R185). Sends a command to load a weight tile into a B buffer. -/
  | mxldb (b a : BitVec 5) (w l : Bool)
  /-- MXRUN (R188). Checks and sends a run of A rows to the leased array. -/
  | mxrun (c b a d : BitVec 5) (w l : Bool)
  /-- MXZERO (R192). Sends a command that zeroes the whole rectangle. -/
  | mxzero (w l : Bool)
  /-- MXWAIT (R191). Waits for a run to complete and returns its rows and status. -/
  | mxwait (a d : BitVec 5) (w l : Bool)
  /-- MXQRY (R183). Returns a snapshot of an array's lease state. -/
  | mxqry (a d : BitVec 5) (w l : Bool)
  /-- WARM (R337). Arms a collective slot with a chain and staging area. -/
  | warm (c b a : BitVec 5) (w l : Bool)
  /-- WDISARM (R337). Disarms a collective slot. -/
  | wdisarm (a : BitVec 5) (w l : Bool)
  /-- WCNT (R337). Returns the state word of a collective slot. -/
  | wcnt (a d : BitVec 5) (w l : Bool)
  /-- WADD (R337). Adds to a slot's COUNT and fires the entries that are due. -/
  | wadd (b a : BitVec 5) (w l : Bool)
  /-- WWAIT (R337). Waits until COUNT reaches a target or the generation is done. -/
  | wwait (b a d : BitVec 5) (w l : Bool)
  /-- WSTART (R337). Waits for DONE, then starts the next generation of a persistent slot. -/
  | wstart (a : BitVec 5) (w l : Bool)
  /-- CSRRW (R92). Reads a CSR and writes every field from gA. -/
  | csrrw (c : BitVec 12) (a d : BitVec 5) (w l : Bool)
  /-- CSRRS (R92). Reads a CSR and sets the bits named by gA. -/
  | csrrs (c : BitVec 12) (a d : BitVec 5) (w l : Bool)
  /-- CSRRC (R92). Reads a CSR and clears the bits named by gA. -/
  | csrrc (c : BitVec 12) (a d : BitVec 5) (w l : Bool)
  /-- CSRWI (R92). Reads a CSR and writes every field from an immediate. -/
  | csrwi (c : BitVec 12) (z d : BitVec 5) (w l : Bool)
  /-- CSRSI (R92). Reads a CSR and sets the bits of an immediate. -/
  | csrsi (c : BitVec 12) (z d : BitVec 5) (w l : Bool)
  /-- CSRCI (R92). Reads a CSR and clears the bits of an immediate. -/
  | csrci (c : BitVec 12) (z d : BitVec 5) (w l : Bool)
  /-- ECALL (R98). Raises the environment-call trap for the current mode. -/
  | ecall (w : Bool)
  /-- EBREAK (R98). Raises the breakpoint trap. -/
  | ebreak (w : Bool)
  /-- TRET (R104). Returns from a trap and restores mode, PFX word and loop depth. -/
  | tret (w : Bool)
  /-- WFI (R100). Waits until an enabled interrupt source is pending. -/
  | wfi (w : Bool)
  /-- HALT (R100). Stops every hart of the core and puts the core in its low-power state. -/
  | halt (w : Bool)
  /-- HSTART (R99). Sends a start command to a target hart, with a start PC. -/
  | hstart (b a : BitVec 5) (w : Bool)
  /-- HSTOP (R99). Sends a stop command to a target hart. -/
  | hstop (a : BitVec 5) (w : Bool)
  /-- STFW (R218). Stores a word, then increments a flag once the word is visible. -/
  | stfw (s : Bool) (b a d : BitVec 5) (w l : Bool)
  /-- STFD (R218). Stores a doubleword, then increments a flag once it is visible. -/
  | stfd (s : Bool) (b a d : BitVec 5) (w l : Bool)
  /-- STFV (R218). Stores 64 bytes, then increments a flag once they are visible. -/
  | stfv (s : Bool) (b a d : BitVec 5) (w l : Bool)
  /-- LOOP (R107). Pushes a loop level with a count taken from gA. -/
  | loop (o : BitVec 12) (a : BitVec 5) (w l : Bool)
  /-- LOOPI (R107). Pushes a loop level with an immediate count. -/
  | loopi (n : BitVec 12) (e : BitVec 10) (w l : Bool)
  /-- LBRK (R107). Leaves the innermost loop past its end. -/
  | lbrk (w l : Bool)
  /-- LPOP (R107). Pops the innermost loop level and continues after LPOP. -/
  | lpop (w l : Bool)
  /-- PFX (R64). Sets formats, plane counts, scale and saturation for one following instruction. -/
  | pfx (x c : Bool) (s p q r : BitVec 3) (f e : BitVec 4) (w l : Bool)
  /-- ADD (R116). Adds two registers, wrapping. -/
  | add (b a d : BitVec 5) (w l : Bool)
  /-- SUB (R116). Subtracts two registers, wrapping. -/
  | sub (b a d : BitVec 5) (w l : Bool)
  /-- AND (R116). Bitwise AND. -/
  | and (b a d : BitVec 5) (w l : Bool)
  /-- OR (R116). Bitwise OR. -/
  | or (b a d : BitVec 5) (w l : Bool)
  /-- XOR (R116). Bitwise XOR. -/
  | xor (b a d : BitVec 5) (w l : Bool)
  /-- SLL (R116). Logical shift left. -/
  | sll (b a d : BitVec 5) (w l : Bool)
  /-- SRL (R116). Logical shift right. -/
  | srl (b a d : BitVec 5) (w l : Bool)
  /-- SRA (R116). Arithmetic shift right. -/
  | sra (b a d : BitVec 5) (w l : Bool)
  /-- SLT (R116). Sets 1 when gA is less than gB, signed. -/
  | slt (b a d : BitVec 5) (w l : Bool)
  /-- SLTU (R116). Sets 1 when gA is less than gB, unsigned. -/
  | sltu (b a d : BitVec 5) (w l : Bool)
  /-- MUL (R116). Low 64 bits of the product. -/
  | mul (b a d : BitVec 5) (w l : Bool)
  /-- MULH (R116). High 64 bits of the signed product. -/
  | mulh (b a d : BitVec 5) (w l : Bool)
  /-- MULHU (R116). High 64 bits of the unsigned product. -/
  | mulhu (b a d : BitVec 5) (w l : Bool)
  /-- DIV (R117). Signed divide; long latency, trap on a zero divisor. -/
  | div (b a d : BitVec 5) (w l : Bool)
  /-- DIVU (R117). Unsigned divide; long latency. -/
  | divu (b a d : BitVec 5) (w l : Bool)
  /-- REM (R117). Signed remainder; long latency. -/
  | rem (b a d : BitVec 5) (w l : Bool)
  /-- REMU (R117). Unsigned remainder; long latency. -/
  | remu (b a d : BitVec 5) (w l : Bool)
  /-- MIN (R116). Signed minimum. -/
  | min (b a d : BitVec 5) (w l : Bool)
  /-- MAX (R116). Signed maximum. -/
  | max (b a d : BitVec 5) (w l : Bool)
  /-- MINU (R116). Unsigned minimum. -/
  | minu (b a d : BitVec 5) (w l : Bool)
  /-- MAXU (R116). Unsigned maximum. -/
  | maxu (b a d : BitVec 5) (w l : Bool)
  /-- CLZ (R116). Counts leading zero bits. -/
  | clz (a d : BitVec 5) (w l : Bool)
  /-- CTZ (R116). Counts trailing zero bits. -/
  | ctz (a d : BitVec 5) (w l : Bool)
  /-- POPC (R116). Counts one bits. -/
  | popc (a d : BitVec 5) (w l : Bool)
  /-- ROL (R116). Rotates left. -/
  | rol (b a d : BitVec 5) (w l : Bool)
  /-- ROR (R116). Rotates right. -/
  | ror (b a d : BitVec 5) (w l : Bool)
  /-- ADDW (R116). 32-bit add, sign-extended. -/
  | addw (b a d : BitVec 5) (w l : Bool)
  /-- SUBW (R116). 32-bit subtract, sign-extended. -/
  | subw (b a d : BitVec 5) (w l : Bool)
  /-- SEL (R116). Selects gA when gC is non-zero, else gB. -/
  | sel (c b a d : BitVec 5) (w l : Bool)
  /-- ADDI (R118). Adds a sign-extended immediate. -/
  | addi (i : BitVec 12) (a d : BitVec 5) (w l : Bool)
  /-- ANDI (R118). ANDs with a sign-extended immediate. -/
  | andi (i : BitVec 12) (a d : BitVec 5) (w l : Bool)
  /-- ORI (R118). ORs with a sign-extended immediate. -/
  | ori (i : BitVec 12) (a d : BitVec 5) (w l : Bool)
  /-- XORI (R118). XORs with a sign-extended immediate. -/
  | xori (i : BitVec 12) (a d : BitVec 5) (w l : Bool)
  /-- SLTI (R118). Signed compare with an immediate. -/
  | slti (i : BitVec 12) (a d : BitVec 5) (w l : Bool)
  /-- SLTIU (R118). Unsigned compare with a sign-extended immediate. -/
  | sltiu (i : BitVec 12) (a d : BitVec 5) (w l : Bool)
  /-- SLLI (R118). Shifts left by an immediate. -/
  | slli (s : BitVec 6) (a d : BitVec 5) (w l : Bool)
  /-- SRLI (R118). Logical shift right by an immediate. -/
  | srli (s : BitVec 6) (a d : BitVec 5) (w l : Bool)
  /-- SRAI (R118). Arithmetic shift right by an immediate. -/
  | srai (s : BitVec 6) (a d : BitVec 5) (w l : Bool)
  /-- RORI (R118). Rotates right by an immediate. -/
  | rori (s : BitVec 6) (a d : BitVec 5) (w l : Bool)
  /-- ADDWI (R118). 32-bit add of an immediate, sign-extended. -/
  | addwi (i : BitVec 12) (a d : BitVec 5) (w l : Bool)
  /-- LUI (R119). Loads a sign-extended upper immediate. -/
  | lui (i : BitVec 20) (d : BitVec 5) (w l : Bool)
  /-- AUIPC (R119). Adds an upper immediate to PC. -/
  | auipc (i : BitVec 20) (d : BitVec 5) (w l : Bool)
  /-- FADD (R124). Floating-point add, rounded once. -/
  | fadd (p : BitVec 2) (m : BitVec 3) (b a d : BitVec 5) (w l : Bool)
  /-- FSUB (R124). Floating-point subtract. -/
  | fsub (p : BitVec 2) (m : BitVec 3) (b a d : BitVec 5) (w l : Bool)
  /-- FMUL (R124). Floating-point multiply. -/
  | fmul (p : BitVec 2) (m : BitVec 3) (b a d : BitVec 5) (w l : Bool)
  /-- FDIV (R125). Floating-point divide; long latency. -/
  | fdiv (p : BitVec 2) (m : BitVec 3) (b a d : BitVec 5) (w l : Bool)
  /-- FSQRT (R125). Floating-point square root; long latency. -/
  | fsqrt (p : BitVec 2) (m : BitVec 3) (a d : BitVec 5) (w l : Bool)
  /-- FMIN (R126). Floating-point minimum. -/
  | fmin (p : BitVec 2) (b a d : BitVec 5) (w l : Bool)
  /-- FMAX (R126). Floating-point maximum. -/
  | fmax (p : BitVec 2) (b a d : BitVec 5) (w l : Bool)
  /-- FSGNJ (R126). Copies the sign of b onto a. -/
  | fsgnj (p : BitVec 2) (b a d : BitVec 5) (w l : Bool)
  /-- FSGNJN (R126). Copies the inverted sign of b onto a. -/
  | fsgnjn (p : BitVec 2) (b a d : BitVec 5) (w l : Bool)
  /-- FSGNJX (R126). XORs the sign of b into a. -/
  | fsgnjx (p : BitVec 2) (b a d : BitVec 5) (w l : Bool)
  /-- FEQ (R126). Floating-point equality compare. -/
  | feq (p : BitVec 2) (b a d : BitVec 5) (w l : Bool)
  /-- FLT (R126). Floating-point less-than compare. -/
  | flt (p : BitVec 2) (b a d : BitVec 5) (w l : Bool)
  /-- FLE (R126). Floating-point less-or-equal compare. -/
  | fle (p : BitVec 2) (b a d : BitVec 5) (w l : Bool)
  /-- FCLASS (R126). Returns the class and sign of a. -/
  | fclass (p : BitVec 2) (a d : BitVec 5) (w l : Bool)
  /-- FCVTI (R127). Converts a float to a saturated integer of a given kind. -/
  | fcvti (p : BitVec 2) (m : BitVec 3) (k a d : BitVec 5) (w l : Bool)
  /-- FCVTF (R127). Converts an integer of a given kind to a float. -/
  | fcvtf (p : BitVec 2) (m : BitVec 3) (k a d : BitVec 5) (w l : Bool)
  /-- FCVTFF (R127). Converts between float precisions. -/
  | fcvtff (p : BitVec 2) (m : BitVec 3) (s : BitVec 2) (a d : BitVec 5) (w l : Bool)
  /-- FMAS (R128). Fused FP32 multiply-add with one rounding. -/
  | fmas (c b a d : BitVec 5) (w l : Bool)
  /-- FMAD (R128). Fused FP64 multiply-add with one rounding. -/
  | fmad (c b a d : BitVec 5) (w l : Bool)
  /-- VADD (R137). Lane-wise add. -/
  | vadd (t : BitVec 2) (k : BitVec 3) (b a d : BitVec 5) (w l : Bool)
  /-- VSUB (R137). Lane-wise subtract. -/
  | vsub (t : BitVec 2) (k : BitVec 3) (b a d : BitVec 5) (w l : Bool)
  /-- VMUL (R137). Lane-wise multiply. -/
  | vmul (t : BitVec 2) (k : BitVec 3) (b a d : BitVec 5) (w l : Bool)
  /-- VFMA (R137). Lane-wise fused multiply-add into vD. -/
  | vfma (t : BitVec 2) (k : BitVec 3) (b a d : BitVec 5) (w l : Bool)
  /-- VMIN (R137). Lane-wise minimum. -/
  | vmin (t : BitVec 2) (k : BitVec 3) (b a d : BitVec 5) (w l : Bool)
  /-- VMAX (R137). Lane-wise maximum. -/
  | vmax (t : BitVec 2) (k : BitVec 3) (b a d : BitVec 5) (w l : Bool)
  /-- VABS (R137). Lane-wise absolute value. -/
  | vabs (t : BitVec 2) (k : BitVec 3) (a d : BitVec 5) (w l : Bool)
  /-- VNEG (R137). Lane-wise negation. -/
  | vneg (t : BitVec 2) (k : BitVec 3) (a d : BitVec 5) (w l : Bool)
  /-- VAND (R138). Lane-wise AND. -/
  | vand (t : BitVec 2) (k : BitVec 3) (b a d : BitVec 5) (w l : Bool)
  /-- VOR (R138). Lane-wise OR. -/
  | vor (t : BitVec 2) (k : BitVec 3) (b a d : BitVec 5) (w l : Bool)
  /-- VXOR (R138). Lane-wise XOR. -/
  | vxor (t : BitVec 2) (k : BitVec 3) (b a d : BitVec 5) (w l : Bool)
  /-- VSHL (R138). Lane-wise shift left of INT32 lanes. -/
  | vshl (k : BitVec 3) (b a d : BitVec 5) (w l : Bool)
  /-- VSHR (R138). Lane-wise logical shift right. -/
  | vshr (k : BitVec 3) (b a d : BitVec 5) (w l : Bool)
  /-- VSRA (R138). Lane-wise arithmetic shift right. -/
  | vsra (k : BitVec 3) (b a d : BitVec 5) (w l : Bool)
  /-- VCEQ (R139). Lane-wise equality compare into a mask. -/
  | vceq (t : BitVec 2) (k : BitVec 3) (b a : BitVec 5) (d : BitVec 3) (w l : Bool)
  /-- VCLT (R139). Lane-wise less-than compare into a mask. -/
  | vclt (t : BitVec 2) (k : BitVec 3) (b a : BitVec 5) (d : BitVec 3) (w l : Bool)
  /-- VCLE (R139). Lane-wise less-or-equal compare into a mask. -/
  | vcle (t : BitVec 2) (k : BitVec 3) (b a : BitVec 5) (d : BitVec 3) (w l : Bool)
  /-- VSEL (R140). Selects lanes of vA or vB by a mask. -/
  | vsel (t : BitVec 2) (k : BitVec 3) (b a d : BitVec 5) (w l : Bool)
  /-- VCVT (R141). Converts lanes between formats. -/
  | vcvt (t : BitVec 2) (k : BitVec 3) (f : BitVec 4) (a d : BitVec 5) (w l : Bool)
  /-- VRED (R143). Reduces unmasked lanes by sum, min or max into gD. -/
  | vred (t : BitVec 2) (k : BitVec 3) (n a d : BitVec 5) (w l : Bool)
  /-- VSPLAT (R144). Copies gA into every unmasked lane. -/
  | vsplat (t : BitVec 2) (k : BitVec 3) (a d : BitVec 5) (w l : Bool)
  /-- VEXT (R144). Extracts one lane into gD. -/
  | vext (t : BitVec 2) (b a d : BitVec 5) (w l : Bool)
  /-- VINS (R144). Inserts gA into one lane. -/
  | vins (t : BitVec 2) (b a d : BitVec 5) (w l : Bool)
  /-- VPERM (R144). Permutes lanes of vA by indices in vB. -/
  | vperm (t : BitVec 2) (k : BitVec 3) (b a d : BitVec 5) (w l : Bool)
  /-- VWFMA (R146). Widening FP16/BF16 multiply-add into FP32 lanes of vD and vD+1. -/
  | vwfma (t : BitVec 2) (k : BitVec 3) (b a : BitVec 5) (d : BitVec 4) (w l : Bool)
  /-- VDOT (R147). Dot products of pairs or quads accumulated into 16 lanes. -/
  | vdot (t : BitVec 2) (k : BitVec 3) (b a d : BitVec 5) (w l : Bool)
  /-- VLUT (R149). Expands CB4 codes through the codebook. -/
  | vlut (t : BitVec 2) (k : BitVec 3) (f : Bool) (a d : BitVec 5) (w l : Bool)
  /-- VPLN (R150). Packs 64 INT8 lanes into a plane group. -/
  | vpln (p : BitVec 3) (a d : BitVec 5) (w l : Bool)
  /-- VUPL (R150). Unpacks a plane group into 64 INT8 lanes. -/
  | vupl (k p : BitVec 3) (a d : BitVec 5) (w l : Bool)
  /-- VRCP (R152). Lane-wise reciprocal, rounded RNE. -/
  | vrcp (t : BitVec 2) (k : BitVec 3) (a d : BitVec 5) (w l : Bool)
  /-- VRSQ (R152). Lane-wise reciprocal square root. -/
  | vrsq (t : BitVec 2) (k : BitVec 3) (a d : BitVec 5) (w l : Bool)
  /-- VEXP (R152). Lane-wise e^x, 2^x or sigmoid. -/
  | vexp (t : BitVec 2) (k : BitVec 3) (f a d : BitVec 5) (w l : Bool)
  /-- KAND (R145). Mask AND. -/
  | kand (b a d : BitVec 3) (w l : Bool)
  /-- KOR (R145). Mask OR. -/
  | kor (b a d : BitVec 3) (w l : Bool)
  /-- KXOR (R145). Mask XOR. -/
  | kxor (b a d : BitVec 3) (w l : Bool)
  /-- KNOT (R145). Mask NOT. -/
  | knot (a d : BitVec 3) (w l : Bool)
  /-- KPOPC (R145). Counts the one bits of a mask into gD. -/
  | kpopc (a : BitVec 3) (d : BitVec 5) (w l : Bool)
  /-- KMOV_K_K (R145). Copies a mask register to a mask register. -/
  | kmovKK (a d : BitVec 3) (w l : Bool)
  /-- KMOV_K_G (R145). Copies a g register to a mask register. -/
  | kmovKG (a : BitVec 5) (d : BitVec 3) (w l : Bool)
  /-- KMOV_G_K (R145). Copies a mask register to a g register. -/
  | kmovGK (a : BitVec 3) (d : BitVec 5) (w l : Bool)
  /-- VIDX (R144). Writes each lane's index. -/
  | vidx (t : BitVec 2) (k : BitVec 3) (d : BitVec 5) (w l : Bool)
  /-- VSLIDE (R144). Slides lanes by a signed amount in gB. -/
  | vslide (t : BitVec 2) (k : BitVec 3) (b a d : BitVec 5) (w l : Bool)
  /-- VMOV (R144). Copies lanes under a mask. -/
  | vmov (t : BitVec 2) (k : BitVec 3) (a d : BitVec 5) (w l : Bool)
  /-- VTANH (R152). Lane-wise hyperbolic tangent. -/
  | vtanh (t : BitVec 2) (k : BitVec 3) (a d : BitVec 5) (w l : Bool)
  /-- VRAND (R153). Counter-based random lanes from a key and a counter. -/
  | vrand (k : BitVec 3) (b a d : BitVec 5) (w l : Bool)
  /-- VPOPC (R151). Lane-wise population count. -/
  | vpopc (k : BitVec 3) (a d : BitVec 5) (w l : Bool)
  /-- VPDOT (R148). Plane-group integer dot products into INT32 lanes. -/
  | vpdot (k : BitVec 3) (b a d : BitVec 5) (w l : Bool)
  /-- VCVTS (R142). Converts lanes with a SCALE factor. -/
  | vcvts (t : BitVec 2) (k : BitVec 3) (a d : BitVec 5) (w l : Bool)
  /-- VMULH (R151). High 32 bits of lane-wise signed products. -/
  | vmulh (k : BitVec 3) (b a d : BitVec 5) (w l : Bool)
  /-- VSAT (R151). Clamps lanes to n-bit signed range. -/
  | vsat (k : BitVec 3) (n a d : BitVec 5) (w l : Bool)
  /-- MADD (R164). Moment addition with covariance term. -/
  | madd (k : BitVec 3) (b a d : BitVec 4) (w l : Bool)
  /-- MSUB (R164). Moment subtraction with covariance term. -/
  | msub (k : BitVec 3) (b a d : BitVec 4) (w l : Bool)
  /-- MMUL (R164). Moment product with covariance term. -/
  | mmul (k : BitVec 3) (b a d : BitVec 4) (w l : Bool)
  /-- MSCAL (R165). Scales moments by deterministic FP32 weights. -/
  | mscal (k : BitVec 3) (b : BitVec 5) (a d : BitVec 4) (w l : Bool)
  /-- MADDC (R165). Adds deterministic FP32 constants to means. -/
  | maddc (k : BitVec 3) (b : BitVec 5) (a d : BitVec 4) (w l : Bool)
  /-- MRELU (R167). Moment-matched ReLU by zones. -/
  | mrelu (k : BitVec 3) (a d : BitVec 4) (w l : Bool)
  /-- MEXP (R168). Moment-matched exponential. -/
  | mexp (k : BitVec 3) (a d : BitVec 4) (w l : Bool)
  /-- MSIG (R168). Moment-matched sigmoid. -/
  | msig (k : BitVec 3) (a d : BitVec 4) (w l : Bool)
  /-- MPACK (R170). Packs means and variances from v registers into a moment register. -/
  | mpack (k : BitVec 3) (b a : BitVec 5) (d : BitVec 4) (w l : Bool)
  /-- MCOLL (R170). Collapses a moment register into means, variances, deviations or a scaled bound. -/
  | mcoll (k s : BitVec 3) (m : BitVec 2) (a : BitVec 4) (d : BitVec 5) (w l : Bool)
  /-- MRED (R169). Sums selected moment lanes into lane 0. -/
  | mred (k : BitVec 3) (a d : BitVec 4) (w l : Bool)
  /-- MMOV (R170). Copies moment lanes. -/
  | mmov (k : BitVec 3) (a d : BitVec 4) (w l : Bool)
  /-- MZERO (R170). Sets moment lanes to (+0, +0). -/
  | mzero (k : BitVec 3) (d : BitVec 4) (w l : Bool)
  /-- MCHK (R170). Marks lanes whose variance is negative or NaN. -/
  | mchk (k : BitVec 3) (a : BitVec 5) (d : BitVec 3) (w l : Bool)
  /-- PACKAGE_RESET (R89). Stops every hart, resets registers and starts the boot hart of each die. -/
  | packageReset
  /-- TIME_TREE_REFERENCE (R15). The time tree disciplines each core's PTC to the package reference. -/
  | timeTreeReference (t : BitVec 64) (c : BitVec 12) (k : BitVec 16)
  /-- INTERRUPT_ENTRY (R104). An enabled pending interrupt is taken at an instruction boundary or a wait. -/
  | interruptEntry (c : BitVec 12) (h : BitVec 2)
  /-- VECTOR_ACCEPT (R129). The vector unit accepts the earliest unaccepted operation on an even core cycle. -/
  | vectorAccept (c : BitVec 12)
  /-- VECTOR_COMPLETE (R130). A vector operation writes its result and flags or traps. -/
  | vectorComplete (c : BitVec 12) (h : BitVec 2)
  /-- MOMENT_ACCEPT (R157). The moment datapath accepts the earliest unaccepted moment operation. -/
  | momentAccept (c : BitVec 12)
  /-- MOMENT_COMPLETE (R171). A moment operation writes results after the negative-variance check, or traps. -/
  | momentComplete (c : BitVec 12) (h : BitVec 2)
  /-- DIVIDE_RESULT (R117). An integer divide writes its result and fills gD. -/
  | divideResult (c : BitVec 12) (h : BitVec 2) (n : Nat)
  /-- FDIV_FSQRT_RESULT (R125). FDIV or FSQRT writes its result and flags, or traps when a flag is enabled. -/
  | fdivFsqrtResult (c : BitVec 12) (h : BitVec 2) (n : Nat)
  /-- LOCAL_LOAD_COMPLETE (R212). A local load completes within 3 core cycles. -/
  | localLoadComplete (c : BitVec 12) (h : BitVec 2) (n : Nat)
  /-- WFI_WAKE (R100). An enabled source becomes pending and ends the WFI wait. -/
  | wfiWake (c : BitVec 12) (h : BitVec 2)
  /-- YIELD_PAUSE_END (R112). The YIELD pause ends and the hart competes again. -/
  | yieldPauseEnd (c : BitVec 12) (h : BitVec 2)
  /-- WAITA_POLL (R230). WAITA re-reads its location after at least 16 core cycles. -/
  | waitaPoll (c : BitVec 12) (h : BitVec 2)
  /-- WAITA_LIMIT_EXPIRY (R230). WAITLIM elapses and WAITA returns the unchanged value with acquire. -/
  | waitaLimitExpiry (c : BitVec 12) (h : BitVec 2)
  /-- TWAIT_EXPIRY (R283). PTC reaches the TWAIT time and the hart resumes. -/
  | twaitExpiry (c : BitVec 12) (h : BitVec 2)
  /-- GROUP_JOIN_CONFIRM (R112). The barrier tree confirms a join and GJOIN writes the rank. -/
  | groupJoinConfirm (c : BitVec 12) (h : BitVec 2)
  /-- BARRIER_EPISODE_COMPLETE (R114). Every awaited member has arrived or left; members continue and FIFO 22 records are posted. -/
  | barrierEpisodeComplete (g : BitVec 12)
  /-- LEASE_GRANT (R182). An array grants its lease to the head of its FIFO and fills the LEASH destination. -/
  | leaseGrant (a : BitVec 7)
  /-- LEASE_EXPIRY (R176). The command or row count of a lease reaches its limit and the lease passes on or renews. -/
  | leaseExpiry (a : BitVec 7)
  /-- HART_START_COMMAND (R99). A start command reaches the target core and starts a stopped hart. -/
  | hartStartCommand (n : Nat)
  /-- HART_STOP_COMMAND (R99). A stop command reaches the target core and stops the hart. -/
  | hartStopCommand (n : Nat)
  /-- ARRAY_LOAD_B_TILE (R185). The array loads a tile into the free B buffer once no accepted run uses it. -/
  | arrayLoadBTile (a : BitVec 7)
  /-- RUN_ACCEPT (R188). The array accepts a run, checks the buffer's loader and assigns the sequence number. -/
  | runAccept (a : BitVec 7)
  /-- ARRAY_ROW_COMPUTE (R189). The array forms the sums of one A row and sends them to the owners. -/
  | arrayRowCompute (a : BitVec 7)
  /-- MXZERO_ACCEPT (R192). The array accepts an MXZERO and zeroes the rectangle in sequence order. -/
  | mxzeroAccept (a : BitVec 7)
  /-- PARTIAL_SUMS (R189). An owner core applies one row's partial sums atomically through the accumulate port. -/
  | partialSums (n : Nat)
  /-- RUN_COMPLETE (R191). A run completes; MXWAIT wakes and owners receive event records. -/
  | runComplete (a : BitVec 7)
  /-- LOAD_REQUEST (R200). A load request reaches its target and is checked against windows and the map. -/
  | loadRequest (n k : Nat)
  /-- STORE_REQUEST (R200). A store reaches its target and is checked and performed. -/
  | storeRequest (n k : Nat)
  /-- ATOMIC_REQUEST (R217). An atomic is performed at the local store or bank ALU. -/
  | atomicRequest (n k : Nat)
  /-- DATA_RESPONSE (R212). Load data or an atomic's old value returns and fills the destination. -/
  | dataResponse (n k : Nat)
  /-- ACKNOWLEDGEMENT (R249). An acknowledgement confirms a store or message. -/
  | acknowledgement (n k : Nat)
  /-- NEGATIVE_ACKNOWLEDGEMENT (R201). A refusal returns to the requester and resolves as a fault, replay or hold. -/
  | negativeAcknowledgement (n k : Nat)
  /-- TICKET (R251). A ticket arrives for an access; the hart parks and stops issuing. -/
  | ticket (n k : Nat)
  /-- TICKET_REWIND (R251). Once younger accesses are answered, the hart restores registers and PC. -/
  | ticketRewind (c : BitVec 12) (h : BitVec 2)
  /-- REPLAY_NOTICE (R252). A replay notice resolves ticket entries and the hart replays. -/
  | replayNotice (s : BitVec 6) (k : BitVec 16)
  /-- TICKET_FAULT (R253). A ticket resolves as a fault and freezes the entries. -/
  | ticketFault (s : BitVec 6) (k : BitVec 16)
  /-- TICKET_TIMEOUT (R254). A ticket stays open for TKLIM core cycles and raises 0x1C5. -/
  | ticketTimeout (c : BitVec 12) (h : BitVec 2)
  /-- TAGGED_MESSAGE (R275). A tagged message is accepted, classified late or not, and handled by the port policy. -/
  | taggedMessage (n : Nat)
  /-- INBOX_RESEND (R267). A message refused by a full inbox is resent every 64 core cycles. -/
  | inboxResend (n : Nat)
  /-- NEXT_DELIVERY (R281). The head becomes safe and a waiting NEXT receives it. -/
  | nextDelivery (c : BitVec 12)
  /-- HORIZON_PUBLISH (R272). The horizon tree publishes a new key to every core of the partition. -/
  | horizonPublish (x : BitVec 16)
  /-- REACTION_ABORT (R274). A reaction and all later ones of a core are aborted. -/
  | reactionAbort (c : BitVec 12) (n : Nat)
  /-- REACTION_ABORT_RESTART (R274). An aborted active hart is moved to RXPC once its accesses are answered. -/
  | reactionAbortRestart (c : BitVec 12) (h : BitVec 2)
  /-- CHANNEL_MESSAGE (R307). A channel message is written into the inbound ring, held or refused. -/
  | channelMessage (n : Nat)
  /-- CHANNEL_HELD_RESEND (R307). A held message is resent when CONS advances at the target. -/
  | channelHeldResend (n : Nat)
  /-- DEQ_TAKE (R308). A waiting DEQ takes a whole message once one is held. -/
  | deqTake (c : BitVec 12) (q : BitVec 5)
  /-- STREAMER_COMMAND (R288). A streamer receives an engine command and cuts it into pieces. -/
  | streamerCommand (n : Nat)
  /-- BULK_PIECE (R289). A piece of source bytes is written at its destination. -/
  | bulkPiece (n k : Nat)
  /-- BIN_BUMP (R301). The bank ALU assigns a bin slot, spill slot or drop for one row. -/
  | binBump (n : Nat)
  /-- STREAMER_COMMAND_COMPLETE (R289). Every piece of a command is acknowledged. -/
  | streamerCommandComplete (n : Nat)
  /-- BATCH_FINISH (R292). A sealed batch finishes after its predecessor and reports. -/
  | batchFinish (c : BitVec 12) (h : BitVec 2)
  /-- STF_FLAG_INCREMENT (R218). The flag is incremented once the STF data is visible. -/
  | stfFlagIncrement (n : Nat)
  /-- EVENT_RECORD (R310). An event record reaches its FIFO. -/
  | eventRecord (n : Nat)
  /-- COLLECTIVE_WAVE (R332). A collective wave is written or combined at its destination and counted. -/
  | collectiveWave (n : Nat)
  /-- GENERATION_COMPLETE (R335). A slot's generation completes and posts a record on FIFO 18. -/
  | generationComplete (c : BitVec 12) (s : BitVec 4)
  /-- MALFORMED_PACKET (R324). A malformed packet is discarded and answered with reason 3. -/
  | malformedPacket (n : Nat)
  /-- REASSEMBLY_TIMEOUT (R320). A partial packet is discarded after TIMEOUT core cycles. -/
  | reassemblyTimeout (n : Nat)
  /-- RESEND_TIMEOUT (R323). An unanswered packet is resent with the same SEQ. -/
  | resendTimeout (n : Nat)
  /-- RESEND_LIMIT (R323). RLIM resends pass unanswered and the access resolves as 0x1AA. -/
  | resendLimit (n : Nat)
  /-- LINK_FRAME (R322). A link frame is checked and replayed on failure. -/
  | linkFrame (n : Nat) (k : Bool)
  /-- LINK_RETRAIN (R322). More than 16 failed frames in 4 096 cycles make the link retrain. -/
  | linkRetrain (n : Nat)
  /-- LINK_RETRAIN_COMPLETE (R322). A retraining link returns to service. -/
  | linkRetrainComplete (n : Nat)
  /-- RPSTAT_TRAIN (R326). CMD 01 starts training of a reach port. -/
  | rpstatTrain (p : BitVec 3)
  /-- RPSTAT_ISOLATE (R327). CMD 10 isolates a reach port. -/
  | rpstatIsolate (p : BitVec 3)
  /-- REACH_TRAINING_COMPLETE (R326). A reach port completes training and learns its peer. -/
  | reachTrainingComplete (p : BitVec 3) (i : BitVec 4)
  /-- REACH_LINK_DOWN_TIMEOUT (R327). A reach link stays down for 100 micros and the port isolates. -/
  | reachLinkDownTimeout (p : BitVec 3)
  /-- REACH_PEER_RESET (R327). The peer signals a reset and the port isolates. -/
  | reachPeerReset (p : BitVec 3)
  /-- SLICE_WALK (R245). A translation slice walks the page table and translates, tickets or faults. -/
  | sliceWalk (n k : Nat)
  /-- ATS_COMPLETION (R259). An ATS completion yields a host translation or a ticket. -/
  | atsCompletion (n k : Nat) (o : Bool) (a : BitVec 64) (r w : Bool) (z : BitVec 2)
  /-- PRI_PAGE_GROUP_RESPONSE (R259). A Page Group Response resolves a host-backed ticket. -/
  | priPageGroupResponse (s : BitVec 6) (k : BitVec 16) (o : BitVec 2)
  /-- ATS_INVALIDATION_REQUEST (R260). A host invalidation drains matching TLB entries. -/
  | atsInvalidationRequest (p : BitVec 20) (v : BitVec 36) (z : BitVec 2)
  /-- INVALIDATION_COMPLETION (R260). After the drain the device returns the Invalidation Completion. -/
  | invalidationCompletion (p : BitVec 20) (v : BitVec 36) (z : BitVec 2)
  /-- TLBINV (R258). A write removes translations of a page or context. -/
  | tlbinv (c : BitVec 12) (h : BitVec 2) (x : BitVec 64)
  /-- TLBINV_DRAIN_COMPLETE (R258). No TLB holds the entry and accesses through it are performed. -/
  | tlbinvDrainComplete (c : BitVec 12) (h : BitVec 2)
  /-- MEMORY_SERVICE_TICKET (R257). The memory service handles a slice ticket and posts a notice or fault. -/
  | memoryServiceTicket (s : BitVec 6) (k : BitVec 16) (f : BitVec 36)
  /-- STACK_RETIREMENT (R206). A stack is retired in ordered steps. -/
  | stackRetirement (k : BitVec 4)
  /-- MIGRATION_BLOCK_MOVE (R207). Engines move a block of 64 granules and publish the cursor. -/
  | migrationBlockMove
  /-- MIGRATION_BOUNCE (R206). Remaining low granules are moved through a bounce buffer. -/
  | migrationBounce
  /-- MEMCAP_WRITE (R205). Firmware changes MEMCAP and source 12 becomes pending everywhere. -/
  | memcapWrite (x : BitVec 64)
  /-- HOST_CXL_MEM_REQUEST (R238). A host CXL.mem request is performed by its die's service core. -/
  | hostCxlMemRequest (o : Bool) (a : BitVec 48) (z : BitVec 2) (x : BitVec 64)
  /-- QUEUE_DOORBELL (R364). A store to a queue doorbell announces new launch descriptors. -/
  | queueDoorbell (q : BitVec 12) (x : BitVec 64)
  /-- CORE_DOORBELL (R372). A store to a core doorbell posts a record on FIFO 21. -/
  | coreDoorbell (c : BitVec 12) (x : BitVec 64)
  /-- QREG (R364). A store to QREG registers a launch queue. -/
  | qreg (x : BitVec 64)
  /-- DEVICE_REGISTER_WRITE (R202). A write to a device register without a row of its own. -/
  | deviceRegisterWrite (c : BitVec 12) (h : BitVec 2) (a : BitVec 48) (z : BitVec 2) (x : BitVec 64)
  /-- LTBASE_WRITE (R277). A write moving the late ring resets HEAD, TAIL and PEND. -/
  | ltbaseWrite (c : BitVec 12) (x : BitVec 64)
  /-- ELOGBASE_WRITE (R343). A write to BASE or SZ resets the error log TAIL. -/
  | elogbaseWrite (d : BitVec 2) (x : BitVec 64)
  /-- UNCORRECTABLE_ERROR (R348). An uncorrectable error is classed and poisons, fences or escalates. -/
  | uncorrectableError (d : BitVec 3) (c : BitVec 12) (h : BitVec 2) (a : BitVec 64) (k : BitVec 2)
  /-- CORRECTED_ERROR (R342). A corrected error is logged and source 15 becomes pending. -/
  | correctedError (d k : BitVec 3) (c : BitVec 12) (a : BitVec 64)
  /-- KENNEL_RESTART (R350). After 4 096 cycles the fence lifts and hart 0 of each kennel core starts at KENTRY. -/
  | kennelRestart (c : BitVec 12)
  /-- LAUNCH_REPLAY (R353). A replayable launch is stopped, purged and queued again. -/
  | launchReplay (x : BitVec 16)
  /-- FRAME_QUARANTINE_SCRUB (R355). A quarantined frame is zeroed and read back. -/
  | frameQuarantineScrub (f : BitVec 36) (o : Bool)
  /-- CORE_RETIREMENT (R356). A core is moved to the spare site and the core table rewritten. -/
  | coreRetirement (c : BitVec 12)
  /-- HEELCFG_GO (R357). GO stops the partition of CTX over the heel tree. -/
  | heelcfgGo (x : BitVec 16)
  /-- HEELCFG_REL (R357). REL releases or resumes the partition of CTX. -/
  | heelcfgRel (x : BitVec 16)
  /-- PARTITION_STOPPED (R357). Every core has stopped with nothing outstanding; STATE becomes stopped. -/
  | partitionStopped (x : BitVec 16)
  /-- RECALL_GO (R359). GO starts a recall flood for a context. -/
  | recallGo (x : BitVec 16)
  /-- RECALL_FLOOD_ARRIVAL (R359). The flood reaches a core or router and purges the victim's state. -/
  | recallFloodArrival (c : BitVec 12)
  /-- RECALL_SWEEP_END (R359). A router's 4 096-cycle discard sweep ends and reports to the purge tree. -/
  | recallSweepEnd (c : BitVec 12)
  /-- PURGE_CONFIRMED (R359). Every report has arrived and BUSY returns to 0. -/
  | purgeConfirmed
  /-- SWITCHT_WRITE (R360). A write sets the switch time across the partition and source 13 becomes pending. -/
  | switchtWrite (x : BitVec 16) (t : BitVec 64)
  /-- SWITCH_TIME_REACHED (R360). PTC reaches SWITCHT and the core stops for a switch-out. -/
  | switchTimeReached (c : BitVec 12)
  /-- SWITCH_DRAIN_DONE (R361). Outstanding work is finished and the spill sweep begins. -/
  | switchDrainDone (x : BitVec 16)
  /-- SPILL_SWEEP_END (R361). The spill sweep ends, images are saved and STATE becomes switched out. -/
  | spillSweepEnd (x : BitVec 16)
  /-- RESUME_REINJECT_DONE (R361). Every re-injected flit is ejected and the cores are released. -/
  | resumeReinjectDone (x : BitVec 16)
  /-- POWER_ARBITER_RECOMPUTE (R375). Every 10 micros the arbiter recomputes grants and rate factors. -/
  | powerArbiterRecompute (x q : BitVec 16)
  /-- COLD_PLATE_LIMIT (R375). The management controller lowers PWRBUD when the cold plate overheats. -/
  | coldPlateLimit (x : BitVec 13)
  /-- LAUNCH_CHECK (R368). The front end reads and checks a launch record. -/
  | launchCheck (q : Nat)
  /-- LAUNCH_BIND (R369). An accepted launch is placed on free cores, wired and started. -/
  | launchBind (n : Nat)
  /-- LAUNCH_COMPLETE (R371). All started harts have stopped; the launch commits, unbinds and reports. -/
  | launchComplete (n : Nat)
  /-- ILLEGAL_INSTRUCTION (R56). The hart meets, at its PC, a word or pair that is no instruction and raises the group 0 illegal-instruction fault it is due. -/
  | illegalInstruction (c : BitVec 12) (h : BitVec 2)
  /-- INSTRUCTION_FETCH_FAULT (R122). Fetching the word at PC faults in group 1 or 2, and the trap is taken at that address. -/
  | instructionFetchFault (c : BitVec 12) (h : BitVec 2)
  /-- REACH_LINK_DOWN (R327). A reach port's link goes down, which starts the 100 micros isolation timer. -/
  | reachLinkDown (p : BitVec 3)
deriving DecidableEq, Repr

end Sys2Proof
end

