-- ==== Sys2Proof/WellFormed.lean ====
section
/-!
DEFINITION. Well-formed instructions: the operand-control values that R54, R55 and each entry accept, beyond the bits that the
encoding fixes. A word that breaks one is refused with kind "reserved field non-zero"; a CSR number that no table lists is
refused with kind "undefined function" (R92).
-/

namespace Sys2Proof

/-- The CSR numbers that a table of the manual lists (R92). -/
def csrNumbers : List Nat :=
  [0x0, 0x1, 0x2, 0x8, 0x9, 0xa, 0xb, 0xc, 0xd, 0xe, 0xf, 0x10, 0x11, 0x12, 0x13, 0x14, 0x18, 0x20, 0x21, 0x22, 0x23, 0x24, 0x25, 0x26, 0x27, 0x28, 0x29, 0x2a, 0x2b, 0x2c, 0x30, 0x100, 0x108, 0x109, 0x10a, 0x10b, 0x10c, 0x10d, 0x10e, 0x10f, 0x110, 0x111, 0x120, 0x140, 0x141, 0x180, 0x181, 0x182, 0x183, 0x184, 0x1c0, 0x1c1, 0x1c2, 0x1c8, 0x1c9, 0x1ca, 0x1d0, 0x1d1, 0x1d2, 0x1d3] ++
  [0x1d4, 0x1d5, 0x1d6, 0x1d7, 0x1e0, 0x200, 0x201, 0x208, 0x209, 0x210, 0x240, 0x241, 0x242, 0x243, 0x244, 0x245, 0x246, 0x247, 0x248, 0x249, 0x24a, 0x24b, 0x24c, 0x250, 0x251, 0x252, 0x253, 0x254, 0x255, 0x256, 0x257, 0x258, 0x259, 0x25a, 0x25b, 0x25c, 0x25d, 0x25e, 0x25f, 0x280, 0x281, 0x282, 0x283, 0x284, 0x290, 0x291, 0x292, 0x293, 0x294, 0x295, 0x296, 0x297, 0x298, 0x299, 0x29a, 0x29b, 0x29c, 0x29d, 0x29e, 0x29f] ++
  [0x2a0, 0x2a1, 0x2a2, 0x2a3, 0x2a4, 0x2a5, 0x2a6, 0x2a7, 0x2a8, 0x2a9, 0x2aa, 0x2ab, 0x2ac, 0x2ad, 0x2ae, 0x2af, 0x2b0, 0x2b1, 0x2b2, 0x2b3, 0x2b4, 0x2b5, 0x2b6, 0x2b7, 0x2b8, 0x2b9, 0x2ba, 0x2bb, 0x2bc, 0x2bd, 0x2be, 0x2bf, 0x2c0, 0x2c1, 0x2c2, 0x300, 0x301, 0x302, 0x303, 0x304, 0x308, 0x310, 0x311, 0x318, 0x320, 0x330, 0x338, 0x339, 0x33a, 0x33b, 0x380, 0x381, 0x382, 0x383, 0x384, 0x385]

/-- A rounding field of a rounding form: 101 and 110 are reserved (R33). -/
def rmOk (m : BitVec 3) : Bool := m != 5#3 && m != 6#3

/-- Order and scope of a load: plain takes scope 00, release is not for loads (R211, R55). -/
def ldOrdOk (s r : BitVec 2) : Bool := r != 2#2 && (r != 0#2 || s == 0#2)

/-- Order and scope of a store: plain takes scope 00, acquire is not for stores (R211, R55). -/
def stOrdOk (s r : BitVec 2) : Bool := r != 1#2 && (r != 0#2 || s == 0#2)

/-- The number of lanes of a TY code: 16 for f32 and i32, 32 for f16 and bf16 (R133). -/
def laneCount (t : BitVec 2) : Nat := if t == 1#2 || t == 2#2 then 32 else 16

/-- The operand-control values that the instruction accepts (R54, R55). -/
def Instr.wellFormed (i : Instr) : Bool :=
  match i with
  | .beq _ _ _ _ _ => true
  | .bne _ _ _ _ _ => true
  | .blt _ _ _ _ _ => true
  | .bge _ _ _ _ _ => true
  | .bltu _ _ _ _ _ => true
  | .bgeu _ _ _ _ _ => true
  | .bbs _ _ _ _ _ => true
  | .bbc _ _ _ _ _ => true
  | .jal _ _ _ _ => true
  | .jalr _ _ _ _ _ => true
  | .ldb _ s r _ _ _ _ => ldOrdOk s r
  | .ldh _ s r _ _ _ _ => ldOrdOk s r
  | .ldw _ s r _ _ _ _ => ldOrdOk s r
  | .ldd _ s r _ _ _ _ => ldOrdOk s r
  | .ldbu _ s r _ _ _ _ => ldOrdOk s r
  | .ldhu _ s r _ _ _ _ => ldOrdOk s r
  | .ldwu _ s r _ _ _ _ => ldOrdOk s r
  | .stb _ s r _ _ _ _ => stOrdOk s r
  | .sth _ s r _ _ _ _ => stOrdOk s r
  | .stw _ s r _ _ _ _ => stOrdOk s r
  | .std _ s r _ _ _ _ => stOrdOk s r
  | .vld _ _ _ _ _ => true
  | .vst _ _ _ _ _ => true
  | .vlds _ _ _ _ _ => true
  | .vsts _ _ _ _ _ => true
  | .vldx _ _ _ _ _ => true
  | .vstx _ _ _ _ _ => true
  | .vldbc _ _ _ _ _ => true
  | .aadd _ _ _ _ _ _ _ _ => true
  | .aand _ _ _ _ _ _ _ _ => true
  | .aor _ _ _ _ _ _ _ _ => true
  | .axor _ _ _ _ _ _ _ _ => true
  | .amin _ _ _ _ _ _ _ _ => true
  | .amax _ _ _ _ _ _ _ _ => true
  | .aminu _ _ _ _ _ _ _ _ => true
  | .amaxu _ _ _ _ _ _ _ _ => true
  | .aswap _ _ _ _ _ _ _ _ => true
  | .acas _ _ _ _ _ _ _ _ => true
  | .acasf _ _ _ _ _ _ _ _ => true
  | .afadd _ _ _ _ _ _ _ => true
  | .afmin _ _ _ _ _ _ _ => true
  | .afmax _ _ _ _ _ _ _ => true
  | .avadd _ _ _ _ _ _ _ => true
  | .avmax _ _ _ _ _ _ _ => true
  | .aincw _ _ _ _ _ _ _ _ => true
  | .tldw _ _ _ _ _ => true
  | .tldd _ _ _ _ _ => true
  | .tstw _ _ _ _ _ => true
  | .tstd _ _ _ _ _ => true
  | .tldv _ _ _ _ _ => true
  | .tstv _ _ _ _ _ => true
  | .fence _ _ _ _ _ _ _ _ => true
  | .ifence _ _ => true
  | .waita _ _ _ _ _ _ _ => true
  | .gjoin _ _ _ _ => true
  | .gleave _ _ _ => true
  | .gbar _ _ _ => true
  | .gqry _ _ _ _ => true
  | .yield _ _ => true
  | .next _ _ _ => true
  | .done _ _ => true
  | .post _ _ _ _ _ => true
  | .postp _ _ _ _ _ => true
  | .tnow _ _ _ => true
  | .lateq _ _ _ => true
  | .twait _ _ _ => true
  | .enq q _ _ _ => decide (q.toNat < 24)
  | .deq q _ _ _ => decide (q.toNat < 24)
  | .enqv q _ _ _ => decide (q.toNat < 24)
  | .deqv q _ _ _ => decide (q.toNat < 24)
  | .enqn _ q _ _ _ => decide (q.toNat < 24)
  | .deqn _ q _ _ _ => decide (q.toNat < 24)
  | .qlen q _ _ _ => decide (q.toNat < 24)
  | .xshape _ _ _ _ => true
  | .xcopy _ _ _ _ _ => true
  | .xcopys _ _ _ _ _ => true
  | .xgath _ _ _ _ _ _ => true
  | .xscat _ _ _ _ _ _ => true
  | .xfill _ _ _ _ _ => true
  | .bseal _ _ _ => true
  | .bwait _ _ _ => true
  | .bstat _ _ _ _ => true
  | .xmode _ _ _ _ _ => true
  | .leash _ _ _ _ => true
  | .leashn _ _ _ _ => true
  | .unleash _ _ => true
  | .mxcfg _ _ _ _ => true
  | .mxldb _ _ _ _ => true
  | .mxrun _ _ _ _ _ _ => true
  | .mxzero _ _ => true
  | .mxwait _ _ _ _ => true
  | .mxqry _ _ _ _ => true
  | .warm _ _ _ _ _ => true
  | .wdisarm _ _ _ => true
  | .wcnt _ _ _ _ => true
  | .wadd _ _ _ _ => true
  | .wwait _ _ _ _ _ => true
  | .wstart _ _ _ => true
  | .csrrw _ _ _ _ _ => true
  | .csrrs _ _ _ _ _ => true
  | .csrrc _ _ _ _ _ => true
  | .csrwi _ _ _ _ _ => true
  | .csrsi _ _ _ _ _ => true
  | .csrci _ _ _ _ _ => true
  | .ecall _ => true
  | .ebreak _ => true
  | .tret _ => true
  | .wfi _ => true
  | .halt _ => true
  | .hstart _ _ _ => true
  | .hstop _ _ => true
  | .stfw _ _ _ _ _ _ => true
  | .stfd _ _ _ _ _ _ => true
  | .stfv _ _ _ _ _ _ => true
  | .loop o _ _ _ => decide (1 ≤ o.toNat ∧ o.toNat ≤ 2047)
  | .loopi n e _ _ => decide (1 ≤ n.toNat ∧ 1 ≤ e.toNat)
  | .lbrk _ _ => true
  | .lpop _ _ => true
  | .pfx _ _ _ _ _ _ _ _ _ _ => true
  | .add _ _ _ _ _ => true
  | .sub _ _ _ _ _ => true
  | .and _ _ _ _ _ => true
  | .or _ _ _ _ _ => true
  | .xor _ _ _ _ _ => true
  | .sll _ _ _ _ _ => true
  | .srl _ _ _ _ _ => true
  | .sra _ _ _ _ _ => true
  | .slt _ _ _ _ _ => true
  | .sltu _ _ _ _ _ => true
  | .mul _ _ _ _ _ => true
  | .mulh _ _ _ _ _ => true
  | .mulhu _ _ _ _ _ => true
  | .div _ _ _ _ _ => true
  | .divu _ _ _ _ _ => true
  | .rem _ _ _ _ _ => true
  | .remu _ _ _ _ _ => true
  | .min _ _ _ _ _ => true
  | .max _ _ _ _ _ => true
  | .minu _ _ _ _ _ => true
  | .maxu _ _ _ _ _ => true
  | .clz _ _ _ _ => true
  | .ctz _ _ _ _ => true
  | .popc _ _ _ _ => true
  | .rol _ _ _ _ _ => true
  | .ror _ _ _ _ _ => true
  | .addw _ _ _ _ _ => true
  | .subw _ _ _ _ _ => true
  | .sel _ _ _ _ _ _ => true
  | .addi _ _ _ _ _ => true
  | .andi _ _ _ _ _ => true
  | .ori _ _ _ _ _ => true
  | .xori _ _ _ _ _ => true
  | .slti _ _ _ _ _ => true
  | .sltiu _ _ _ _ _ => true
  | .slli _ _ _ _ _ => true
  | .srli _ _ _ _ _ => true
  | .srai _ _ _ _ _ => true
  | .rori _ _ _ _ _ => true
  | .addwi _ _ _ _ _ => true
  | .lui _ _ _ _ => true
  | .auipc _ _ _ _ => true
  | .fadd _ m _ _ _ _ _ => rmOk m
  | .fsub _ m _ _ _ _ _ => rmOk m
  | .fmul _ m _ _ _ _ _ => rmOk m
  | .fdiv _ m _ _ _ _ _ => rmOk m
  | .fsqrt _ m _ _ _ _ => rmOk m
  | .fmin _ _ _ _ _ _ => true
  | .fmax _ _ _ _ _ _ => true
  | .fsgnj _ _ _ _ _ _ => true
  | .fsgnjn _ _ _ _ _ _ => true
  | .fsgnjx _ _ _ _ _ _ => true
  | .feq _ _ _ _ _ _ => true
  | .flt _ _ _ _ _ _ => true
  | .fle _ _ _ _ _ _ => true
  | .fclass _ _ _ _ _ => true
  | .fcvti _ m k _ _ _ _ => rmOk m && decide (k.toNat ≤ 5)
  | .fcvtf _ m k _ _ _ _ => rmOk m && decide (k.toNat ≤ 5)
  | .fcvtff _ m _ _ _ _ _ => rmOk m
  | .fmas _ _ _ _ _ _ => true
  | .fmad _ _ _ _ _ _ => true
  | .vadd _ _ _ _ _ _ _ => true
  | .vsub _ _ _ _ _ _ _ => true
  | .vmul _ _ _ _ _ _ _ => true
  | .vfma _ _ _ _ _ _ _ => true
  | .vmin _ _ _ _ _ _ _ => true
  | .vmax _ _ _ _ _ _ _ => true
  | .vabs _ _ _ _ _ _ => true
  | .vneg _ _ _ _ _ _ => true
  | .vand _ _ _ _ _ _ _ => true
  | .vor _ _ _ _ _ _ _ => true
  | .vxor _ _ _ _ _ _ _ => true
  | .vshl _ _ _ _ _ _ => true
  | .vshr _ _ _ _ _ _ => true
  | .vsra _ _ _ _ _ _ => true
  | .vceq _ _ _ _ _ _ _ => true
  | .vclt _ _ _ _ _ _ _ => true
  | .vcle _ _ _ _ _ _ _ => true
  | .vsel _ _ _ _ _ _ _ => true
  | .vcvt _ _ _ _ _ _ _ => true
  | .vred _ _ n _ _ _ _ => decide (n.toNat ≤ 2)
  | .vsplat _ _ _ _ _ _ => true
  | .vext t b _ _ _ _ => decide (b.toNat < laneCount t)
  | .vins t b _ _ _ _ => decide (b.toNat < laneCount t)
  | .vperm _ _ _ _ _ _ _ => true
  | .vwfma t _ _ _ _ _ _ => t == 1#2 || t == 2#2
  | .vdot _ _ _ _ _ _ _ => true
  | .vlut t _ f _ _ _ _ => !f || t == 3#2
  | .vpln _ _ _ _ _ => true
  | .vupl _ _ _ _ _ _ => true
  | .vrcp t _ _ _ _ _ => t != 3#2
  | .vrsq t _ _ _ _ _ => t != 3#2
  | .vexp t _ f _ _ _ _ => t != 3#2 && decide (f.toNat ≤ 2)
  | .kand _ _ _ _ _ => true
  | .kor _ _ _ _ _ => true
  | .kxor _ _ _ _ _ => true
  | .knot _ _ _ _ => true
  | .kpopc _ _ _ _ => true
  | .kmovKK _ _ _ _ => true
  | .kmovKG _ _ _ _ => true
  | .kmovGK _ _ _ _ => true
  | .vidx _ _ _ _ _ => true
  | .vslide _ _ _ _ _ _ _ => true
  | .vmov _ _ _ _ _ _ => true
  | .vtanh t _ _ _ _ _ => t != 3#2
  | .vrand _ _ _ _ _ _ => true
  | .vpopc _ _ _ _ _ => true
  | .vpdot _ _ _ _ _ _ => true
  | .vcvts _ _ _ _ _ _ => true
  | .vmulh _ _ _ _ _ _ => true
  | .vsat _ _ _ _ _ _ => true
  | .madd _ _ _ _ _ _ => true
  | .msub _ _ _ _ _ _ => true
  | .mmul _ _ _ _ _ _ => true
  | .mscal _ _ _ _ _ _ => true
  | .maddc _ _ _ _ _ _ => true
  | .mrelu _ _ _ _ _ => true
  | .mexp _ _ _ _ _ => true
  | .msig _ _ _ _ _ => true
  | .mpack _ _ _ _ _ _ => true
  | .mcoll _ s m _ _ _ _ => m == 3#2 || s == 0#3
  | .mred _ _ _ _ _ => true
  | .mmov _ _ _ _ _ => true
  | .mzero _ _ _ _ => true
  | .mchk _ _ _ _ _ => true
  | .packageReset
  | .timeTreeReference _ _ _
  | .interruptEntry _ _
  | .vectorAccept _
  | .vectorComplete _ _
  | .momentAccept _
  | .momentComplete _ _
  | .divideResult _ _ _
  | .fdivFsqrtResult _ _ _
  | .localLoadComplete _ _ _
  | .wfiWake _ _
  | .yieldPauseEnd _ _
  | .waitaPoll _ _
  | .waitaLimitExpiry _ _
  | .twaitExpiry _ _
  | .groupJoinConfirm _ _
  | .barrierEpisodeComplete _
  | .leaseGrant _
  | .leaseExpiry _
  | .hartStartCommand _
  | .hartStopCommand _
  | .arrayLoadBTile _
  | .runAccept _
  | .arrayRowCompute _
  | .mxzeroAccept _
  | .partialSums _
  | .runComplete _
  | .loadRequest _ _
  | .storeRequest _ _
  | .atomicRequest _ _
  | .dataResponse _ _
  | .acknowledgement _ _
  | .negativeAcknowledgement _ _
  | .ticket _ _
  | .ticketRewind _ _
  | .replayNotice _ _
  | .ticketFault _ _
  | .ticketTimeout _ _
  | .taggedMessage _
  | .inboxResend _
  | .nextDelivery _
  | .horizonPublish _
  | .reactionAbort _ _
  | .reactionAbortRestart _ _
  | .channelMessage _
  | .channelHeldResend _
  | .deqTake _ _
  | .streamerCommand _
  | .bulkPiece _ _
  | .binBump _
  | .streamerCommandComplete _
  | .batchFinish _ _
  | .stfFlagIncrement _
  | .eventRecord _
  | .collectiveWave _
  | .generationComplete _ _
  | .malformedPacket _
  | .reassemblyTimeout _
  | .resendTimeout _
  | .resendLimit _
  | .linkFrame _ _
  | .linkRetrain _
  | .linkRetrainComplete _
  | .rpstatTrain _
  | .rpstatIsolate _
  | .reachTrainingComplete _ _
  | .reachLinkDownTimeout _
  | .reachPeerReset _
  | .sliceWalk _ _
  | .atsCompletion _ _ _ _ _ _ _
  | .priPageGroupResponse _ _ _
  | .atsInvalidationRequest _ _ _
  | .invalidationCompletion _ _ _
  | .tlbinv _ _ _
  | .tlbinvDrainComplete _ _
  | .memoryServiceTicket _ _ _
  | .stackRetirement _
  | .migrationBlockMove
  | .migrationBounce
  | .memcapWrite _
  | .hostCxlMemRequest _ _ _ _
  | .queueDoorbell _ _
  | .coreDoorbell _ _
  | .qreg _
  | .deviceRegisterWrite _ _ _ _ _
  | .ltbaseWrite _ _
  | .elogbaseWrite _ _
  | .uncorrectableError _ _ _ _ _
  | .correctedError _ _ _ _
  | .kennelRestart _
  | .launchReplay _
  | .frameQuarantineScrub _ _
  | .coreRetirement _
  | .heelcfgGo _
  | .heelcfgRel _
  | .partitionStopped _
  | .recallGo _
  | .recallFloodArrival _
  | .recallSweepEnd _
  | .purgeConfirmed
  | .switchtWrite _ _
  | .switchTimeReached _
  | .switchDrainDone _
  | .spillSweepEnd _
  | .resumeReinjectDone _
  | .powerArbiterRecompute _ _
  | .coldPlateLimit _
  | .launchCheck _
  | .launchBind _
  | .launchComplete _
  | .illegalInstruction _ _
  | .instructionFetchFault _ _
  | .reachLinkDown _ => true

/-- Whether the CSR number of a CSR instruction is one that a table lists; true of every other instruction (R92). -/
def Instr.csrListed (i : Instr) : Bool :=
  match i with
  | .csrrw c _ _ _ _ => csrNumbers.contains c.toNat
  | .csrrs c _ _ _ _ => csrNumbers.contains c.toNat
  | .csrrc c _ _ _ _ => csrNumbers.contains c.toNat
  | .csrwi c _ _ _ _ => csrNumbers.contains c.toNat
  | .csrsi c _ _ _ _ => csrNumbers.contains c.toNat
  | .csrci c _ _ _ _ => csrNumbers.contains c.toNat
  | _ => true

/-- Whether the step is an instruction word, which a hart issues; the others are steps of the package. -/
def Instr.isWord (i : Instr) : Bool :=
  match i with
  | .packageReset
  | .timeTreeReference _ _ _
  | .interruptEntry _ _
  | .vectorAccept _
  | .vectorComplete _ _
  | .momentAccept _
  | .momentComplete _ _
  | .divideResult _ _ _
  | .fdivFsqrtResult _ _ _
  | .localLoadComplete _ _ _
  | .wfiWake _ _
  | .yieldPauseEnd _ _
  | .waitaPoll _ _
  | .waitaLimitExpiry _ _
  | .twaitExpiry _ _
  | .groupJoinConfirm _ _
  | .barrierEpisodeComplete _
  | .leaseGrant _
  | .leaseExpiry _
  | .hartStartCommand _
  | .hartStopCommand _
  | .arrayLoadBTile _
  | .runAccept _
  | .arrayRowCompute _
  | .mxzeroAccept _
  | .partialSums _
  | .runComplete _
  | .loadRequest _ _
  | .storeRequest _ _
  | .atomicRequest _ _
  | .dataResponse _ _
  | .acknowledgement _ _
  | .negativeAcknowledgement _ _
  | .ticket _ _
  | .ticketRewind _ _
  | .replayNotice _ _
  | .ticketFault _ _
  | .ticketTimeout _ _
  | .taggedMessage _
  | .inboxResend _
  | .nextDelivery _
  | .horizonPublish _
  | .reactionAbort _ _
  | .reactionAbortRestart _ _
  | .channelMessage _
  | .channelHeldResend _
  | .deqTake _ _
  | .streamerCommand _
  | .bulkPiece _ _
  | .binBump _
  | .streamerCommandComplete _
  | .batchFinish _ _
  | .stfFlagIncrement _
  | .eventRecord _
  | .collectiveWave _
  | .generationComplete _ _
  | .malformedPacket _
  | .reassemblyTimeout _
  | .resendTimeout _
  | .resendLimit _
  | .linkFrame _ _
  | .linkRetrain _
  | .linkRetrainComplete _
  | .rpstatTrain _
  | .rpstatIsolate _
  | .reachTrainingComplete _ _
  | .reachLinkDownTimeout _
  | .reachPeerReset _
  | .sliceWalk _ _
  | .atsCompletion _ _ _ _ _ _ _
  | .priPageGroupResponse _ _ _
  | .atsInvalidationRequest _ _ _
  | .invalidationCompletion _ _ _
  | .tlbinv _ _ _
  | .tlbinvDrainComplete _ _
  | .memoryServiceTicket _ _ _
  | .stackRetirement _
  | .migrationBlockMove
  | .migrationBounce
  | .memcapWrite _
  | .hostCxlMemRequest _ _ _ _
  | .queueDoorbell _ _
  | .coreDoorbell _ _
  | .qreg _
  | .deviceRegisterWrite _ _ _ _ _
  | .ltbaseWrite _ _
  | .elogbaseWrite _ _
  | .uncorrectableError _ _ _ _ _
  | .correctedError _ _ _ _
  | .kennelRestart _
  | .launchReplay _
  | .frameQuarantineScrub _ _
  | .coreRetirement _
  | .heelcfgGo _
  | .heelcfgRel _
  | .partitionStopped _
  | .recallGo _
  | .recallFloodArrival _
  | .recallSweepEnd _
  | .purgeConfirmed
  | .switchtWrite _ _
  | .switchTimeReached _
  | .switchDrainDone _
  | .spillSweepEnd _
  | .resumeReinjectDone _
  | .powerArbiterRecompute _ _
  | .coldPlateLimit _
  | .launchCheck _
  | .launchBind _
  | .launchComplete _
  | .illegalInstruction _ _
  | .instructionFetchFault _ _
  | .reachLinkDown _ => false
  | _ => true

end Sys2Proof
end

