-- ==== Sys2Proof/Decode.lean ====
section
/-!
DEFINITION. Decoding and encoding of instruction words (R46 to R55). `decodeWord` is total: each word is an instruction or is
refused by the kind of R54 that it meets. `encode` gives the word of an instruction; both follow the formats of R52 and the
function map of R55.
-/

namespace Sys2Proof

/-- Why a word is no instruction (R54, R57 kinds 0, 1 and 2). -/
inductive Reject where
  /-- MAJOR 0x00 or 0x1C to 0x1F. -/
  | undefinedMajor
  /-- An unassigned value of the operation selector, or a CSR number that no table lists (R55, R92). -/
  | undefinedFunction
  /-- A reserved bit that is 1, or an operand-control value that the instruction does not accept. -/
  | reservedField
deriving DecidableEq, Repr

/-- The outcome of decoding one word. -/
inductive Decoded where
  | instr (i : Instr)
  | reject (r : Reject)
deriving DecidableEq, Repr

/-! The formats of R52, high field first; all share bits 6 to 0 (R46). -/

/-- The low seven bits. -/
def encTail (mj : BitVec 5) (w l : Bool) : BitVec 7 := mj ++ BitVec.ofBool w ++ BitVec.ofBool l

/-- Format R. -/
def encR (fn c b a d mj : BitVec 5) (w l : Bool) : Word32 := fn ++ c ++ b ++ a ++ d ++ encTail mj w l

/-- Format I. -/
def encI (imm : BitVec 12) (f3 : BitVec 3) (a d mj : BitVec 5) (w l : Bool) : Word32 := imm ++ f3 ++ a ++ d ++ encTail mj w l

/-- Format U. -/
def encU (imm : BitVec 20) (d mj : BitVec 5) (w l : Bool) : Word32 := imm ++ d ++ encTail mj w l

/-- Format BR. -/
def encBR (off : BitVec 12) (cnd : BitVec 3) (b a mj : BitVec 5) (w l : Bool) : Word32 := off ++ cnd ++ b ++ a ++ encTail mj w l

/-- Format J. -/
def encJ (off : BitVec 20) (d mj : BitVec 5) (w l : Bool) : Word32 := off ++ d ++ encTail mj w l

/-- Format M. -/
def encM (off : BitVec 8) (scp ord : BitVec 2) (sz : BitVec 3) (a d mj : BitVec 5) (w l : Bool) : Word32 :=
  off ++ scp ++ ord ++ sz ++ a ++ d ++ encTail mj w l

/-- Format V. -/
def encV (fn : BitVec 5) (ty : BitVec 2) (k : BitVec 3) (b a d mj : BitVec 5) (w l : Bool) : Word32 :=
  fn ++ ty ++ k ++ b ++ a ++ d ++ encTail mj w l

/-- Format P. -/
def encP (z : BitVec 3) (sa ce : BitVec 1) (sc pp qb qa : BitVec 3) (fb fa : BitVec 4) (mj : BitVec 5) (w l : Bool) : Word32 :=
  z ++ sa ++ ce ++ sc ++ pp ++ qb ++ qa ++ fb ++ fa ++ encTail mj w l

/-- The word of an instruction; none for a step that is no instruction word. -/
def encode (i : Instr) : Option Word32 :=
  match i with
  | .beq o b a w l => some (encBR o 0#3 b a 1#5 w l)
  | .bne o b a w l => some (encBR o 1#3 b a 1#5 w l)
  | .blt o b a w l => some (encBR o 2#3 b a 1#5 w l)
  | .bge o b a w l => some (encBR o 3#3 b a 1#5 w l)
  | .bltu o b a w l => some (encBR o 4#3 b a 1#5 w l)
  | .bgeu o b a w l => some (encBR o 5#3 b a 1#5 w l)
  | .bbs o b a w l => some (encBR o 6#3 b a 1#5 w l)
  | .bbc o b a w l => some (encBR o 7#3 b a 1#5 w l)
  | .jal o d w l => some (encJ o d 2#5 w l)
  | .jalr i a d w l => some (encI i 0#3 a d 3#5 w l)
  | .ldb o s r a d w l => some (encM o s r 0#3 a d 4#5 w l)
  | .ldh o s r a d w l => some (encM o s r 1#3 a d 4#5 w l)
  | .ldw o s r a d w l => some (encM o s r 2#3 a d 4#5 w l)
  | .ldd o s r a d w l => some (encM o s r 3#3 a d 4#5 w l)
  | .ldbu o s r a d w l => some (encM o s r 4#3 a d 4#5 w l)
  | .ldhu o s r a d w l => some (encM o s r 5#3 a d 4#5 w l)
  | .ldwu o s r a d w l => some (encM o s r 6#3 a d 4#5 w l)
  | .stb o s r a d w l => some (encM o s r 0#3 a d 5#5 w l)
  | .sth o s r a d w l => some (encM o s r 1#3 a d 5#5 w l)
  | .stw o s r a d w l => some (encM o s r 2#3 a d 5#5 w l)
  | .std o s r a d w l => some (encM o s r 3#3 a d 5#5 w l)
  | .vld o a d w l => some (encM o 0#2 0#2 0#3 a d 6#5 w l)
  | .vst o a d w l => some (encM o 0#2 0#2 1#3 a d 6#5 w l)
  | .vlds s a d w l => some (encM (0#3 ++ s) 0#2 0#2 2#3 a d 6#5 w l)
  | .vsts s a d w l => some (encM (0#3 ++ s) 0#2 0#2 3#3 a d 6#5 w l)
  | .vldx x a d w l => some (encM (0#3 ++ x) 0#2 0#2 4#3 a d 6#5 w l)
  | .vstx x a d w l => some (encM (0#3 ++ x) 0#2 0#2 5#3 a d 6#5 w l)
  | .vldbc o a d w l => some (encM o 0#2 0#2 6#3 a d 6#5 w l)
  | .aadd s r z b a d w l => some (encR 0#5 (s ++ r ++ (BitVec.ofBool z)) b a d 7#5 w l)
  | .aand s r z b a d w l => some (encR 1#5 (s ++ r ++ (BitVec.ofBool z)) b a d 7#5 w l)
  | .aor s r z b a d w l => some (encR 2#5 (s ++ r ++ (BitVec.ofBool z)) b a d 7#5 w l)
  | .axor s r z b a d w l => some (encR 3#5 (s ++ r ++ (BitVec.ofBool z)) b a d 7#5 w l)
  | .amin s r z b a d w l => some (encR 4#5 (s ++ r ++ (BitVec.ofBool z)) b a d 7#5 w l)
  | .amax s r z b a d w l => some (encR 5#5 (s ++ r ++ (BitVec.ofBool z)) b a d 7#5 w l)
  | .aminu s r z b a d w l => some (encR 6#5 (s ++ r ++ (BitVec.ofBool z)) b a d 7#5 w l)
  | .amaxu s r z b a d w l => some (encR 7#5 (s ++ r ++ (BitVec.ofBool z)) b a d 7#5 w l)
  | .aswap s r z b a d w l => some (encR 8#5 (s ++ r ++ (BitVec.ofBool z)) b a d 7#5 w l)
  | .acas s r z b a d w l => some (encR 9#5 (s ++ r ++ (BitVec.ofBool z)) b a d 7#5 w l)
  | .acasf s r z b a d w l => some (encR 10#5 (s ++ r ++ (BitVec.ofBool z)) b a d 7#5 w l)
  | .afadd s r b a d w l => some (encR 11#5 (s ++ r ++ 0#1) b a d 7#5 w l)
  | .afmin s r b a d w l => some (encR 12#5 (s ++ r ++ 0#1) b a d 7#5 w l)
  | .afmax s r b a d w l => some (encR 13#5 (s ++ r ++ 0#1) b a d 7#5 w l)
  | .avadd s r b a d w l => some (encR 14#5 (s ++ r ++ 0#1) b a d 7#5 w l)
  | .avmax s r b a d w l => some (encR 15#5 (s ++ r ++ 0#1) b a d 7#5 w l)
  | .aincw s r z b a d w l => some (encR 16#5 (s ++ r ++ (BitVec.ofBool z)) b a d 7#5 w l)
  | .tldw o a d w l => some (encM o 0#2 0#2 0#3 a d 8#5 w l)
  | .tldd o a d w l => some (encM o 0#2 0#2 1#3 a d 8#5 w l)
  | .tstw o a d w l => some (encM o 0#2 0#2 2#3 a d 8#5 w l)
  | .tstd o a d w l => some (encM o 0#2 0#2 3#3 a d 8#5 w l)
  | .tldv o a d w l => some (encM o 0#2 0#2 4#3 a d 8#5 w l)
  | .tstv o a d w l => some (encM o 0#2 0#2 5#3 a d 8#5 w l)
  | .fence e p q u v s w l => some (encR 0#5 ((BitVec.ofBool e) ++ (BitVec.ofBool p) ++ (BitVec.ofBool q) ++ (BitVec.ofBool u) ++ (BitVec.ofBool v)) (0#3 ++ s) 0#5 0#5 9#5 w l)
  | .ifence w l => some (encR 1#5 0#5 0#5 0#5 0#5 9#5 w l)
  | .waita s z b a d w l => some (encR 2#5 (s ++ 0#2 ++ (BitVec.ofBool z)) b a d 9#5 w l)
  | .gjoin a d w l => some (encR 3#5 0#5 0#5 a d 9#5 w l)
  | .gleave a w l => some (encR 4#5 0#5 0#5 a 0#5 9#5 w l)
  | .gbar a w l => some (encR 5#5 0#5 0#5 a 0#5 9#5 w l)
  | .gqry a d w l => some (encR 6#5 0#5 0#5 a d 9#5 w l)
  | .yield w l => some (encR 7#5 0#5 0#5 0#5 0#5 9#5 w l)
  | .next d w l => some (encR 0#5 0#5 0#5 0#5 d 10#5 w l)
  | .done w l => some (encR 1#5 0#5 0#5 0#5 0#5 10#5 w l)
  | .post c b a w l => some (encR 2#5 c b a 0#5 10#5 w l)
  | .postp c b a w l => some (encR 3#5 c b a 0#5 10#5 w l)
  | .tnow d w l => some (encR 4#5 0#5 0#5 0#5 d 10#5 w l)
  | .lateq d w l => some (encR 5#5 0#5 0#5 0#5 d 10#5 w l)
  | .twait a w l => some (encR 6#5 0#5 0#5 a 0#5 10#5 w l)
  | .enq q d w l => some (encR 0#5 0#5 0#5 q d 11#5 w l)
  | .deq q d w l => some (encR 1#5 0#5 0#5 q d 11#5 w l)
  | .enqv q d w l => some (encR 2#5 0#5 0#5 q d 11#5 w l)
  | .deqv q d w l => some (encR 3#5 0#5 0#5 q d 11#5 w l)
  | .enqn b q d w l => some (encR 4#5 0#5 b q d 11#5 w l)
  | .deqn b q d w l => some (encR 5#5 0#5 b q d 11#5 w l)
  | .qlen q d w l => some (encR 6#5 0#5 0#5 q d 11#5 w l)
  | .xshape s a w l => some (encR 0#5 0#5 (0#2 ++ s) a 0#5 12#5 w l)
  | .xcopy c b a w l => some (encR 1#5 c b a 0#5 12#5 w l)
  | .xcopys s b a w l => some (encR 2#5 (0#2 ++ s) b a 0#5 12#5 w l)
  | .xgath c b a d w l => some (encR 3#5 c b a d 12#5 w l)
  | .xscat c b a d w l => some (encR 4#5 c b a d 12#5 w l)
  | .xfill c b a w l => some (encR 5#5 c b a 0#5 12#5 w l)
  | .bseal d w l => some (encR 6#5 0#5 0#5 0#5 d 12#5 w l)
  | .bwait n w l => some (encR 7#5 0#5 0#5 (0#1 ++ n) 0#5 12#5 w l)
  | .bstat a d w l => some (encR 8#5 0#5 0#5 a d 12#5 w l)
  | .xmode c b a w l => some (encR 9#5 c b a 0#5 12#5 w l)
  | .leash a d w l => some (encR 0#5 0#5 0#5 a d 13#5 w l)
  | .leashn a d w l => some (encR 1#5 0#5 0#5 a d 13#5 w l)
  | .unleash w l => some (encR 2#5 0#5 0#5 0#5 0#5 13#5 w l)
  | .mxcfg b a w l => some (encR 3#5 0#5 b a 0#5 13#5 w l)
  | .mxldb b a w l => some (encR 4#5 0#5 b a 0#5 13#5 w l)
  | .mxrun c b a d w l => some (encR 5#5 c b a d 13#5 w l)
  | .mxzero w l => some (encR 6#5 0#5 0#5 0#5 0#5 13#5 w l)
  | .mxwait a d w l => some (encR 7#5 0#5 0#5 a d 13#5 w l)
  | .mxqry a d w l => some (encR 8#5 0#5 0#5 a d 13#5 w l)
  | .warm c b a w l => some (encR 0#5 c b a 0#5 14#5 w l)
  | .wdisarm a w l => some (encR 1#5 0#5 0#5 a 0#5 14#5 w l)
  | .wcnt a d w l => some (encR 2#5 0#5 0#5 a d 14#5 w l)
  | .wadd b a w l => some (encR 3#5 0#5 b a 0#5 14#5 w l)
  | .wwait b a d w l => some (encR 4#5 0#5 b a d 14#5 w l)
  | .wstart a w l => some (encR 5#5 0#5 0#5 a 0#5 14#5 w l)
  | .csrrw c a d w l => some (encI c 0#3 a d 15#5 w l)
  | .csrrs c a d w l => some (encI c 1#3 a d 15#5 w l)
  | .csrrc c a d w l => some (encI c 2#3 a d 15#5 w l)
  | .csrwi c z d w l => some (encI c 4#3 z d 15#5 w l)
  | .csrsi c z d w l => some (encI c 5#3 z d 15#5 w l)
  | .csrci c z d w l => some (encI c 6#3 z d 15#5 w l)
  | .ecall w => some (encI 0#12 0#3 0#5 0#5 16#5 w true)
  | .ebreak w => some (encI 1#12 0#3 0#5 0#5 16#5 w true)
  | .tret w => some (encI 2#12 0#3 0#5 0#5 16#5 w true)
  | .wfi w => some (encI 3#12 0#3 0#5 0#5 16#5 w true)
  | .halt w => some (encI 4#12 0#3 0#5 0#5 16#5 w true)
  | .hstart b a w => some (encI (0#7 ++ b) 1#3 a 0#5 16#5 w true)
  | .hstop a w => some (encI 0#12 2#3 a 0#5 16#5 w true)
  | .stfw s b a d w l => some (encR 0#5 (1#1 ++ (BitVec.ofBool s) ++ 0#3) b a d 17#5 w l)
  | .stfd s b a d w l => some (encR 1#5 (1#1 ++ (BitVec.ofBool s) ++ 0#3) b a d 17#5 w l)
  | .stfv s b a d w l => some (encR 2#5 (1#1 ++ (BitVec.ofBool s) ++ 0#3) b a d 17#5 w l)
  | .loop o a w l => some (encI o 0#3 a 0#5 18#5 w l)
  | .loopi n e w l => some (encI n 1#3 (e.extractLsb' 5 5) (e.extractLsb' 0 5) 18#5 w l)
  | .lbrk w l => some (encI 0#12 2#3 0#5 0#5 18#5 w l)
  | .lpop w l => some (encI 0#12 3#3 0#5 0#5 18#5 w l)
  | .pfx x c s p q r f e w l => some (encP 0#3 (BitVec.ofBool x) (BitVec.ofBool c) s p q r f e 19#5 w l)
  | .add b a d w l => some (encR 0#5 0#5 b a d 20#5 w l)
  | .sub b a d w l => some (encR 1#5 0#5 b a d 20#5 w l)
  | .and b a d w l => some (encR 2#5 0#5 b a d 20#5 w l)
  | .or b a d w l => some (encR 3#5 0#5 b a d 20#5 w l)
  | .xor b a d w l => some (encR 4#5 0#5 b a d 20#5 w l)
  | .sll b a d w l => some (encR 5#5 0#5 b a d 20#5 w l)
  | .srl b a d w l => some (encR 6#5 0#5 b a d 20#5 w l)
  | .sra b a d w l => some (encR 7#5 0#5 b a d 20#5 w l)
  | .slt b a d w l => some (encR 8#5 0#5 b a d 20#5 w l)
  | .sltu b a d w l => some (encR 9#5 0#5 b a d 20#5 w l)
  | .mul b a d w l => some (encR 10#5 0#5 b a d 20#5 w l)
  | .mulh b a d w l => some (encR 11#5 0#5 b a d 20#5 w l)
  | .mulhu b a d w l => some (encR 12#5 0#5 b a d 20#5 w l)
  | .div b a d w l => some (encR 13#5 0#5 b a d 20#5 w l)
  | .divu b a d w l => some (encR 14#5 0#5 b a d 20#5 w l)
  | .rem b a d w l => some (encR 15#5 0#5 b a d 20#5 w l)
  | .remu b a d w l => some (encR 16#5 0#5 b a d 20#5 w l)
  | .min b a d w l => some (encR 17#5 0#5 b a d 20#5 w l)
  | .max b a d w l => some (encR 18#5 0#5 b a d 20#5 w l)
  | .minu b a d w l => some (encR 19#5 0#5 b a d 20#5 w l)
  | .maxu b a d w l => some (encR 20#5 0#5 b a d 20#5 w l)
  | .clz a d w l => some (encR 21#5 0#5 0#5 a d 20#5 w l)
  | .ctz a d w l => some (encR 22#5 0#5 0#5 a d 20#5 w l)
  | .popc a d w l => some (encR 23#5 0#5 0#5 a d 20#5 w l)
  | .rol b a d w l => some (encR 24#5 0#5 b a d 20#5 w l)
  | .ror b a d w l => some (encR 25#5 0#5 b a d 20#5 w l)
  | .addw b a d w l => some (encR 26#5 0#5 b a d 20#5 w l)
  | .subw b a d w l => some (encR 27#5 0#5 b a d 20#5 w l)
  | .sel c b a d w l => some (encR 28#5 c b a d 20#5 w l)
  | .addi i a d w l => some (encI i 0#3 a d 21#5 w l)
  | .andi i a d w l => some (encI i 1#3 a d 21#5 w l)
  | .ori i a d w l => some (encI i 2#3 a d 21#5 w l)
  | .xori i a d w l => some (encI i 3#3 a d 21#5 w l)
  | .slti i a d w l => some (encI i 4#3 a d 21#5 w l)
  | .sltiu i a d w l => some (encI i 5#3 a d 21#5 w l)
  | .slli s a d w l => some (encI (0#6 ++ s) 6#3 a d 21#5 w l)
  | .srli s a d w l => some (encI (16#6 ++ s) 6#3 a d 21#5 w l)
  | .srai s a d w l => some (encI (32#6 ++ s) 6#3 a d 21#5 w l)
  | .rori s a d w l => some (encI (48#6 ++ s) 6#3 a d 21#5 w l)
  | .addwi i a d w l => some (encI i 7#3 a d 21#5 w l)
  | .lui i d w l => some (encU i d 22#5 w l)
  | .auipc i d w l => some (encU i d 23#5 w l)
  | .fadd p m b a d w l => some (encR 0#5 (p ++ m) b a d 24#5 w l)
  | .fsub p m b a d w l => some (encR 1#5 (p ++ m) b a d 24#5 w l)
  | .fmul p m b a d w l => some (encR 2#5 (p ++ m) b a d 24#5 w l)
  | .fdiv p m b a d w l => some (encR 3#5 (p ++ m) b a d 24#5 w l)
  | .fsqrt p m a d w l => some (encR 4#5 (p ++ m) 0#5 a d 24#5 w l)
  | .fmin p b a d w l => some (encR 5#5 (p ++ 0#3) b a d 24#5 w l)
  | .fmax p b a d w l => some (encR 6#5 (p ++ 0#3) b a d 24#5 w l)
  | .fsgnj p b a d w l => some (encR 7#5 (p ++ 0#3) b a d 24#5 w l)
  | .fsgnjn p b a d w l => some (encR 8#5 (p ++ 0#3) b a d 24#5 w l)
  | .fsgnjx p b a d w l => some (encR 9#5 (p ++ 0#3) b a d 24#5 w l)
  | .feq p b a d w l => some (encR 10#5 (p ++ 0#3) b a d 24#5 w l)
  | .flt p b a d w l => some (encR 11#5 (p ++ 0#3) b a d 24#5 w l)
  | .fle p b a d w l => some (encR 12#5 (p ++ 0#3) b a d 24#5 w l)
  | .fclass p a d w l => some (encR 13#5 (p ++ 0#3) 0#5 a d 24#5 w l)
  | .fcvti p m k a d w l => some (encR 14#5 (p ++ m) k a d 24#5 w l)
  | .fcvtf p m k a d w l => some (encR 15#5 (p ++ m) k a d 24#5 w l)
  | .fcvtff p m s a d w l => some (encR 16#5 (p ++ m) (0#3 ++ s) a d 24#5 w l)
  | .fmas c b a d w l => some (encR 17#5 c b a d 24#5 w l)
  | .fmad c b a d w l => some (encR 18#5 c b a d 24#5 w l)
  | .vadd t k b a d w l => some (encV 0#5 t k b a d 25#5 w l)
  | .vsub t k b a d w l => some (encV 1#5 t k b a d 25#5 w l)
  | .vmul t k b a d w l => some (encV 2#5 t k b a d 25#5 w l)
  | .vfma t k b a d w l => some (encV 3#5 t k b a d 25#5 w l)
  | .vmin t k b a d w l => some (encV 4#5 t k b a d 25#5 w l)
  | .vmax t k b a d w l => some (encV 5#5 t k b a d 25#5 w l)
  | .vabs t k a d w l => some (encV 6#5 t k 0#5 a d 25#5 w l)
  | .vneg t k a d w l => some (encV 7#5 t k 0#5 a d 25#5 w l)
  | .vand t k b a d w l => some (encV 8#5 t k b a d 25#5 w l)
  | .vor t k b a d w l => some (encV 9#5 t k b a d 25#5 w l)
  | .vxor t k b a d w l => some (encV 10#5 t k b a d 25#5 w l)
  | .vshl k b a d w l => some (encV 11#5 3#2 k b a d 25#5 w l)
  | .vshr k b a d w l => some (encV 12#5 3#2 k b a d 25#5 w l)
  | .vsra k b a d w l => some (encV 13#5 3#2 k b a d 25#5 w l)
  | .vceq t k b a d w l => some (encV 14#5 t k b a (0#2 ++ d) 25#5 w l)
  | .vclt t k b a d w l => some (encV 15#5 t k b a (0#2 ++ d) 25#5 w l)
  | .vcle t k b a d w l => some (encV 16#5 t k b a (0#2 ++ d) 25#5 w l)
  | .vsel t k b a d w l => some (encV 17#5 t k b a d 25#5 w l)
  | .vcvt t k f a d w l => some (encV 18#5 t k (0#1 ++ f) a d 25#5 w l)
  | .vred t k n a d w l => some (encV 19#5 t k n a d 25#5 w l)
  | .vsplat t k a d w l => some (encV 20#5 t k 0#5 a d 25#5 w l)
  | .vext t b a d w l => some (encV 21#5 t 0#3 b a d 25#5 w l)
  | .vins t b a d w l => some (encV 22#5 t 0#3 b a d 25#5 w l)
  | .vperm t k b a d w l => some (encV 23#5 t k b a d 25#5 w l)
  | .vwfma t k b a d w l => some (encV 24#5 t k b a (d ++ 0#1) 25#5 w l)
  | .vdot t k b a d w l => some (encV 25#5 t k b a d 25#5 w l)
  | .vlut t k f a d w l => some (encV 26#5 t k (0#4 ++ (BitVec.ofBool f)) a d 25#5 w l)
  | .vpln p a d w l => some (encV 27#5 3#2 0#3 (0#2 ++ p) a d 25#5 w l)
  | .vupl k p a d w l => some (encV 28#5 3#2 k (0#2 ++ p) a d 25#5 w l)
  | .vrcp t k a d w l => some (encV 29#5 t k 0#5 a d 25#5 w l)
  | .vrsq t k a d w l => some (encV 30#5 t k 0#5 a d 25#5 w l)
  | .vexp t k f a d w l => some (encV 31#5 t k f a d 25#5 w l)
  | .kand b a d w l => some (encV 0#5 0#2 0#3 (0#2 ++ b) (0#2 ++ a) (0#2 ++ d) 26#5 w l)
  | .kor b a d w l => some (encV 1#5 0#2 0#3 (0#2 ++ b) (0#2 ++ a) (0#2 ++ d) 26#5 w l)
  | .kxor b a d w l => some (encV 2#5 0#2 0#3 (0#2 ++ b) (0#2 ++ a) (0#2 ++ d) 26#5 w l)
  | .knot a d w l => some (encV 3#5 0#2 0#3 0#5 (0#2 ++ a) (0#2 ++ d) 26#5 w l)
  | .kpopc a d w l => some (encV 4#5 0#2 0#3 0#5 (0#2 ++ a) d 26#5 w l)
  | .kmovKK a d w l => some (encV 5#5 0#2 0#3 0#5 (0#2 ++ a) (0#2 ++ d) 26#5 w l)
  | .kmovKG a d w l => some (encV 5#5 0#2 0#3 1#5 a (0#2 ++ d) 26#5 w l)
  | .kmovGK a d w l => some (encV 5#5 0#2 0#3 2#5 (0#2 ++ a) d 26#5 w l)
  | .vidx t k d w l => some (encV 6#5 t k 0#5 0#5 d 26#5 w l)
  | .vslide t k b a d w l => some (encV 7#5 t k b a d 26#5 w l)
  | .vmov t k a d w l => some (encV 8#5 t k 0#5 a d 26#5 w l)
  | .vtanh t k a d w l => some (encV 9#5 t k 0#5 a d 26#5 w l)
  | .vrand k b a d w l => some (encV 10#5 3#2 k b a d 26#5 w l)
  | .vpopc k a d w l => some (encV 11#5 3#2 k 0#5 a d 26#5 w l)
  | .vpdot k b a d w l => some (encV 12#5 3#2 k b a d 26#5 w l)
  | .vcvts t k a d w l => some (encV 13#5 t k 0#5 a d 26#5 w l)
  | .vmulh k b a d w l => some (encV 14#5 3#2 k b a d 26#5 w l)
  | .vsat k n a d w l => some (encV 15#5 3#2 k n a d 26#5 w l)
  | .madd k b a d w l => some (encV 0#5 0#2 k (0#1 ++ b) (0#1 ++ a) (0#1 ++ d) 27#5 w l)
  | .msub k b a d w l => some (encV 1#5 0#2 k (0#1 ++ b) (0#1 ++ a) (0#1 ++ d) 27#5 w l)
  | .mmul k b a d w l => some (encV 2#5 0#2 k (0#1 ++ b) (0#1 ++ a) (0#1 ++ d) 27#5 w l)
  | .mscal k b a d w l => some (encV 3#5 0#2 k b (0#1 ++ a) (0#1 ++ d) 27#5 w l)
  | .maddc k b a d w l => some (encV 4#5 0#2 k b (0#1 ++ a) (0#1 ++ d) 27#5 w l)
  | .mrelu k a d w l => some (encV 5#5 0#2 k 0#5 (0#1 ++ a) (0#1 ++ d) 27#5 w l)
  | .mexp k a d w l => some (encV 6#5 0#2 k 0#5 (0#1 ++ a) (0#1 ++ d) 27#5 w l)
  | .msig k a d w l => some (encV 7#5 0#2 k 0#5 (0#1 ++ a) (0#1 ++ d) 27#5 w l)
  | .mpack k b a d w l => some (encV 8#5 0#2 k b a (0#1 ++ d) 27#5 w l)
  | .mcoll k s m a d w l => some (encV 9#5 0#2 k (s ++ m) (0#1 ++ a) d 27#5 w l)
  | .mred k a d w l => some (encV 10#5 0#2 k 0#5 (0#1 ++ a) (0#1 ++ d) 27#5 w l)
  | .mmov k a d w l => some (encV 11#5 0#2 k 0#5 (0#1 ++ a) (0#1 ++ d) 27#5 w l)
  | .mzero k d w l => some (encV 12#5 0#2 k 0#5 0#5 (0#1 ++ d) 27#5 w l)
  | .mchk k a d w l => some (encV 13#5 0#2 k 0#5 a (0#2 ++ d) 27#5 w l)
  | .packageReset
  | .timeTreeReference _ _ _
  | .interruptEntry _ _
  | .vectorAccept _
  | .vectorComplete _ _
  | .momentAccept _
  | .momentComplete _ _
  | .divideResult _ _ _
  | .fdivFsqrtResult _ _ _
  | .localLoadComplete _ _ _
  | .wfiWake _ _
  | .yieldPauseEnd _ _
  | .waitaPoll _ _
  | .waitaLimitExpiry _ _
  | .twaitExpiry _ _
  | .groupJoinConfirm _ _
  | .barrierEpisodeComplete _
  | .leaseGrant _
  | .leaseExpiry _
  | .hartStartCommand _
  | .hartStopCommand _
  | .arrayLoadBTile _
  | .runAccept _
  | .arrayRowCompute _
  | .mxzeroAccept _
  | .partialSums _
  | .runComplete _
  | .loadRequest _ _
  | .storeRequest _ _
  | .atomicRequest _ _
  | .dataResponse _ _
  | .acknowledgement _ _
  | .negativeAcknowledgement _ _
  | .ticket _ _
  | .ticketRewind _ _
  | .replayNotice _ _
  | .ticketFault _ _
  | .ticketTimeout _ _
  | .taggedMessage _
  | .inboxResend _
  | .nextDelivery _
  | .horizonPublish _
  | .reactionAbort _ _
  | .reactionAbortRestart _ _
  | .channelMessage _
  | .channelHeldResend _
  | .deqTake _ _
  | .streamerCommand _
  | .bulkPiece _ _
  | .binBump _
  | .streamerCommandComplete _
  | .batchFinish _ _
  | .stfFlagIncrement _
  | .eventRecord _
  | .collectiveWave _
  | .generationComplete _ _
  | .malformedPacket _
  | .reassemblyTimeout _
  | .resendTimeout _
  | .resendLimit _
  | .linkFrame _ _
  | .linkRetrain _
  | .linkRetrainComplete _
  | .rpstatTrain _
  | .rpstatIsolate _
  | .reachTrainingComplete _ _
  | .reachLinkDownTimeout _
  | .reachPeerReset _
  | .sliceWalk _ _
  | .atsCompletion _ _ _ _ _ _ _
  | .priPageGroupResponse _ _ _
  | .atsInvalidationRequest _ _ _
  | .invalidationCompletion _ _ _
  | .tlbinv _ _ _
  | .tlbinvDrainComplete _ _
  | .memoryServiceTicket _ _ _
  | .stackRetirement _
  | .migrationBlockMove
  | .migrationBounce
  | .memcapWrite _
  | .hostCxlMemRequest _ _ _ _
  | .queueDoorbell _ _
  | .coreDoorbell _ _
  | .qreg _
  | .deviceRegisterWrite _ _ _ _ _
  | .ltbaseWrite _ _
  | .elogbaseWrite _ _
  | .uncorrectableError _ _ _ _ _
  | .correctedError _ _ _ _
  | .kennelRestart _
  | .launchReplay _
  | .frameQuarantineScrub _ _
  | .coreRetirement _
  | .heelcfgGo _
  | .heelcfgRel _
  | .partitionStopped _
  | .recallGo _
  | .recallFloodArrival _
  | .recallSweepEnd _
  | .purgeConfirmed
  | .switchtWrite _ _
  | .switchTimeReached _
  | .switchDrainDone _
  | .spillSweepEnd _
  | .resumeReinjectDone _
  | .powerArbiterRecompute _ _
  | .coldPlateLimit _
  | .launchCheck _
  | .launchBind _
  | .launchComplete _
  | .illegalInstruction _ _
  | .instructionFetchFault _ _
  | .reachLinkDown _ => none

/-- Major 0x01, BR: the instruction that the selector of R55 names, none for an unassigned selector. -/
def readBR (w : Word32) : Option Instr :=
  match w.extractLsb' 17 3 with
  | 0#3 => some (.beq (w.extractLsb' 20 12) (w.extractLsb' 12 5) (w.extractLsb' 7 5) (w.getLsbD 1) (w.getLsbD 0))
  | 1#3 => some (.bne (w.extractLsb' 20 12) (w.extractLsb' 12 5) (w.extractLsb' 7 5) (w.getLsbD 1) (w.getLsbD 0))
  | 2#3 => some (.blt (w.extractLsb' 20 12) (w.extractLsb' 12 5) (w.extractLsb' 7 5) (w.getLsbD 1) (w.getLsbD 0))
  | 3#3 => some (.bge (w.extractLsb' 20 12) (w.extractLsb' 12 5) (w.extractLsb' 7 5) (w.getLsbD 1) (w.getLsbD 0))
  | 4#3 => some (.bltu (w.extractLsb' 20 12) (w.extractLsb' 12 5) (w.extractLsb' 7 5) (w.getLsbD 1) (w.getLsbD 0))
  | 5#3 => some (.bgeu (w.extractLsb' 20 12) (w.extractLsb' 12 5) (w.extractLsb' 7 5) (w.getLsbD 1) (w.getLsbD 0))
  | 6#3 => some (.bbs (w.extractLsb' 20 12) (w.extractLsb' 12 5) (w.extractLsb' 7 5) (w.getLsbD 1) (w.getLsbD 0))
  | _ => some (.bbc (w.extractLsb' 20 12) (w.extractLsb' 12 5) (w.extractLsb' 7 5) (w.getLsbD 1) (w.getLsbD 0))

/-- Major 0x02, JAL: the instruction that the selector of R55 names, none for an unassigned selector. -/
def readJAL (w : Word32) : Option Instr :=
  some (.jal (w.extractLsb' 12 20) (w.extractLsb' 7 5) (w.getLsbD 1) (w.getLsbD 0))

/-- Major 0x03, JALR: the instruction that the selector of R55 names, none for an unassigned selector. -/
def readJALR (w : Word32) : Option Instr :=
  match w.extractLsb' 17 3 with
  | 0#3 => some (.jalr (w.extractLsb' 20 12) (w.extractLsb' 12 5) (w.extractLsb' 7 5) (w.getLsbD 1) (w.getLsbD 0))
  | _ => none

/-- Major 0x04, LD: the instruction that the selector of R55 names, none for an unassigned selector. -/
def readLD (w : Word32) : Option Instr :=
  match w.extractLsb' 17 3 with
  | 0#3 => some (.ldb (w.extractLsb' 24 8) (w.extractLsb' 22 2) (w.extractLsb' 20 2) (w.extractLsb' 12 5) (w.extractLsb' 7 5) (w.getLsbD 1) (w.getLsbD 0))
  | 1#3 => some (.ldh (w.extractLsb' 24 8) (w.extractLsb' 22 2) (w.extractLsb' 20 2) (w.extractLsb' 12 5) (w.extractLsb' 7 5) (w.getLsbD 1) (w.getLsbD 0))
  | 2#3 => some (.ldw (w.extractLsb' 24 8) (w.extractLsb' 22 2) (w.extractLsb' 20 2) (w.extractLsb' 12 5) (w.extractLsb' 7 5) (w.getLsbD 1) (w.getLsbD 0))
  | 3#3 => some (.ldd (w.extractLsb' 24 8) (w.extractLsb' 22 2) (w.extractLsb' 20 2) (w.extractLsb' 12 5) (w.extractLsb' 7 5) (w.getLsbD 1) (w.getLsbD 0))
  | 4#3 => some (.ldbu (w.extractLsb' 24 8) (w.extractLsb' 22 2) (w.extractLsb' 20 2) (w.extractLsb' 12 5) (w.extractLsb' 7 5) (w.getLsbD 1) (w.getLsbD 0))
  | 5#3 => some (.ldhu (w.extractLsb' 24 8) (w.extractLsb' 22 2) (w.extractLsb' 20 2) (w.extractLsb' 12 5) (w.extractLsb' 7 5) (w.getLsbD 1) (w.getLsbD 0))
  | 6#3 => some (.ldwu (w.extractLsb' 24 8) (w.extractLsb' 22 2) (w.extractLsb' 20 2) (w.extractLsb' 12 5) (w.extractLsb' 7 5) (w.getLsbD 1) (w.getLsbD 0))
  | _ => none

/-- Major 0x05, ST: the instruction that the selector of R55 names, none for an unassigned selector. -/
def readST (w : Word32) : Option Instr :=
  match w.extractLsb' 17 3 with
  | 0#3 => some (.stb (w.extractLsb' 24 8) (w.extractLsb' 22 2) (w.extractLsb' 20 2) (w.extractLsb' 12 5) (w.extractLsb' 7 5) (w.getLsbD 1) (w.getLsbD 0))
  | 1#3 => some (.sth (w.extractLsb' 24 8) (w.extractLsb' 22 2) (w.extractLsb' 20 2) (w.extractLsb' 12 5) (w.extractLsb' 7 5) (w.getLsbD 1) (w.getLsbD 0))
  | 2#3 => some (.stw (w.extractLsb' 24 8) (w.extractLsb' 22 2) (w.extractLsb' 20 2) (w.extractLsb' 12 5) (w.extractLsb' 7 5) (w.getLsbD 1) (w.getLsbD 0))
  | 3#3 => some (.std (w.extractLsb' 24 8) (w.extractLsb' 22 2) (w.extractLsb' 20 2) (w.extractLsb' 12 5) (w.extractLsb' 7 5) (w.getLsbD 1) (w.getLsbD 0))
  | _ => none

/-- Major 0x06, VMEM: the instruction that the selector of R55 names, none for an unassigned selector. -/
def readVMEM (w : Word32) : Option Instr :=
  match w.extractLsb' 17 3 with
  | 0#3 => some (.vld (w.extractLsb' 24 8) (w.extractLsb' 12 5) (w.extractLsb' 7 5) (w.getLsbD 1) (w.getLsbD 0))
  | 1#3 => some (.vst (w.extractLsb' 24 8) (w.extractLsb' 12 5) (w.extractLsb' 7 5) (w.getLsbD 1) (w.getLsbD 0))
  | 2#3 => some (.vlds (w.extractLsb' 24 5) (w.extractLsb' 12 5) (w.extractLsb' 7 5) (w.getLsbD 1) (w.getLsbD 0))
  | 3#3 => some (.vsts (w.extractLsb' 24 5) (w.extractLsb' 12 5) (w.extractLsb' 7 5) (w.getLsbD 1) (w.getLsbD 0))
  | 4#3 => some (.vldx (w.extractLsb' 24 5) (w.extractLsb' 12 5) (w.extractLsb' 7 5) (w.getLsbD 1) (w.getLsbD 0))
  | 5#3 => some (.vstx (w.extractLsb' 24 5) (w.extractLsb' 12 5) (w.extractLsb' 7 5) (w.getLsbD 1) (w.getLsbD 0))
  | 6#3 => some (.vldbc (w.extractLsb' 24 8) (w.extractLsb' 12 5) (w.extractLsb' 7 5) (w.getLsbD 1) (w.getLsbD 0))
  | _ => none

/-- Major 0x07, AMO: the instruction that the selector of R55 names, none for an unassigned selector. -/
def readAMO (w : Word32) : Option Instr :=
  match w.extractLsb' 27 5 with
  | 0#5 => some (.aadd (w.extractLsb' 25 2) (w.extractLsb' 23 2) (w.getLsbD 22) (w.extractLsb' 17 5) (w.extractLsb' 12 5) (w.extractLsb' 7 5) (w.getLsbD 1) (w.getLsbD 0))
  | 1#5 => some (.aand (w.extractLsb' 25 2) (w.extractLsb' 23 2) (w.getLsbD 22) (w.extractLsb' 17 5) (w.extractLsb' 12 5) (w.extractLsb' 7 5) (w.getLsbD 1) (w.getLsbD 0))
  | 2#5 => some (.aor (w.extractLsb' 25 2) (w.extractLsb' 23 2) (w.getLsbD 22) (w.extractLsb' 17 5) (w.extractLsb' 12 5) (w.extractLsb' 7 5) (w.getLsbD 1) (w.getLsbD 0))
  | 3#5 => some (.axor (w.extractLsb' 25 2) (w.extractLsb' 23 2) (w.getLsbD 22) (w.extractLsb' 17 5) (w.extractLsb' 12 5) (w.extractLsb' 7 5) (w.getLsbD 1) (w.getLsbD 0))
  | 4#5 => some (.amin (w.extractLsb' 25 2) (w.extractLsb' 23 2) (w.getLsbD 22) (w.extractLsb' 17 5) (w.extractLsb' 12 5) (w.extractLsb' 7 5) (w.getLsbD 1) (w.getLsbD 0))
  | 5#5 => some (.amax (w.extractLsb' 25 2) (w.extractLsb' 23 2) (w.getLsbD 22) (w.extractLsb' 17 5) (w.extractLsb' 12 5) (w.extractLsb' 7 5) (w.getLsbD 1) (w.getLsbD 0))
  | 6#5 => some (.aminu (w.extractLsb' 25 2) (w.extractLsb' 23 2) (w.getLsbD 22) (w.extractLsb' 17 5) (w.extractLsb' 12 5) (w.extractLsb' 7 5) (w.getLsbD 1) (w.getLsbD 0))
  | 7#5 => some (.amaxu (w.extractLsb' 25 2) (w.extractLsb' 23 2) (w.getLsbD 22) (w.extractLsb' 17 5) (w.extractLsb' 12 5) (w.extractLsb' 7 5) (w.getLsbD 1) (w.getLsbD 0))
  | 8#5 => some (.aswap (w.extractLsb' 25 2) (w.extractLsb' 23 2) (w.getLsbD 22) (w.extractLsb' 17 5) (w.extractLsb' 12 5) (w.extractLsb' 7 5) (w.getLsbD 1) (w.getLsbD 0))
  | 9#5 => some (.acas (w.extractLsb' 25 2) (w.extractLsb' 23 2) (w.getLsbD 22) (w.extractLsb' 17 5) (w.extractLsb' 12 5) (w.extractLsb' 7 5) (w.getLsbD 1) (w.getLsbD 0))
  | 10#5 => some (.acasf (w.extractLsb' 25 2) (w.extractLsb' 23 2) (w.getLsbD 22) (w.extractLsb' 17 5) (w.extractLsb' 12 5) (w.extractLsb' 7 5) (w.getLsbD 1) (w.getLsbD 0))
  | 11#5 => some (.afadd (w.extractLsb' 25 2) (w.extractLsb' 23 2) (w.extractLsb' 17 5) (w.extractLsb' 12 5) (w.extractLsb' 7 5) (w.getLsbD 1) (w.getLsbD 0))
  | 12#5 => some (.afmin (w.extractLsb' 25 2) (w.extractLsb' 23 2) (w.extractLsb' 17 5) (w.extractLsb' 12 5) (w.extractLsb' 7 5) (w.getLsbD 1) (w.getLsbD 0))
  | 13#5 => some (.afmax (w.extractLsb' 25 2) (w.extractLsb' 23 2) (w.extractLsb' 17 5) (w.extractLsb' 12 5) (w.extractLsb' 7 5) (w.getLsbD 1) (w.getLsbD 0))
  | 14#5 => some (.avadd (w.extractLsb' 25 2) (w.extractLsb' 23 2) (w.extractLsb' 17 5) (w.extractLsb' 12 5) (w.extractLsb' 7 5) (w.getLsbD 1) (w.getLsbD 0))
  | 15#5 => some (.avmax (w.extractLsb' 25 2) (w.extractLsb' 23 2) (w.extractLsb' 17 5) (w.extractLsb' 12 5) (w.extractLsb' 7 5) (w.getLsbD 1) (w.getLsbD 0))
  | 16#5 => some (.aincw (w.extractLsb' 25 2) (w.extractLsb' 23 2) (w.getLsbD 22) (w.extractLsb' 17 5) (w.extractLsb' 12 5) (w.extractLsb' 7 5) (w.getLsbD 1) (w.getLsbD 0))
  | _ => none

/-- Major 0x08, ORD: the instruction that the selector of R55 names, none for an unassigned selector. -/
def readORD (w : Word32) : Option Instr :=
  match w.extractLsb' 17 3 with
  | 0#3 => some (.tldw (w.extractLsb' 24 8) (w.extractLsb' 12 5) (w.extractLsb' 7 5) (w.getLsbD 1) (w.getLsbD 0))
  | 1#3 => some (.tldd (w.extractLsb' 24 8) (w.extractLsb' 12 5) (w.extractLsb' 7 5) (w.getLsbD 1) (w.getLsbD 0))
  | 2#3 => some (.tstw (w.extractLsb' 24 8) (w.extractLsb' 12 5) (w.extractLsb' 7 5) (w.getLsbD 1) (w.getLsbD 0))
  | 3#3 => some (.tstd (w.extractLsb' 24 8) (w.extractLsb' 12 5) (w.extractLsb' 7 5) (w.getLsbD 1) (w.getLsbD 0))
  | 4#3 => some (.tldv (w.extractLsb' 24 8) (w.extractLsb' 12 5) (w.extractLsb' 7 5) (w.getLsbD 1) (w.getLsbD 0))
  | 5#3 => some (.tstv (w.extractLsb' 24 8) (w.extractLsb' 12 5) (w.extractLsb' 7 5) (w.getLsbD 1) (w.getLsbD 0))
  | _ => none

/-- Major 0x09, SYNC: the instruction that the selector of R55 names, none for an unassigned selector. -/
def readSYNC (w : Word32) : Option Instr :=
  match w.extractLsb' 27 5 with
  | 0#5 => some (.fence (w.getLsbD 26) (w.getLsbD 25) (w.getLsbD 24) (w.getLsbD 23) (w.getLsbD 22) (w.extractLsb' 17 2) (w.getLsbD 1) (w.getLsbD 0))
  | 1#5 => some (.ifence (w.getLsbD 1) (w.getLsbD 0))
  | 2#5 => some (.waita (w.extractLsb' 25 2) (w.getLsbD 22) (w.extractLsb' 17 5) (w.extractLsb' 12 5) (w.extractLsb' 7 5) (w.getLsbD 1) (w.getLsbD 0))
  | 3#5 => some (.gjoin (w.extractLsb' 12 5) (w.extractLsb' 7 5) (w.getLsbD 1) (w.getLsbD 0))
  | 4#5 => some (.gleave (w.extractLsb' 12 5) (w.getLsbD 1) (w.getLsbD 0))
  | 5#5 => some (.gbar (w.extractLsb' 12 5) (w.getLsbD 1) (w.getLsbD 0))
  | 6#5 => some (.gqry (w.extractLsb' 12 5) (w.extractLsb' 7 5) (w.getLsbD 1) (w.getLsbD 0))
  | 7#5 => some (.yield (w.getLsbD 1) (w.getLsbD 0))
  | _ => none

/-- Major 0x0A, TIME: the instruction that the selector of R55 names, none for an unassigned selector. -/
def readTIME (w : Word32) : Option Instr :=
  match w.extractLsb' 27 5 with
  | 0#5 => some (.next (w.extractLsb' 7 5) (w.getLsbD 1) (w.getLsbD 0))
  | 1#5 => some (.done (w.getLsbD 1) (w.getLsbD 0))
  | 2#5 => some (.post (w.extractLsb' 22 5) (w.extractLsb' 17 5) (w.extractLsb' 12 5) (w.getLsbD 1) (w.getLsbD 0))
  | 3#5 => some (.postp (w.extractLsb' 22 5) (w.extractLsb' 17 5) (w.extractLsb' 12 5) (w.getLsbD 1) (w.getLsbD 0))
  | 4#5 => some (.tnow (w.extractLsb' 7 5) (w.getLsbD 1) (w.getLsbD 0))
  | 5#5 => some (.lateq (w.extractLsb' 7 5) (w.getLsbD 1) (w.getLsbD 0))
  | 6#5 => some (.twait (w.extractLsb' 12 5) (w.getLsbD 1) (w.getLsbD 0))
  | _ => none

/-- Major 0x0B, QUEUE: the instruction that the selector of R55 names, none for an unassigned selector. -/
def readQUEUE (w : Word32) : Option Instr :=
  match w.extractLsb' 27 5 with
  | 0#5 => some (.enq (w.extractLsb' 12 5) (w.extractLsb' 7 5) (w.getLsbD 1) (w.getLsbD 0))
  | 1#5 => some (.deq (w.extractLsb' 12 5) (w.extractLsb' 7 5) (w.getLsbD 1) (w.getLsbD 0))
  | 2#5 => some (.enqv (w.extractLsb' 12 5) (w.extractLsb' 7 5) (w.getLsbD 1) (w.getLsbD 0))
  | 3#5 => some (.deqv (w.extractLsb' 12 5) (w.extractLsb' 7 5) (w.getLsbD 1) (w.getLsbD 0))
  | 4#5 => some (.enqn (w.extractLsb' 17 5) (w.extractLsb' 12 5) (w.extractLsb' 7 5) (w.getLsbD 1) (w.getLsbD 0))
  | 5#5 => some (.deqn (w.extractLsb' 17 5) (w.extractLsb' 12 5) (w.extractLsb' 7 5) (w.getLsbD 1) (w.getLsbD 0))
  | 6#5 => some (.qlen (w.extractLsb' 12 5) (w.extractLsb' 7 5) (w.getLsbD 1) (w.getLsbD 0))
  | _ => none

/-- Major 0x0C, XFER: the instruction that the selector of R55 names, none for an unassigned selector. -/
def readXFER (w : Word32) : Option Instr :=
  match w.extractLsb' 27 5 with
  | 0#5 => some (.xshape (w.extractLsb' 17 3) (w.extractLsb' 12 5) (w.getLsbD 1) (w.getLsbD 0))
  | 1#5 => some (.xcopy (w.extractLsb' 22 5) (w.extractLsb' 17 5) (w.extractLsb' 12 5) (w.getLsbD 1) (w.getLsbD 0))
  | 2#5 => some (.xcopys (w.extractLsb' 22 3) (w.extractLsb' 17 5) (w.extractLsb' 12 5) (w.getLsbD 1) (w.getLsbD 0))
  | 3#5 => some (.xgath (w.extractLsb' 22 5) (w.extractLsb' 17 5) (w.extractLsb' 12 5) (w.extractLsb' 7 5) (w.getLsbD 1) (w.getLsbD 0))
  | 4#5 => some (.xscat (w.extractLsb' 22 5) (w.extractLsb' 17 5) (w.extractLsb' 12 5) (w.extractLsb' 7 5) (w.getLsbD 1) (w.getLsbD 0))
  | 5#5 => some (.xfill (w.extractLsb' 22 5) (w.extractLsb' 17 5) (w.extractLsb' 12 5) (w.getLsbD 1) (w.getLsbD 0))
  | 6#5 => some (.bseal (w.extractLsb' 7 5) (w.getLsbD 1) (w.getLsbD 0))
  | 7#5 => some (.bwait (w.extractLsb' 12 4) (w.getLsbD 1) (w.getLsbD 0))
  | 8#5 => some (.bstat (w.extractLsb' 12 5) (w.extractLsb' 7 5) (w.getLsbD 1) (w.getLsbD 0))
  | 9#5 => some (.xmode (w.extractLsb' 22 5) (w.extractLsb' 17 5) (w.extractLsb' 12 5) (w.getLsbD 1) (w.getLsbD 0))
  | _ => none

/-- Major 0x0D, MTX: the instruction that the selector of R55 names, none for an unassigned selector. -/
def readMTX (w : Word32) : Option Instr :=
  match w.extractLsb' 27 5 with
  | 0#5 => some (.leash (w.extractLsb' 12 5) (w.extractLsb' 7 5) (w.getLsbD 1) (w.getLsbD 0))
  | 1#5 => some (.leashn (w.extractLsb' 12 5) (w.extractLsb' 7 5) (w.getLsbD 1) (w.getLsbD 0))
  | 2#5 => some (.unleash (w.getLsbD 1) (w.getLsbD 0))
  | 3#5 => some (.mxcfg (w.extractLsb' 17 5) (w.extractLsb' 12 5) (w.getLsbD 1) (w.getLsbD 0))
  | 4#5 => some (.mxldb (w.extractLsb' 17 5) (w.extractLsb' 12 5) (w.getLsbD 1) (w.getLsbD 0))
  | 5#5 => some (.mxrun (w.extractLsb' 22 5) (w.extractLsb' 17 5) (w.extractLsb' 12 5) (w.extractLsb' 7 5) (w.getLsbD 1) (w.getLsbD 0))
  | 6#5 => some (.mxzero (w.getLsbD 1) (w.getLsbD 0))
  | 7#5 => some (.mxwait (w.extractLsb' 12 5) (w.extractLsb' 7 5) (w.getLsbD 1) (w.getLsbD 0))
  | 8#5 => some (.mxqry (w.extractLsb' 12 5) (w.extractLsb' 7 5) (w.getLsbD 1) (w.getLsbD 0))
  | _ => none

/-- Major 0x0E, COLL: the instruction that the selector of R55 names, none for an unassigned selector. -/
def readCOLL (w : Word32) : Option Instr :=
  match w.extractLsb' 27 5 with
  | 0#5 => some (.warm (w.extractLsb' 22 5) (w.extractLsb' 17 5) (w.extractLsb' 12 5) (w.getLsbD 1) (w.getLsbD 0))
  | 1#5 => some (.wdisarm (w.extractLsb' 12 5) (w.getLsbD 1) (w.getLsbD 0))
  | 2#5 => some (.wcnt (w.extractLsb' 12 5) (w.extractLsb' 7 5) (w.getLsbD 1) (w.getLsbD 0))
  | 3#5 => some (.wadd (w.extractLsb' 17 5) (w.extractLsb' 12 5) (w.getLsbD 1) (w.getLsbD 0))
  | 4#5 => some (.wwait (w.extractLsb' 17 5) (w.extractLsb' 12 5) (w.extractLsb' 7 5) (w.getLsbD 1) (w.getLsbD 0))
  | 5#5 => some (.wstart (w.extractLsb' 12 5) (w.getLsbD 1) (w.getLsbD 0))
  | _ => none

/-- Major 0x0F, CSR: the instruction that the selector of R55 names, none for an unassigned selector. -/
def readCSR (w : Word32) : Option Instr :=
  match w.extractLsb' 17 3 with
  | 0#3 => some (.csrrw (w.extractLsb' 20 12) (w.extractLsb' 12 5) (w.extractLsb' 7 5) (w.getLsbD 1) (w.getLsbD 0))
  | 1#3 => some (.csrrs (w.extractLsb' 20 12) (w.extractLsb' 12 5) (w.extractLsb' 7 5) (w.getLsbD 1) (w.getLsbD 0))
  | 2#3 => some (.csrrc (w.extractLsb' 20 12) (w.extractLsb' 12 5) (w.extractLsb' 7 5) (w.getLsbD 1) (w.getLsbD 0))
  | 4#3 => some (.csrwi (w.extractLsb' 20 12) (w.extractLsb' 12 5) (w.extractLsb' 7 5) (w.getLsbD 1) (w.getLsbD 0))
  | 5#3 => some (.csrsi (w.extractLsb' 20 12) (w.extractLsb' 12 5) (w.extractLsb' 7 5) (w.getLsbD 1) (w.getLsbD 0))
  | 6#3 => some (.csrci (w.extractLsb' 20 12) (w.extractLsb' 12 5) (w.extractLsb' 7 5) (w.getLsbD 1) (w.getLsbD 0))
  | _ => none

/-- Major 0x10, SYS: the instruction that the selector of R55 names, none for an unassigned selector. -/
def readSYS (w : Word32) : Option Instr :=
  match w.extractLsb' 17 3 with
  | 0#3 =>
    match w.extractLsb' 20 12 with
    | 0#12 => some (.ecall (w.getLsbD 1))
    | 1#12 => some (.ebreak (w.getLsbD 1))
    | 2#12 => some (.tret (w.getLsbD 1))
    | 3#12 => some (.wfi (w.getLsbD 1))
    | 4#12 => some (.halt (w.getLsbD 1))
    | _ => none
  | 1#3 => some (.hstart (w.extractLsb' 20 5) (w.extractLsb' 12 5) (w.getLsbD 1))
  | 2#3 => some (.hstop (w.extractLsb' 12 5) (w.getLsbD 1))
  | _ => none

/-- Major 0x11, STF: the instruction that the selector of R55 names, none for an unassigned selector. -/
def readSTF (w : Word32) : Option Instr :=
  match w.extractLsb' 27 5 with
  | 0#5 => some (.stfw (w.getLsbD 25) (w.extractLsb' 17 5) (w.extractLsb' 12 5) (w.extractLsb' 7 5) (w.getLsbD 1) (w.getLsbD 0))
  | 1#5 => some (.stfd (w.getLsbD 25) (w.extractLsb' 17 5) (w.extractLsb' 12 5) (w.extractLsb' 7 5) (w.getLsbD 1) (w.getLsbD 0))
  | 2#5 => some (.stfv (w.getLsbD 25) (w.extractLsb' 17 5) (w.extractLsb' 12 5) (w.extractLsb' 7 5) (w.getLsbD 1) (w.getLsbD 0))
  | _ => none

/-- Major 0x12, LOOP: the instruction that the selector of R55 names, none for an unassigned selector. -/
def readLOOP (w : Word32) : Option Instr :=
  match w.extractLsb' 17 3 with
  | 0#3 => some (.loop (w.extractLsb' 20 12) (w.extractLsb' 12 5) (w.getLsbD 1) (w.getLsbD 0))
  | 1#3 => some (.loopi (w.extractLsb' 20 12) (w.extractLsb' 7 10) (w.getLsbD 1) (w.getLsbD 0))
  | 2#3 => some (.lbrk (w.getLsbD 1) (w.getLsbD 0))
  | 3#3 => some (.lpop (w.getLsbD 1) (w.getLsbD 0))
  | _ => none

/-- Major 0x13, PFX: the instruction that the selector of R55 names, none for an unassigned selector. -/
def readPFX (w : Word32) : Option Instr :=
  some (.pfx (w.getLsbD 28) (w.getLsbD 27) (w.extractLsb' 24 3) (w.extractLsb' 21 3) (w.extractLsb' 18 3) (w.extractLsb' 15 3) (w.extractLsb' 11 4) (w.extractLsb' 7 4) (w.getLsbD 1) (w.getLsbD 0))

/-- Major 0x14, ALU: the instruction that the selector of R55 names, none for an unassigned selector. -/
def readALU (w : Word32) : Option Instr :=
  match w.extractLsb' 27 5 with
  | 0#5 => some (.add (w.extractLsb' 17 5) (w.extractLsb' 12 5) (w.extractLsb' 7 5) (w.getLsbD 1) (w.getLsbD 0))
  | 1#5 => some (.sub (w.extractLsb' 17 5) (w.extractLsb' 12 5) (w.extractLsb' 7 5) (w.getLsbD 1) (w.getLsbD 0))
  | 2#5 => some (.and (w.extractLsb' 17 5) (w.extractLsb' 12 5) (w.extractLsb' 7 5) (w.getLsbD 1) (w.getLsbD 0))
  | 3#5 => some (.or (w.extractLsb' 17 5) (w.extractLsb' 12 5) (w.extractLsb' 7 5) (w.getLsbD 1) (w.getLsbD 0))
  | 4#5 => some (.xor (w.extractLsb' 17 5) (w.extractLsb' 12 5) (w.extractLsb' 7 5) (w.getLsbD 1) (w.getLsbD 0))
  | 5#5 => some (.sll (w.extractLsb' 17 5) (w.extractLsb' 12 5) (w.extractLsb' 7 5) (w.getLsbD 1) (w.getLsbD 0))
  | 6#5 => some (.srl (w.extractLsb' 17 5) (w.extractLsb' 12 5) (w.extractLsb' 7 5) (w.getLsbD 1) (w.getLsbD 0))
  | 7#5 => some (.sra (w.extractLsb' 17 5) (w.extractLsb' 12 5) (w.extractLsb' 7 5) (w.getLsbD 1) (w.getLsbD 0))
  | 8#5 => some (.slt (w.extractLsb' 17 5) (w.extractLsb' 12 5) (w.extractLsb' 7 5) (w.getLsbD 1) (w.getLsbD 0))
  | 9#5 => some (.sltu (w.extractLsb' 17 5) (w.extractLsb' 12 5) (w.extractLsb' 7 5) (w.getLsbD 1) (w.getLsbD 0))
  | 10#5 => some (.mul (w.extractLsb' 17 5) (w.extractLsb' 12 5) (w.extractLsb' 7 5) (w.getLsbD 1) (w.getLsbD 0))
  | 11#5 => some (.mulh (w.extractLsb' 17 5) (w.extractLsb' 12 5) (w.extractLsb' 7 5) (w.getLsbD 1) (w.getLsbD 0))
  | 12#5 => some (.mulhu (w.extractLsb' 17 5) (w.extractLsb' 12 5) (w.extractLsb' 7 5) (w.getLsbD 1) (w.getLsbD 0))
  | 13#5 => some (.div (w.extractLsb' 17 5) (w.extractLsb' 12 5) (w.extractLsb' 7 5) (w.getLsbD 1) (w.getLsbD 0))
  | 14#5 => some (.divu (w.extractLsb' 17 5) (w.extractLsb' 12 5) (w.extractLsb' 7 5) (w.getLsbD 1) (w.getLsbD 0))
  | 15#5 => some (.rem (w.extractLsb' 17 5) (w.extractLsb' 12 5) (w.extractLsb' 7 5) (w.getLsbD 1) (w.getLsbD 0))
  | 16#5 => some (.remu (w.extractLsb' 17 5) (w.extractLsb' 12 5) (w.extractLsb' 7 5) (w.getLsbD 1) (w.getLsbD 0))
  | 17#5 => some (.min (w.extractLsb' 17 5) (w.extractLsb' 12 5) (w.extractLsb' 7 5) (w.getLsbD 1) (w.getLsbD 0))
  | 18#5 => some (.max (w.extractLsb' 17 5) (w.extractLsb' 12 5) (w.extractLsb' 7 5) (w.getLsbD 1) (w.getLsbD 0))
  | 19#5 => some (.minu (w.extractLsb' 17 5) (w.extractLsb' 12 5) (w.extractLsb' 7 5) (w.getLsbD 1) (w.getLsbD 0))
  | 20#5 => some (.maxu (w.extractLsb' 17 5) (w.extractLsb' 12 5) (w.extractLsb' 7 5) (w.getLsbD 1) (w.getLsbD 0))
  | 21#5 => some (.clz (w.extractLsb' 12 5) (w.extractLsb' 7 5) (w.getLsbD 1) (w.getLsbD 0))
  | 22#5 => some (.ctz (w.extractLsb' 12 5) (w.extractLsb' 7 5) (w.getLsbD 1) (w.getLsbD 0))
  | 23#5 => some (.popc (w.extractLsb' 12 5) (w.extractLsb' 7 5) (w.getLsbD 1) (w.getLsbD 0))
  | 24#5 => some (.rol (w.extractLsb' 17 5) (w.extractLsb' 12 5) (w.extractLsb' 7 5) (w.getLsbD 1) (w.getLsbD 0))
  | 25#5 => some (.ror (w.extractLsb' 17 5) (w.extractLsb' 12 5) (w.extractLsb' 7 5) (w.getLsbD 1) (w.getLsbD 0))
  | 26#5 => some (.addw (w.extractLsb' 17 5) (w.extractLsb' 12 5) (w.extractLsb' 7 5) (w.getLsbD 1) (w.getLsbD 0))
  | 27#5 => some (.subw (w.extractLsb' 17 5) (w.extractLsb' 12 5) (w.extractLsb' 7 5) (w.getLsbD 1) (w.getLsbD 0))
  | 28#5 => some (.sel (w.extractLsb' 22 5) (w.extractLsb' 17 5) (w.extractLsb' 12 5) (w.extractLsb' 7 5) (w.getLsbD 1) (w.getLsbD 0))
  | _ => none

/-- Major 0x15, ALUI: the instruction that the selector of R55 names, none for an unassigned selector. -/
def readALUI (w : Word32) : Option Instr :=
  match w.extractLsb' 17 3 with
  | 0#3 => some (.addi (w.extractLsb' 20 12) (w.extractLsb' 12 5) (w.extractLsb' 7 5) (w.getLsbD 1) (w.getLsbD 0))
  | 1#3 => some (.andi (w.extractLsb' 20 12) (w.extractLsb' 12 5) (w.extractLsb' 7 5) (w.getLsbD 1) (w.getLsbD 0))
  | 2#3 => some (.ori (w.extractLsb' 20 12) (w.extractLsb' 12 5) (w.extractLsb' 7 5) (w.getLsbD 1) (w.getLsbD 0))
  | 3#3 => some (.xori (w.extractLsb' 20 12) (w.extractLsb' 12 5) (w.extractLsb' 7 5) (w.getLsbD 1) (w.getLsbD 0))
  | 4#3 => some (.slti (w.extractLsb' 20 12) (w.extractLsb' 12 5) (w.extractLsb' 7 5) (w.getLsbD 1) (w.getLsbD 0))
  | 5#3 => some (.sltiu (w.extractLsb' 20 12) (w.extractLsb' 12 5) (w.extractLsb' 7 5) (w.getLsbD 1) (w.getLsbD 0))
  | 7#3 => some (.addwi (w.extractLsb' 20 12) (w.extractLsb' 12 5) (w.extractLsb' 7 5) (w.getLsbD 1) (w.getLsbD 0))
  | _ =>
    match w.extractLsb' 30 2 with
    | 0#2 => some (.slli (w.extractLsb' 20 6) (w.extractLsb' 12 5) (w.extractLsb' 7 5) (w.getLsbD 1) (w.getLsbD 0))
    | 1#2 => some (.srli (w.extractLsb' 20 6) (w.extractLsb' 12 5) (w.extractLsb' 7 5) (w.getLsbD 1) (w.getLsbD 0))
    | 2#2 => some (.srai (w.extractLsb' 20 6) (w.extractLsb' 12 5) (w.extractLsb' 7 5) (w.getLsbD 1) (w.getLsbD 0))
    | _ => some (.rori (w.extractLsb' 20 6) (w.extractLsb' 12 5) (w.extractLsb' 7 5) (w.getLsbD 1) (w.getLsbD 0))

/-- Major 0x16, LUI: the instruction that the selector of R55 names, none for an unassigned selector. -/
def readLUI (w : Word32) : Option Instr :=
  some (.lui (w.extractLsb' 12 20) (w.extractLsb' 7 5) (w.getLsbD 1) (w.getLsbD 0))

/-- Major 0x17, AUIPC: the instruction that the selector of R55 names, none for an unassigned selector. -/
def readAUIPC (w : Word32) : Option Instr :=
  some (.auipc (w.extractLsb' 12 20) (w.extractLsb' 7 5) (w.getLsbD 1) (w.getLsbD 0))

/-- Major 0x18, FPU: the instruction that the selector of R55 names, none for an unassigned selector. -/
def readFPU (w : Word32) : Option Instr :=
  match w.extractLsb' 27 5 with
  | 0#5 => some (.fadd (w.extractLsb' 25 2) (w.extractLsb' 22 3) (w.extractLsb' 17 5) (w.extractLsb' 12 5) (w.extractLsb' 7 5) (w.getLsbD 1) (w.getLsbD 0))
  | 1#5 => some (.fsub (w.extractLsb' 25 2) (w.extractLsb' 22 3) (w.extractLsb' 17 5) (w.extractLsb' 12 5) (w.extractLsb' 7 5) (w.getLsbD 1) (w.getLsbD 0))
  | 2#5 => some (.fmul (w.extractLsb' 25 2) (w.extractLsb' 22 3) (w.extractLsb' 17 5) (w.extractLsb' 12 5) (w.extractLsb' 7 5) (w.getLsbD 1) (w.getLsbD 0))
  | 3#5 => some (.fdiv (w.extractLsb' 25 2) (w.extractLsb' 22 3) (w.extractLsb' 17 5) (w.extractLsb' 12 5) (w.extractLsb' 7 5) (w.getLsbD 1) (w.getLsbD 0))
  | 4#5 => some (.fsqrt (w.extractLsb' 25 2) (w.extractLsb' 22 3) (w.extractLsb' 12 5) (w.extractLsb' 7 5) (w.getLsbD 1) (w.getLsbD 0))
  | 5#5 => some (.fmin (w.extractLsb' 25 2) (w.extractLsb' 17 5) (w.extractLsb' 12 5) (w.extractLsb' 7 5) (w.getLsbD 1) (w.getLsbD 0))
  | 6#5 => some (.fmax (w.extractLsb' 25 2) (w.extractLsb' 17 5) (w.extractLsb' 12 5) (w.extractLsb' 7 5) (w.getLsbD 1) (w.getLsbD 0))
  | 7#5 => some (.fsgnj (w.extractLsb' 25 2) (w.extractLsb' 17 5) (w.extractLsb' 12 5) (w.extractLsb' 7 5) (w.getLsbD 1) (w.getLsbD 0))
  | 8#5 => some (.fsgnjn (w.extractLsb' 25 2) (w.extractLsb' 17 5) (w.extractLsb' 12 5) (w.extractLsb' 7 5) (w.getLsbD 1) (w.getLsbD 0))
  | 9#5 => some (.fsgnjx (w.extractLsb' 25 2) (w.extractLsb' 17 5) (w.extractLsb' 12 5) (w.extractLsb' 7 5) (w.getLsbD 1) (w.getLsbD 0))
  | 10#5 => some (.feq (w.extractLsb' 25 2) (w.extractLsb' 17 5) (w.extractLsb' 12 5) (w.extractLsb' 7 5) (w.getLsbD 1) (w.getLsbD 0))
  | 11#5 => some (.flt (w.extractLsb' 25 2) (w.extractLsb' 17 5) (w.extractLsb' 12 5) (w.extractLsb' 7 5) (w.getLsbD 1) (w.getLsbD 0))
  | 12#5 => some (.fle (w.extractLsb' 25 2) (w.extractLsb' 17 5) (w.extractLsb' 12 5) (w.extractLsb' 7 5) (w.getLsbD 1) (w.getLsbD 0))
  | 13#5 => some (.fclass (w.extractLsb' 25 2) (w.extractLsb' 12 5) (w.extractLsb' 7 5) (w.getLsbD 1) (w.getLsbD 0))
  | 14#5 => some (.fcvti (w.extractLsb' 25 2) (w.extractLsb' 22 3) (w.extractLsb' 17 5) (w.extractLsb' 12 5) (w.extractLsb' 7 5) (w.getLsbD 1) (w.getLsbD 0))
  | 15#5 => some (.fcvtf (w.extractLsb' 25 2) (w.extractLsb' 22 3) (w.extractLsb' 17 5) (w.extractLsb' 12 5) (w.extractLsb' 7 5) (w.getLsbD 1) (w.getLsbD 0))
  | 16#5 => some (.fcvtff (w.extractLsb' 25 2) (w.extractLsb' 22 3) (w.extractLsb' 17 2) (w.extractLsb' 12 5) (w.extractLsb' 7 5) (w.getLsbD 1) (w.getLsbD 0))
  | 17#5 => some (.fmas (w.extractLsb' 22 5) (w.extractLsb' 17 5) (w.extractLsb' 12 5) (w.extractLsb' 7 5) (w.getLsbD 1) (w.getLsbD 0))
  | 18#5 => some (.fmad (w.extractLsb' 22 5) (w.extractLsb' 17 5) (w.extractLsb' 12 5) (w.extractLsb' 7 5) (w.getLsbD 1) (w.getLsbD 0))
  | _ => none

/-- Major 0x19, VEC: the instruction that the selector of R55 names, none for an unassigned selector. -/
def readVEC (w : Word32) : Option Instr :=
  match w.extractLsb' 27 5 with
  | 0#5 => some (.vadd (w.extractLsb' 25 2) (w.extractLsb' 22 3) (w.extractLsb' 17 5) (w.extractLsb' 12 5) (w.extractLsb' 7 5) (w.getLsbD 1) (w.getLsbD 0))
  | 1#5 => some (.vsub (w.extractLsb' 25 2) (w.extractLsb' 22 3) (w.extractLsb' 17 5) (w.extractLsb' 12 5) (w.extractLsb' 7 5) (w.getLsbD 1) (w.getLsbD 0))
  | 2#5 => some (.vmul (w.extractLsb' 25 2) (w.extractLsb' 22 3) (w.extractLsb' 17 5) (w.extractLsb' 12 5) (w.extractLsb' 7 5) (w.getLsbD 1) (w.getLsbD 0))
  | 3#5 => some (.vfma (w.extractLsb' 25 2) (w.extractLsb' 22 3) (w.extractLsb' 17 5) (w.extractLsb' 12 5) (w.extractLsb' 7 5) (w.getLsbD 1) (w.getLsbD 0))
  | 4#5 => some (.vmin (w.extractLsb' 25 2) (w.extractLsb' 22 3) (w.extractLsb' 17 5) (w.extractLsb' 12 5) (w.extractLsb' 7 5) (w.getLsbD 1) (w.getLsbD 0))
  | 5#5 => some (.vmax (w.extractLsb' 25 2) (w.extractLsb' 22 3) (w.extractLsb' 17 5) (w.extractLsb' 12 5) (w.extractLsb' 7 5) (w.getLsbD 1) (w.getLsbD 0))
  | 6#5 => some (.vabs (w.extractLsb' 25 2) (w.extractLsb' 22 3) (w.extractLsb' 12 5) (w.extractLsb' 7 5) (w.getLsbD 1) (w.getLsbD 0))
  | 7#5 => some (.vneg (w.extractLsb' 25 2) (w.extractLsb' 22 3) (w.extractLsb' 12 5) (w.extractLsb' 7 5) (w.getLsbD 1) (w.getLsbD 0))
  | 8#5 => some (.vand (w.extractLsb' 25 2) (w.extractLsb' 22 3) (w.extractLsb' 17 5) (w.extractLsb' 12 5) (w.extractLsb' 7 5) (w.getLsbD 1) (w.getLsbD 0))
  | 9#5 => some (.vor (w.extractLsb' 25 2) (w.extractLsb' 22 3) (w.extractLsb' 17 5) (w.extractLsb' 12 5) (w.extractLsb' 7 5) (w.getLsbD 1) (w.getLsbD 0))
  | 10#5 => some (.vxor (w.extractLsb' 25 2) (w.extractLsb' 22 3) (w.extractLsb' 17 5) (w.extractLsb' 12 5) (w.extractLsb' 7 5) (w.getLsbD 1) (w.getLsbD 0))
  | 11#5 => some (.vshl (w.extractLsb' 22 3) (w.extractLsb' 17 5) (w.extractLsb' 12 5) (w.extractLsb' 7 5) (w.getLsbD 1) (w.getLsbD 0))
  | 12#5 => some (.vshr (w.extractLsb' 22 3) (w.extractLsb' 17 5) (w.extractLsb' 12 5) (w.extractLsb' 7 5) (w.getLsbD 1) (w.getLsbD 0))
  | 13#5 => some (.vsra (w.extractLsb' 22 3) (w.extractLsb' 17 5) (w.extractLsb' 12 5) (w.extractLsb' 7 5) (w.getLsbD 1) (w.getLsbD 0))
  | 14#5 => some (.vceq (w.extractLsb' 25 2) (w.extractLsb' 22 3) (w.extractLsb' 17 5) (w.extractLsb' 12 5) (w.extractLsb' 7 3) (w.getLsbD 1) (w.getLsbD 0))
  | 15#5 => some (.vclt (w.extractLsb' 25 2) (w.extractLsb' 22 3) (w.extractLsb' 17 5) (w.extractLsb' 12 5) (w.extractLsb' 7 3) (w.getLsbD 1) (w.getLsbD 0))
  | 16#5 => some (.vcle (w.extractLsb' 25 2) (w.extractLsb' 22 3) (w.extractLsb' 17 5) (w.extractLsb' 12 5) (w.extractLsb' 7 3) (w.getLsbD 1) (w.getLsbD 0))
  | 17#5 => some (.vsel (w.extractLsb' 25 2) (w.extractLsb' 22 3) (w.extractLsb' 17 5) (w.extractLsb' 12 5) (w.extractLsb' 7 5) (w.getLsbD 1) (w.getLsbD 0))
  | 18#5 => some (.vcvt (w.extractLsb' 25 2) (w.extractLsb' 22 3) (w.extractLsb' 17 4) (w.extractLsb' 12 5) (w.extractLsb' 7 5) (w.getLsbD 1) (w.getLsbD 0))
  | 19#5 => some (.vred (w.extractLsb' 25 2) (w.extractLsb' 22 3) (w.extractLsb' 17 5) (w.extractLsb' 12 5) (w.extractLsb' 7 5) (w.getLsbD 1) (w.getLsbD 0))
  | 20#5 => some (.vsplat (w.extractLsb' 25 2) (w.extractLsb' 22 3) (w.extractLsb' 12 5) (w.extractLsb' 7 5) (w.getLsbD 1) (w.getLsbD 0))
  | 21#5 => some (.vext (w.extractLsb' 25 2) (w.extractLsb' 17 5) (w.extractLsb' 12 5) (w.extractLsb' 7 5) (w.getLsbD 1) (w.getLsbD 0))
  | 22#5 => some (.vins (w.extractLsb' 25 2) (w.extractLsb' 17 5) (w.extractLsb' 12 5) (w.extractLsb' 7 5) (w.getLsbD 1) (w.getLsbD 0))
  | 23#5 => some (.vperm (w.extractLsb' 25 2) (w.extractLsb' 22 3) (w.extractLsb' 17 5) (w.extractLsb' 12 5) (w.extractLsb' 7 5) (w.getLsbD 1) (w.getLsbD 0))
  | 24#5 => some (.vwfma (w.extractLsb' 25 2) (w.extractLsb' 22 3) (w.extractLsb' 17 5) (w.extractLsb' 12 5) (w.extractLsb' 8 4) (w.getLsbD 1) (w.getLsbD 0))
  | 25#5 => some (.vdot (w.extractLsb' 25 2) (w.extractLsb' 22 3) (w.extractLsb' 17 5) (w.extractLsb' 12 5) (w.extractLsb' 7 5) (w.getLsbD 1) (w.getLsbD 0))
  | 26#5 => some (.vlut (w.extractLsb' 25 2) (w.extractLsb' 22 3) (w.getLsbD 17) (w.extractLsb' 12 5) (w.extractLsb' 7 5) (w.getLsbD 1) (w.getLsbD 0))
  | 27#5 => some (.vpln (w.extractLsb' 17 3) (w.extractLsb' 12 5) (w.extractLsb' 7 5) (w.getLsbD 1) (w.getLsbD 0))
  | 28#5 => some (.vupl (w.extractLsb' 22 3) (w.extractLsb' 17 3) (w.extractLsb' 12 5) (w.extractLsb' 7 5) (w.getLsbD 1) (w.getLsbD 0))
  | 29#5 => some (.vrcp (w.extractLsb' 25 2) (w.extractLsb' 22 3) (w.extractLsb' 12 5) (w.extractLsb' 7 5) (w.getLsbD 1) (w.getLsbD 0))
  | 30#5 => some (.vrsq (w.extractLsb' 25 2) (w.extractLsb' 22 3) (w.extractLsb' 12 5) (w.extractLsb' 7 5) (w.getLsbD 1) (w.getLsbD 0))
  | _ => some (.vexp (w.extractLsb' 25 2) (w.extractLsb' 22 3) (w.extractLsb' 17 5) (w.extractLsb' 12 5) (w.extractLsb' 7 5) (w.getLsbD 1) (w.getLsbD 0))

/-- Major 0x1A, VEC2: the instruction that the selector of R55 names, none for an unassigned selector. -/
def readVEC2 (w : Word32) : Option Instr :=
  match w.extractLsb' 27 5 with
  | 0#5 => some (.kand (w.extractLsb' 17 3) (w.extractLsb' 12 3) (w.extractLsb' 7 3) (w.getLsbD 1) (w.getLsbD 0))
  | 1#5 => some (.kor (w.extractLsb' 17 3) (w.extractLsb' 12 3) (w.extractLsb' 7 3) (w.getLsbD 1) (w.getLsbD 0))
  | 2#5 => some (.kxor (w.extractLsb' 17 3) (w.extractLsb' 12 3) (w.extractLsb' 7 3) (w.getLsbD 1) (w.getLsbD 0))
  | 3#5 => some (.knot (w.extractLsb' 12 3) (w.extractLsb' 7 3) (w.getLsbD 1) (w.getLsbD 0))
  | 4#5 => some (.kpopc (w.extractLsb' 12 3) (w.extractLsb' 7 5) (w.getLsbD 1) (w.getLsbD 0))
  | 5#5 =>
    match w.extractLsb' 17 5 with
    | 1#5 => some (.kmovKG (w.extractLsb' 12 5) (w.extractLsb' 7 3) (w.getLsbD 1) (w.getLsbD 0))
    | 2#5 => some (.kmovGK (w.extractLsb' 12 3) (w.extractLsb' 7 5) (w.getLsbD 1) (w.getLsbD 0))
    | _ => some (.kmovKK (w.extractLsb' 12 3) (w.extractLsb' 7 3) (w.getLsbD 1) (w.getLsbD 0))
  | 6#5 => some (.vidx (w.extractLsb' 25 2) (w.extractLsb' 22 3) (w.extractLsb' 7 5) (w.getLsbD 1) (w.getLsbD 0))
  | 7#5 => some (.vslide (w.extractLsb' 25 2) (w.extractLsb' 22 3) (w.extractLsb' 17 5) (w.extractLsb' 12 5) (w.extractLsb' 7 5) (w.getLsbD 1) (w.getLsbD 0))
  | 8#5 => some (.vmov (w.extractLsb' 25 2) (w.extractLsb' 22 3) (w.extractLsb' 12 5) (w.extractLsb' 7 5) (w.getLsbD 1) (w.getLsbD 0))
  | 9#5 => some (.vtanh (w.extractLsb' 25 2) (w.extractLsb' 22 3) (w.extractLsb' 12 5) (w.extractLsb' 7 5) (w.getLsbD 1) (w.getLsbD 0))
  | 10#5 => some (.vrand (w.extractLsb' 22 3) (w.extractLsb' 17 5) (w.extractLsb' 12 5) (w.extractLsb' 7 5) (w.getLsbD 1) (w.getLsbD 0))
  | 11#5 => some (.vpopc (w.extractLsb' 22 3) (w.extractLsb' 12 5) (w.extractLsb' 7 5) (w.getLsbD 1) (w.getLsbD 0))
  | 12#5 => some (.vpdot (w.extractLsb' 22 3) (w.extractLsb' 17 5) (w.extractLsb' 12 5) (w.extractLsb' 7 5) (w.getLsbD 1) (w.getLsbD 0))
  | 13#5 => some (.vcvts (w.extractLsb' 25 2) (w.extractLsb' 22 3) (w.extractLsb' 12 5) (w.extractLsb' 7 5) (w.getLsbD 1) (w.getLsbD 0))
  | 14#5 => some (.vmulh (w.extractLsb' 22 3) (w.extractLsb' 17 5) (w.extractLsb' 12 5) (w.extractLsb' 7 5) (w.getLsbD 1) (w.getLsbD 0))
  | 15#5 => some (.vsat (w.extractLsb' 22 3) (w.extractLsb' 17 5) (w.extractLsb' 12 5) (w.extractLsb' 7 5) (w.getLsbD 1) (w.getLsbD 0))
  | _ => none

/-- Major 0x1B, MOM: the instruction that the selector of R55 names, none for an unassigned selector. -/
def readMOM (w : Word32) : Option Instr :=
  match w.extractLsb' 27 5 with
  | 0#5 => some (.madd (w.extractLsb' 22 3) (w.extractLsb' 17 4) (w.extractLsb' 12 4) (w.extractLsb' 7 4) (w.getLsbD 1) (w.getLsbD 0))
  | 1#5 => some (.msub (w.extractLsb' 22 3) (w.extractLsb' 17 4) (w.extractLsb' 12 4) (w.extractLsb' 7 4) (w.getLsbD 1) (w.getLsbD 0))
  | 2#5 => some (.mmul (w.extractLsb' 22 3) (w.extractLsb' 17 4) (w.extractLsb' 12 4) (w.extractLsb' 7 4) (w.getLsbD 1) (w.getLsbD 0))
  | 3#5 => some (.mscal (w.extractLsb' 22 3) (w.extractLsb' 17 5) (w.extractLsb' 12 4) (w.extractLsb' 7 4) (w.getLsbD 1) (w.getLsbD 0))
  | 4#5 => some (.maddc (w.extractLsb' 22 3) (w.extractLsb' 17 5) (w.extractLsb' 12 4) (w.extractLsb' 7 4) (w.getLsbD 1) (w.getLsbD 0))
  | 5#5 => some (.mrelu (w.extractLsb' 22 3) (w.extractLsb' 12 4) (w.extractLsb' 7 4) (w.getLsbD 1) (w.getLsbD 0))
  | 6#5 => some (.mexp (w.extractLsb' 22 3) (w.extractLsb' 12 4) (w.extractLsb' 7 4) (w.getLsbD 1) (w.getLsbD 0))
  | 7#5 => some (.msig (w.extractLsb' 22 3) (w.extractLsb' 12 4) (w.extractLsb' 7 4) (w.getLsbD 1) (w.getLsbD 0))
  | 8#5 => some (.mpack (w.extractLsb' 22 3) (w.extractLsb' 17 5) (w.extractLsb' 12 5) (w.extractLsb' 7 4) (w.getLsbD 1) (w.getLsbD 0))
  | 9#5 => some (.mcoll (w.extractLsb' 22 3) (w.extractLsb' 19 3) (w.extractLsb' 17 2) (w.extractLsb' 12 4) (w.extractLsb' 7 5) (w.getLsbD 1) (w.getLsbD 0))
  | 10#5 => some (.mred (w.extractLsb' 22 3) (w.extractLsb' 12 4) (w.extractLsb' 7 4) (w.getLsbD 1) (w.getLsbD 0))
  | 11#5 => some (.mmov (w.extractLsb' 22 3) (w.extractLsb' 12 4) (w.extractLsb' 7 4) (w.getLsbD 1) (w.getLsbD 0))
  | 12#5 => some (.mzero (w.extractLsb' 22 3) (w.extractLsb' 7 4) (w.getLsbD 1) (w.getLsbD 0))
  | 13#5 => some (.mchk (w.extractLsb' 22 3) (w.extractLsb' 12 5) (w.extractLsb' 7 3) (w.getLsbD 1) (w.getLsbD 0))
  | _ => none

/-- What a word's major and selector name (steps 2 and 4 of R56). -/
def readWord (w : Word32) : Decoded :=
  let go (r : Option Instr) : Decoded := match r with
    | some i => .instr i
    | none => .reject .undefinedFunction
  match w.extractLsb' 2 5 with
  | 1#5 => go (readBR w)
  | 2#5 => go (readJAL w)
  | 3#5 => go (readJALR w)
  | 4#5 => go (readLD w)
  | 5#5 => go (readST w)
  | 6#5 => go (readVMEM w)
  | 7#5 => go (readAMO w)
  | 8#5 => go (readORD w)
  | 9#5 => go (readSYNC w)
  | 10#5 => go (readTIME w)
  | 11#5 => go (readQUEUE w)
  | 12#5 => go (readXFER w)
  | 13#5 => go (readMTX w)
  | 14#5 => go (readCOLL w)
  | 15#5 => go (readCSR w)
  | 16#5 => go (readSYS w)
  | 17#5 => go (readSTF w)
  | 18#5 => go (readLOOP w)
  | 19#5 => go (readPFX w)
  | 20#5 => go (readALU w)
  | 21#5 => go (readALUI w)
  | 22#5 => go (readLUI w)
  | 23#5 => go (readAUIPC w)
  | 24#5 => go (readFPU w)
  | 25#5 => go (readVEC w)
  | 26#5 => go (readVEC2 w)
  | 27#5 => go (readMOM w)
  | _ => .reject .undefinedMajor

/-- Decoding one word (R54): the selectors, then the CSR number of a CSR instruction (step 4 of R56), then every reserved bit
and operand-control value (step 5): a reserved bit is 1 exactly when the word differs from the word of the instruction read. -/
def decodeWord (w : Word32) : Decoded :=
  match readWord w with
  | .reject r => .reject r
  | .instr i =>
    if i.csrListed = false then .reject .undefinedFunction
    else if encode i = some w ∧ i.wellFormed = true then .instr i
    else .reject .reservedField

/-- The four bytes of an instruction word as memory holds them, little-endian (R46). -/
def wordBytes (w : Word32) : List Byte :=
  [w.extractLsb' 0 8, w.extractLsb' 8 8, w.extractLsb' 16 8, w.extractLsb' 24 8]

/-- The instruction word that four bytes hold; none for any other number of bytes. -/
def bytesWord (bs : List Byte) : Option Word32 :=
  match bs with
  | [b0, b1, b2, b3] => some (b3 ++ b2 ++ b1 ++ b0)
  | _ => none

/-- Decoding from the bytes at an address: the instruction and the bytes after it; none for a word that is no instruction, or for fewer than four bytes. -/
def decodeBytes (bs : List Byte) : Option (Instr × List Byte) :=
  match bs with
  | b0 :: b1 :: b2 :: b3 :: rest =>
    match decodeWord (b3 ++ b2 ++ b1 ++ b0) with
    | .instr i => some (i, rest)
    | .reject _ => none
  | _ => none

/-- The instruction that the decoder reads from a row of the opcode table whose bits are `w`. Every instruction is one word of 32 bits, stored
little-endian, so bit 0 of the number is bit 0 of the word; a step without a word has no bits and is read from none. -/
def decodeTableWord (nbits w : Nat) : Option Instr :=
  if nbits = 32 then
    match decodeBytes (wordBytes (BitVec.ofNat 32 w)) with
    | some (i, _) => some i
    | none => none
  else none

end Sys2Proof
end

