-- ==== Sys2Proof/Config.lean ====
section
/-!
DEFINITION. What the manual fixes for the whole part, and the values it leaves open. A constant without a body is a free
value: nothing can be proved of it, so a statement that mentions it holds whatever it is.
-/

namespace Sys2Proof.Config

/-- First byte of the commons (R202). -/
def commonsBase : Nat := 0x100000000000

/-- First byte of the weight store (R184, R202). -/
def weightBase : Nat := 0x110000000000

/-- First byte of the host window (R202). -/
def hostBase : Nat := 0x200000000000

/-- First byte of device registers and capability space (R20, R202). -/
def deviceBase : Nat := 0x300000000000

/-- First physical address beyond every HBM stack, 12 · 128 GiB (R202). -/
def hbmLimit : Nat := 0x18000000000

/-- Bytes of a core's local store (R195). -/
def localSize : Nat := 0x80000

/-- First byte of the spill reserve (R197). -/
def spillBase : Nat := 0x7E000

/-- The address of a core's first instruction after reset. The manual sends the boot harts to the boot ROM entry (R89) and gives
no address for it. DESIGN CHOICE (log 1): 0, which lies in the core's own local store. -/
def bootPc : W := 0#64

/-- What a byte of memory that nothing has written reads as: the manual gives memory no reset contents.
DESIGN CHOICE (log 3): 0. -/
def unwrittenByte : Byte := 0#8

/-- A faithfully rounded result is one of the two FP32 values that bracket the exact value, fixed by the operands but not told
which (R166). Free value (log 9): whether the upper one is taken, for function `f` of mean and variance. -/
opaque faithfulUp (f : Nat) (mean var : BitVec 32) : Bool

/-- The `n`-th free word: what a value is that the manual says exists and does not state (free value, log 8). -/
opaque freeWord (n : Nat) : W

/-- The core beside a unit of the fabric: bank `n` below 1 024, stack `n` - 1 024, array `n` - 2 048, the device side from 4 096 on, streamer
`n` mod 16 of a stack from 8 192 on, and a bank group's streamer from 12 288 on (free value, log 126). R11 fixes some of the bits, and they are
not taken from here. -/
opaque besideUnit (n : Nat) : CoreId

/-- Copy `j` of packet `n`, `k` arrives with wrong bits (R321, free value, log 94). -/
opaque damaged (n k j : Nat) : Bool

/-- Answer `j` to packet `n`, `k` arrives with wrong bits (R321, free value, log 94). -/
opaque answerDamaged (n k j : Nat) : Bool

/-- SEQ in the header of answer `j` to packet `n`, `k`, which takes no number that a later request would (free value, log 126). -/
opaque answerSeq (n k j : Nat) : BitVec 16

/-- ARGS of the header of packet `n`, `k`: R319 names what they hold and not where (free value, log 126). -/
opaque packetArgs (n k : Nat) : BitVec 128

end Sys2Proof.Config
end

