-- ==== Sys2Proof/Machine/State.lean ====
section
/-!
DEFINITION. The state of the package as plain data: every hart, core, array, die and package register the manual names, the
operations and messages that have been issued and not yet finished, memory, and the model's own agenda of turns.
Cores and arrays are held sparsely: one that is not listed stands as reset leaves it.
-/

namespace Sys2Proof.Machine

/-- A register of one of the four files. -/
inductive RegRef where
  | g (r : BitVec 5)
  | v (r : BitVec 5)
  | m (r : BitVec 4)
  | k (r : BitVec 3)
deriving DecidableEq, Repr

/-- How control came to the word at PC, as R57 asks for positions 5 and 6. -/
inductive Arrival where
  | fall
  | taken
  | tret
deriving DecidableEq, Repr

/-- Which half of an issue a word stands in (R47, R50). -/
inductive Slot where
  | lone
  | cHalf
  | aHalf
deriving DecidableEq, Repr

/-- What the last `exec` did: the model's own note for the issue slot and for statements. A trap carries the step of R56 at which the
check failed; 10 is a fault of execution, after every check. -/
inductive Disp where
  /-- nothing has been executed yet -/
  | none
  /-- the instruction retired -/
  | retired
  /-- the instruction took a trap, found at this step of R56 -/
  | trapped (stage : Nat)
  /-- the instruction did not issue: its hart is not ready (R94) -/
  | held
  /-- the instruction issued and its hart now waits in it -/
  | waiting
  /-- the step of the package took place -/
  | occurred
  /-- the step of the package could not take place, and nothing changed -/
  | idle
deriving DecidableEq, Repr

/-- Where control goes when the issued instruction retires (R50, R108, R109): the model's own note from a meaning to `retire`. -/
inductive Flow where
  /-- to the next instruction, by way of a loop wrap where one is due -/
  | next
  /-- a lone PFX: as `next`, and its prefix stays pending (R68) -/
  | pfx
  /-- a taken branch, jump or LBRK -/
  | taken (target : W)
  /-- a LOOP or LOOPI of count 0: past its end word (R108) -/
  | skip (last : W)
  /-- TRET, to the saved pc (R104) -/
  | tret (target : W)
  /-- as `next`, and then a loop register takes the value that a CSR instruction writes (R92, R110): 0 LPS, 1 LPE, 2 LPC, each of level
  `i`, or 3 LPD, of which DEPTH and SDEPTH change where `m` has them touched -/
  | loops (which : BitVec 2) (i : Nat) (x m : W)
deriving DecidableEq, Repr

/-- What a hart waits in (R94, R104). -/
inductive Wait where
  | none
  | wfi
  /-- WAITA: destination, address, bytes, compared value, CYCLE at the start and at the last read, and whether a read is under way -/
  | waita (d : BitVec 5) (va : W) (size : Nat) (cmp : W) (start last : W) (reading : Bool)
  | next (d : BitVec 5)
  | twait (t : W)
  | gjoin (d : BitVec 5) (g : W)
  /-- GBAR: the group; whether the hart was not awaited in the episode open at its arrival -/
  | gbar (g : BitVec 12) (late : Bool)
  /-- HSTART or HSTOP, until the target core acknowledges this command -/
  | hart (id : Nat)
  /-- an operation whose trap is precise, until its result is known (R125, R130, R158) -/
  | precise
  /-- DEQ or DEQV: destination, queue -/
  | deq (d : RegRef) (q : BitVec 5)
  /-- an atomic, ENQN, XSHAPE or other access whose answer the hart waits for: the access -/
  | access (id : Nat)
  /-- WWAIT: destination, slot, target count -/
  | wwait (d : BitVec 5) (s : BitVec 4) (n : BitVec 32)
  /-- WSTART that has passed its checks: the slot -/
  | wstart (s : BitVec 4)
  /-- a TLBINV write, until the drain ends -/
  | tlbinv
deriving DecidableEq, Repr

/-- The operands of a vector or moment operation as they stood at its issue (R130, R161). -/
structure OpCtx where
  /-- the instruction -/
  op : Instr
  /-- the pending PFX fields, bits 28 to 7 of the word; zero for none -/
  pfx : BitVec 22
  a : VReg
  b : VReg
  d : VReg
  d1 : VReg
  ma : MReg
  mb : MReg
  md : MReg
  ga : W
  gb : W
  ka : W
  kb : W
  mask : W
  fpstat : BitVec 13
  scale : Vector (BitVec 32) 8
  momode : BitVec 13
  cov : VReg
deriving DecidableEq, Repr

/-- Where a waiting instruction stands: its slot and the instruction. -/
structure WaitAt where
  slot : Slot
  op : Instr
deriving DecidableEq, Repr

/-- A value for a register, with the register (R130: an operation writes v, k, g or m registers). -/
structure RegWrite where
  r : RegRef
  x : BitVec 1024
deriving DecidableEq, Repr

/-- What an accepted operation will do when it completes: its writes, the flags NV DZ OF UF NX in [4:0], the lanes with a bad
variance and whether such a lane held a NaN or a negative value (R171). -/
structure OpResult where
  writes : List RegWrite
  flags : BitVec 5
  bad : BitVec 16
  badNan : Bool
  badNeg : Bool
deriving DecidableEq, Repr

/-- The kinds of operation that a hart has issued and that are not complete. -/
inductive PendKind where
  /-- integer divide: destination and result (R117) -/
  | div (d : BitVec 5) (x : W)
  /-- FDIV or FSQRT: destination, result, flags (R125) -/
  | fdiv (d : BitVec 5) (x : W) (flags : BitVec 5)
  /-- vector operation not yet accepted (R129) -/
  | vecIssued (o : OpCtx)
  /-- vector operation accepted -/
  | vecAccepted (r : OpResult)
  /-- moment operation not yet accepted (R157) -/
  | momIssued (o : OpCtx)
  /-- moment operation accepted -/
  | momAccepted (r : OpResult)
  /-- local load: destination and bytes read, and for a vector load the memory format, the lane format and whether one element goes
  to every lane (R212, R214) -/
  | localLoad (r : RegRef) (x : BitVec 512) (conv : Option (BitVec 4 × BitVec 4 × Bool))
  /-- a precise operation whose result is known and raises no trap: its instruction, still at the pc, takes it and retires -/
  | ready (r : OpResult)
deriving DecidableEq, Repr

/-- An operation issued and not complete, with its instruction and the registers that it will write. -/
structure Pend where
  id : Nat
  /-- the number of the hart's next access when it was issued: accesses from there on are younger (R249, R263) -/
  seq : Nat
  op : Instr
  kind : PendKind
  dsts : List RegRef
  /-- a trap enable was set at issue (R125, R130, R158): the instruction stays at the pc and the hart issues nothing until the
  result is known -/
  precise : Bool
deriving DecidableEq, Repr

/-- A record of the replay log (R249): the old value of a register that a younger instruction writes, or a younger access
that has been performed. -/
inductive LogRec where
  /-- `key` is twice the next sequence number for an instruction without one, and twice its own plus one for an access -/
  | reg (key : Nat) (r : RegRef) (old : BitVec 1024) (full : Bool)
  /-- address and size of every element, and the values side by side -/
  | done (seq : Nat) (kind : BitVec 2) (els : List (W × Nat)) (x : BitVec 512)
deriving DecidableEq, Repr

/-- A group of ticket-table entries frozen by a trap, with its log (R253). The accesses themselves stay in the package's list. -/
structure Frozen where
  pc : W
  oldest : Nat
  nseq : Nat
  log : List LogRec
deriving DecidableEq, Repr

/-- What an interrupt taken while accesses are unconfirmed has changed, so that a rewind to one of them undoes it (R251, log 11): the number
of the next access, the trap registers and the status as they stood. -/
structure IntMark where
  seq : Nat
  trpc : W
  trcause : W
  traddr : W
  trinfo : W
  mode : BitVec 2
  pmode : BitVec 2
  pie : Bool
  ie : Bool
  spp : Bool
deriving DecidableEq, Repr

/-- A fetch block (R239): the 64 bytes at this line of memory as they were fetched. -/
structure Block where
  line : Nat
  bytes : BitVec 512
deriving DecidableEq, Repr

/-- A shape record in its slot (R295). -/
structure Shape where
  esz : BitVec 3
  aln : BitVec 4
  dims : BitVec 2
  n0 : BitVec 32
  n1 : BitVec 32
  n2 : BitVec 32
  ss1 : W
  ss2 : W
  ds1 : W
  ds2 : W
deriving DecidableEq, Repr

/-- The general registers of a hart and their full bits (R60, R88). -/
structure Regs where
  g : Vector W 32
  v : Vector VReg 32
  m : Vector MReg 16
  k : Vector W 8
  gFull : BitVec 32
  vFull : BitVec 32
  mFull : BitVec 16
deriving DecidableEq, Repr

/-- The trap registers of a hart (R101, R103, R105) and its watches (R344). -/
structure TrapRegs where
  tvec : W
  trpc : W
  trcause : W
  traddr : W
  trinfo : W
  tscratch : W
  ien : BitVec 32
  soft : Bool
  /-- sources 15 to 12 -/
  edge : BitVec 4
  deleg : W
  watch : Vector W 2
  wctl : Vector (BitVec 16) 2
  /-- a TRET has come since SKIP was set on the watch (R344) -/
  armed : BitVec 2
deriving DecidableEq, Repr

/-- The loop stack of a hart (R106, R110). -/
structure Loops where
  lps : Vector W 4
  lpe : Vector W 4
  lpc : Vector W 4
  depth : BitVec 3
  sdepth : BitVec 3
deriving DecidableEq, Repr

/-- The arithmetic CSRs of a hart (R32, R39, R132, R159, R160). -/
structure Arith where
  fpstat : BitVec 13
  scale : Vector (BitVec 32) 8
  vops : W
  momode : BitVec 13
  moflags : BitVec 2
deriving DecidableEq, Repr

/-- The hart's side of the matrix arrays (R182, R186, R194). -/
structure MxHart where
  held : Bool
  queued : Bool
  rev : Bool
  nx : Bool
  uf : Bool
  of : Bool
  nv : Bool
  iov : Bool
  array : BitVec 7
  used : BitVec 8
  lastst : Byte
  desc : W
  lbase : W
  valid : Bool
  lastArr : BitVec 7
  lastSeq : BitVec 32
  /-- buffer, format code and pair flag of the last MXLDB -/
  lastLoad : Option (Bool × BitVec 4 × Bool)
  /-- the hart has issued an MXLDB since it started (R181) -/
  loaded : Bool
  /-- destination of a LEASH that waits for its grant -/
  leashD : Option (BitVec 5)
deriving DecidableEq, Repr

/-- The reaction CSRs of a hart (R270) and its post index (R282). -/
structure React where
  curt : W
  curm : BitVec 32
  curp : BitVec 4
  curs : W
  rxpc : W
  posts : Byte
  /-- an abort has reached the active reaction and its restart is due (R274) -/
  abort : Bool
deriving DecidableEq, Repr

/-- The batches of a hart (R291 to R293, R303) and its shape slots (R296). -/
structure Batch where
  bopen : BitVec 16
  bdone : BitVec 16
  /-- status byte of recent batch numbers, newest first -/
  status : List (BitVec 16 × Byte)
  /-- reporting mode, handle endpoint and handle of each sealed unfinished batch -/
  sealed : List (BitVec 16 × W × W)
  xcomp : W
  xhandle : W
  slots : Vector (Option Shape) 8
deriving DecidableEq, Repr

/-- One hart (R88). -/
structure Hart where
  regs : Regs
  pc : W
  stopped : Bool
  mode : BitVec 2
  pmode : BitVec 2
  pie : Bool
  ie : Bool
  pp : Bool
  rx : Bool
  tkp : Bool
  we : Bool
  /-- the half of the next issue that has met an empty register under W = 0, whose trap waits for older accesses (R62, R250) -/
  emptyMet : Option Slot
  arrival : Arrival
  wait : Wait
  /-- the instruction that waits; none when the hart does not wait in one -/
  waitAt : Option WaitAt
  pause : Nat
  prio : BitVec 2
  lost : Nat
  spp : Bool
  fields : BitVec 22
  cycOff : W
  instret : W
  waitlim : BitVec 32
  agid : BitVec 16
  trap : TrapRegs
  loops : Loops
  arith : Arith
  mx : MxHart
  react : React
  batch : Batch
  pend : List Pend
  tkEv : Bool
  tklim : BitVec 32
  nseq : Nat
  log : List LogRec
  frozen : List Frozen
  /-- the interrupts taken over accesses that were unconfirmed, oldest first -/
  intMarks : List IntMark
  /-- the fetch block that the hart issues from -/
  block : Option Block
deriving DecidableEq, Repr

/-- A tagged message held in an inbox or by a reaction (R267). `t`, `m` order it; `ot`, `om` are its original tag. -/
structure InMsg where
  t : W
  m : BitVec 32
  port : BitVec 4
  score : CoreId
  shart : HartId
  pidx : Byte
  sptc : W
  payload : VReg
  ot : W
  om : BitVec 32
  /-- delivered under the deliver-flagged policy, safe at once (R275) -/
  late : Bool
  /-- the reaction of the receiving core itself that posted it, if one did (R274) -/
  selfKey : Option Nat
  /-- place in the order of arrival (R267) -/
  arr : Nat
  /-- PTC, HZN, HZNM, LFT and LFTM of the core when it accepted the message (R278) -/
  aptc : W
  ahzn : W
  ahznm : W
  alft : W
  alftm : BitVec 32
deriving DecidableEq, Repr

/-- A reaction that has fired and not committed (R271). -/
structure Reaction where
  /-- a number of its own -/
  id : Nat
  t : W
  m : BitVec 32
  hart : HartId
  msg : InMsg
  escaped : Bool
deriving DecidableEq, Repr

/-- An entry of the ordered store buffer: bytes of one line for one reaction (R236). `line` counts 64-byte lines of physical
memory; bit i of `mask` tells that byte i is held. -/
structure OrdEntry where
  /-- the reaction -/
  rid : Nat
  t : W
  m : BitVec 32
  hart : HartId
  line : Nat
  mask : W
  data : VReg
deriving DecidableEq, Repr

/-- The entry of one reaction in a line's read record (R236). -/
structure ReadRec where
  line : Nat
  core : CoreId
  t : W
  m : BitVec 32
  hart : HartId
  /-- the reaction -/
  rid : Nat
deriving DecidableEq, Repr

/-- The tag state of a core (R265 to R279). -/
structure Tags where
  terr : BitVec 16
  /-- offset of this core's clock from the reference, in ns, two's complement -/
  skew : BitVec 16
  /-- the greatest value PTC has shown -/
  held : W
  safeofs : BitVec 32
  flb : BitVec 32
  tcnt : BitVec 16
  tpf : Bool
  portcfg : Vector W 16
  inbox : List InMsg
  lft : W
  lftm : BitVec 32
  /-- tag of the last committed reaction (R274) -/
  cft : W
  cftm : BitVec 32
  /-- harts that wait in NEXT, earliest first (R281) -/
  nexters : List HartId
  hzn : W
  hznm : W
  ltHead : Byte
  ltTail : Byte
  ltPend : Bool
  ltOvf : Bool
  ltBase : BitVec 12
  ltSz : BitVec 3
  lthart : BitVec 2
  active : Option Reaction
  window : List Reaction
  obuf : List OrdEntry
  /-- an abort has been called for, from the reaction of this read record on (R236) -/
  doomed : Option ReadRec
deriving DecidableEq, Repr

/-- A collective wave in flight or staged (R332, R334): its sender, and what it brings. Bytes and elements carry whether their line was
poisoned at the source. -/
structure Wave where
  id : Nat
  core : CoreId
  hart : HartId
  slot : BitVec 4
  gen : BitVec 16
  ctx : BitVec 16
  agid : BitVec 16
  mode : BitVec 2
  reduce : Bool
  dst : W
  dslot : BitVec 4
  typ : BitVec 2
  op : BitVec 2
  nel : Nat
  /-- the destination is a list buffer -/
  dl : Bool
  /-- a reduce wave brings a list: pairs of index and value -/
  list : Bool
  pairs : List (Nat × BitVec 32 × Bool)
  elems : List (BitVec 32 × Bool)
  raw : List (Byte × Bool)
  /-- the reach port of its peer has answered for it (R327) -/
  dead : Bool := false
  /-- packets of it that have come to its destination -/
  got : Nat := 0
deriving DecidableEq, Repr

/-- A collective slot (R329, R334), with the party that armed it. -/
structure CSlot where
  arm : Bool
  pers : Bool
  err : Bool
  done : Bool
  gen : BitVec 16
  count : BitVec 32
  ctx : BitVec 16
  hart : HartId
  agid : BitVec 16
  mode : BitVec 2
  /-- address of the next entry not yet fired; none at the end of the chain -/
  cursor : Option W
  /-- addresses of the entries fired in this generation -/
  fired : List W
  chain : W
  stageBase : Nat
  stageLen : Nat
  /-- waves staged for the next generation, in arrival order -/
  staged : List Wave
  /-- identities of the waves sent in this generation and not yet answered -/
  owed : List Nat
  outcome : BitVec 4
  problems : BitVec 4
  /-- NV, OF, UF, NX, IOV -/
  flags : BitVec 5
deriving DecidableEq, Repr

/-- An entry of a TLB: a page of a context with the leaf's permissions (R245, R247). -/
structure TlbEntry where
  ctx : BitVec 16
  vpn : BitVec 36
  /-- 0: 4 KiB, 1: 2 MiB, 2: 1 GiB -/
  size : BitVec 2
  frame : BitVec 36
  r : Bool
  w : Bool
  x : Bool
  u : Bool
  /-- translated through the host (R259) -/
  host : Bool
deriving DecidableEq, Repr

/-- Memory CSRs of a core (R198, R199, R208, R248) and its TLB (R247). -/
structure CoreMem where
  lguard : Vector W 8
  winbase : W
  ctxid : BitVec 16
  agtab : W
  ptbase : W
  hpasid : W
  tlb : List TlbEntry
deriving DecidableEq, Repr

/-- Channel endpoints and event FIFOs of a core (R306, R310). -/
structure Channels where
  chin : Vector W 16
  chptr : Vector W 16
  chout : Vector W 16
  fifos : Vector (List W) 8
  evstat : Byte
  /-- harts waiting in DEQ or DEQV with their queue, in issue order (R308) -/
  takers : List (HartId × BitVec 5)
deriving DecidableEq, Repr

/-- Containment, stop and power CSRs of a core (R325, R347, R350, R351, R357 to R360, R373 to R375). -/
structure CoreSys where
  fabcfg : W
  fabstat : W
  heelctx : BitVec 16
  stopcyc : W
  sent : BitVec 32
  rcvd : BitVec 32
  /-- tagged and channel messages sent, and accepted, since the last release: what STOPMSG will show at the next stop (R358) -/
  outs : BitVec 32
  ins : BitVec 32
  savebase : W
  switcht : W
  kennel : W
  fenced : Bool
  kentry : W
  /-- harts of a fenced kennel restart into the stopped state (R349) -/
  fenceDet : BitVec 3
  fenceAddr : W
  fenceBy : CoreId
  chkstat : W
  /-- lines of the local store that have shown an uncorrectable error, and whether one did so again after it was written whole (R356) -/
  ueLines : List Nat
  worn : Bool
  lrstat : W
  pwrcls : BitVec 2
  rate : Byte
  req : BitVec 16
  grant : BitVec 16
  fwmask : BitVec 16
  /-- stopped by the heel tree (R357) -/
  heeled : Bool
  /-- low-power state after HALT (R100) -/
  low : Bool
deriving DecidableEq, Repr

/-- One core. -/
structure Core where
  harts : Vector Hart 4
  cycles : W
  /-- the hart that last issued at each priority (R95) -/
  lastAt : Vector (Option HartId) 4
  cblo : W
  cbhi : W
  mem : CoreMem
  tags : Tags
  chan : Channels
  slots : Vector CSlot 16
  colldens : BitVec 16
  sys : CoreSys
deriving DecidableEq, Repr

/-- Where a part of an access is bound (R195, R200, R202). -/
inductive Target where
  /-- the issuing core's own store -/
  | own (off : Nat)
  /-- a physical address, and the size of the page through which it was translated -/
  | phys (pa : BitVec 48) (page : BitVec 2)
  | peer (pkg : BitVec 4) (core : CoreId) (win : BitVec 4) (off : BitVec 36)
deriving DecidableEq, Repr

/-- How far one part of an access has come (R249). -/
inductive Stage where
  /-- at a translation slice, to be walked (R246) -/
  | slice
  /-- the slice waits for the host's ATS completion (R259) -/
  | ats
  /-- on the way to its target -/
  | sent (t : Target)
  /-- performed; the answer with the data is on the way back -/
  | answered (x : BitVec 512)
  /-- refused with this cause (R201), and the address of the poisoned line if one is the reason (R343, R348) -/
  | refused (cause : BitVec 9) (poison : Option W)
  /-- a ticket is on the way to the hart -/
  | ticket (slice : BitVec 6) (num : BitVec 16)
  /-- the hart holds the ticket -/
  | parked (slice : BitVec 6) (num : BitVec 16)
  /-- the hart knows of its fault: cause, slice and ticket number if a ticket came first, address of a poisoned line -/
  | fault (cause : BitVec 9) (info : BitVec 22) (poison : Option W)
  /-- confirmed, with the value returned -/
  | done (x : BitVec 512)
  /-- not performed: to be sent afresh at replay (R251) -/
  | undone
  /-- its slice has lost the ticket that it waited on: a fault with cause 0x1C5, reason 2, once its hart stands at it (R254) -/
  | lost
deriving DecidableEq, Repr

/-- One part of an access: an element of a vector access, or the whole of any other. -/
structure Part where
  n : Nat
  va : W
  size : Nat
  data : BitVec 512
  stage : Stage
deriving DecidableEq, Repr

/-- What an access is for. -/
inductive AccOp where
  /-- scalar load: destination, sign extension -/
  | load (d : BitVec 5) (sx : Bool)
  | store
  /-- vector load: destination, memory format, lane format, all lanes from one element -/
  | vload (d : BitVec 5) (ff tf : BitVec 4) (bc : Bool)
  | vstore
  /-- atomic: function, destination, operand register value, expected value -/
  | atomic (fn : BitVec 5) (d : RegRef) (b : BitVec 512) (cmp : W)
  /-- ordered load; in a reaction, with the tag of its key and its number (R236) -/
  | tload (d : RegRef) (sx : Bool) (key : Option (W × BitVec 32 × Nat))
  /-- ordered store of the reaction with this tag and number, and its cause for a full buffer (R236) -/
  | tstore (t : W) (m : BitVec 32) (rid : Nat) (full : BitVec 9)
  /-- STF: part 0 is the data store, part 1 the flag (R218) -/
  | stf
  | waita
  | shape (slot : BitVec 3)
  /-- a translation alone, by which no byte is read or written, as an access of this kind (1 load, 2 store, 3 atomic) would be translated:
  for XSCAT's bin table (R301), an A row of MXRUN (R188), an element that a watch matches (R345), or an engine (R259) -/
  | xlat (kind : BitVec 2)
  /-- a message whose acceptance confirms it: POST, POSTP, ENQ, ENQV; ENQN with its status register -/
  | message (status : Option (BitVec 5))
deriving DecidableEq, Repr

/-- What a rewind to an instruction brings back beside the logged registers (R251, R263): its address, the loop stack, the pending
prefix, the count of retired words, and the flags of FPSTAT and MOFLAGS that older instructions have set (R51). -/
structure Resume where
  pc : W
  loops : Loops
  pp : Bool
  fields : BitVec 22
  instret : W
  arrival : Arrival
  fpstat : BitVec 13
  moflags : BitVec 2
deriving DecidableEq, Repr

/-- An access of a hart, from issue until it and every older access are confirmed: the entry of the ticket table (R249). -/
structure Access where
  id : Nat
  core : CoreId
  hart : HartId
  seq : Nat
  mark : Resume
  ctx : BitVec 16
  agid : BitVec 16
  mode : BitVec 2
  op : AccOp
  vec : Bool
  plain : Bool
  /-- no younger access of the hart is performed before this one (R225) -/
  acq : Bool
  /-- the hart no longer awaits the answer: it was stopped or fenced since, or an engine sent it (R99, R259, R350) -/
  orphan : Bool
  /-- its answer is discarded: its kennel was fenced (R350) -/
  mute : Bool
  parts : List Part
  /-- 0 while live; k for the k-th frozen group from the bottom (R253) -/
  frozen : Nat
  /-- CYCLE of the hart when its ticket arrived (R254) -/
  since : W
deriving DecidableEq, Repr

/-- A tagged message in flight (R282). -/
structure PostMsg where
  id : Nat
  core : CoreId
  hart : HartId
  ctx : BitVec 16
  /-- package of the endpoint; 0 for this one -/
  pkg : BitVec 4
  dst : CoreId
  port : BitVec 4
  t : W
  m : BitVec 32
  pidx : Byte
  sptc : W
  payload : VReg
  /-- the access that its acceptance confirms -/
  acc : Nat
  /-- refused at least once by a full inbox, to be resent (R267) -/
  full : Bool
  /-- the reaction that posted it -/
  fromReaction : Option Nat
deriving DecidableEq, Repr

/-- A channel message in flight or held (R307); endpoint 16 of a core stands for its front end's software FIFO (R304, R366). -/
structure ChanMsg where
  id : Nat
  core : CoreId
  hart : HartId
  ctx : BitVec 16
  agid : BitVec 16
  dst : CoreId
  chan : BitVec 5
  wide : Bool
  data : VReg
  /-- the access that its acceptance confirms; none for a batch report -/
  acc : Option Nat
  /-- ENQN: a full ring refuses it -/
  once : Bool
  held : Bool
  /-- the batch that finishes when this report is accepted (R303) -/
  batch : Option (BitVec 16)
deriving DecidableEq, Repr

/-- An HSTART or HSTOP in flight (R99). -/
structure HartCmd where
  id : Nat
  start : Bool
  dst : CoreId
  target : HartId
  pc : W
  core : CoreId
  hart : HartId
  mode : BitVec 2
deriving DecidableEq, Repr

/-- An event record in flight (R310, R311). -/
structure EvMsg where
  id : Nat
  /-- its producer: records of one producer reach a FIFO in order (R310) -/
  src : Nat
  core : CoreId
  fifo : BitVec 5
  record : W
deriving DecidableEq, Repr

/-- One row's partial sums on their way to one owner (R189). -/
structure PartialMsg where
  id : Nat
  array : BitVec 7
  seq : BitVec 32
  core : CoreId
  addr : Nat
  /-- row of the run -/
  row : Nat
  acc : Bool
  /-- means, then variances of a moment rectangle, in ascending column order -/
  means : List (BitVec 32)
  vars : List (BitVec 32)
deriving DecidableEq, Repr

/-- A B buffer of an array (R182, R185): the tile's bytes as loaded, its format, and what a CB4 tile expands through. -/
structure BBuf where
  loader : Option (CoreId × HartId)
  fmt : BitVec 4
  q : Nat
  p : Nat
  ce : Bool
  cblo : W
  cbhi : W
  pair : Bool
  tile : List Host.Cell
  tile2 : List Host.Cell
  /-- a checksum failed twice, or a line was unreadable: status that its runs end with; 0 for a good buffer -/
  bad : BitVec 4
deriving DecidableEq, Repr

/-- A command sent to an array (R185, R188, R192). -/
structure MxCmd where
  /-- 0 load, 1 run, 2 zero -/
  kind : BitVec 2
  core : CoreId
  hart : HartId
  ctx : BitVec 16
  mode : BitVec 2
  agid : BitVec 16
  tile : BitVec 8
  pair : Bool
  fmt : BitVec 4
  q : Nat
  p : Nat
  ce : Bool
  cblo : W
  cbhi : W
  buf : Bool
  addr : W
  stride : W
  rows : Nat
  orow : Nat
  acc : Bool
  mmode : BitVec 2
  scale : BitVec 32
  desc : W
  lbase : W
  d : BitVec 5
  /-- flags of the product of the two scales (R44), in FPSTAT's order -/
  sflags : BitVec 5
  /-- a load that a revocation has met before it was made: it names no loader (R178) -/
  lost : Bool
deriving DecidableEq, Repr

/-- A command that an array has accepted and not completed (R188 to R191). -/
structure Run where
  cmd : MxCmd
  seq : BitVec 32
  next : Nat
  owed : Nat
  applied : Nat
  outcome : BitVec 4
  flags : BitVec 4
deriving DecidableEq, Repr

/-- The record of a finished command: sequence, context, rows applied, status (R191). -/
structure RunRec where
  seq : BitVec 32
  ctx : BitVec 16
  rows : Nat
  status : Byte
deriving DecidableEq, Repr

/-- One matrix array (R175 to R191). -/
structure Arr where
  holder : Option (CoreId × HartId)
  fifo : List (CoreId × HartId)
  cmds : Nat
  rows : Nat
  /-- LEASECFG.COUNT, and the value that the present lease took at its grant -/
  count : BitVec 7
  limit : BitVec 7
  buf0 : BBuf
  buf1 : BBuf
  lastBuf : Bool
  queue : List MxCmd
  runs : List Run
  seq : BitVec 32
  lastDone : BitVec 32
  recs : List RunRec
deriving DecidableEq, Repr

/-- A group of harts (R111, R114). -/
structure Group where
  id : BitVec 12
  ctx : BitVec 16
  members : List (CoreId × HartId × Nat)
  isOpen : Bool
  awaited : List (CoreId × HartId)
  arrived : List (CoreId × HartId)
  episode : BitVec 32
  /-- members that were in a handler when their episode completed: their re-executed GBAR retires -/
  owed : List (CoreId × HartId)
deriving DecidableEq, Repr

/-- The kinds of streamer command (R298 to R301). -/
inductive CmdKind where
  | copy
  | fill (pattern : W)
  | copys (s : Shape)
  | gath (s : Shape) (list : W) (n : Nat)
  | scat (s : Shape) (list : W) (n : Nat)
deriving DecidableEq, Repr

/-- A run of bytes that a command moves: source, destination, length; `bad` when it cannot be moved because its source (false) or its destination (true)
has left the space of its range, or a dead peer has answered for it (R288, R298, R302, R327). -/
structure Piece where
  src : W
  dst : W
  len : Nat
  bad : Option Bool
  /-- the row of XGATH or XSCAT that it belongs to -/
  row : Option Nat
  /-- its number among the pieces of its command -/
  no : Nat
  /-- its packet has come to the destination, where it waits for the rest of its segment or row -/
  here : Bool := false
deriving DecidableEq, Repr

/-- A streamer command not complete (R289). -/
structure Cmd where
  id : Nat
  core : CoreId
  hart : HartId
  ctx : BitVec 16
  agid : BitVec 16
  mode : BitVec 2
  batch : BitVec 16
  kind : CmdKind
  dst : W
  src : W
  len : Nat
  /-- cut into pieces already (STREAMER_COMMAND) -/
  cut : Bool
  /-- the pieces still to be moved, and all that have been cut so far -/
  pieces : List Piece
  made : List Piece
  /-- rows of XSCAT that have taken their bin slot -/
  row : Nat
  /-- a problem of this command has already posted its record (R302) -/
  told : Bool
  /-- where problems have been counted: 0 with a source segment, 1 with a destination segment, 2 with a row (R302) -/
  segs : List (Nat × Nat)
deriving DecidableEq, Repr

/-- A ticket open at a slice (R246, R249). -/
structure Ticket where
  slice : BitVec 6
  num : BitVec 16
  ctx : BitVec 16
  core : CoreId
  hart : HartId
  agid : BitVec 16
  vpn : BitVec 36
  kind : BitVec 2
  level : BitVec 2
  /-- 0 not present, 1 walk node, 2 migrating, 3 host refused, 4 first write of a replayable launch (R352) -/
  reason : BitVec 3
  /-- answered by the memory service: some cause is a fault, none a notice; not yet delivered -/
  answer : Option (Option (BitVec 9))
  /-- an engine waits on it, which takes the answer itself (R256) -/
  engine : Bool
  /-- of a fetch: CYCLE of the hart when the ticket reached it (R254) -/
  since : Option W
deriving DecidableEq, Repr

/-- A range of a context's global space declared to the memory service (R257). -/
structure Declared where
  ctx : BitVec 16
  lo : Nat
  hi : Nat
  r : Bool
  w : Bool
  x : Bool
  u : Bool
deriving DecidableEq, Repr

/-- Who waits for the end of an invalidation (R257, R258, R260): a hart that wrote TLBINV, the host, by PASID, page and size, or the service. -/
inductive DrainFor where
  | hart (c : CoreId) (h : HartId)
  | host (p : BitVec 20) (v : BitVec 36) (z : BitVec 2)
  /-- the memory service itself, which moves this page or table of a context (R257) -/
  | move (ctx : BitVec 16) (v : BitVec 36) (level : Nat)
deriving DecidableEq, Repr

/-- An invalidation under way: the parts of accesses, by access and number, that went through a removed entry and are still to be
performed (R258). -/
structure Drain where
  waiter : DrainFor
  parts : List (Nat × Nat)
deriving DecidableEq, Repr

/-- A page shadowed for a replayable launch (R352), or charged, quarantined or swapped: the memory service's own books. -/
structure Books where
  declared : List Declared
  /-- frame number, context and agent charged, units (R210) -/
  charged : List (BitVec 36 × BitVec 16 × BitVec 16 × Nat)
  /-- frames that the service has taken for page tables, with their context (R257) -/
  tables : List (BitVec 36 × BitVec 16)
  /-- pages that have been touched: context and page (R257) -/
  touched : List (BitVec 16 × BitVec 36)
  /-- context, page, original frame, shadow frame -/
  shadows : List (BitVec 16 × BitVec 36 × BitVec 36 × BitVec 36)
  /-- frames in quarantine, and frames withdrawn for good (R355) -/
  quarantine : List (BitVec 36)
  withdrawn : List (BitVec 36)
  tickets : List Ticket
  sliceTlb : List (BitVec 6 × TlbEntry)
  /-- invalidations not yet ended, oldest first (R258, R260) -/
  drains : List Drain
  /-- saved answers to tickets of contexts that are switched out: context, slice, number, and the cause of a fault (R256) -/
  savedNotices : List (BitVec 16 × BitVec 6 × BitVec 16 × Option (BitVec 9))
deriving DecidableEq, Repr

/-- Capacity registers and the work of a stack retirement (R205 to R207). -/
structure Capacity where
  pend : Bool
  active : BitVec 12
  bytes : BitVec 48
  isOpen : Bool
  rstk : BitVec 4
  phase : BitVec 16
  cursor : BitVec 40
  /-- the stack whose retirement has been announced and whose phase is not open -/
  target : Option (BitVec 4)
  /-- the open phase has ended step 6 (R206) -/
  bounced : Bool
  /-- MEMCAP has changed since reset: source 12 is pending on every core that is not listed (R205) -/
  changed : Bool
deriving DecidableEq, Repr

/-- A stage of a launch (R367). -/
structure StageEntry where
  entry : W
  image : W
  len : Nat
  height : Nat
  width : Nat
  harts : Nat
deriving DecidableEq, Repr

/-- An edge of a launch graph (R368). -/
structure EdgeEntry where
  src : Nat
  dst : Nat
  fep : Nat
  tep : Nat
  typ : Nat
  policy : Nat
  slots : Nat
deriving DecidableEq, Repr

/-- A launch that the front end has taken (R363 to R371). -/
structure Launch where
  id : Nat
  /-- registered queue it came from; none for a device launch -/
  queue : Option (BitVec 12)
  ctx : BitVec 16
  agid : BitVec 16
  /-- the core that enqueued a device launch -/
  by_ : CoreId
  desc : W
  /-- 0 taken, 1 accepted, 2 bound and running, 3 over, with its report still to be made -/
  phase : BitVec 2
  /-- kind of the record that it reports with (R371) -/
  kind : Byte
  status : Byte
  rpl : Bool
  lim : Byte
  rcnt : Byte
  param : W
  compl : W
  stages : List StageEntry
  edges : List EdgeEntry
  /-- cores bound, by stage -/
  cores : List (List CoreId)
  /-- physical root table of the context, which binding writes to PTBASE (R370) -/
  root : W
  /-- a replay is due, for an error of this detector (R353) -/
  replay : Option (BitVec 3)
deriving DecidableEq, Repr

/-- A registered queue (R363, R364, R365). -/
structure QueueRec where
  qidx : BitVec 12
  pa : BitVec 48
  rung : Bool
  /-- times passed over since it was last served (R365) -/
  passes : Nat
  /-- hardware slot, and when it last had nothing to take -/
  slot : Option (BitVec 6)
  stamp : Nat
deriving DecidableEq, Repr

/-- The front end and its queues. -/
structure FrontEnd where
  queues : List QueueRec
  /-- descriptors in each die's software FIFO: die, descriptor, context, agent, enqueuing core -/
  soft : List (BitVec 2 × W × BitVec 16 × BitVec 16 × CoreId)
  launches : List Launch
  /-- place in slot order of the queue served last (R365) -/
  last : Nat
  /-- passes of the device queues, by context (R365, R366) -/
  passes : List (BitVec 16 × Nat)
deriving DecidableEq, Repr

/-- A link's state (R322): when frames failed in the last 4 096 core cycles, and whether it retrains. -/
structure Link where
  id : Nat
  fails : List W
  retrain : Bool
deriving DecidableEq, Repr

/-- The signed configuration table (R12, R373): the width of the firmware column minus 1, and the cores with a role: 01 front end, 10 memory
service, 11 host service. -/
structure BootTable where
  wm1 : BitVec 2
  roles : List (CoreId × BitVec 2)
deriving DecidableEq, Repr

/-- A firmware slot (R376): its image and table, and whether the Ed25519 and the ML-DSA-65 signature over both verify. -/
structure FwSlot where
  image : List Byte
  table : BootTable
  ed25519 : Bool
  mlDsa65 : Bool
deriving DecidableEq, Repr

/-- The firmware in flash (R376): slots A and B, and the two marker copies M0 and M1 of 32 bytes. -/
structure Flash where
  slotA : FwSlot
  slotB : FwSlot
  m0 : BitVec 256
  m1 : BitVec 256
deriving DecidableEq, Repr

/-- How far boot has come (R21, R373, R377). -/
inductive Boot where
  /-- the boot ROM has not chosen a slot yet: what boot sets is not set -/
  | pending
  /-- the slot booted, 0 A or 1 B, and its table -/
  | done (slot : BitVec 1) (table : BootTable)
  /-- no slot verifies: the compute dies stay in reset, and the management controller reports no firmware -/
  | noFirmware
deriving DecidableEq, Repr

/-- Reach ports (R326, R327), links, the per-die and package registers of the fault chapter, and what boot has chosen. -/
structure PkgSys where
  rpState : Vector (BitVec 2) 8
  rpPeer : Vector (BitVec 4) 8
  rpRepl : Vector (BitVec 16) 8
  /-- when a port's link went down (R327) -/
  rpDown : Vector (Option W) 8
  rproute : W
  rpid : BitVec 4
  links : List Link
  /-- per die: BASE, SZ and EN of ELOGBASE, and TAIL (R343) -/
  elog : Vector W 4
  recallBusy : Bool
  recallCtx : BitVec 16
  /-- the context that the flood in progress kills, and contexts whose kill waits for its end (R354, R359) -/
  victim : BitVec 16
  kills : List (BitVec 16)
  /-- cores that have not yet confirmed the flood, and cores whose sweep runs (R359) -/
  floodDue : List CoreId
  sweepDue : List CoreId
  /-- state of each context's partition: 1 stopping, 2 stopped, 3 switched out; running when not listed (R357) -/
  heel : List (BitVec 16 × BitVec 2)
  /-- a switch-out in progress: 1 draining, 2 spill sweep; 3 re-injecting on resume (R361) -/
  switching : List (BitVec 16 × BitVec 2)
  /-- contexts whose last resume found a save image that failed its check (R357) -/
  imge : List (BitVec 16)
  /-- numbers of the messages of switched-out contexts that lie in spill reserves (R361) -/
  spills : List (BitVec 16 × List Nat)
  pwrbud : BitVec 13
  /-- power requests of the contexts (R375) -/
  requests : List (BitVec 16 × BitVec 16)
  /-- logical cores whose row's spare serves them, and logical cores marked absent (R10) -/
  moved : List CoreId
  absent : List CoreId
  flash : Flash
  boot : Boot
  /-- answers to host reads, the newest last: address and value; none for Unsupported Request (R202, R238) -/
  hostGot : List (BitVec 48 × Option W)
deriving DecidableEq, Repr

/-- A packet that its source has sent and that is not answered (R318, R323): part `k` of the access, or the message, command, wave or record
`n`. -/
structure Flight where
  n : Nat
  k : Nat
  src : CoreId
  dst : CoreId
  /-- package of the destination; 0 for this one -/
  pkg : BitVec 4
  /-- DPKG of its header -/
  dpkg : BitVec 4
  seq : BitVec 16
  /-- core cycle of the source at the last sending, and how often it was sent again -/
  since : W
  resends : Nat
  /-- copies that are on the way: the number of the sending, 0 for the first, and whether the copy arrives with wrong bits -/
  copies : List (Nat × Bool)
  /-- answers that are on the way back, and whether each arrives with wrong bits -/
  answers : List Bool
  /-- it has been performed at its destination -/
  done : Bool
deriving DecidableEq, Repr

/-- What a source and a destination interface keep of the packets between them (R318, R323): the SEQ that comes next, the highest SEQ
accepted, and bit i set when that SEQ minus i is accepted. -/
structure Lane where
  src : CoreId
  pkg : BitVec 4
  dst : CoreId
  next : BitVec 16
  high : BitVec 16
  seen : W
deriving DecidableEq, Repr

/-- A reassembly buffer in use (R320): a copy of a flight's packet of which the destination interface has some flits, and when the first of
them came by the destination core's cycles. -/
structure Reassembly where
  n : Nat
  k : Nat
  /-- the sending that this copy belongs to -/
  copy : Nat
  dst : CoreId
  /-- bit i set when flit i has come -/
  got : BitVec 16
  since : W
deriving DecidableEq, Repr

/-- Messages and commands in flight. -/
structure Net where
  accs : List Access
  posts : List PostMsg
  chans : List ChanMsg
  hcmds : List HartCmd
  events : List EvMsg
  partials : List PartialMsg
  cmds : List Cmd
  waves : List Wave
  flights : List Flight
  lanes : List Lane
  reasm : List Reassembly
deriving DecidableEq, Repr

/-- One turn of the machine: a core's issue slot gets one core cycle, or a step of the package takes place. -/
inductive Turn where
  | issue (c : CoreId)
  | event (e : Instr)
deriving DecidableEq, Repr

/-- The saved image of a switched-out core: the context and the core with its local store and ticketed accesses (R256, R362). -/
structure Image where
  ctx : BitVec 16
  num : CoreId
  core : Core
  store : List Host.Cell
  accs : List Access
  /-- first physical byte of the image, and its bytes as they were written, by offset (R362) -/
  base : Nat
  cells : List Host.Cell
  /-- groups of the context, kept with its first image (R111) -/
  groups : List Group
  /-- read records of the core's reactions (R236) -/
  reads : List ReadRec
deriving DecidableEq, Repr

/-- Why the machine stops. The manual gives every case an effect (R1), a trap among them, so no meaning of this model stops the
machine with a fault, and the type has no constructor. -/
inductive Fault where
deriving DecidableEq, Repr

/-- Why an instruction is turned away without a meaning. -/
inductive Refusal where
  /-- The instruction of this mnemonic has no meaning yet. Raised by the arms of `exec` only. Safe: nothing is claimed of it. -/
  | notModelled (mnemonic : String)
deriving DecidableEq, Repr

/-- The package. -/
structure State where
  /-- listed cores, in rising order; any other stands as at reset, but that source 12 is pending on it once MEMCAP has changed -/
  cores : List (CoreId × Core)
  /-- listed arrays, in rising order -/
  arrays : List (BitVec 7 × Arr)
  groups : List Group
  /-- bytes of memory in canonical form. Keys below 2^48 are physical addresses; byte a of core c's local store is at
  2^48 + c · 2^19 + a -/
  mem : List Host.Cell
  /-- poisoned 64-byte lines (key div 64), rising (R212) -/
  poison : List Nat
  /-- read records of ordered lines (R236) -/
  reads : List ReadRec
  net : Net
  books : Books
  cap : Capacity
  front : FrontEnd
  pkg : PkgSys
  images : List Image
  /-- the package reference time in ns (R15) -/
  timeRef : W
  nextId : Nat
  freeCount : Nat
  agenda : List Turn
  /-- the core whose turn it is when the agenda is empty -/
  home : CoreId
  /-- turns without agenda, by 64: in the last of each 64 the package goes first -/
  beat : BitVec 6
  /-- the core and the hart that execute -/
  cur : CoreId
  curHart : HartId
  slot : Slot
  /-- in the A half of a pair: the fields of the prefix in its C slot (R65) -/
  cPfx : Option (BitVec 22)
  flow : Flow
  disp : Disp
deriving DecidableEq, Repr

/-! Reset (R89): the value each register map gives; where the manual gives none, the log names the value. -/

/-- The general registers after reset: g, v and m zero and full (R89), k zero (log 2). -/
def Regs.reset : Regs where
  g := Vector.replicate 32 0#64
  v := Vector.replicate 32 0#512
  m := Vector.replicate 16 0#1024
  k := Vector.replicate 8 0#64
  gFull := BitVec.allOnes 32
  vFull := BitVec.allOnes 32
  mFull := BitVec.allOnes 16

/-- The trap registers and watches after reset (R101, R103, R105, R344). -/
def TrapRegs.reset : TrapRegs where
  tvec := 0
  trpc := 0
  trcause := 0
  traddr := 0
  trinfo := 0
  tscratch := 0
  ien := 0
  soft := false
  edge := 0
  deleg := 0
  watch := Vector.replicate 2 0#64
  wctl := Vector.replicate 2 0x0C00#16
  armed := 0

/-- The loop stack after reset: empty (R89, R110). -/
def Loops.reset : Loops where
  lps := Vector.replicate 4 0#64
  lpe := Vector.replicate 4 0#64
  lpc := Vector.replicate 4 0#64
  depth := 0
  sdepth := 0

/-- The arithmetic CSRs after reset (R32, R39, R132, R159, R160). -/
def Arith.reset : Arith where
  fpstat := 0
  scale := Vector.replicate 8 0x3F800000#32
  vops := 0
  momode := 4#13
  moflags := 0

/-- The matrix registers of a hart after reset (R186, R194). -/
def MxHart.reset : MxHart where
  held := false
  queued := false
  rev := false
  nx := false
  uf := false
  of := false
  nv := false
  iov := false
  array := 0
  used := 0
  lastst := 0
  desc := 0
  lbase := 0
  valid := false
  lastArr := 0
  lastSeq := 0
  lastLoad := none
  loaded := false
  leashD := none

/-- The reaction CSRs after reset (R270). -/
def React.reset : React where
  curt := 0
  curm := 0
  curp := 0
  curs := 0
  rxpc := 0
  posts := 0
  abort := false

/-- The batches and shape slots after reset (R291, R296, R303). -/
def Batch.reset : Batch where
  bopen := 1
  bdone := 0
  status := []
  sealed := []
  xcomp := 0
  xhandle := 0
  slots := Vector.replicate 8 none

/-- The firmware column after reset: column 31, the default width 1 (R12). -/
def firmwareAtReset (c : CoreId) : Bool := c.extractLsb' 0 5 == 31#5

/-- The hart that starts after reset on each die: hart 0 at row 0, column 31 (R89). -/
def bootHart (c : CoreId) (h : HartId) : Bool := c.extractLsb' 0 10 == 31#10 && h == 0#2

/-- Hart `h` of core `c` after reset (R89). -/
def Hart.reset (c : CoreId) (h : HartId) : Hart where
  regs := Regs.reset
  pc := Config.bootPc
  stopped := !bootHart c h
  mode := if firmwareAtReset c then 3#2 else 1#2
  pmode := 0
  pie := false
  ie := false
  pp := false
  rx := false
  tkp := false
  we := false
  emptyMet := none
  arrival := .fall
  wait := .none
  waitAt := none
  pause := 0
  prio := 0
  lost := 0
  spp := false
  fields := 0
  cycOff := 0
  instret := 0
  waitlim := 0x00100000#32
  agid := 0
  trap := TrapRegs.reset
  loops := Loops.reset
  arith := Arith.reset
  mx := MxHart.reset
  react := React.reset
  batch := Batch.reset
  pend := []
  tkEv := false
  tklim := 0x04000000#32
  nseq := 0
  log := []
  frozen := []
  intMarks := []
  block := none

/-- The tag state of a core after reset (R265 to R279). -/
def Tags.reset : Tags where
  terr := 3
  skew := 0
  held := 0
  safeofs := 1000
  flb := 250
  tcnt := 0
  tpf := false
  portcfg := Vector.replicate 16 0#64
  inbox := []
  lft := 0
  lftm := 0
  cft := 0
  cftm := 0
  nexters := []
  hzn := 0
  hznm := 0
  ltHead := 0
  ltTail := 0
  ltPend := false
  ltOvf := false
  ltBase := 0
  ltSz := 0
  lthart := 0
  active := none
  window := []
  obuf := []
  doomed := none

/-- A collective slot that is not armed (R329). -/
def CSlot.reset : CSlot where
  arm := false
  pers := false
  err := false
  done := false
  gen := 0
  count := 0
  ctx := 0
  hart := 0
  agid := 0
  mode := 0
  cursor := none
  fired := []
  chain := 0
  stageBase := 0
  stageLen := 0
  staged := []
  owed := []
  outcome := 0
  problems := 0
  flags := 0

/-- The memory CSRs of a core after reset (R198, R199, R208, R248). -/
def CoreMem.reset : CoreMem where
  lguard := Vector.replicate 8 0#64
  winbase := 0
  ctxid := 0
  agtab := 0
  ptbase := 0
  hpasid := 0
  tlb := []

/-- Channels and event FIFOs after reset (R306, R310). -/
def Channels.reset : Channels where
  chin := Vector.replicate 16 0#64
  chptr := Vector.replicate 16 0#64
  chout := Vector.replicate 16 0#64
  fifos := Vector.replicate 8 []
  evstat := 0
  takers := []

/-- The containment, stop and power CSRs after reset (R325, R347, R350, R351, R357 to R360, R373 to R375). -/
def CoreSys.reset : CoreSys where
  fabcfg := 0x0000000800001800#64
  fabstat := 0
  heelctx := 0
  stopcyc := 0
  sent := 0
  rcvd := 0
  outs := 0
  ins := 0
  savebase := 0
  switcht := 0
  kennel := 0
  fenced := false
  kentry := 0
  fenceDet := 0
  fenceAddr := 0
  fenceBy := 0
  chkstat := 0
  ueLines := []
  worn := false
  lrstat := 0
  pwrcls := 1
  rate := 128
  req := 0
  grant := 0
  fwmask := 0
  heeled := false
  low := false

/-- Core `c` after reset. -/
def Core.reset (c : CoreId) : Core where
  harts := #v[Hart.reset c 0, Hart.reset c 1, Hart.reset c 2, Hart.reset c 3]
  cycles := 0
  lastAt := Vector.replicate 4 none
  cblo := 0
  cbhi := 0
  mem := CoreMem.reset
  tags := Tags.reset
  chan := Channels.reset
  slots := Vector.replicate 16 CSlot.reset
  colldens := 256
  sys := CoreSys.reset

/-- An empty B buffer. -/
def BBuf.reset : BBuf where
  loader := none
  fmt := 0
  q := 0
  p := 0
  ce := false
  cblo := 0
  cbhi := 0
  pair := false
  tile := []
  tile2 := []
  bad := 0

/-- An array after reset (R175, R179); its command sequence starts at 0 (log 5). -/
def Arr.reset : Arr where
  holder := none
  fifo := []
  cmds := 0
  rows := 0
  count := 16
  limit := 16
  buf0 := BBuf.reset
  buf1 := BBuf.reset
  lastBuf := true
  queue := []
  runs := []
  seq := 0
  lastDone := BitVec.allOnes 32
  recs := []

/-- The configuration table of the firmware slot in flash: a column of width 1, and on each die the host service at row 0, a front end at row
1 and a memory service at row 2. DESIGN CHOICE (log 121): the device fixes no placement (R373). -/
def tableAtReset : BootTable where
  wm1 := 0
  roles := [(31, 3), (63, 1), (95, 2), (1055, 3), (1087, 1), (1119, 2), (2079, 3), (2111, 1), (2143, 2), (3103, 3), (3135, 1), (3167, 2)]

/-- The package right after reset (R89): the boot hart of each die stands at the boot entry, every other hart is stopped, every
register holds the value of its map, and nothing is in flight. Slot A of the flash holds `tableAtReset` and verifies, and no marker copy is
valid (log 121). -/
def State.reset : State where
  cores := []
  arrays := []
  groups := []
  mem := []
  poison := []
  reads := []
  net := { accs := [], posts := [], chans := [], hcmds := [], events := [], partials := [], cmds := [], waves := [], flights := [], lanes := [], reasm := [] }
  books := { declared := [], charged := [], tables := [], touched := [], shadows := [], quarantine := [], withdrawn := [], tickets := [], sliceTlb := [],
             drains := [], savedNotices := [] }
  cap := { pend := false, active := 0xFFF#12, bytes := 0x18000000000#48, isOpen := false, rstk := 0, phase := 0,
           cursor := BitVec.allOnes 40, target := none, bounced := false, changed := false }
  front := { queues := [], soft := [], launches := [], last := 0, passes := [] }
  pkg := { rpState := Vector.replicate 8 0#2, rpPeer := Vector.replicate 8 0#4, rpRepl := Vector.replicate 8 0#16,
           rpDown := Vector.replicate 8 none, rproute := 0, rpid := 1, links := [],
           elog := Vector.replicate 4 0#64, recallBusy := false, recallCtx := 0, victim := 0, kills := [], imge := [], floodDue := [], sweepDue := [],
           heel := [], switching := [], spills := [], pwrbud := 4200, requests := [],
           moved := [], absent := [], boot := .pending, hostGot := [],
           flash := { slotA := { image := [], table := tableAtReset, ed25519 := true, mlDsa65 := true },
                      slotB := { image := [], table := tableAtReset, ed25519 := false, mlDsa65 := false }, m0 := 0, m1 := 0 } }
  images := []
  timeRef := 0
  nextId := 0
  freeCount := 0
  agenda := []
  home := 31#12
  beat := 0
  cur := 31#12
  curHart := 0
  slot := .lone
  cPfx := none
  flow := .next
  disp := .none

end Sys2Proof.Machine
end

