-- ==== Sys2Proof/Machine/Ops.lean ====
section
/-!
DEFINITION. The operations every meaning is written with: bytes of memory, cores and harts, registers with their full bits and
the replay log, taking a trap and returning from one, retiring an instruction through the loop stack.
-/

namespace Sys2Proof.Machine

/-- What one `exec` answers. -/
abbrev Out := Host.Outcome State Fault Refusal

/-! Memory: a list of cells in one canonical form. -/

/-- Memory: cells in rising order of address, none of which holds what an unlisted address reads as. -/
abbrev Memory := List Host.Cell

/-- The byte at address `a`; an address with no cell reads as `Config.unwrittenByte` (log 3). -/
def readByte : Memory → Nat → Byte
  | [], _ => Config.unwrittenByte
  | (k, x) :: t, a => if k == a then x else if a < k then Config.unwrittenByte else readByte t a

/-- A cell for `a`, unless it would hold what an unlisted address reads as. -/
def cellFor (a : Nat) (x : Byte) : Memory := if x == Config.unwrittenByte then [] else [(a, x)]

/-- Writes the byte at address `a`, keeping the canonical form. -/
def writeByte : Memory → Nat → Byte → Memory
  | [], a, x => cellFor a x
  | (k, y) :: t, a, x =>
    if a < k then cellFor a x ++ (k, y) :: t
    else if k == a then cellFor a x ++ t
    else (k, y) :: writeByte t a x

/-- The canonical form: addresses strictly rise from above `lo`, and no cell holds what an unlisted address reads as. -/
def Memory.wfFrom (lo : Option Nat) : Memory → Bool
  | [] => true
  | (k, x) :: t =>
    (match lo with
      | some l => decide (l < k)
      | none => true) && x != Config.unwrittenByte && Memory.wfFrom (some k) t

/-- Memory is in canonical form. -/
def Memory.wf (m : Memory) : Bool := Memory.wfFrom none m

/-- The `n` bytes from address `a` upwards. -/
def readBytes (m : Memory) (a : Nat) : Nat → List Byte
  | 0 => []
  | n + 1 => readByte m a :: readBytes m (a + 1) n

/-- Writes bytes from address `a` upwards. -/
def writeBytes (m : Memory) (a : Nat) : List Byte → Memory
  | [] => m
  | x :: t => writeBytes (writeByte m a x) (a + 1) t

/-- Bytes as a number, the first the least significant (R3). -/
def leNat : List Byte → Nat
  | [] => 0
  | x :: t => x.toNat + 256 * leNat t

/-- The low `n` bytes of a number, the least significant first (R3). -/
def natLe : Nat → Nat → List Byte
  | 0, _ => []
  | n + 1, x => BitVec.ofNat 8 x :: natLe n (x / 256)

/-- The little-endian number held in `n` bytes at `a`. -/
def readNat (m : Memory) (a n : Nat) : Nat := leNat (readBytes m a n)

/-- Writes the low `n` bytes of `x` at `a`, little-endian. -/
def writeNat (m : Memory) (a n x : Nat) : Memory := writeBytes m a (natLe n x)

/-- The key of byte `off` of core `c`'s local store: local stores lie above all physical addresses. -/
def localKey (c : CoreId) (off : Nat) : Nat := 2 ^ 48 + c.toNat * Config.localSize + off

/-- A 64-byte line of any byte of the access is poisoned (R212). -/
def poisoned (s : State) (key n : Nat) : Bool := s.poison.any fun l => decide (key / 64 ≤ l ∧ l ≤ (key + n - 1) / 64)

/-- Inserts a number into a rising list. -/
def insertNat (x : Nat) : List Nat → List Nat
  | [] => [x]
  | y :: t => if x < y then x :: y :: t else if x == y then y :: t else y :: insertNat x t

/-- Stores bytes; a whole naturally aligned line that is written loses its poison (R212). -/
def storeBytes (s : State) (key : Nat) (bs : List Byte) : State :=
  { s with mem := writeBytes s.mem key bs,
           poison := s.poison.filter fun l => !(decide (key ≤ l * 64 ∧ (l + 1) * 64 ≤ key + bs.length)) }

/-! Cores and harts. -/

/-- The listed core of a number. -/
def findCore (c : CoreId) : List (CoreId × Core) → Option Core
  | [] => none
  | (k, x) :: t => if k == c then some x else findCore c t

/-- Lists a core, in rising order. -/
def putCore (c : CoreId) (x : Core) : List (CoreId × Core) → List (CoreId × Core)
  | [] => [(c, x)]
  | (k, y) :: t => if k == c then (c, x) :: t else if c.toNat < k.toNat then (c, x) :: (k, y) :: t else (k, y) :: putCore c x t

/-- Source 12 pending on a hart (R105). -/
def Hart.told (h : Hart) : Hart := { h with trap := { h.trap with edge := h.trap.edge ||| 1#4 } }

/-- Width of the firmware column minus 1: as the table of the booted slot has it, and 0 before boot (R12, R373). -/
def State.fwW (s : State) : BitVec 2 :=
  match s.pkg.boot with
  | .done _ t => t.wm1
  | _ => 0

/-- Core `c` lies in a firmware column that is `w` + 1 columns wide from column 31 down (R12). -/
def inFirmware (w : BitVec 2) (c : CoreId) : Bool := decide (31 - w.toNat ≤ (c.extractLsb' 0 5).toNat)

/-- Core `c` lies in the firmware column (R12). -/
def State.firmware (s : State) (c : CoreId) : Bool := inFirmware s.fwW c

/-- A core that is not listed: as reset leaves it, with source 12 pending once MEMCAP has changed (R205), and in M where a firmware column wider than
1 has it (R12, R90). -/
def State.unlisted (s : State) (c : CoreId) : Core :=
  let k := Core.reset c
  if s.cap.changed || s.fwW != 0 then
    { k with harts := k.harts.map fun h =>
        let h := if s.cap.changed then h.told else h
        if s.firmware c then { h with mode := 3 } else h }
  else k

/-- Core `c`: as listed, or as reset leaves it. -/
def State.core (s : State) (c : CoreId) : Core := (findCore c s.cores).getD (s.unlisted c)

/-- Replaces core `c`. -/
def State.setCore (s : State) (c : CoreId) (x : Core) : State := { s with cores := putCore c x s.cores }

/-- Applies a change to core `c`. -/
def State.onCore (s : State) (c : CoreId) (f : Core → Core) : State := s.setCore c (f (s.core c))

/-- Hart `h` of a core. -/
def Core.hart (k : Core) (h : HartId) : Hart := k.harts[h.toNat]'(by have := h.isLt; omega)

/-- Replaces hart `h` of a core. -/
def Core.setHart (k : Core) (h : HartId) (x : Hart) : Core :=
  { k with harts := k.harts.set h.toNat x (by have := h.isLt; omega) }

/-- Hart `h` of core `c`. -/
def State.hartAt (s : State) (c : CoreId) (h : HartId) : Hart := (s.core c).hart h

/-- Applies a change to hart `h` of core `c`. -/
def State.onHartAt (s : State) (c : CoreId) (h : HartId) (f : Hart → Hart) : State :=
  s.onCore c fun k => k.setHart h (f (k.hart h))

/-- The core whose hart executes. -/
def State.self (s : State) : Core := s.core s.cur

/-- The hart that executes. -/
def State.hart (s : State) : Hart := s.hartAt s.cur s.curHart

/-- Applies a change to the hart that executes. -/
def State.onHart (s : State) (f : Hart → Hart) : State := s.onHartAt s.cur s.curHart f

/-- Applies a change to the core whose hart executes. -/
def State.onSelf (s : State) (f : Core → Core) : State := s.onCore s.cur f

/-- The listed array of a number. -/
def findArr (a : BitVec 7) : List (BitVec 7 × Arr) → Option Arr
  | [] => none
  | (k, x) :: t => if k == a then some x else findArr a t

/-- Lists an array, in rising order. -/
def putArr (a : BitVec 7) (x : Arr) : List (BitVec 7 × Arr) → List (BitVec 7 × Arr)
  | [] => [(a, x)]
  | (k, y) :: t => if k == a then (a, x) :: t else if a.toNat < k.toNat then (a, x) :: (k, y) :: t else (k, y) :: putArr a x t

/-- Array `a`: as listed, or as reset leaves it. -/
def State.array (s : State) (a : BitVec 7) : Arr := (findArr a s.arrays).getD Arr.reset

/-- Applies a change to array `a`. -/
def State.onArray (s : State) (a : BitVec 7) (f : Arr → Arr) : State :=
  { s with arrays := putArr a (f (s.array a)) s.arrays }

/-- The four hart numbers. -/
def hartIds : List HartId := [0, 1, 2, 3]

/-- Applies a change to all four harts of core `c`. -/
def State.onHarts (s : State) (c : CoreId) (f : HartId → Hart → Hart) : State :=
  hartIds.foldl (fun s h => s.onHartAt c h (f h)) s

/-- The role that a table gives a core: 00 outside the firmware column (R373). -/
def BootTable.role (t : BootTable) (c : CoreId) : BitVec 2 :=
  if inFirmware t.wm1 c then ((t.roles.find? fun x => x.1 == c).map (·.2)).getD 0 else 0

/-- The role of core `c`: 01 front end, 10 memory service, 11 host service (R373). -/
def State.role (s : State) (c : CoreId) : BitVec 2 :=
  match s.pkg.boot with
  | .done _ t => t.role c
  | _ => 0

/-- The die of a core (R9). -/
def dieOf (c : CoreId) : BitVec 2 := c.extractLsb' 10 2

/-- The cores of context `x`'s partition: the listed cores outside the firmware column that hold its CTXID (R12, R17). -/
def State.partition (s : State) (x : BitVec 16) : List CoreId :=
  (s.cores.filter fun p => p.2.mem.ctxid == x && !(p.2.mem.ctxid == 0) && !s.firmware p.1).map (·.1)

/-- A number for a new operation, access or message. The A half of a pair takes odd numbers, so that the halves never share one. -/
def State.fresh (s : State) : Nat := 2 * s.nextId + (if s.slot == .aHalf then 1 else 0)

/-- Takes the number that `fresh` shows. -/
def State.bump (s : State) : State := { s with nextId := s.nextId + 1 }

/-- The next free word (log 8). -/
def State.free (s : State) : W := Config.freeWord s.freeCount

/-- Takes the word that `free` shows. -/
def State.freed (s : State) : State := { s with freeCount := s.freeCount + 1 }

/-! Registers, their full bits (R60) and the replay log (R249). -/

/-- Reads a g register; g0 reads zero (R60). -/
def Regs.readG (r : Regs) (i : BitVec 5) : W := if i == 0 then 0 else r.g[i.toNat]'(by have := i.isLt; omega)

/-- Writes a g register and marks it full; g0 discards the write (R60). -/
def Regs.writeG (r : Regs) (i : BitVec 5) (x : W) : Regs :=
  if i == 0 then r else { r with g := r.g.set i.toNat x (by have := i.isLt; omega), gFull := r.gFull ||| (1#32 <<< i.toNat) }

/-- Reads a v register. -/
def Regs.readV (r : Regs) (i : BitVec 5) : VReg := r.v[i.toNat]'(by have := i.isLt; omega)

/-- Writes a v register and marks it full. -/
def Regs.writeV (r : Regs) (i : BitVec 5) (x : VReg) : Regs :=
  { r with v := r.v.set i.toNat x (by have := i.isLt; omega), vFull := r.vFull ||| (1#32 <<< i.toNat) }

/-- Reads an m register. -/
def Regs.readM (r : Regs) (i : BitVec 4) : MReg := r.m[i.toNat]'(by have := i.isLt; omega)

/-- Writes an m register and marks it full. -/
def Regs.writeM (r : Regs) (i : BitVec 4) (x : MReg) : Regs :=
  { r with m := r.m.set i.toNat x (by have := i.isLt; omega), mFull := r.mFull ||| (1#16 <<< i.toNat) }

/-- Reads a k register; k0 reads all ones (R60). -/
def Regs.readK (r : Regs) (i : BitVec 3) : W := if i == 0 then BitVec.allOnes 64 else r.k[i.toNat]'(by have := i.isLt; omega)

/-- Writes a k register; k0 discards the write (R133). -/
def Regs.writeK (r : Regs) (i : BitVec 3) (x : W) : Regs :=
  if i == 0 then r else { r with k := r.k.set i.toNat x (by have := i.isLt; omega) }

/-- The value of any register, in its low bits. -/
def Regs.read (r : Regs) : RegRef → BitVec 1024
  | .g i => (r.readG i).setWidth 1024
  | .v i => (r.readV i).setWidth 1024
  | .m i => r.readM i
  | .k i => (r.readK i).setWidth 1024

/-- The full bit of any register; g0 and the k registers are always full (R60). -/
def Regs.full (r : Regs) : RegRef → Bool
  | .g i => i == 0 || r.gFull.getLsbD i.toNat
  | .v i => r.vFull.getLsbD i.toNat
  | .m i => r.mFull.getLsbD i.toNat
  | .k _ => true

/-- Writes any register and marks it full. -/
def Regs.write (r : Regs) (x : BitVec 1024) : RegRef → Regs
  | .g i => r.writeG i (x.setWidth 64)
  | .v i => r.writeV i (x.setWidth 512)
  | .m i => r.writeM i x
  | .k i => r.writeK i (x.setWidth 64)

/-- Marks a register empty; g0 and the k registers are never marked (R60). -/
def Regs.empty (r : Regs) : RegRef → Regs
  | .g i => if i == 0 then r else { r with gFull := r.gFull &&& ~~~(1#32 <<< i.toNat) }
  | .v i => { r with vFull := r.vFull &&& ~~~(1#32 <<< i.toNat) }
  | .m i => { r with mFull := r.mFull &&& ~~~(1#16 <<< i.toNat) }
  | .k _ => r

/-- Reads a g register of the executing hart. -/
def State.g (s : State) (i : BitVec 5) : W := s.hart.regs.readG i

/-- Reads a v register of the executing hart. -/
def State.v (s : State) (i : BitVec 5) : VReg := s.hart.regs.readV i

/-- Reads an m register of the executing hart. -/
def State.m (s : State) (i : BitVec 4) : MReg := s.hart.regs.readM i

/-- Reads a k register of the executing hart. -/
def State.k (s : State) (i : BitVec 3) : W := s.hart.regs.readK i

/-- The accesses of a hart that are not frozen. -/
def State.live (s : State) (c : CoreId) (h : HartId) : List Access :=
  s.net.accs.filter fun a => a.core == c && a.hart == h && a.frozen == 0 && !a.orphan

/-- Every part of an access is confirmed with success. -/
def Access.confirmed (a : Access) : Bool :=
  a.parts.all fun p => match p.stage with
    | .done _ => true
    | _ => false

/-- The hart has an access without its answer (R249), older than the instruction that it comes to next. -/
def State.unconfirmed (s : State) (c : CoreId) (h : HartId) : Bool :=
  (s.live c h).any fun a => decide (a.seq < (s.hartAt c h).nseq) && !a.confirmed

/-- Replay-log records in use (R249, R253, R255): old values of registers, and accesses performed behind one that is unconfirmed, those of
frozen groups among them. -/
def State.logUse (s : State) (c : CoreId) (h : HartId) : Nat :=
  let x := s.hartAt c h
  x.log.length + (x.frozen.map fun f => f.log.length).sum +
    (s.net.accs.filter fun a => a.core == c && a.hart == h && !a.orphan && a.confirmed).length

/-- Notes a register's old value in the replay log, while an access is unconfirmed (R249). -/
def logReg (own : Bool) (r : RegRef) (pending : Bool) (x : Hart) : Hart :=
  if pending then
    { x with log := x.log ++ [.reg (2 * x.nseq + (if own then 1 else 0)) r (x.regs.read r) (x.regs.full r)] }
  else x

/-- An instruction of the executing hart writes a register (R60, R249). -/
def State.setReg (s : State) (r : RegRef) (x : BitVec 1024) : State :=
  s.onHart fun h =>
    let h := logReg false r (s.unconfirmed s.cur s.curHart) h
    { h with regs := h.regs.write x r }

/-- An instruction of the executing hart writes a g register. -/
def State.setG (s : State) (i : BitVec 5) (x : W) : State :=
  s.onHart fun h =>
    let h := logReg false (.g i) (s.unconfirmed s.cur s.curHart) h
    { h with regs := h.regs.writeG i x }

/-- An instruction of the executing hart writes a v register. -/
def State.setV (s : State) (i : BitVec 5) (x : VReg) : State :=
  s.onHart fun h =>
    let h := logReg false (.v i) (s.unconfirmed s.cur s.curHart) h
    { h with regs := h.regs.writeV i x }

/-- An instruction of the executing hart writes a k register. -/
def State.setK (s : State) (i : BitVec 3) (x : W) : State :=
  s.onHart fun h =>
    let h := logReg false (.k i) (s.unconfirmed s.cur s.curHart) h
    { h with regs := h.regs.writeK i x }

/-- A long-latency producer marks its destination empty at issue (R60). -/
def State.markEmpty (s : State) (r : RegRef) : State :=
  s.onHart fun h =>
    let h := logReg false r (s.unconfirmed s.cur s.curHart) h
    { h with regs := h.regs.empty r }

/-- A result reaches a register of any hart (R60): nothing is logged. -/
def State.fill (s : State) (c : CoreId) (h : HartId) (r : RegRef) (x : BitVec 1024) : State :=
  s.onHartAt c h fun k => { k with regs := k.regs.write x r }

/-! Control. -/

/-- The state in which hart `h` of core `c` issues in a slot. -/
def State.issuing (s : State) (c : CoreId) (h : HartId) (slot : Slot) : State :=
  { s with cur := c, curHart := h, slot := slot, cPfx := none, flow := .next }

/-- Address of the word that executes: the A half of a pair is at the C slot plus 4 (R50). -/
def State.wordPc (s : State) : W := s.hart.pc + (if s.slot == .aHalf then 4#64 else 0#64)

/-- The next instruction address (R50). -/
def State.nx (s : State) : W := s.hart.pc + (if s.slot == .lone then 4#64 else 8#64)

/-- Address of the last word of what issues. -/
def State.lastWord (s : State) : W := s.hart.pc + (if s.slot == .lone then 0#64 else 4#64)

/-- The prefix in effect for the word that executes (R65). -/
def State.prefixed (s : State) : Option (BitVec 22) :=
  match s.slot with
  | .aHalf => s.cPfx
  | _ => if s.hart.pp then some s.hart.fields else none

/-- Entry `i` of a loop register. -/
def loopAt (v : Vector W 4) (i : Nat) : W := v[i]?.getD 0

/-- LPE of the top level; none when the stack is empty (R106). -/
def Loops.topEnd (l : Loops) : Option W := if l.depth == 0 then none else some (loopAt l.lpe (l.depth.toNat - 1))

/-- An instruction whose last word is at `a` retires without a transfer (R108): levels that end there count, and wrap or pop.
`fuel` bounds the four levels. The answer is where control goes if a level wraps. -/
def loopCount (a : W) : Nat → Loops → Loops × Option W
  | 0, l => (l, none)
  | fuel + 1, l =>
    if l.topEnd == some a then
      let t := l.depth.toNat - 1
      let n := loopAt l.lpc t - 1
      let l' := { l with lpc := l.lpc.setIfInBounds t n }
      if n == 0 then loopCount a fuel { l' with depth := l'.depth - 1 } else (l', some (loopAt l'.lps t))
    else (l, none)

/-- A taken transfer to `t` pops levels until the target lies in the top level's range (R109). -/
def loopUnwind (t : W) : Nat → Loops → Loops
  | 0, l => l
  | fuel + 1, l =>
    if l.depth == 0 then l
    else
      let i := l.depth.toNat - 1
      if (loopAt l.lps i).toNat ≤ t.toNat && t.toNat ≤ (loopAt l.lpe i).toNat then l
      else loopUnwind t fuel { l with depth := l.depth - 1 }

/-- The loop stack after a CSR write (R92, R110): 0 LPS, 1 LPE, 2 LPC of a level; 3 LPD, of which a field changes that `m` touches. -/
def Loops.put (l : Loops) (which : BitVec 2) (i : Nat) (x m : W) : Loops :=
  match which.toNat with
  | 0 => { l with lps := l.lps.setIfInBounds i x }
  | 1 => { l with lpe := l.lpe.setIfInBounds i x }
  | 2 => { l with lpc := l.lpc.setIfInBounds i x }
  | _ => { l with depth := if m.extractLsb' 0 3 == 0 then l.depth else x.extractLsb' 0 3
                  sdepth := if m.extractLsb' 4 3 == 0 then l.sdepth else x.extractLsb' 4 3 }

/-- A precise operation whose result waits for its instruction. -/
def Pend.isReady (p : Pend) : Bool :=
  match p.kind with
  | .ready _ => true
  | _ => false

/-- Operations without the results that wait for an instruction which is not to retire. -/
def dropReady (l : List Pend) : List Pend := l.filter fun p => !p.isReady

/-- Retires what the executing hart issued: the pc moves by `flow` and the loop stack (R50, R108, R109), INSTRET counts the words
(R96), and a prefix that was pending is used up (R68). -/
def State.retire (s : State) : State :=
  let words : W := if s.slot == .lone then 1 else 2
  let s' := s.onHart fun h =>
    let h := { h with instret := h.instret + words, we := false, emptyMet := none, wait := .none, waitAt := none, pend := h.pend.filter fun p => !p.isReady }
    match s.flow with
    | .next =>
      let r := loopCount s.lastWord 4 h.loops
      { h with pc := r.2.getD s.nx, loops := r.1, arrival := if r.2.isSome then .taken else .fall, pp := false }
    | .pfx =>
      let r := loopCount s.lastWord 4 h.loops
      { h with pc := r.2.getD s.nx, loops := r.1, arrival := if r.2.isSome then .taken else .fall }
    | .taken t => { h with pc := t, loops := loopUnwind t 4 h.loops, arrival := .taken, pp := false }
    | .skip e =>
      let r := loopCount e 4 h.loops
      { h with pc := r.2.getD (e + 4), loops := r.1, arrival := if r.2.isSome then .taken else .fall, pp := false }
    | .tret t => { h with pc := t, loops := loopUnwind t 4 h.loops, arrival := .tret }
    | .loops k i x m =>
      let r := loopCount s.lastWord 4 h.loops
      { h with pc := r.2.getD s.nx, loops := r.1.put k i x m, arrival := if r.2.isSome then .taken else .fall, pp := false }
  { s' with flow := .next, disp := .retired }

/-- A meaning has had its effect: a lone word retires at once, a half of a pair when the pair does (R50). -/
def State.complete (s : State) : State := if s.slot == .lone then s.retire else { s with disp := .retired }

/-- The instruction does not issue in this core cycle (R94). -/
def State.hold (s : State) : State := { s with disp := .held }

/-- The instruction has issued and its hart now waits in it. -/
def State.waitIn (s : State) (i : Instr) (w : Wait) : State :=
  { s.onHart (fun h => { h with wait := w, waitAt := some { slot := s.slot, op := i }, we := false, emptyMet := none }) with disp := .waiting }

/-! Traps. -/

/-- The mode that a trap enters (R90, R103). -/
def targetMode (fw : Bool) (mode : BitVec 2) (deleg : W) (int : Bool) (cause : BitVec 9) : BitVec 2 :=
  if !fw then 1#2
  else if mode == 3#2 then 3#2
  else if int then (if deleg.getLsbD (32 + (cause.extractLsb' 0 5).toNat) then 1#2 else 3#2)
  else if deleg.getLsbD (cause.extractLsb' 6 3).toNat then 1#2 else 3#2

/-- Accesses of a hart that a trap freezes: those from its sequence number `n` on (R253). -/
def freezeAccs (c : CoreId) (h : HartId) (n k : Nat) (l : List Access) : List Access :=
  l.map fun a => if a.core == c && a.hart == h && a.frozen == 0 && decide (n ≤ a.seq) then { a with frozen := k } else a

/-- A trap taken while the hart is parked on a ticket freezes its entries and log records as a group (R253). -/
def State.freeze (s : State) (c : CoreId) (h : HartId) : State :=
  let x := s.hartAt c h
  if x.tkp then
    let k := x.frozen.length + 1
    let s := { s with net := { s.net with accs := freezeAccs c h x.nseq k s.net.accs } }
    s.onHartAt c h fun x =>
      { x with frozen := x.frozen ++ [{ pc := x.pc, oldest := x.nseq, nseq := x.nseq, log := x.log }], log := [], tkp := false }
  else s

/-- Trap entry of one hart (R104): the trap registers take the cause and `trpc`, status and mode change, the prefix and the loop
depth are set aside, and control goes to the handler. DEDUCED (log 148): what one half of the pair at the pc had computed for a pair that did not
retire is given up, and computed afresh when the pair is executed again. -/
def trapHart (fw : Bool) (int : Bool) (cause : BitVec 9) (addr info trpc : W) (h : Hart) : Hart :=
  { h with
    trap := { h.trap with trpc := trpc, trcause := (BitVec.ofBool int).setWidth 64 <<< 63 ||| cause.setWidth 64,
                          traddr := addr, trinfo := info },
    pmode := h.mode, pie := h.ie, ie := false,
    mode := targetMode fw h.mode h.trap.deleg int cause,
    spp := h.pp, pp := false,
    loops := { h.loops with sdepth := h.loops.depth, depth := 0 },
    pc := h.trap.tvec &&& ~~~3#64,
    arrival := .fall, wait := .none, waitAt := none, we := false, emptyMet := none, pause := 0, pend := dropReady h.pend }

/-- Hart `h` of core `c` takes a trap (R104, R253). -/
def State.trapAt (s : State) (c : CoreId) (h : HartId) (int : Bool) (cause : BitVec 9) (addr info trpc : W) : State :=
  (s.freeze c h).onHartAt c h (trapHart (s.firmware c) int cause addr info trpc)

/-- The executing hart takes a synchronous trap at the address of its lone word or pair (R51, R104). While an older access of the
hart is unconfirmed the trap is not taken yet, and nothing happens (R250). `stage` is the step of R56, 10 for execution. -/
def State.raise (s : State) (stage : Nat) (cause : BitVec 9) (addr info : W) : State :=
  if s.unconfirmed s.cur s.curHart then s.hold
  else { s.trapAt s.cur s.curHart false cause addr info s.hart.pc with disp := .trapped stage }

/-- A fault of execution (R56). -/
def State.fault (s : State) (cause : BitVec 9) (addr info : W) : State := s.raise 10 cause addr info

/-- The return from a trap (R104), but for the frozen groups (R253): the pc goes to TRPC through `retire`. -/
def tretHart (h : Hart) : Hart :=
  { h with
    mode := h.pmode, ie := h.pie, pie := false, pmode := 0,
    pp := h.spp, spp := false,
    trap := { h.trap with armed := BitVec.ofBool (h.trap.wctl[1].getLsbD 4) ++ BitVec.ofBool (h.trap.wctl[0].getLsbD 4) },
    loops := { h.loops with depth := h.loops.sdepth, sdepth := 0 } }

end Sys2Proof.Machine
end

