-- ==== Sys2Proof/Machine/Flags.lean ====
section
/-!
DEFINITION. Floating point (R23 to R37): the four formats, exact values, one rounding with its flags, and the operations that
every unit shares. A format's bits are held as a number; an exact finite value is an integer times a power of two.
-/

namespace Sys2Proof.Machine

/-- A binary format: exponent bits, fraction bits (R23). -/
structure Fmt where
  e : Nat
  f : Nat
deriving DecidableEq, Repr

/-- binary64. -/
def fp64 : Fmt := ⟨11, 52⟩
/-- binary32. -/
def fp32 : Fmt := ⟨8, 23⟩
/-- binary16. -/
def fp16 : Fmt := ⟨5, 10⟩
/-- bfloat16. -/
def bf16 : Fmt := ⟨8, 7⟩

/-- Exponent bias (R23). -/
def Fmt.bias (k : Fmt) : Nat := 2 ^ (k.e - 1) - 1

/-- Bits of the format. -/
def Fmt.width (k : Fmt) : Nat := 1 + k.e + k.f

/-- The canonical quiet NaN (R23). -/
def Fmt.nan (k : Fmt) : Nat := (2 ^ k.e - 1) * 2 ^ k.f + 2 ^ (k.f - 1)

/-- The sign bit in place. -/
def Fmt.sign (k : Fmt) (neg : Bool) : Nat := if neg then 2 ^ (k.e + k.f) else 0

/-- An infinity. -/
def Fmt.inf (k : Fmt) (neg : Bool) : Nat := k.sign neg + (2 ^ k.e - 1) * 2 ^ k.f

/-- The largest finite value. -/
def Fmt.maxFinite (k : Fmt) (neg : Bool) : Nat := k.sign neg + (2 ^ k.e - 1) * 2 ^ k.f - 1

/-- The flags of FPSTAT[7:3] in order (R40): invalid. -/
def flagNV : BitVec 5 := 16
/-- Divide by zero. -/
def flagDZ : BitVec 5 := 8
/-- Overflow. -/
def flagOF : BitVec 5 := 4
/-- Underflow. -/
def flagUF : BitVec 5 := 2
/-- Inexact. -/
def flagNX : BitVec 5 := 1

/-- What the bits of a format stand for: a NaN, an infinity, or `(-1)^neg · m · 2^x`. -/
inductive FVal where
  | nan (signalling : Bool)
  | inf (neg : Bool)
  | fin (neg : Bool) (m : Nat) (x : Int)
deriving DecidableEq, Repr

/-- The value of bits in a format (R23). -/
def Fmt.val (k : Fmt) (b : Nat) : FVal :=
  let frac := b % 2 ^ k.f
  let ex := b / 2 ^ k.f % 2 ^ k.e
  let neg := b / 2 ^ (k.e + k.f) % 2 == 1
  if ex == 2 ^ k.e - 1 then (if frac == 0 then .inf neg else .nan (frac < 2 ^ (k.f - 1)))
  else if ex == 0 then .fin neg frac (1 - (k.bias : Int) - k.f)
  else .fin neg (frac + 2 ^ k.f) ((ex : Int) - k.bias - k.f)

/-- The value is a signalling NaN. -/
def FVal.snan : FVal → Bool
  | .nan s => s
  | _ => false

/-- The value is a NaN. -/
def FVal.isNan : FVal → Bool
  | .nan _ => true
  | _ => false

/-- The value changed in sign. -/
def FVal.negate : FVal → FVal
  | .nan s => .nan s
  | .inf n => .inf (!n)
  | .fin n m x => .fin (!n) m x

/-- NV when any of the values is a signalling NaN (R35). -/
def nvIf (b : Bool) : BitVec 5 := if b then flagNV else 0

/-- Bits of a number. -/
def bitLen (m : Nat) : Nat := if m == 0 then 0 else Nat.log2 m + 1

/-- Whether a remainder below `2^s` rounds the magnitude up (R33). -/
def roundsUp (rm : BitVec 3) (neg odd : Bool) (rest half : Nat) : Bool :=
  match rm.toNat with
  | 0 => decide (half < rest) || (rest == half && odd && rest != 0)
  | 1 => false
  | 2 => neg && rest != 0
  | 3 => !neg && rest != 0
  | _ => decide (half ≤ rest) && rest != 0

/-- `m · 2^x` as a whole number of quanta `2^q`, rounded: the number, and whether it is inexact. -/
def quantize (rm : BitVec 3) (neg : Bool) (m : Nat) (x q : Int) : Nat × Bool :=
  if q ≤ x then (m * 2 ^ (x - q).toNat, false)
  else
    let s := (q - x).toNat
    let sig := m / 2 ^ s
    let rest := m % 2 ^ s
    (sig + (if roundsUp rm neg (sig % 2 == 1) rest (2 ^ (s - 1)) then 1 else 0), rest != 0)

/-- Rounds `(-1)^neg · m · 2^x` once to a format (R6, R33), with the flags of R35; overflow delivers what the mode prescribes,
and underflow is found after rounding. -/
def Fmt.round (k : Fmt) (rm : BitVec 3) (neg : Bool) (m : Nat) (x : Int) : Nat × BitVec 5 :=
  if m == 0 then (k.sign neg, 0)
  else
    let e : Int := x + (bitLen m : Int) - 1
    let emin : Int := 1 - (k.bias : Int)
    let q : Int := max (e - k.f) (emin - k.f)
    let r := quantize rm neg m x q
    let u := quantize rm neg m x (e - k.f)
    let tiny := decide (e < emin) && !(decide (e = emin - 1) && decide (2 ^ (k.f + 1) ≤ u.1))
    let sig := if 2 ^ (k.f + 1) ≤ r.1 then r.1 / 2 else r.1
    let q' := if 2 ^ (k.f + 1) ≤ r.1 then q + 1 else q
    if 2 ^ k.f ≤ sig && (k.bias : Int) < q' + k.f then
      let toInf := match rm.toNat with
        | 1 => false
        | 2 => neg
        | 3 => !neg
        | _ => true
      (if toInf then k.inf neg else k.maxFinite neg, flagOF ||| flagNX)
    else
      let bits := if sig < 2 ^ k.f then sig else ((q' + k.f + k.bias).toNat) * 2 ^ k.f + (sig - 2 ^ k.f)
      (k.sign neg + bits, (if r.2 then flagNX else 0) ||| (if r.2 && tiny then flagUF else 0))

/-- Folds the fact that the exact value lies strictly above `m · 2^x` into two further bits. -/
def stick (m : Nat) (x : Int) (more : Bool) : Nat × Int := if more then (4 * m + 1, x - 2) else (m, x)

/-- An exact finite value: an integer times a power of two. -/
structure Dy where
  v : Int
  x : Int
deriving DecidableEq, Repr

/-- The exact value of a finite value. -/
def dyOf (neg : Bool) (m : Nat) (x : Int) : Dy := ⟨if neg then -(m : Int) else m, x⟩

/-- Exact sum. -/
def Dy.add (a b : Dy) : Dy :=
  let x := min a.x b.x
  ⟨a.v * 2 ^ (a.x - x).toNat + b.v * 2 ^ (b.x - x).toNat, x⟩

/-- Exact product. -/
def Dy.mul (a b : Dy) : Dy := ⟨a.v * b.v, a.x + b.x⟩

/-- Exact difference. -/
def Dy.sub (a b : Dy) : Dy := a.add ⟨-b.v, b.x⟩

/-- `a < b`. -/
def Dy.lt (a b : Dy) : Bool := decide ((a.sub b).v < 0)

/-- Rounds an exact value once; `zeroNeg` is the sign of a zero. -/
def Fmt.roundDy (k : Fmt) (rm : BitVec 3) (zeroNeg : Bool) (d : Dy) : Nat × BitVec 5 :=
  if d.v == 0 then (k.sign zeroNeg, 0) else k.round rm (decide (d.v < 0)) d.v.natAbs d.x

/-- The sign of an exact zero sum of two values (R35): their common sign, else minus only under RDN. -/
def zeroSign (rm : BitVec 3) (n1 n2 : Bool) : Bool := if n1 == n2 then n1 else rm == 2#3

/-- Addition of values, rounded once (R35, R124). -/
def Fmt.addV (k : Fmt) (rm : BitVec 3) (a b : FVal) : Nat × BitVec 5 :=
  match a, b with
  | .nan s, y => (k.nan, nvIf (s || y.snan))
  | x, .nan s => (k.nan, nvIf (s || x.snan))
  | .inf m, .inf n => if m == n then (k.inf m, 0) else (k.nan, flagNV)
  | .inf m, .fin .. => (k.inf m, 0)
  | .fin .., .inf n => (k.inf n, 0)
  | .fin n1 m1 x1, .fin n2 m2 x2 => k.roundDy rm (zeroSign rm n1 n2) ((dyOf n1 m1 x1).add (dyOf n2 m2 x2))

/-- FADD (R124). -/
def Fmt.add (k : Fmt) (rm : BitVec 3) (a b : Nat) : Nat × BitVec 5 := k.addV rm (k.val a) (k.val b)

/-- FSUB (R124). -/
def Fmt.sub (k : Fmt) (rm : BitVec 3) (a b : Nat) : Nat × BitVec 5 := k.addV rm (k.val a) (k.val b).negate

/-- Multiplication of values, rounded once (R35, R124). -/
def Fmt.mulV (k : Fmt) (rm : BitVec 3) (a b : FVal) : Nat × BitVec 5 :=
  match a, b with
  | .nan s, y => (k.nan, nvIf (s || y.snan))
  | x, .nan s => (k.nan, nvIf (s || x.snan))
  | .inf m, .inf n => (k.inf (m != n), 0)
  | .inf m, .fin n y _ => if y == 0 then (k.nan, flagNV) else (k.inf (m != n), 0)
  | .fin n y _, .inf m => if y == 0 then (k.nan, flagNV) else (k.inf (m != n), 0)
  | .fin n1 m1 x1, .fin n2 m2 x2 => k.round rm (n1 != n2) (m1 * m2) (x1 + x2)

/-- FMUL (R124). -/
def Fmt.mul (k : Fmt) (rm : BitVec 3) (a b : Nat) : Nat × BitVec 5 := k.mulV rm (k.val a) (k.val b)

/-- Fused multiply-add of values with one rounding (R128): 0 · ∞ is invalid even when the addend is a quiet NaN. -/
def Fmt.fmaV (k : Fmt) (rm : BitVec 3) (a b c : FVal) : Nat × BitVec 5 :=
  let zeroInf := match a, b with
    | .inf _, .fin _ m _ => m == 0
    | .fin _ m _, .inf _ => m == 0
    | _, _ => false
  if a.snan || b.snan || c.snan || zeroInf then (k.nan, flagNV)
  else if a.isNan || b.isNan || c.isNan then (k.nan, 0)
  else match a, b, c with
    | .fin n1 m1 x1, .fin n2 m2 x2, .fin n3 m3 x3 =>
      k.roundDy rm (zeroSign rm (n1 != n2) n3) (((dyOf n1 m1 x1).mul (dyOf n2 m2 x2)).add (dyOf n3 m3 x3))
    | .fin .., .fin .., .inf n => (k.inf n, 0)
    | .inf m, y, z => fmaInf (m != (match y with | .inf n => n | .fin n _ _ => n | .nan _ => false)) z
    | x, .inf m, z => fmaInf (m != (match x with | .inf n => n | .fin n _ _ => n | .nan _ => false)) z
    | _, _, _ => (k.nan, 0)
where
  /-- An infinite product meets the addend. -/
  fmaInf (neg : Bool) (z : FVal) : Nat × BitVec 5 :=
    match z with
    | .inf n => if n == neg then (k.inf neg, 0) else (k.nan, flagNV)
    | _ => (k.inf neg, 0)

/-- Fused multiply-add (R128). -/
def Fmt.fma (k : Fmt) (rm : BitVec 3) (a b c : Nat) : Nat × BitVec 5 := k.fmaV rm (k.val a) (k.val b) (k.val c)

/-- Division of values, rounded once (R124). -/
def Fmt.divV (k : Fmt) (rm : BitVec 3) (a b : FVal) : Nat × BitVec 5 :=
  match a, b with
  | .nan s, y => (k.nan, nvIf (s || y.snan))
  | x, .nan s => (k.nan, nvIf (s || x.snan))
  | .inf _, .inf _ => (k.nan, flagNV)
  | .inf m, .fin n _ _ => (k.inf (m != n), 0)
  | .fin m _ _, .inf n => (k.sign (m != n), 0)
  | .fin n1 m1 x1, .fin n2 m2 x2 =>
    if m2 == 0 then (if m1 == 0 then (k.nan, flagNV) else (k.inf (n1 != n2), flagDZ))
    else if m1 == 0 then (k.sign (n1 != n2), 0)
    else
      let s := k.f + 4 + bitLen m2
      let q := m1 * 2 ^ s / m2
      let r := stick q (x1 - x2 - s) (m1 * 2 ^ s % m2 != 0)
      k.round rm (n1 != n2) r.1 r.2

/-- FDIV (R124). -/
def Fmt.div (k : Fmt) (rm : BitVec 3) (a b : Nat) : Nat × BitVec 5 := k.divV rm (k.val a) (k.val b)

/-- Integer square root, one bit at a time from bit `i`. -/
def isqrtFrom (n : Nat) : Nat → Nat → Nat
  | 0, r => r
  | i + 1, r => isqrtFrom n i (if (r + 2 ^ i) * (r + 2 ^ i) ≤ n then r + 2 ^ i else r)

/-- The largest number whose square is at most `n`. -/
def isqrt (n : Nat) : Nat := isqrtFrom n (bitLen n / 2 + 1) 0

/-- FSQRT (R124). -/
def Fmt.sqrt (k : Fmt) (rm : BitVec 3) (a : Nat) : Nat × BitVec 5 :=
  match k.val a with
  | .nan s => (k.nan, nvIf s)
  | .inf n => if n then (k.nan, flagNV) else (k.inf false, 0)
  | .fin n m x =>
    if m == 0 then (k.sign n, 0)
    else if n then (k.nan, flagNV)
    else
      let s : Nat := 2 * (k.f + 3) + (if x % 2 == 0 then 0 else 1)
      let t := m * 2 ^ s
      let r := isqrt t
      let p := stick r ((x - s) / 2) (r * r != t)
      k.round rm false p.1 p.2

/-- Bits for a finite or infinite value that the format can hold; a NaN becomes canonical. -/
def Fmt.pack (k : Fmt) (v : FVal) : Nat :=
  match v with
  | .nan _ => k.nan
  | .inf n => k.inf n
  | .fin n m x => (k.round 1 n m x).1

/-- Order of two values that are no NaNs: `a < b`. With `zeros`, −0 lies below +0 (R35). -/
def FVal.less (zeros : Bool) (a b : FVal) : Bool :=
  match a, b with
  | .inf m, .inf n => m && !n
  | .inf m, _ => m
  | _, .inf n => !n
  | .fin n1 m1 x1, .fin n2 m2 x2 =>
    (dyOf n1 m1 x1).lt (dyOf n2 m2 x2) || (zeros && m1 == 0 && m2 == 0 && n1 && !n2)
  | _, _ => false

/-- Two values that are no NaNs are equal. -/
def FVal.same (a b : FVal) : Bool := !(a.less false b) && !(b.less false a)

/-- Minimum or maximum by R35: −0 below +0, a single NaN loses, NV only for a signalling operand. -/
def Fmt.minMax (k : Fmt) (isMax : Bool) (a b : Nat) : Nat × BitVec 5 :=
  let x := k.val a
  let y := k.val b
  let fl := nvIf (x.snan || y.snan)
  if x.isNan && y.isNan then (k.nan, fl)
  else if x.isNan then (b, fl)
  else if y.isNan then (a, fl)
  else ((if isMax then (if x.less true y then b else a) else (if y.less true x then b else a)), fl)

/-- The comparisons FEQ, FLT and FLE by number 0, 1, 2 (R126): a NaN makes them false; NV for a signalling NaN, and for any NaN
unless equality is asked. -/
def Fmt.compare (k : Fmt) (which : Nat) (a b : Nat) : Bool × BitVec 5 :=
  let x := k.val a
  let y := k.val b
  if x.isNan || y.isNan then (false, nvIf (x.snan || y.snan || which != 0))
  else match which with
    | 0 => (x.same y, 0)
    | 1 => (x.less false y, 0)
    | _ => (!(y.less false x), 0)

/-- FCLASS: the class code and the sign of R126. -/
def Fmt.class (k : Fmt) (a : Nat) : Nat :=
  let neg := a / 2 ^ (k.e + k.f) % 2
  let ex := a / 2 ^ k.f % 2 ^ k.e
  let c := match k.val a with
    | .nan s => if s then 5 else 4
    | .inf _ => 3
    | .fin _ m _ => if m == 0 then 0 else if ex == 0 then 1 else 2
  8 * neg + c

/-- Float to integer within bounds (R37): saturating, NV out of range and for a NaN (result 0), NX if inexact. -/
def floatToInt (rm : BitVec 3) (lo hi : Int) (v : FVal) : Int × BitVec 5 :=
  match v with
  | .nan _ => (0, flagNV)
  | .inf n => (if n then lo else hi, flagNV)
  | .fin n m x =>
    let r := quantize rm n m x 0
    let z : Int := if n then -(r.1 : Int) else r.1
    if hi < z then (hi, flagNV) else if z < lo then (lo, flagNV) else (z, if r.2 then flagNX else 0)

/-- Integer to float (R37). -/
def Fmt.ofInt (k : Fmt) (rm : BitVec 3) (z : Int) : Nat × BitVec 5 := k.round rm (decide (z < 0)) z.natAbs 0

/-- Float of one format to another (R37): rounded once, a NaN canonical, NV for a signalling one. -/
def Fmt.convert (dst src : Fmt) (rm : BitVec 3) (a : Nat) : Nat × BitVec 5 :=
  match src.val a with
  | .nan s => (dst.nan, nvIf s)
  | .inf n => (dst.inf n, 0)
  | .fin n m x => dst.round rm n m x

/-- The exact sum of products of a group, rounded once by RNE (R43). A NaN and the infinities settle special values; a zero sum is
−0 only when every product is −0. -/
structure GroupSum where
  nan : Bool
  posInf : Bool
  negInf : Bool
  sum : Dy
  allNegZero : Bool
deriving DecidableEq, Repr

/-- The empty group. -/
def GroupSum.zero : GroupSum := ⟨false, false, false, ⟨0, 0⟩, true⟩

/-- Adds the product of two values to a group, exactly (R43). -/
def GroupSum.addProduct (s : GroupSum) (a b : FVal) : GroupSum :=
  match a, b with
  | .nan _, _ => { s with nan := true, allNegZero := false }
  | _, .nan _ => { s with nan := true, allNegZero := false }
  | .inf m, .inf n => { s with posInf := s.posInf || m == n, negInf := s.negInf || m != n, allNegZero := false }
  | .inf m, .fin n y _ =>
    if y == 0 then { s with nan := true, allNegZero := false }
    else { s with posInf := s.posInf || m == n, negInf := s.negInf || m != n, allNegZero := false }
  | .fin n y _, .inf m =>
    if y == 0 then { s with nan := true, allNegZero := false }
    else { s with posInf := s.posInf || m == n, negInf := s.negInf || m != n, allNegZero := false }
  | .fin n1 m1 x1, .fin n2 m2 x2 =>
    let p := (dyOf n1 m1 x1).mul (dyOf n2 m2 x2)
    { s with sum := if p.v == 0 then s.sum else s.sum.add p, allNegZero := s.allNegZero && (m1 * m2 == 0 && n1 != n2) }

/-- The rounded sum of a group (R43). A group that holds a NaN product, 0 · ∞ or both infinities gives a NaN and NV. -/
def GroupSum.result (s : GroupSum) : Nat × BitVec 5 :=
  if s.nan || (s.posInf && s.negInf) then (fp32.nan, flagNV)
  else if s.posInf then (fp32.inf false, 0)
  else if s.negInf then (fp32.inf true, 0)
  else fp32.roundDy 0 s.allNegZero s.sum

/-! FPSTAT (R39, R40). -/

/-- The rounding mode of FPSTAT. -/
def fpRm (st : BitVec 13) : BitVec 3 := st.extractLsb' 0 3

/-- The trap enables of FPSTAT, in the order of its flags. -/
def fpEnables (st : BitVec 13) : BitVec 5 := st.extractLsb' 8 5

/-- The flags of FPSTAT. -/
def fpFlags (st : BitVec 13) : BitVec 5 := st.extractLsb' 3 5

/-- ORs flags into FPSTAT[7:3]. -/
def fpOr (st : BitVec 13) (fl : BitVec 5) : BitVec 13 := st ||| (fl.setWidth 13 <<< 3)

/-- Some raised flag has its trap enable set (R40). -/
def fpTraps (st : BitVec 13) (fl : BitVec 5) : Bool := fpEnables st &&& fl != 0

/-- The group 3 cause of the highest enabled flag (R40): unit 0 scalar, 1 vector, 2 moment. -/
def fpCause (unit : Nat) (st : BitVec 13) (fl : BitVec 5) : BitVec 9 :=
  let e := fpEnables st &&& fl
  let kind := if e.getLsbD 4 then 2 else if e.getLsbD 3 then 3 else if e.getLsbD 2 then 4 else if e.getLsbD 1 then 5 else 6
  BitVec.ofNat 9 (0xC0 + 8 * kind + unit)

/-- The rounding mode that a field names: 111 is FPSTAT.RM (R33). -/
def rmOf (st : BitVec 13) (m : BitVec 3) : BitVec 3 := if m == 7#3 then fpRm st else m

end Sys2Proof.Machine
end

