-- ==== Sys2Proof/Machine/Space.lean ====
section
/-!
DEFINITION. Where an address leads: the spaces (R195), the local guard (R197), page tables and TLBs (R243 to R247), the physical
map (R202, R207), the HBM interleave (R204), watches (R345), and the fetch of instruction words (R47, R196).
-/

namespace Sys2Proof.Machine

/-- The kind of an access, by its code in R196. -/
inductive AccKind where
  | fetch
  | load
  | store
  /-- atomic, ordered or flag -/
  | atomic
deriving DecidableEq, Repr

/-- The access code of R196. -/
def AccKind.code : AccKind → Nat
  | .fetch => 0
  | .load => 1
  | .store => 2
  | .atomic => 3

/-- The spaces of an address, by their codes in R196; `beyond` is the local gap and `wild` a non-canonical address (R195). -/
inductive Space where
  | loc
  | beyond
  | peer
  | global
  | wild
deriving DecidableEq, Repr

/-- The space of an address, by its value alone (R195). -/
def spaceOf (va : W) : Space :=
  if va.toNat < Config.localSize then .loc
  else if va.toNat < 0x100000 then .beyond
  else if va.extractLsb' 56 8 == 0xFE#8 then .peer
  else if va.extractLsb' 48 16 == (if va.getLsbD 47 then 0xFFFF#16 else 0#16) then .global
  else .wild

/-- The space code of R196. -/
def Space.code : Space → Nat
  | .loc => 0
  | .beyond => 0
  | .peer => 1
  | .global => 2
  | .wild => 2

/-- Problems of R196. -/
inductive Problem where
  | misaligned
  | protection
  | bounds
  | poisoned
deriving DecidableEq, Repr

/-- The problem code of R196. -/
def Problem.code : Problem → Nat
  | .misaligned => 0
  | .protection => 1
  | .bounds => 2
  | .poisoned => 3

/-- A group 1 cause (R196). -/
def accCause (k : AccKind) (space : Nat) (p : Problem) : BitVec 9 :=
  BitVec.ofNat 9 (0x40 + 16 * k.code + 4 * space + p.code)

/-- A group 2 cause (R245): outcome 0 not mapped, 1 permission, 2 quota exceeded, 3 capacity withdrawn. -/
def xlatCause (k : AccKind) (outcome level : Nat) : BitVec 9 := BitVec.ofNat 9 (0x80 + 16 * k.code + 4 * outcome + level)

/-! The local guard. -/

/-- Region `n` of the guard grants this kind of access to byte `a` from U (R197, R198). -/
def guardGrants (g : Vector W 8) (k : AccKind) (a n : Nat) : Bool :=
  let b := (g[2 * n]?.getD 0).toNat
  let l := g[2 * n + 1]?.getD 0
  l.getLsbD 0 && decide (b ≤ a ∧ a < (l &&& 0xFFFC0#64).toNat) &&
    (match k with
      | .fetch => l.getLsbD 3
      | .load => l.getLsbD 1
      | .store => l.getLsbD 2
      | .atomic => l.getLsbD 2)

/-- The guard lets `size` bytes at local address `a` pass (R197). -/
def guardOk (g : Vector W 8) (mode : BitVec 2) (k : AccKind) (a size : Nat) : Bool :=
  if mode == 3#2 then decide (a + size ≤ Config.localSize)
  else if mode == 1#2 then decide (a + size ≤ Config.spillBase)
  else decide (a + size ≤ Config.spillBase) &&
    (List.range size).all fun i => (List.range 4).any fun n => guardGrants g k (a + i) n

/-! Page tables. -/

/-- Why an access takes a ticket (R245); the numbers stand in `Ticket.reason`. -/
inductive TicketReason where
  | absent
  | walkNode
  | migrating
  | host
  /-- "migrating", of a first write under a replayable launch (R352), told apart for the memory service -/
  | firstWrite
deriving DecidableEq, Repr

/-- The number of a ticket reason. -/
def TicketReason.code : TicketReason → BitVec 3
  | .absent => 0
  | .walkNode => 1
  | .migrating => 2
  | .host => 3
  | .firstWrite => 4

/-- What a walk finds (R245). -/
inductive Walk where
  | fault (outcome level : Nat) (entry : Nat)
  | ticket (reason : TicketReason) (level : Nat) (entry : Nat)
  /-- a host-backed leaf: its page size, entry and address -/
  | host (size : BitVec 2) (pte : W) (entry : Nat)
  /-- a leaf: its page size, entry and address -/
  | leaf (size : BitVec 2) (pte : W) (entry : Nat)
deriving DecidableEq, Repr

/-- The entry is malformed at level `n`, 4 for the root (R244). -/
def malformed (n : Nat) (e : W) : Bool :=
  let frame := e.extractLsb' 12 36
  let t := e.getLsbD 1
  let hb := e.getLsbD 7
  e.extractLsb' 48 16 != 0 || e.getLsbD 6 || (n == 4 && !t) || (n == 1 && t) ||
    (!t && n == 2 && frame.extractLsb' 0 9 != 0) || (!t && n == 3 && frame.extractLsb' 0 18 != 0) ||
    (hb && t) || (hb && frame != 0)

/-- The level code of an entry met at level `n` (R245). DESIGN CHOICE (log 165): an entry with V = 0 is not taken for a leaf, whatever its T. -/
def levelCode (n : Nat) (e : W) : Nat :=
  if n == 1 || (n ≤ 3 && e.getLsbD 0 && !e.getLsbD 1) then 0 else if n == 2 then 1 else 2

/-- Walks from a table at physical address `table`, at level `n` (R243, R245). The host range holds no table that can be walked. -/
def walk (m : Memory) (va : W) : Nat → Nat → Walk
  | 0, _ => .fault 0 0 0
  | n + 1, table =>
    let at' := table + 8 * (va.extractLsb' (12 + 9 * n) 9).toNat
    let e := BitVec.ofNat 64 (readNat m at' 8)
    let frame := 4096 * (e.extractLsb' 12 36).toNat
    let size : BitVec 2 := BitVec.ofNat 2 n
    if malformed (n + 1) e then .fault 0 (levelCode (n + 1) e) at'
    else if !e.getLsbD 0 then .ticket .absent (levelCode (n + 1) e) at'
    else if e.getLsbD 1 then
      if e.getLsbD 8 || (Config.hostBase ≤ frame && frame < Config.deviceBase) then .ticket .walkNode 3 at'
      else walk m va n frame
    else if e.getLsbD 8 then .ticket .migrating 0 at'
    else if e.getLsbD 7 then .host size e at'
    else .leaf size e at'

/-- Bytes of a page of a size code. -/
def pageBytes (size : BitVec 2) : Nat := if size == 0 then 0x1000 else if size == 1 then 0x200000 else 0x40000000

/-- The TLB entry of a leaf (R247). -/
def leafEntry (ctx : BitVec 16) (va : W) (size : BitVec 2) (pte : W) : TlbEntry where
  ctx := ctx
  vpn := va.extractLsb' 12 36
  size := size
  frame := pte.extractLsb' 12 36
  r := pte.getLsbD 2
  w := pte.getLsbD 3
  x := pte.getLsbD 4
  u := pte.getLsbD 5
  host := false

/-- The page number of an address or entry at a page size. -/
def pageOf (vpn : BitVec 36) (size : BitVec 2) : Nat := vpn.toNat / (pageBytes size / 4096)

/-- The entry translates this address of the context. -/
def TlbEntry.hits (e : TlbEntry) (ctx : BitVec 16) (va : W) : Bool :=
  e.ctx == ctx && pageOf e.vpn e.size == pageOf (va.extractLsb' 12 36) e.size

/-- The entry lets the access pass in this mode (R245). -/
def TlbEntry.permits (e : TlbEntry) (k : AccKind) (mode : BitVec 2) : Bool :=
  (match k with
    | .fetch => e.x && (mode == 0 || !e.u)
    | .load => e.r
    | .store => e.w
    | .atomic => e.r && e.w) && (mode != 0 || e.u)

/-- The physical address (R243). -/
def TlbEntry.phys (e : TlbEntry) (va : W) : BitVec 48 :=
  BitVec.ofNat 48 ((4096 * e.frame.toNat) / pageBytes e.size * pageBytes e.size + va.toNat % pageBytes e.size)

/-- The entry of a core's TLB for an address of its context. -/
def CoreMem.lookup (m : CoreMem) (va : W) : Option TlbEntry := m.tlb.find? fun e => e.hits m.ctxid va

/-- The translation slice of an address (R246): 16 · die + h. -/
def sliceOf (c : CoreId) (va : W) : BitVec 6 :=
  dieOf c ++ (va.extractLsb' 12 4 ^^^ va.extractLsb' 21 4 ^^^ va.extractLsb' 30 4 ^^^ va.extractLsb' 39 4)

/-! The physical map. -/

/-- What the physical map says of an access (R202, R207). -/
inductive PhysCheck where
  | ok
  | withdrawn
  | problem (p : Problem)
  /-- in the device range, of an accepted kind -/
  | device
deriving DecidableEq, Repr

/-- Checks a physical address (R202). -/
def physCheck (cap : Capacity) (k : AccKind) (plain : Bool) (mode : BitVec 2) (pa : BitVec 48) (size : Nat) : PhysCheck :=
  let a := pa.toNat
  if a < Config.hbmLimit then (if cap.bytes.toNat ≤ a then .withdrawn else .ok)
  else if Config.commonsBase ≤ a && a < Config.commonsBase + 0x100000000 then .ok
  else if Config.weightBase ≤ a && a < Config.weightBase + 0x100000000 then
    (if k == .load || k == .store then .ok else .problem .protection)
  else if Config.hostBase ≤ a && a < Config.deviceBase then
    (if k == .load || k == .store then .ok else .problem .protection)
  else if Config.deviceBase ≤ a && a < 0x400000000000 then
    (if (k == .load || k == .store) && plain && mode != 0 && (size == 4 || size == 8) && a % size == 0 then .device
     else .problem .protection)
  else .problem .bounds

/-- The space code that a fault after translation reports (R195, R196). -/
def physSpace (pa : BitVec 48) : Nat :=
  if Config.hostBase ≤ pa.toNat && pa.toNat < Config.deviceBase then 3 else 2

/-- The active stacks in ascending order (R204). -/
def activeStacks (act : BitVec 12) : List Nat := (List.range 12).filter fun i => act.getLsbD i

/-- Where an HBM address is placed: stack, offset in the stack, pseudo-channel (R204). -/
def hbmPlace (act : BitVec 12) (pa : Nat) : Nat × Nat × Nat :=
  let st := activeStacks act
  let n := st.length
  let l := pa / 256
  let q := l / n
  (st[(l % n + q) % n]?.getD 0, q * 256 + pa % 256, q % 160)

/-- While a migration phase is open, a request for granule `pa / 256` is held at its requester (R207). -/
def migrationHolds (cap : Capacity) (pa : Nat) : Bool :=
  cap.isOpen && !cap.bounced && decide (pa < Config.hbmLimit) &&
    (let l := pa / 256
     let c := cap.cursor.toNat
     let n := (activeStacks cap.active).length + 1
     if c < n * (n - 1) then decide (l ≤ c) else decide (c - 63 ≤ l ∧ l ≤ c))

/-! Watches. -/

/-- The low and high end of a watched range (R344). -/
def watchRange (addr : W) (ctl : BitVec 16) : Nat × Nat :=
  let n := 2 ^ (ctl.extractLsb' 10 6).toNat
  let lo := (addr.toNat / 8 * 8) / n * n
  (lo, lo + n)

/-- What a watch sees of an access (R344): a fetch, a read (ordered accesses among them), a write, or both parts of an atomic. -/
inductive WatchKind where
  | fetch
  | read
  | write
  | both
deriving DecidableEq, Repr

/-- The lowest watched byte of an access that watch `n` matches, by R345. -/
def watchHit (addr : W) (ctl : BitVec 16) (k : WatchKind) (va size : Nat) : Option Nat :=
  let on := ctl.getLsbD 0 && (match k with
    | .fetch => ctl.getLsbD 3
    | .read => ctl.getLsbD 1
    | .write => ctl.getLsbD 2
    | .both => ctl.getLsbD 1 || ctl.getLsbD 2)
  let r := watchRange addr ctl
  if on && decide (va < r.2 ∧ r.1 < va + size) then some (max va r.1) else none

/-- What the two watches match, as one (R345): the number of the lowest and the lowest byte of either. -/
def joinWatches (a b : Option Nat) : Option (Nat × Nat) :=
  match a, b with
  | some a, some b => some (0, min a b)
  | some a, none => some (0, a)
  | none, some b => some (1, b)
  | none, none => none

/-- What watch `n` of a hart matches of one access. -/
def Hart.watchedBy (h : Hart) (n : Nat) (k : WatchKind) (va size : Nat) : Option Nat :=
  watchHit (h.trap.watch[n]?.getD 0) (h.trap.wctl[n]?.getD 0) k va size

/-- What the watches of a hart match of one access. -/
def Hart.watched (h : Hart) (k : WatchKind) (va size : Nat) : Option (Nat × Nat) := joinWatches (h.watchedBy 0 k va size) (h.watchedBy 1 k va size)

/-- A match of watch `n` does not trap: SKIP is set and a TRET has come since (R344). -/
def Hart.skips (h : Hart) (n : Nat) : Bool := (h.trap.wctl[n]?.getD 0).getLsbD 4 && h.trap.armed.getLsbD n

/-- Clears SKIP on watch `n` (R344). -/
def Hart.clearSkip (h : Hart) (n : Nat) : Hart :=
  { h with trap := { h.trap with wctl := h.trap.wctl.setIfInBounds n ((h.trap.wctl[n]?.getD 0) &&& ~~~0x10#16) } }

/-- Watches that match (`on`) without trapping, because SKIP lets the first match after a TRET pass, are used up (R344). -/
def Hart.usingSkips (h : Hart) (on : Nat → Option Nat) : Hart :=
  [0, 1].foldl (fun h n => if (on n).isSome && h.skips n then h.clearSkip n else h) h

/-- The watches that match (`on`) and trap: the number of the lowest, and the lowest matching byte of any of them (R344, R345). -/
def Hart.trapping (h : Hart) (on : Nat → Option Nat) : Option (Nat × Nat) :=
  joinWatches (if h.skips 0 then none else on 0) (if h.skips 1 then none else on 1)

/-! Fetch. -/

/-- What a fetch gives. -/
inductive Fetch where
  /-- the word, and its memory key -/
  | word (w : Word32) (key : Nat)
  | fault (cause : BitVec 9)
  /-- it has met a malformed entry, which is logged (R245) -/
  | malformed (cause : BitVec 9)
  /-- its ticket was answered with a fault: cause, slice and number (R253); or its slice has lost the ticket: 0x1C5 and reason 2 (R254) -/
  | failed (cause : BitVec 9) (info : W)
  | poisoned (cause : BitVec 9) (key : Nat)
  | ticket (reason : TicketReason) (level : Nat)
  /-- its slice answers with this entry, which the TLBs take (R246, R247) -/
  | translate (e : TlbEntry)
  /-- its ticket is not yet answered, or its slice holds 1 024 -/
  | wait
deriving DecidableEq, Repr

/-- The word at a memory key. -/
def wordAt (m : Memory) (key : Nat) : Word32 := BitVec.ofNat 32 (readNat m key 4)

/-- Hart `h` of core `c` holds the fetch block of a memory key (R239). -/
def State.hasBlock (s : State) (c : CoreId) (h : HartId) (key : Nat) : Bool := (s.hartAt c h).block.any fun b => b.line == key / 64

/-- The word that hart `h` of core `c` fetches at a memory key: from its fetch block, or from memory (R239). A poisoned line, or one that a
migration holds, is not read. -/
def fetchKey (s : State) (c : CoreId) (h : HartId) (space key : Nat) : Fetch :=
  match (s.hartAt c h).block with
  | some b =>
    if b.line == key / 64 then .word (b.bytes.extractLsb' (8 * (key % 64)) 32) key
    else if poisoned s key 4 then .poisoned (accCause .fetch space .poisoned) key
    else if migrationHolds s.cap key then .wait
    else .word (wordAt s.mem key) key
  | none =>
    if poisoned s key 4 then .poisoned (accCause .fetch space .poisoned) key
    else if migrationHolds s.cap key then .wait
    else .word (wordAt s.mem key) key

/-- The fetch of one word through an entry (R195, R202, R245). -/
def fetchVia (s : State) (c : CoreId) (h : HartId) (va : W) (e : TlbEntry) : Fetch :=
  let mode := (s.hartAt c h).mode
  if !e.permits .fetch mode || e.host then .fault (xlatCause .fetch 1 0)
  else
    let pa := e.phys va
    match physCheck s.cap .fetch true mode pa 4 with
    | .ok => fetchKey s c h 2 pa.toNat
    | .withdrawn => .fault (xlatCause .fetch 3 0)
    | .problem p => .fault (accCause .fetch (physSpace pa) p)
    | .device => .fault (accCause .fetch 2 .protection)

/-- The slice's TLB holds the translation (R246). -/
def State.sliceHit (s : State) (slice : BitVec 6) (ctx : BitVec 16) (va : W) : Option TlbEntry :=
  (s.books.sliceTlb.find? fun x => x.1 == slice && x.2.hits ctx va).map (·.2)

/-- Tickets open at a slice. -/
def State.openAt (s : State) (slice : BitVec 6) : List Ticket := s.books.tickets.filter fun t => t.slice == slice

/-- Physical address of a core's root table (R248). -/
def CoreMem.root (m : CoreMem) : Nat := 4096 * (m.ptbase.extractLsb' 12 36).toNat

/-- The open ticket of a fetch by hart `h` of core `c`. -/
def fetchTicket (s : State) (c : CoreId) (h : HartId) (va : W) : Option Ticket :=
  s.books.tickets.find? fun t => t.core == c && t.hart == h && t.ctx == (s.core c).mem.ctxid && t.kind == 0 && t.vpn == va.extractLsb' 12 36

/-- A fetch that the core's TLB does not translate (R245 to R248): its ticket, its slice's TLB, or a walk. -/
def fetchMiss (s : State) (c : CoreId) (h : HartId) (va : W) : Fetch :=
  let k := s.core c
  let mode := (k.hart h).mode
  let through (e : TlbEntry) : Fetch := if e.permits .fetch mode then .translate e else .fault (xlatCause .fetch 1 0)
  match fetchTicket s c h va with
  | some { answer := some (some cause), slice, num, .. } => .failed cause (if cause == 0x1C5 then 2 else (slice ++ num).setWidth 64)
  | some { answer := none, .. } => .wait
  | _ =>
    match s.sliceHit (sliceOf c va) k.mem.ctxid va with
    | some e => through e
    | none =>
      if 1024 ≤ (s.openAt (sliceOf c va)).length then .wait
      else match walk s.mem va 4 k.mem.root with
        | .fault o l _ => .malformed (xlatCause .fetch o l)
        | .ticket r l _ => .ticket r l
        | .host .. => .fault (xlatCause .fetch (if k.mem.hpasid.getLsbD 63 then 1 else 0) 0)
        | .leaf size pte _ => through (leafEntry k.mem.ctxid va size pte)

/-- Fetches the word at `va` for hart `h` of core `c`: from its local store or through its context's tables, never through a
window (R195 to R197, R200). -/
def fetchWord (s : State) (c : CoreId) (h : HartId) (va : W) : Fetch :=
  let k := s.core c
  let mode := (k.hart h).mode
  match spaceOf va with
  | .loc =>
    if !guardOk k.mem.lguard mode .fetch va.toNat 4 then .fault (accCause .fetch 0 .protection)
    else fetchKey s c h 0 (localKey c va.toNat)
  | .beyond => .fault (accCause .fetch 0 .bounds)
  | .peer => .fault (accCause .fetch 1 .protection)
  | .wild => .fault (accCause .fetch 2 .bounds)
  | .global =>
    match k.mem.lookup va with
    | some e => fetchVia s c h va e
    | none => fetchMiss s c h va

/-- The 64-byte line of memory as a fetch block (R239). -/
def blockAt (m : Memory) (line : Nat) : Block := { line := line, bytes := BitVec.ofNat 512 (readNat m (64 * line) 64) }

/-- The hart holds the fetch block that it fetches from at its pc: the one it holds already, or the whole line as memory now has it (R239). -/
def State.fetched (s : State) (c : CoreId) (h : HartId) : State :=
  match fetchWord s c h (s.hartAt c h).pc with
  | .word _ key => if s.hasBlock c h key then s else s.onHartAt c h fun x => { x with block := some (blockAt s.mem (key / 64)) }
  | _ => s

/-- The words that stand at a hart's pc: the lone, C or misplaced word, and the word after it unless the first is lone; a word
that cannot be fetched reads as zero (R58, R71). -/
def issueWords (s : State) (c : CoreId) (h : HartId) : W :=
  let pc := (s.hartAt c h).pc
  let get (va : W) : Word32 := match fetchWord s c h va with
    | .word w _ => w
    | _ => 0
  let lo := get pc
  (if lo.getLsbD 0 then (0 : Word32) else get (pc + 4)) ++ lo

/-! Illegal instructions. -/

/-- The position code of the failing word (R57). `misplaced`: a pair start at an address 4 mod 8. -/
def position (s : State) (misplaced : Bool) : BitVec 3 :=
  let h := s.hart
  if misplaced then 3
  else if s.slot == .aHalf then 2
  else if h.pp then 4
  else if h.loops.topEnd == some h.pc || h.loops.topEnd == some s.lastWord then 5
  else match h.arrival with
    | .taken => 6
    | .tret => 7
    | .fall => if s.slot == .cHalf then 1 else 0

/-- The step of R56 at which a kind of R57 is found. -/
def kindStage : Nat → Nat
  | 0 => 2
  | 1 => 4
  | 2 => 5
  | 3 => 3
  | 4 => 7
  | 5 => 6
  | 6 => 8
  | _ => 9

/-- Raises an illegal-instruction fault of a kind at the word that executes (R57, R58). -/
def State.illegal (s : State) (kind : Nat) : State :=
  s.raise (kindStage kind) (BitVec.ofNat 9 (8 * kind) ||| (position s false).setWidth 9) 0 (issueWords s s.cur s.curHart)

/-- A misplaced pair start (R47). -/
def State.misplaced (s : State) : State := s.raise 1 0x01B#9 0 (issueWords s s.cur s.curHart)

end Sys2Proof.Machine
end

