-- ==== Sys2Proof/Machine/Operands.lean ====
section
/-!
DEFINITION. What each instruction reads and writes (R61), which prefix fields it takes and which formats they may name (R31, R66,
R135, R136, R214), how a source element is read (R27, R29, R135), and the checks before issue (R56 steps 6 to 9, R62, R94).
-/

namespace Sys2Proof.Machine

/-- The static facts of an instruction: the registers that it reads and writes (R61), its W bit, its major opcode (32 for a step of
the package), and whether it is a load, store or atomic with an ordering (R211, R215). -/
structure Info where
  reads : List RegRef
  writes : List RegRef
  w : Bool
  major : Nat
  ordered : Bool
deriving DecidableEq, Repr

/-- A step of the package has no operands. -/
def noInfo : Info := ⟨[], [], false, 32, false⟩

/-- The static facts of an instruction, from its entry (R60, R61). -/
def info (i : Instr) : Info :=
  match i with
  | .beq _ b a w _ => ⟨[.g a, .g b], [], w, 1, false⟩
  | .bne _ b a w _ => ⟨[.g a, .g b], [], w, 1, false⟩
  | .blt _ b a w _ => ⟨[.g a, .g b], [], w, 1, false⟩
  | .bge _ b a w _ => ⟨[.g a, .g b], [], w, 1, false⟩
  | .bltu _ b a w _ => ⟨[.g a, .g b], [], w, 1, false⟩
  | .bgeu _ b a w _ => ⟨[.g a, .g b], [], w, 1, false⟩
  | .bbs _ b a w _ => ⟨[.g a, .g b], [], w, 1, false⟩
  | .bbc _ b a w _ => ⟨[.g a, .g b], [], w, 1, false⟩
  | .jal _ d w _ => ⟨[], [.g d], w, 2, false⟩
  | .jalr _ a d w _ => ⟨[.g a], [.g d], w, 3, false⟩
  | .ldb _ _ r a d w _ => ⟨[.g a], [.g d], w, 4, (r != 0#2)⟩
  | .ldh _ _ r a d w _ => ⟨[.g a], [.g d], w, 4, (r != 0#2)⟩
  | .ldw _ _ r a d w _ => ⟨[.g a], [.g d], w, 4, (r != 0#2)⟩
  | .ldd _ _ r a d w _ => ⟨[.g a], [.g d], w, 4, (r != 0#2)⟩
  | .ldbu _ _ r a d w _ => ⟨[.g a], [.g d], w, 4, (r != 0#2)⟩
  | .ldhu _ _ r a d w _ => ⟨[.g a], [.g d], w, 4, (r != 0#2)⟩
  | .ldwu _ _ r a d w _ => ⟨[.g a], [.g d], w, 4, (r != 0#2)⟩
  | .stb _ _ r a d w _ => ⟨[.g a, .g d], [], w, 5, (r != 0#2)⟩
  | .sth _ _ r a d w _ => ⟨[.g a, .g d], [], w, 5, (r != 0#2)⟩
  | .stw _ _ r a d w _ => ⟨[.g a, .g d], [], w, 5, (r != 0#2)⟩
  | .std _ _ r a d w _ => ⟨[.g a, .g d], [], w, 5, (r != 0#2)⟩
  | .vld _ a d w _ => ⟨[.g a], [.v d], w, 6, false⟩
  | .vst _ a d w _ => ⟨[.g a, .v d], [], w, 6, false⟩
  | .vlds s a d w _ => ⟨[.g a, .g s], [.v d], w, 6, false⟩
  | .vsts s a d w _ => ⟨[.g a, .g s, .v d], [], w, 6, false⟩
  | .vldx x a d w _ => ⟨[.g a, .v x], [.v d], w, 6, false⟩
  | .vstx x a d w _ => ⟨[.g a, .v x, .v d], [], w, 6, false⟩
  | .vldbc _ a d w _ => ⟨[.g a], [.v d], w, 6, false⟩
  | .aadd _ r _ b a d w _ => ⟨[.g a, .g b], [.g d], w, 7, (r != 0#2)⟩
  | .aand _ r _ b a d w _ => ⟨[.g a, .g b], [.g d], w, 7, (r != 0#2)⟩
  | .aor _ r _ b a d w _ => ⟨[.g a, .g b], [.g d], w, 7, (r != 0#2)⟩
  | .axor _ r _ b a d w _ => ⟨[.g a, .g b], [.g d], w, 7, (r != 0#2)⟩
  | .amin _ r _ b a d w _ => ⟨[.g a, .g b], [.g d], w, 7, (r != 0#2)⟩
  | .amax _ r _ b a d w _ => ⟨[.g a, .g b], [.g d], w, 7, (r != 0#2)⟩
  | .aminu _ r _ b a d w _ => ⟨[.g a, .g b], [.g d], w, 7, (r != 0#2)⟩
  | .amaxu _ r _ b a d w _ => ⟨[.g a, .g b], [.g d], w, 7, (r != 0#2)⟩
  | .aswap _ r _ b a d w _ => ⟨[.g a, .g b], [.g d], w, 7, (r != 0#2)⟩
  | .acas _ r _ b a d w _ => ⟨[.g a, .g b, .g d], [.g d], w, 7, (r != 0#2)⟩
  | .acasf _ r _ b a d w _ => ⟨[.g a, .g b, .g d], [.g d], w, 7, (r != 0#2)⟩
  | .afadd _ r b a d w _ => ⟨[.g a, .g b], [.g d], w, 7, (r != 0#2)⟩
  | .afmin _ r b a d w _ => ⟨[.g a, .g b], [.g d], w, 7, (r != 0#2)⟩
  | .afmax _ r b a d w _ => ⟨[.g a, .g b], [.g d], w, 7, (r != 0#2)⟩
  | .avadd _ r b a d w _ => ⟨[.g a, .v b], [.v d], w, 7, (r != 0#2)⟩
  | .avmax _ r b a d w _ => ⟨[.g a, .v b], [.v d], w, 7, (r != 0#2)⟩
  | .aincw _ r _ b a d w _ => ⟨[.g a, .g b], [.g d], w, 7, (r != 0#2)⟩
  | .tldw _ a d w _ => ⟨[.g a], [.g d], w, 8, false⟩
  | .tldd _ a d w _ => ⟨[.g a], [.g d], w, 8, false⟩
  | .tstw _ a d w _ => ⟨[.g a, .g d], [], w, 8, false⟩
  | .tstd _ a d w _ => ⟨[.g a, .g d], [], w, 8, false⟩
  | .tldv _ a d w _ => ⟨[.g a], [.v d], w, 8, false⟩
  | .tstv _ a d w _ => ⟨[.g a, .v d], [], w, 8, false⟩
  | .fence _ _ _ _ _ _ w _ => ⟨[], [], w, 9, false⟩
  | .ifence w _ => ⟨[], [], w, 9, false⟩
  | .waita _ _ b a d w _ => ⟨[.g a, .g b], [.g d], w, 9, false⟩
  | .gjoin a d w _ => ⟨[.g a], [.g d], w, 9, false⟩
  | .gleave a w _ => ⟨[.g a], [], w, 9, false⟩
  | .gbar a w _ => ⟨[.g a], [], w, 9, false⟩
  | .gqry a d w _ => ⟨[.g a], [.g d], w, 9, false⟩
  | .yield w _ => ⟨[], [], w, 9, false⟩
  | .next d w _ => ⟨[], [.v d], w, 10, false⟩
  | .done w _ => ⟨[], [], w, 10, false⟩
  | .post c b a w _ => ⟨[.g a, .v b, .g c], [], w, 10, false⟩
  | .postp c b a w _ => ⟨[.g a, .v b, .g c], [], w, 10, false⟩
  | .tnow d w _ => ⟨[], [.g d], w, 10, false⟩
  | .lateq d w _ => ⟨[], [.g d], w, 10, false⟩
  | .twait a w _ => ⟨[.g a], [], w, 10, false⟩
  | .enq _ d w _ => ⟨[.g d], [], w, 11, false⟩
  | .deq _ d w _ => ⟨[], [.g d], w, 11, false⟩
  | .enqv _ d w _ => ⟨[.v d], [], w, 11, false⟩
  | .deqv _ d w _ => ⟨[], [.v d], w, 11, false⟩
  | .enqn b _ d w _ => ⟨[.g d], [.g b], w, 11, false⟩
  | .deqn b _ d w _ => ⟨[], [.g d, .g b], w, 11, false⟩
  | .qlen _ d w _ => ⟨[], [.g d], w, 11, false⟩
  | .xshape _ a w _ => ⟨[.g a], [], w, 12, false⟩
  | .xcopy c b a w _ => ⟨[.g c, .g b, .g a], [], w, 12, false⟩
  | .xcopys _ b a w _ => ⟨[.g b, .g a], [], w, 12, false⟩
  | .xgath c b a d w _ => ⟨[.g c, .g b, .g a, .g d], [], w, 12, false⟩
  | .xscat c b a d w _ => ⟨[.g c, .g b, .g a, .g d], [], w, 12, false⟩
  | .xfill c b a w _ => ⟨[.g c, .g b, .g a], [], w, 12, false⟩
  | .bseal d w _ => ⟨[], [.g d], w, 12, false⟩
  | .bwait _ w _ => ⟨[], [], w, 12, false⟩
  | .bstat a d w _ => ⟨[.g a], [.g d], w, 12, false⟩
  | .xmode _ _ a w _ => ⟨[.g a], [], w, 12, false⟩
  | .leash a d w _ => ⟨[.g a], [.g d], w, 13, false⟩
  | .leashn a d w _ => ⟨[.g a], [.g d], w, 13, false⟩
  | .unleash w _ => ⟨[], [], w, 13, false⟩
  | .mxcfg b a w _ => ⟨[.g b, .g a], [], w, 13, false⟩
  | .mxldb b a w _ => ⟨[.g b, .g a], [], w, 13, false⟩
  | .mxrun c b a d w _ => ⟨[.g c, .g b, .g a], [.g d], w, 13, false⟩
  | .mxzero w _ => ⟨[], [], w, 13, false⟩
  | .mxwait a d w _ => ⟨[.g a], [.g d], w, 13, false⟩
  | .mxqry a d w _ => ⟨[.g a], [.g d], w, 13, false⟩
  | .warm c b a w _ => ⟨[.g c, .g b, .g a], [], w, 14, false⟩
  | .wdisarm a w _ => ⟨[.g a], [], w, 14, false⟩
  | .wcnt a d w _ => ⟨[.g a], [.g d], w, 14, false⟩
  | .wadd b a w _ => ⟨[.g b, .g a], [], w, 14, false⟩
  | .wwait b a d w _ => ⟨[.g b, .g a], [.g d], w, 14, false⟩
  | .wstart a w _ => ⟨[.g a], [], w, 14, false⟩
  | .csrrw _ a d w _ => ⟨[.g a], [.g d], w, 15, false⟩
  | .csrrs _ a d w _ => ⟨[.g a], [.g d], w, 15, false⟩
  | .csrrc _ a d w _ => ⟨[.g a], [.g d], w, 15, false⟩
  | .csrwi _ _ d w _ => ⟨[], [.g d], w, 15, false⟩
  | .csrsi _ _ d w _ => ⟨[], [.g d], w, 15, false⟩
  | .csrci _ _ d w _ => ⟨[], [.g d], w, 15, false⟩
  | .ecall w => ⟨[], [], w, 16, false⟩
  | .ebreak w => ⟨[], [], w, 16, false⟩
  | .tret w => ⟨[], [], w, 16, false⟩
  | .wfi w => ⟨[], [], w, 16, false⟩
  | .halt w => ⟨[], [], w, 16, false⟩
  | .hstart b a w => ⟨[.g b, .g a], [], w, 16, false⟩
  | .hstop a w => ⟨[.g a], [], w, 16, false⟩
  | .stfw _ b a d w _ => ⟨[.g a, .g b, .g d], [], w, 17, false⟩
  | .stfd _ b a d w _ => ⟨[.g a, .g b, .g d], [], w, 17, false⟩
  | .stfv _ b a d w _ => ⟨[.g a, .g b, .v d], [], w, 17, false⟩
  | .loop _ a w _ => ⟨[.g a], [], w, 18, false⟩
  | .loopi _ _ w _ => ⟨[], [], w, 18, false⟩
  | .lbrk w _ => ⟨[], [], w, 18, false⟩
  | .lpop w _ => ⟨[], [], w, 18, false⟩
  | .pfx _ _ _ _ _ _ _ _ w _ => ⟨[], [], w, 19, false⟩
  | .add b a d w _ => ⟨[.g b, .g a], [.g d], w, 20, false⟩
  | .sub b a d w _ => ⟨[.g b, .g a], [.g d], w, 20, false⟩
  | .and b a d w _ => ⟨[.g b, .g a], [.g d], w, 20, false⟩
  | .or b a d w _ => ⟨[.g b, .g a], [.g d], w, 20, false⟩
  | .xor b a d w _ => ⟨[.g b, .g a], [.g d], w, 20, false⟩
  | .sll b a d w _ => ⟨[.g b, .g a], [.g d], w, 20, false⟩
  | .srl b a d w _ => ⟨[.g b, .g a], [.g d], w, 20, false⟩
  | .sra b a d w _ => ⟨[.g b, .g a], [.g d], w, 20, false⟩
  | .slt b a d w _ => ⟨[.g b, .g a], [.g d], w, 20, false⟩
  | .sltu b a d w _ => ⟨[.g b, .g a], [.g d], w, 20, false⟩
  | .mul b a d w _ => ⟨[.g b, .g a], [.g d], w, 20, false⟩
  | .mulh b a d w _ => ⟨[.g b, .g a], [.g d], w, 20, false⟩
  | .mulhu b a d w _ => ⟨[.g b, .g a], [.g d], w, 20, false⟩
  | .div b a d w _ => ⟨[.g b, .g a], [.g d], w, 20, false⟩
  | .divu b a d w _ => ⟨[.g b, .g a], [.g d], w, 20, false⟩
  | .rem b a d w _ => ⟨[.g b, .g a], [.g d], w, 20, false⟩
  | .remu b a d w _ => ⟨[.g b, .g a], [.g d], w, 20, false⟩
  | .min b a d w _ => ⟨[.g b, .g a], [.g d], w, 20, false⟩
  | .max b a d w _ => ⟨[.g b, .g a], [.g d], w, 20, false⟩
  | .minu b a d w _ => ⟨[.g b, .g a], [.g d], w, 20, false⟩
  | .maxu b a d w _ => ⟨[.g b, .g a], [.g d], w, 20, false⟩
  | .clz a d w _ => ⟨[.g a], [.g d], w, 20, false⟩
  | .ctz a d w _ => ⟨[.g a], [.g d], w, 20, false⟩
  | .popc a d w _ => ⟨[.g a], [.g d], w, 20, false⟩
  | .rol b a d w _ => ⟨[.g b, .g a], [.g d], w, 20, false⟩
  | .ror b a d w _ => ⟨[.g b, .g a], [.g d], w, 20, false⟩
  | .addw b a d w _ => ⟨[.g b, .g a], [.g d], w, 20, false⟩
  | .subw b a d w _ => ⟨[.g b, .g a], [.g d], w, 20, false⟩
  | .sel c b a d w _ => ⟨[.g c, .g b, .g a], [.g d], w, 20, false⟩
  | .addi _ a d w _ => ⟨[.g a], [.g d], w, 21, false⟩
  | .andi _ a d w _ => ⟨[.g a], [.g d], w, 21, false⟩
  | .ori _ a d w _ => ⟨[.g a], [.g d], w, 21, false⟩
  | .xori _ a d w _ => ⟨[.g a], [.g d], w, 21, false⟩
  | .slti _ a d w _ => ⟨[.g a], [.g d], w, 21, false⟩
  | .sltiu _ a d w _ => ⟨[.g a], [.g d], w, 21, false⟩
  | .slli _ a d w _ => ⟨[.g a], [.g d], w, 21, false⟩
  | .srli _ a d w _ => ⟨[.g a], [.g d], w, 21, false⟩
  | .srai _ a d w _ => ⟨[.g a], [.g d], w, 21, false⟩
  | .rori _ a d w _ => ⟨[.g a], [.g d], w, 21, false⟩
  | .addwi _ a d w _ => ⟨[.g a], [.g d], w, 21, false⟩
  | .lui _ d w _ => ⟨[], [.g d], w, 22, false⟩
  | .auipc _ d w _ => ⟨[], [.g d], w, 23, false⟩
  | .fadd _ _ b a d w _ => ⟨[.g b, .g a], [.g d], w, 24, false⟩
  | .fsub _ _ b a d w _ => ⟨[.g b, .g a], [.g d], w, 24, false⟩
  | .fmul _ _ b a d w _ => ⟨[.g b, .g a], [.g d], w, 24, false⟩
  | .fdiv _ _ b a d w _ => ⟨[.g b, .g a], [.g d], w, 24, false⟩
  | .fsqrt _ _ a d w _ => ⟨[.g a], [.g d], w, 24, false⟩
  | .fmin _ b a d w _ => ⟨[.g b, .g a], [.g d], w, 24, false⟩
  | .fmax _ b a d w _ => ⟨[.g b, .g a], [.g d], w, 24, false⟩
  | .fsgnj _ b a d w _ => ⟨[.g b, .g a], [.g d], w, 24, false⟩
  | .fsgnjn _ b a d w _ => ⟨[.g b, .g a], [.g d], w, 24, false⟩
  | .fsgnjx _ b a d w _ => ⟨[.g b, .g a], [.g d], w, 24, false⟩
  | .feq _ b a d w _ => ⟨[.g b, .g a], [.g d], w, 24, false⟩
  | .flt _ b a d w _ => ⟨[.g b, .g a], [.g d], w, 24, false⟩
  | .fle _ b a d w _ => ⟨[.g b, .g a], [.g d], w, 24, false⟩
  | .fclass _ a d w _ => ⟨[.g a], [.g d], w, 24, false⟩
  | .fcvti _ _ _ a d w _ => ⟨[.g a], [.g d], w, 24, false⟩
  | .fcvtf _ _ _ a d w _ => ⟨[.g a], [.g d], w, 24, false⟩
  | .fcvtff _ _ _ a d w _ => ⟨[.g a], [.g d], w, 24, false⟩
  | .fmas c b a d w _ => ⟨[.g c, .g b, .g a], [.g d], w, 24, false⟩
  | .fmad c b a d w _ => ⟨[.g c, .g b, .g a], [.g d], w, 24, false⟩
  | .vadd _ k b a d w _ => ⟨[.k k, .v a, .v b], [.v d], w, 25, false⟩
  | .vsub _ k b a d w _ => ⟨[.k k, .v a, .v b], [.v d], w, 25, false⟩
  | .vmul _ k b a d w _ => ⟨[.k k, .v a, .v b], [.v d], w, 25, false⟩
  | .vfma _ k b a d w _ => ⟨[.k k, .v a, .v b, .v d], [.v d], w, 25, false⟩
  | .vmin _ k b a d w _ => ⟨[.k k, .v a, .v b], [.v d], w, 25, false⟩
  | .vmax _ k b a d w _ => ⟨[.k k, .v a, .v b], [.v d], w, 25, false⟩
  | .vabs _ k a d w _ => ⟨[.k k, .v a], [.v d], w, 25, false⟩
  | .vneg _ k a d w _ => ⟨[.k k, .v a], [.v d], w, 25, false⟩
  | .vand _ k b a d w _ => ⟨[.k k, .v a, .v b], [.v d], w, 25, false⟩
  | .vor _ k b a d w _ => ⟨[.k k, .v a, .v b], [.v d], w, 25, false⟩
  | .vxor _ k b a d w _ => ⟨[.k k, .v a, .v b], [.v d], w, 25, false⟩
  | .vshl k b a d w _ => ⟨[.k k, .v a, .v b], [.v d], w, 25, false⟩
  | .vshr k b a d w _ => ⟨[.k k, .v a, .v b], [.v d], w, 25, false⟩
  | .vsra k b a d w _ => ⟨[.k k, .v a, .v b], [.v d], w, 25, false⟩
  | .vceq _ k b a d w _ => ⟨[.k k, .v a, .v b], [.k d], w, 25, false⟩
  | .vclt _ k b a d w _ => ⟨[.k k, .v a, .v b], [.k d], w, 25, false⟩
  | .vcle _ k b a d w _ => ⟨[.k k, .v a, .v b], [.k d], w, 25, false⟩
  | .vsel _ k b a d w _ => ⟨[.k k, .v a, .v b], [.v d], w, 25, false⟩
  | .vcvt _ k _ a d w _ => ⟨[.k k, .v a], [.v d], w, 25, false⟩
  | .vred _ k _ a d w _ => ⟨[.k k, .v a], [.g d], w, 25, false⟩
  | .vsplat _ k a d w _ => ⟨[.k k, .g a], [.v d], w, 25, false⟩
  | .vext _ _ a d w _ => ⟨[.v a], [.g d], w, 25, false⟩
  | .vins _ _ a d w _ => ⟨[.g a, .v d], [.v d], w, 25, false⟩
  | .vperm _ k b a d w _ => ⟨[.k k, .v a, .v b], [.v d], w, 25, false⟩
  | .vwfma _ k b a d w _ => ⟨[.k k, .v a, .v b, .v (d ++ 0#1), .v (d ++ 1#1)], [.v (d ++ 0#1), .v (d ++ 1#1)], w, 25, false⟩
  | .vdot _ k b a d w _ => ⟨[.k k, .v a, .v b, .v d], [.v d], w, 25, false⟩
  | .vlut _ k _ a d w _ => ⟨[.k k, .v a, .v d], [.v d], w, 25, false⟩
  | .vpln _ a d w _ => ⟨[.v a], [.v d], w, 25, false⟩
  | .vupl k _ a d w _ => ⟨[.k k, .v a], [.v d], w, 25, false⟩
  | .vrcp _ k a d w _ => ⟨[.k k, .v a], [.v d], w, 25, false⟩
  | .vrsq _ k a d w _ => ⟨[.k k, .v a], [.v d], w, 25, false⟩
  | .vexp _ k _ a d w _ => ⟨[.k k, .v a], [.v d], w, 25, false⟩
  | .kand b a d w _ => ⟨[.k b, .k a], [.k d], w, 26, false⟩
  | .kor b a d w _ => ⟨[.k b, .k a], [.k d], w, 26, false⟩
  | .kxor b a d w _ => ⟨[.k b, .k a], [.k d], w, 26, false⟩
  | .knot a d w _ => ⟨[.k a], [.k d], w, 26, false⟩
  | .kpopc a d w _ => ⟨[.k a], [.g d], w, 26, false⟩
  | .kmovKK a d w _ => ⟨[.k a], [.k d], w, 26, false⟩
  | .kmovKG a d w _ => ⟨[.g a], [.k d], w, 26, false⟩
  | .kmovGK a d w _ => ⟨[.k a], [.g d], w, 26, false⟩
  | .vidx _ k d w _ => ⟨[.k k], [.v d], w, 26, false⟩
  | .vslide _ k b a d w _ => ⟨[.k k, .v a, .g b], [.v d], w, 26, false⟩
  | .vmov _ k a d w _ => ⟨[.k k, .v a], [.v d], w, 26, false⟩
  | .vtanh _ k a d w _ => ⟨[.k k, .v a], [.v d], w, 26, false⟩
  | .vrand k b a d w _ => ⟨[.k k, .g a, .g b], [.v d], w, 26, false⟩
  | .vpopc k a d w _ => ⟨[.k k, .v a], [.v d], w, 26, false⟩
  | .vpdot k b a d w _ => ⟨[.k k, .v a, .v b], [.v d], w, 26, false⟩
  | .vcvts _ k a d w _ => ⟨[.k k, .v a], [.v d], w, 26, false⟩
  | .vmulh k b a d w _ => ⟨[.k k, .v a, .v b], [.v d], w, 26, false⟩
  | .vsat k _ a d w _ => ⟨[.k k, .v a], [.v d], w, 26, false⟩
  | .madd k b a d w _ => ⟨[.k k, .m b, .m a], [.m d], w, 27, false⟩
  | .msub k b a d w _ => ⟨[.k k, .m b, .m a], [.m d], w, 27, false⟩
  | .mmul k b a d w _ => ⟨[.k k, .m b, .m a], [.m d], w, 27, false⟩
  | .mscal k b a d w _ => ⟨[.k k, .m a, .v b], [.m d], w, 27, false⟩
  | .maddc k b a d w _ => ⟨[.k k, .m a, .v b], [.m d], w, 27, false⟩
  | .mrelu k a d w _ => ⟨[.k k, .m a], [.m d], w, 27, false⟩
  | .mexp k a d w _ => ⟨[.k k, .m a], [.m d], w, 27, false⟩
  | .msig k a d w _ => ⟨[.k k, .m a], [.m d], w, 27, false⟩
  | .mpack k b a d w _ => ⟨[.k k, .v a, .v b], [.m d], w, 27, false⟩
  | .mcoll k _ _ a d w _ => ⟨[.k k, .m a], [.v d], w, 27, false⟩
  | .mred k a d w _ => ⟨[.k k, .m a], [.m d], w, 27, false⟩
  | .mmov k a d w _ => ⟨[.k k, .m a], [.m d], w, 27, false⟩
  | .mzero k d w _ => ⟨[.k k], [.m d], w, 27, false⟩
  | .mchk k a d w _ => ⟨[.k k, .v a], [.k d], w, 27, false⟩
  | .packageReset => noInfo
  | .timeTreeReference _ _ _ => noInfo
  | .interruptEntry _ _ => noInfo
  | .vectorAccept _ => noInfo
  | .vectorComplete _ _ => noInfo
  | .momentAccept _ => noInfo
  | .momentComplete _ _ => noInfo
  | .divideResult _ _ _ => noInfo
  | .fdivFsqrtResult _ _ _ => noInfo
  | .localLoadComplete _ _ _ => noInfo
  | .wfiWake _ _ => noInfo
  | .yieldPauseEnd _ _ => noInfo
  | .waitaPoll _ _ => noInfo
  | .waitaLimitExpiry _ _ => noInfo
  | .twaitExpiry _ _ => noInfo
  | .groupJoinConfirm _ _ => noInfo
  | .barrierEpisodeComplete _ => noInfo
  | .leaseGrant _ => noInfo
  | .leaseExpiry _ => noInfo
  | .hartStartCommand _ => noInfo
  | .hartStopCommand _ => noInfo
  | .arrayLoadBTile _ => noInfo
  | .runAccept _ => noInfo
  | .arrayRowCompute _ => noInfo
  | .mxzeroAccept _ => noInfo
  | .partialSums _ => noInfo
  | .runComplete _ => noInfo
  | .loadRequest _ _ => noInfo
  | .storeRequest _ _ => noInfo
  | .atomicRequest _ _ => noInfo
  | .dataResponse _ _ => noInfo
  | .acknowledgement _ _ => noInfo
  | .negativeAcknowledgement _ _ => noInfo
  | .ticket _ _ => noInfo
  | .ticketRewind _ _ => noInfo
  | .replayNotice _ _ => noInfo
  | .ticketFault _ _ => noInfo
  | .ticketTimeout _ _ => noInfo
  | .taggedMessage _ => noInfo
  | .inboxResend _ => noInfo
  | .nextDelivery _ => noInfo
  | .horizonPublish _ => noInfo
  | .reactionAbort _ _ => noInfo
  | .reactionAbortRestart _ _ => noInfo
  | .channelMessage _ => noInfo
  | .channelHeldResend _ => noInfo
  | .deqTake _ _ => noInfo
  | .streamerCommand _ => noInfo
  | .bulkPiece _ _ => noInfo
  | .binBump _ => noInfo
  | .streamerCommandComplete _ => noInfo
  | .batchFinish _ _ => noInfo
  | .stfFlagIncrement _ => noInfo
  | .eventRecord _ => noInfo
  | .collectiveWave _ => noInfo
  | .generationComplete _ _ => noInfo
  | .malformedPacket _ => noInfo
  | .reassemblyTimeout _ => noInfo
  | .resendTimeout _ => noInfo
  | .resendLimit _ => noInfo
  | .linkFrame _ _ => noInfo
  | .linkRetrain _ => noInfo
  | .linkRetrainComplete _ => noInfo
  | .rpstatTrain _ => noInfo
  | .rpstatIsolate _ => noInfo
  | .reachTrainingComplete _ _ => noInfo
  | .reachLinkDownTimeout _ => noInfo
  | .reachPeerReset _ => noInfo
  | .sliceWalk _ _ => noInfo
  | .atsCompletion _ _ _ _ _ _ _ => noInfo
  | .priPageGroupResponse _ _ _ => noInfo
  | .atsInvalidationRequest _ _ _ => noInfo
  | .invalidationCompletion _ _ _ => noInfo
  | .tlbinv _ _ _ => noInfo
  | .tlbinvDrainComplete _ _ => noInfo
  | .memoryServiceTicket _ _ _ => noInfo
  | .stackRetirement _ => noInfo
  | .migrationBlockMove => noInfo
  | .migrationBounce => noInfo
  | .memcapWrite _ => noInfo
  | .hostCxlMemRequest _ _ _ _ => noInfo
  | .queueDoorbell _ _ => noInfo
  | .coreDoorbell _ _ => noInfo
  | .qreg _ => noInfo
  | .deviceRegisterWrite _ _ _ _ _ => noInfo
  | .ltbaseWrite _ _ => noInfo
  | .elogbaseWrite _ _ => noInfo
  | .uncorrectableError _ _ _ _ _ => noInfo
  | .correctedError _ _ _ _ => noInfo
  | .kennelRestart _ => noInfo
  | .launchReplay _ => noInfo
  | .frameQuarantineScrub _ _ => noInfo
  | .coreRetirement _ => noInfo
  | .heelcfgGo _ => noInfo
  | .heelcfgRel _ => noInfo
  | .partitionStopped _ => noInfo
  | .recallGo _ => noInfo
  | .recallFloodArrival _ => noInfo
  | .recallSweepEnd _ => noInfo
  | .purgeConfirmed => noInfo
  | .switchtWrite _ _ => noInfo
  | .switchTimeReached _ => noInfo
  | .switchDrainDone _ => noInfo
  | .spillSweepEnd _ => noInfo
  | .resumeReinjectDone _ => noInfo
  | .powerArbiterRecompute _ _ => noInfo
  | .coldPlateLimit _ => noInfo
  | .launchCheck _ => noInfo
  | .launchBind _ => noInfo
  | .launchComplete _ => noInfo
  | .illegalInstruction _ _ => noInfo
  | .instructionFetchFault _ _ => noInfo
  | .reachLinkDown _ => noInfo

/-! Prefix fields, as one 22-bit value: the bits 28 to 7 of the prefix word (R64). -/

/-- FA: the format code of source A. -/
def pfFA (p : BitVec 22) : BitVec 4 := p.extractLsb' 0 4
/-- FB: the format code of source B. -/
def pfFB (p : BitVec 22) : BitVec 4 := p.extractLsb' 4 4
/-- QA: planes of source A minus 1. -/
def pfQA (p : BitVec 22) : BitVec 3 := p.extractLsb' 8 3
/-- QB: planes of source B minus 1. -/
def pfQB (p : BitVec 22) : BitVec 3 := p.extractLsb' 11 3
/-- PP: stored precision minus 1. -/
def pfPP (p : BitVec 22) : BitVec 3 := p.extractLsb' 14 3
/-- SC: index of a SCALE register. -/
def pfSC (p : BitVec 22) : BitVec 3 := p.extractLsb' 17 3
/-- CE: centred read. -/
def pfCE (p : BitVec 22) : Bool := p.getLsbD 20
/-- SA: saturate integer results. -/
def pfSA (p : BitVec 22) : Bool := p.getLsbD 21

/-- Fields FA, FB, QA, QB, PP, CE, SA. -/
def maskTwo : BitVec 22 := 0x31FFFF#22
/-- Fields FA, QA, PP, CE. -/
def maskOne : BitVec 22 := 0x11C70F#22
/-- SA alone. -/
def maskSA : BitVec 22 := 0x200000#22

/-- The prefix fields that an instruction reads; none when it takes no prefix (R66, R136, R185, R188, R214). -/
def prefixFields (i : Instr) : Option (BitVec 22) :=
  match i with
  | .vadd .. | .vsub .. | .vmul .. | .vfma .. | .vmin .. | .vmax .. | .vdot .. => some maskTwo
  | .vabs .. | .vneg .. | .vred .. => some (maskOne ||| maskSA)
  | .vceq .. | .vclt .. | .vcle .. | .vsel .. | .vpdot .. => some 0x11FFFF#22
  | .vwfma .. => some 0x0000FF#22
  | .vcvt .. => some 0x11C700#22
  | .vcvts .. => some (maskOne ||| 0x0E0000#22)
  | .vupl .. | .vrcp .. | .vrsq .. | .vexp .. | .vtanh .. => some maskOne
  | .vpln .. => some maskSA
  | .vand .. | .vor .. | .vxor .. | .vshl .. | .vshr .. | .vsra .. | .vsplat .. | .vext .. | .vins .. | .vperm .. | .vlut ..
  | .vidx .. | .vslide .. | .vmov .. | .vrand .. | .vpopc .. | .vmulh .. | .vsat .. => some 0
  | .vld .. | .vst .. | .vlds .. | .vsts .. | .vldx .. | .vstx .. | .vldbc .. => some (maskSA ||| 0xFF#22)
  | .mxldb .. => some 0x11F8F0#22
  | .mxrun .. => some 0x1FC70F#22
  | _ => none

/-- The source formats that a TY code accepts (R135). -/
def srcOk (t : BitVec 2) (f : BitVec 4) : Bool :=
  match t.toNat, f.toNat with
  | _, 0 => true
  | 0, 1 | 0, 2 | 0, 3 | 0, 4 | 0, 5 | 0, 7 | 0, 8 => true
  | 1, 2 | 1, 4 | 1, 7 | 1, 8 => true
  | 2, 3 | 2, 4 | 2, 7 | 2, 8 => true
  | 3, 6 | 3, 4 | 3, 5 | 3, 7 | 3, 8 => true
  | _, _ => false

/-- Formats of the half-precision products: FP16, BF16 or the TY format (R146, R147). -/
def halfOk (f : BitVec 4) : Bool := f == 0 || f == 2 || f == 3

/-- Formats of the integer dot product: INT8, CB4, NI (R147). -/
def quadOk (f : BitVec 4) : Bool := f == 4 || f == 7 || f == 8

/-- Formats of the arrays: FP16 by default, BF16, INT8, CB4, NI (R185, R188). -/
def arrayOk (f : BitVec 4) : Bool := f == 0 || f == 2 || f == 3 || f == 4 || f == 7 || f == 8

/-- Planes against precision for two sources (R28): a source that is not NI has its plane field zero, PP and CE are zero when
neither is NI, and q never exceeds P. -/
def planesOk (fa fb : BitVec 4) (p : BitVec 22) : Bool :=
  (if fa == 8 then decide ((pfQA p).toNat ≤ (pfPP p).toNat) else pfQA p == 0) &&
  (if fb == 8 then decide ((pfQB p).toNat ≤ (pfPP p).toNat) else pfQB p == 0) &&
  (fa == 8 || fb == 8 || (pfPP p == 0 && !pfCE p))

/-- The TY code that a lane format of VMEM stands for (R214). -/
def laneTy (f : BitVec 4) : Option (BitVec 2) :=
  match f.toNat with
  | 1 => some 0
  | 2 => some 1
  | 3 => some 2
  | 6 => some 3
  | _ => none

/-- The memory and lane formats of a vector access are a legal pair (R214): both 0000, or a pair of R135 without NI. -/
def vmemOk (wide : Bool) (lane memf : BitVec 4) : Bool :=
  (lane == 0 && memf == 0) ||
  (match laneTy lane with
    | some t => srcOk t memf && memf != 8 && (!wide || t == 0 || t == 3)
    | none => false)

/-- The formats that the prefix, or its absence, gives an instruction are ones that it accepts (R28, R31, R135, R141, R146 to R148,
R150, R185, R188, R214). -/
def formatsOk (i : Instr) (p : BitVec 22) : Bool :=
  let two (t : BitVec 2) := srcOk t (pfFA p) && srcOk t (pfFB p) && planesOk (pfFA p) (pfFB p) p
  let one (t : BitVec 2) := srcOk t (pfFA p) && planesOk (pfFA p) 0 p
  match i with
  | .vadd t .. | .vsub t .. | .vmul t .. | .vfma t .. | .vmin t .. | .vmax t .. | .vceq t .. | .vclt t .. | .vcle t ..
  | .vsel t .. => two t
  | .vabs t .. | .vneg t .. | .vred t .. | .vrcp t .. | .vrsq t .. | .vexp t .. | .vtanh t .. => one t
  | .vwfma .. => halfOk (pfFA p) && halfOk (pfFB p)
  | .vdot t .. =>
    planesOk (pfFA p) (pfFB p) p &&
      (if t == 1 || t == 2 then halfOk (pfFA p) && halfOk (pfFB p) else t == 3 && quadOk (pfFA p) && quadOk (pfFB p))
  | .vpdot .. => pfFA p == 8 && pfFB p == 8 && planesOk 8 8 p
  | .vcvt _ _ f .. => decide (f.toNat ≤ 8) && planesOk f 0 p
  | .vcvts .. => decide ((pfFA p).toNat ≤ 8) && planesOk (pfFA p) 0 p
  | .vupl _ n .. => p == 0 || (pfFA p == 8 && pfPP p == n && planesOk 8 0 p)
  | .vld .. | .vlds .. | .vldbc .. => vmemOk false (pfFB p) (pfFA p)
  | .vst .. | .vsts .. => vmemOk false (pfFA p) (pfFB p)
  | .vldx .. => vmemOk true (pfFB p) (pfFA p)
  | .vstx .. => vmemOk true (pfFA p) (pfFB p)
  | .mxldb .. => arrayOk (pfFB p) && planesOk 0 (pfFB p) p
  | .mxrun .. => arrayOk (pfFA p) && planesOk (pfFA p) 0 p
  | _ => true

/-- Step 6 of R56: the prefix in effect, if any, is one that the instruction takes, reached without a control transfer (R66, R67),
and the formats are legal. DESIGN CHOICE (log 140): of a lone prefix at the end of a loop body that wrapped before an interrupt, the hart knows after
TRET only that TRET led to the next word, which takes the prefix. -/
def prefixOk (i : Instr) (s : State) : Bool :=
  match s.prefixed with
  | none => formatsOk i 0
  | some p =>
    match prefixFields i with
    | none => false
    | some m => (p &&& ~~~m == 0) && formatsOk i p && (s.slot == .aHalf || s.hart.arrival != .taken)

/-! CSR numbers and their privileges. -/

/-- The least mode that reads a CSR, 0 U, 1 S (R91 to R375). -/
def csrReadMode (n : BitVec 12) : Nat :=
  let v := n.toNat
  if (0x008 ≤ v && v ≤ 0x010) || v == 0x018 || v == 0x1C2 || (0x1D0 ≤ v && v ≤ 0x1D7) || v == 0x1E0 || v == 0x200 || v == 0x201 || v == 0x210 ||
     (0x300 ≤ v && v ≤ 0x304) || v == 0x310 || v == 0x311 || v == 0x318 || v == 0x320 || (0x338 ≤ v && v ≤ 0x33B) ||
     v == 0x381 || v == 0x384 || v == 0x385
  then 1 else 0

/-- The least mode that writes a CSR: 0 U, 1 S, 3 M (R382). A register whose fields are RO in every mode takes a write in every mode
that reads it, without effect (R5). -/
def csrWriteMode (n : BitVec 12) : Nat :=
  let v := n.toNat
  if v == 0x014 || v == 0x018 || (0x1C8 ≤ v && v ≤ 0x1CA) || v == 0x1C1 || v == 0x1C2 || v == 0x380 || v == 0x383 || v == 0x200 || v == 0x201 || v == 0x210 || v == 0x2C1 || v == 0x300 ||
     v == 0x303 || v == 0x304 || v == 0x308 || v == 0x318 || v == 0x320 || v == 0x385
  then 3
  else if v == 0x000 || v == 0x002 || (0x008 ≤ v && v ≤ 0x012) || v == 0x120 || v == 0x180 || v == 0x1C0 ||
     (0x1D0 ≤ v && v ≤ 0x1D7) || v == 0x1E0 || v == 0x208 || v == 0x209 || v == 0x240 || (0x248 ≤ v && v ≤ 0x24A) ||
     (0x250 ≤ v && v ≤ 0x25F) || (0x280 ≤ v && v ≤ 0x284) || (0x290 ≤ v && v ≤ 0x2BF) || v == 0x2C0 || v == 0x2C2 ||
     v == 0x310 || v == 0x311 || (0x338 ≤ v && v ≤ 0x33B)
  then 1
  else csrReadMode n

/-! Elements of vector sources. -/

/-- The binary format of a TY code that is a float (R31). -/
def tyFmt (t : BitVec 2) : Fmt := if t == 1 then fp16 else if t == 2 then bf16 else fp32

/-- The lane width of a TY code. -/
def tyWidth (t : BitVec 2) : Nat := if t == 1 || t == 2 then 16 else 32

/-- The format code that a code of 0000 stands for under TY (R31). -/
def tyCode (t : BitVec 2) : BitVec 4 := if t == 0 then 1 else if t == 1 then 2 else if t == 2 then 3 else 6

/-- Element width of a format code in a register, NI counted as 8 (R31, R141). -/
def codeWidth (f : BitVec 4) : Nat :=
  match f.toNat with
  | 1 => 32
  | 2 => 16
  | 3 => 16
  | 4 => 8
  | 5 => 16
  | 6 => 32
  | 7 => 4
  | _ => 8

/-- Field `i` of width `w` of a register's bits. -/
def laneBits (x : Nat) (w i : Nat) : Nat := x / 2 ^ (w * i) % 2 ^ w

/-- Reads `w` bits as two's complement. -/
def signed (w x : Nat) : Int := if x % 2 ^ w < 2 ^ (w - 1) then (x % 2 ^ w : Nat) else (x % 2 ^ w : Nat) - (2 ^ w : Nat)

/-- Entry `c` of the codebook, INT8 (R29). -/
def codeEntry (lo hi : W) (c : Nat) : Int := signed 8 (if c < 8 then lo.toNat / 2 ^ (8 * c) else hi.toNat / 2 ^ (8 * (c - 8)))

/-- The value of element `e` of a plane group, of which `q` planes of `p` are read (R26, R27); `x` holds the group's bytes,
little-endian. -/
def planeValue (x : Nat) (q p : Nat) (ce : Bool) (e : Nat) : Int :=
  let bits := (List.range q).foldl (fun acc n => 2 * acc + x / 2 ^ (64 * n + e) % 2) 0
  let v := signed q bits * 2 ^ (p - q)
  if ce && decide (q < p) then v + 2 ^ (p - q - 1) else v

/-- How the prefix reads one source: format code, planes read, precision, centring. -/
structure SrcFmt where
  f : BitVec 4
  q : Nat
  p : Nat
  ce : Bool
deriving DecidableEq, Repr

/-- Source A under a prefix; `t` gives the default format. -/
def srcA (t : BitVec 2) (p : BitVec 22) : SrcFmt :=
  ⟨if pfFA p == 0 then tyCode t else pfFA p, (pfQA p).toNat + 1, (pfPP p).toNat + 1, pfCE p⟩

/-- Source B under a prefix. -/
def srcB (t : BitVec 2) (p : BitVec 22) : SrcFmt :=
  ⟨if pfFB p == 0 then tyCode t else pfFB p, (pfQB p).toNat + 1, (pfPP p).toNat + 1, pfCE p⟩

/-- The exact integer value of an element in an integer format (R25, R27, R29). -/
def intElement (x : Nat) (s : SrcFmt) (lo hi : W) (i : Nat) : Int :=
  match s.f.toNat with
  | 4 => signed 8 (laneBits x 8 i)
  | 5 => signed 16 (laneBits x 16 i)
  | 6 => signed 32 (laneBits x 32 i)
  | 7 => codeEntry lo hi (laneBits x 4 i)
  | _ => planeValue x s.q s.p s.ce i

/-- The binary format of a float code; none for integer codes. -/
def codeFmt (f : BitVec 4) : Option Fmt :=
  match f.toNat with
  | 1 => some fp32
  | 2 => some fp16
  | 3 => some bf16
  | _ => none

/-- The exact value of an element in any format. -/
def elementVal (x : Nat) (s : SrcFmt) (lo hi : W) (i : Nat) : FVal :=
  match codeFmt s.f with
  | some k => k.val (laneBits x (codeWidth s.f) i)
  | none =>
    let z := intElement x s lo hi i
    .fin (decide (z < 0)) z.natAbs 0

/-- Element `i` of a source converted to the TY format, as lane bits, with NV for a signalling NaN that the conversion meets
(R135). A source in the TY format is read as its bits. -/
def srcLane (t : BitVec 2) (x : Nat) (s : SrcFmt) (lo hi : W) (i : Nat) : Nat × BitVec 5 :=
  if s.f == tyCode t then (laneBits x (tyWidth t) i, 0)
  else if t == 3 then ((intElement x s lo hi i % (2 ^ 32 : Nat)).toNat, 0)
  else
    let v := elementVal x s lo hi i
    ((tyFmt t).pack v, nvIf v.snan)

/-! The checks before issue. -/

/-- The least mode of an instruction other than a CSR instruction (R98). -/
def leastMode (i : Instr) : Nat :=
  match i with
  | .tret .. | .hstart .. | .hstop .. => 1
  | .halt .. => 3
  | _ => 0

/-- A g register of a hart holds the value that the next instruction reads: it is full, and no operation has still to write it (R60, R130,
R212). -/
def Hart.known (h : Hart) (a : BitVec 5) : Bool := h.regs.full (.g a) && !h.pend.any fun p => p.dsts.contains (.g a)

/-- Step 7 of R56. A CSR form that may or may not write is judged by its mask, once that is known (R92); until then by its read alone. -/
def privOk (i : Instr) (s : State) : Bool :=
  let h := s.hart
  let m := h.mode.toNat
  let may (c : BitVec 12) (a : BitVec 5) := csrReadMode c ≤ m && (!h.known a || s.g a == 0 || csrWriteMode c ≤ m)
  match i with
  | .csrrw c .. | .csrwi c .. => csrReadMode c ≤ m && csrWriteMode c ≤ m
  | .csrrs c a .. | .csrrc c a .. => may c a
  | .csrsi c z .. | .csrci c z .. => csrReadMode c ≤ m && (z == 0 || csrWriteMode c ≤ m)
  | i => leastMode i ≤ m

/-- Step 8 of R56 (R107, R108). -/
def loopsOk (i : Instr) (s : State) : Bool :=
  let l := s.hart.loops
  let fits (e : W) := l.depth != 4 && (match l.topEnd with
    | some t => decide (e.toNat ≤ t.toNat)
    | none => true)
  (s.slot != .cHalf || l.topEnd != some s.hart.pc) &&
  (match i with
    | .loop o .. => fits (s.wordPc + 4 * o.signExtend 64)
    | .loopi _ e .. => fits (s.wordPc + 4 * e.setWidth 64)
    | .lbrk .. | .lpop .. => l.depth != 0
    | _ => true)

/-- Registers that a moment operation reads by MOMODE: v[CREG] in mode 11 (R161). -/
def momentReads (i : Instr) (momode : BitVec 13) : List RegRef :=
  if momode.extractLsb' 0 2 == 3 then
    match i with
    | .madd .. | .msub .. | .mmul .. | .mred .. => [.v (momode.extractLsb' 8 5)]
    | _ => []
  else []

/-- Registers that XMODE reads in mode 10 only (R303), once its mode is known. -/
def modeReads (i : Instr) (s : State) : List RegRef :=
  match i with
  | .xmode c b a _ _ => if s.hart.known a && s.g a == 2 then [.g c, .g b] else []
  | _ => []

/-- All registers that an instruction touches. -/
def touched (i : Instr) (s : State) : List RegRef :=
  (info i).reads ++ momentReads i s.hart.arith.momode ++ modeReads i s ++ (info i).writes

/-- Majors that wait behind older unconfirmed accesses (R250): ORD, SYNC, TIME, QUEUE, XFER, MTX, COLL, CSR, SYS, STF. -/
def waitsForOlder (n : Info) : Bool := (8 ≤ n.major && n.major ≤ 17) || n.ordered

/-- A form of the memory majors, LD to AMO, whose destination is logged when it issues (R249). -/
def Info.memory (n : Info) : Bool := 4 ≤ n.major && n.major ≤ 8

/-- A vector or moment operation of the hart is issued and not accepted (R94, R157). -/
def unaccepted (moment : Bool) (h : Hart) : Bool :=
  h.pend.any fun p => match p.kind with
    | .vecIssued _ => !moment
    | .momIssued _ => moment
    | _ => false

/-- The unit or the registers that the instruction needs are not ready (R94, R130, R212, R225, R249, R250). -/
def notReady (i : Instr) (s : State) : Bool :=
  let n := info i
  let h := s.hart
  let open' := s.unconfirmed s.cur s.curHart
  h.pend.any (fun p => (p.precise && !p.isReady) || p.dsts.any fun d => (touched i s).contains d) ||
  (open' && waitsForOlder n) ||
  (n.memory && (s.live s.cur s.curHart).any fun a => a.acq && decide (a.seq < h.nseq) && !a.confirmed) ||
  (open' && 64 < s.logUse s.cur s.curHart + n.writes.length + (if n.memory then 1 else 0) && (n.writes.length != 0 || n.memory)) ||
  ((n.major == 25 || n.major == 26) && unaccepted false h) ||
  (n.major == 27 && unaccepted true h)

/-- An empty register under W = 0: the trap, or the note that it is due once older accesses are confirmed (R62, R250). -/
def State.meetEmpty (s : State) : State :=
  let t := s.illegal 7
  if t.disp == .held then t.onHart fun h => { h with emptyMet := some s.slot } else t

/-- Steps 6 to 9 of R56 and readiness (R62, R94): what becomes of an instruction that does not go on to execute; none for one that
does. -/
def State.check (i : Instr) (s : State) : Option State :=
  if !prefixOk i s then some (s.illegal 5)
  else if !privOk i s then some (s.illegal 4)
  else if !loopsOk i s then some (s.illegal 6)
  else if s.hart.emptyMet == some s.slot then some (s.illegal 7)
  else if (touched i s).all s.hart.regs.full then (if notReady i s then some s.hold else none)
  else if (info i).w then some ((s.onHart fun h => { h with we := true }).hold) else some s.meetEmpty

/-- The flags of a result in FPSTAT and MOFLAGS (R40, R171). -/
def Arith.flagged (x : Arith) (r : OpResult) : Arith :=
  { x with fpstat := fpOr x.fpstat r.flags, moflags := x.moflags ||| (BitVec.ofBool r.badNan ++ BitVec.ofBool r.badNeg) }

/-- A result lands in a hart: registers become full with its values, and its flags are ORed in; nothing is logged. -/
def Hart.land (r : OpResult) (h : Hart) : Hart :=
  { h with regs := r.writes.foldl (fun g w => g.write w.x w.r) h.regs, arith := h.arith.flagged r }

/-- Writes the results of an operation and ORs its flags into FPSTAT and MOFLAGS (R40, R171). -/
def State.applyResult (s : State) (r : OpResult) : State :=
  (r.writes.foldl (fun s x => s.setReg x.r x.x) s).onHart fun h => { h with arith := h.arith.flagged r }

/-- The result of instruction `i` of the executing hart: that of a memory form lands without a record, since its destination was logged at
issue (R249). -/
def State.takeResult (s : State) (i : Instr) (r : OpResult) : State := if (info i).memory then s.onHart (Hart.land r) else s.applyResult r

/-- The result that a precise operation of this very instruction has left for it. -/
def State.readyFor (s : State) (i : Instr) : Option OpResult :=
  s.hart.pend.findSome? fun p => match p.kind with
    | .ready r => if p.op == i then some r else none
    | _ => none

/-- Any scalar, vector or moment operation under a precise trap: the first time `start` puts it under way, and once its result is
known it is written and the instruction retires. -/
def State.preciseOr (s : State) (i : Instr) (start : State) : State :=
  match s.readyFor i with
  | some r => ((s.onHart fun h => { h with pend := dropReady h.pend }).takeResult i r).complete
  | none => start

/-- An instruction issues: it is checked, and if all checks pass its effect `t` takes place. -/
def issue (i : Instr) (s t : State) : Out := .next ((s.check i).getD t)

end Sys2Proof.Machine
end

