-- ==== Sys2Proof/Machine/Alu.lean ====
section
/-!
DEFINITION. Integer register and immediate operations, upper immediates and divides (R115 to R119).
-/

namespace Sys2Proof.Machine

/-- A scalar operation writes gD and retires. -/
def State.resultG (s : State) (d : BitVec 5) (x : W) : State := (s.setG d x).complete

/-- One of two values by a condition, as 1 or 0. -/
def bit64 (b : Bool) : W := if b then 1 else 0

/-- Shift amount: the low six bits (R116). -/
def shamt (b : W) : Nat := b.toNat % 64

/-- MULH (R116). -/
def mulHigh (a b : W) : W := BitVec.ofInt 64 (a.toInt * b.toInt / 2 ^ 64)

/-- MULHU (R116). -/
def mulHighU (a b : W) : W := BitVec.ofNat 64 (a.toNat * b.toNat / 2 ^ 64)

/-- Leading zero bits: 64 for zero (R116). -/
def leadingZeros (a : W) : W := BitVec.ofNat 64 (64 - bitLen a.toNat)

/-- Trailing zero bits among the low `n` and beyond: 64 for zero (R116). -/
def trailingFrom (a : W) : Nat → Nat → Nat
  | 0, i => i
  | n + 1, i => if a.getLsbD i then i else trailingFrom a n (i + 1)

/-- Number of one bits among the low `n` (R116). -/
def onesBelow (a : Nat) : Nat → Nat
  | 0 => 0
  | n + 1 => onesBelow a n + a / 2 ^ n % 2

/-- Result of a 32-bit operation, sign-extended (R116). -/
def wordResult (x : BitVec 32) : W := x.signExtend 64

/-- ADD (R116). -/
def execAdd (b a d : BitVec 5) (w l : Bool) (s : State) : Out := issue (.add b a d w l) s (s.resultG d (s.g a + s.g b))
/-- SUB (R116). -/
def execSub (b a d : BitVec 5) (w l : Bool) (s : State) : Out := issue (.sub b a d w l) s (s.resultG d (s.g a - s.g b))
/-- AND (R116). -/
def execAnd (b a d : BitVec 5) (w l : Bool) (s : State) : Out := issue (.and b a d w l) s (s.resultG d (s.g a &&& s.g b))
/-- OR (R116). -/
def execOr (b a d : BitVec 5) (w l : Bool) (s : State) : Out := issue (.or b a d w l) s (s.resultG d (s.g a ||| s.g b))
/-- XOR (R116). -/
def execXor (b a d : BitVec 5) (w l : Bool) (s : State) : Out := issue (.xor b a d w l) s (s.resultG d (s.g a ^^^ s.g b))
/-- SLL (R116). -/
def execSll (b a d : BitVec 5) (w l : Bool) (s : State) : Out := issue (.sll b a d w l) s (s.resultG d (s.g a <<< shamt (s.g b)))
/-- SRL (R116). -/
def execSrl (b a d : BitVec 5) (w l : Bool) (s : State) : Out := issue (.srl b a d w l) s (s.resultG d (s.g a >>> shamt (s.g b)))
/-- SRA (R116). -/
def execSra (b a d : BitVec 5) (w l : Bool) (s : State) : Out :=
  issue (.sra b a d w l) s (s.resultG d ((s.g a).sshiftRight (shamt (s.g b))))
/-- SLT (R116). -/
def execSlt (b a d : BitVec 5) (w l : Bool) (s : State) : Out := issue (.slt b a d w l) s (s.resultG d (bit64 ((s.g a).slt (s.g b))))
/-- SLTU (R116). -/
def execSltu (b a d : BitVec 5) (w l : Bool) (s : State) : Out := issue (.sltu b a d w l) s (s.resultG d (bit64 ((s.g a).ult (s.g b))))
/-- MUL (R116). -/
def execMul (b a d : BitVec 5) (w l : Bool) (s : State) : Out := issue (.mul b a d w l) s (s.resultG d (s.g a * s.g b))
/-- MULH (R116). -/
def execMulh (b a d : BitVec 5) (w l : Bool) (s : State) : Out := issue (.mulh b a d w l) s (s.resultG d (mulHigh (s.g a) (s.g b)))
/-- MULHU (R116). -/
def execMulhu (b a d : BitVec 5) (w l : Bool) (s : State) : Out := issue (.mulhu b a d w l) s (s.resultG d (mulHighU (s.g a) (s.g b)))
/-- MIN (R116). -/
def execMin (b a d : BitVec 5) (w l : Bool) (s : State) : Out :=
  issue (.min b a d w l) s (s.resultG d (if (s.g b).slt (s.g a) then s.g b else s.g a))
/-- MAX (R116). -/
def execMax (b a d : BitVec 5) (w l : Bool) (s : State) : Out :=
  issue (.max b a d w l) s (s.resultG d (if (s.g a).slt (s.g b) then s.g b else s.g a))
/-- MINU (R116). -/
def execMinu (b a d : BitVec 5) (w l : Bool) (s : State) : Out :=
  issue (.minu b a d w l) s (s.resultG d (if (s.g b).ult (s.g a) then s.g b else s.g a))
/-- MAXU (R116). -/
def execMaxu (b a d : BitVec 5) (w l : Bool) (s : State) : Out :=
  issue (.maxu b a d w l) s (s.resultG d (if (s.g a).ult (s.g b) then s.g b else s.g a))
/-- CLZ (R116). -/
def execClz (a d : BitVec 5) (w l : Bool) (s : State) : Out := issue (.clz a d w l) s (s.resultG d (leadingZeros (s.g a)))
/-- CTZ (R116). -/
def execCtz (a d : BitVec 5) (w l : Bool) (s : State) : Out :=
  issue (.ctz a d w l) s (s.resultG d (BitVec.ofNat 64 (trailingFrom (s.g a) 64 0)))
/-- POPC (R116). -/
def execPopc (a d : BitVec 5) (w l : Bool) (s : State) : Out :=
  issue (.popc a d w l) s (s.resultG d (BitVec.ofNat 64 (onesBelow (s.g a).toNat 64)))
/-- ROL (R116). -/
def execRol (b a d : BitVec 5) (w l : Bool) (s : State) : Out :=
  issue (.rol b a d w l) s (s.resultG d ((s.g a).rotateLeft (shamt (s.g b))))
/-- ROR (R116). -/
def execRor (b a d : BitVec 5) (w l : Bool) (s : State) : Out :=
  issue (.ror b a d w l) s (s.resultG d ((s.g a).rotateRight (shamt (s.g b))))
/-- ADDW (R116). -/
def execAddw (b a d : BitVec 5) (w l : Bool) (s : State) : Out :=
  issue (.addw b a d w l) s (s.resultG d (wordResult ((s.g a).setWidth 32 + (s.g b).setWidth 32)))
/-- SUBW (R116). -/
def execSubw (b a d : BitVec 5) (w l : Bool) (s : State) : Out :=
  issue (.subw b a d w l) s (s.resultG d (wordResult ((s.g a).setWidth 32 - (s.g b).setWidth 32)))
/-- SEL (R116). -/
def execSel (c b a d : BitVec 5) (w l : Bool) (s : State) : Out :=
  issue (.sel c b a d w l) s (s.resultG d (if s.g c != 0 then s.g a else s.g b))

/-! Divides: a zero divisor traps at issue, otherwise gD is marked empty and the result lands at a DIVIDE_RESULT (R117). -/

/-- A divide that has passed its check (R117): gD is marked empty, and the result is due. With D = g0 nothing is marked and the
result is discarded (R60). -/
def State.divideDue (s : State) (i : Instr) (d : BitVec 5) (x : W) : State :=
  if d == 0 then s.complete
  else
    let p : Pend := { id := s.fresh, seq := s.hart.nseq, op := i, kind := .div d x, dsts := [], precise := false }
    ((s.markEmpty (.g d)).onHart fun h => { h with pend := h.pend ++ [p] }).bump.complete

/-- A divide: cause 0x0C0 for a zero divisor (R117). -/
def State.divide (s : State) (i : Instr) (d : BitVec 5) (y x : W) : State :=
  if y == 0 then s.fault 0x0C0#9 0 0 else s.divideDue i d x

/-- DIV (R117). -/
def execDiv (b a d : BitVec 5) (w l : Bool) (s : State) : Out :=
  issue (.div b a d w l) s (s.divide (.div b a d w l) d (s.g b) (BitVec.ofInt 64 (Int.tdiv (s.g a).toInt (s.g b).toInt)))
/-- DIVU (R117). -/
def execDivu (b a d : BitVec 5) (w l : Bool) (s : State) : Out :=
  issue (.divu b a d w l) s (s.divide (.divu b a d w l) d (s.g b) (BitVec.ofNat 64 ((s.g a).toNat / (s.g b).toNat)))
/-- REM (R117). -/
def execRem (b a d : BitVec 5) (w l : Bool) (s : State) : Out :=
  issue (.rem b a d w l) s (s.divide (.rem b a d w l) d (s.g b) (BitVec.ofInt 64 (Int.tmod (s.g a).toInt (s.g b).toInt)))
/-- REMU (R117). -/
def execRemu (b a d : BitVec 5) (w l : Bool) (s : State) : Out :=
  issue (.remu b a d w l) s (s.divide (.remu b a d w l) d (s.g b) (BitVec.ofNat 64 ((s.g a).toNat % (s.g b).toNat)))

/-! Immediate operations (R118) and upper immediates (R119). -/

/-- ADDI (R118). -/
def execAddi (i : BitVec 12) (a d : BitVec 5) (w l : Bool) (s : State) : Out :=
  issue (.addi i a d w l) s (s.resultG d (s.g a + i.signExtend 64))
/-- ANDI (R118). -/
def execAndi (i : BitVec 12) (a d : BitVec 5) (w l : Bool) (s : State) : Out :=
  issue (.andi i a d w l) s (s.resultG d (s.g a &&& i.signExtend 64))
/-- ORI (R118). -/
def execOri (i : BitVec 12) (a d : BitVec 5) (w l : Bool) (s : State) : Out :=
  issue (.ori i a d w l) s (s.resultG d (s.g a ||| i.signExtend 64))
/-- XORI (R118). -/
def execXori (i : BitVec 12) (a d : BitVec 5) (w l : Bool) (s : State) : Out :=
  issue (.xori i a d w l) s (s.resultG d (s.g a ^^^ i.signExtend 64))
/-- SLTI (R118). -/
def execSlti (i : BitVec 12) (a d : BitVec 5) (w l : Bool) (s : State) : Out :=
  issue (.slti i a d w l) s (s.resultG d (bit64 ((s.g a).slt (i.signExtend 64))))
/-- SLTIU (R118). -/
def execSltiu (i : BitVec 12) (a d : BitVec 5) (w l : Bool) (s : State) : Out :=
  issue (.sltiu i a d w l) s (s.resultG d (bit64 ((s.g a).ult (i.signExtend 64))))
/-- SLLI (R118). -/
def execSlli (sh : BitVec 6) (a d : BitVec 5) (w l : Bool) (s : State) : Out :=
  issue (.slli sh a d w l) s (s.resultG d (s.g a <<< sh.toNat))
/-- SRLI (R118). -/
def execSrli (sh : BitVec 6) (a d : BitVec 5) (w l : Bool) (s : State) : Out :=
  issue (.srli sh a d w l) s (s.resultG d (s.g a >>> sh.toNat))
/-- SRAI (R118). -/
def execSrai (sh : BitVec 6) (a d : BitVec 5) (w l : Bool) (s : State) : Out :=
  issue (.srai sh a d w l) s (s.resultG d ((s.g a).sshiftRight sh.toNat))
/-- RORI (R118). -/
def execRori (sh : BitVec 6) (a d : BitVec 5) (w l : Bool) (s : State) : Out :=
  issue (.rori sh a d w l) s (s.resultG d ((s.g a).rotateRight sh.toNat))
/-- ADDWI (R118). -/
def execAddwi (i : BitVec 12) (a d : BitVec 5) (w l : Bool) (s : State) : Out :=
  issue (.addwi i a d w l) s (s.resultG d (wordResult ((s.g a).setWidth 32 + i.signExtend 32)))
/-- LUI (R119). -/
def execLui (i : BitVec 20) (d : BitVec 5) (w l : Bool) (s : State) : Out :=
  issue (.lui i d w l) s (s.resultG d ((i ++ 0#12).signExtend 64))
/-- AUIPC, from the address of its own word (R119). -/
def execAuipc (i : BitVec 20) (d : BitVec 5) (w l : Bool) (s : State) : Out :=
  issue (.auipc i d w l) s (s.resultG d (s.wordPc + (i ++ 0#12).signExtend 64))

end Sys2Proof.Machine
end

