-- ==== Sys2Proof/Machine/Cond.lean ====
section
/-!
DEFINITION. Conditions of a core and its harts: time (R265), late records (R279), the inbox head (R268), channels and FIFOs (R306,
R310), pending interrupts (R105), and how a waiting instruction gets its result.
-/

namespace Sys2Proof.Machine

/-- The core's clock: the reference with the core's offset, within what 64 bits hold. -/
def clockAt (ref : W) (skew : BitVec 16) : Nat := min (2 ^ 64 - 1) ((ref.toNat : Int) + skew.toInt).toNat

/-- The core's PTC (R15, R265): its clock, but never below the value that it showed when its offset was last disciplined: it holds that value
until the reference catches up. -/
def State.ptc (s : State) (c : CoreId) : W :=
  let t := (s.core c).tags
  BitVec.ofNat 64 (max t.held.toNat (clockAt s.timeRef t.skew))

/-- CYCLE of a hart (R96): the core's cycles with the offset that a write leaves. -/
def State.cycleOf (s : State) (c : CoreId) (h : HartId) : W := (s.core c).cycles + (s.hartAt c h).cycOff

/-- Adds one to a saturating field of `n` bits. -/
def satInc {n : Nat} (x : BitVec n) : BitVec n := if x == BitVec.allOnes n then x else x + 1

/-- Records of the late ring that LATEQ has not returned (R279). -/
def Tags.lateWaiting (t : Tags) : Nat := (t.ltTail - t.ltHead).toNat - (if t.ltPend then 1 else 0)

/-- HSTAT.LTP of a hart (R279). -/
def Core.ltp (k : Core) (h : HartId) : Bool := k.tags.lthart == h && k.tags.lateWaiting != 0

/-- The inbox head is safe to process (R268, R275). -/
def State.headSafe (s : State) (c : CoreId) : Bool :=
  match (s.core c).tags.inbox with
  | [] => false
  | m :: _ => m.late || decide (m.t.toNat + (s.core c).tags.safeofs.toNat ≤ (s.ptc c).toNat)

/-- Some hart of the core has an active reaction. -/
def Core.anyRx (k : Core) : Bool := hartIds.any fun h => (k.hart h).rx

/-- Bytes that channel `n`'s inbound ring holds (R306). -/
def Channels.used (x : Channels) (n : Nat) : Nat :=
  let p := x.chptr[n]?.getD 0
  (p.extractLsb' 32 32 - p.extractLsb' 0 32).toNat

/-- CHIN of a channel. -/
def Channels.inReg (x : Channels) (n : Nat) : W := x.chin[n]?.getD 0

/-- Message size of a channel: 8 or 64 bytes by KIND (R306). -/
def Channels.msgSize (x : Channels) (n : Nat) : Nat := if (x.inReg n).getLsbD 62 then 64 else 8

/-- Whole messages that a channel holds. -/
def Channels.held (x : Channels) (n : Nat) : Nat := if (x.inReg n).getLsbD 63 then x.used n / x.msgSize n else 0

/-- Records that event FIFO `q`, 16 to 23, holds. -/
def Channels.fifo (x : Channels) (q : Nat) : List W := x.fifos[q - 16]?.getD []

/-- IPEND of a hart (R105). -/
def State.ipend (s : State) (c : CoreId) (h : HartId) : BitVec 32 :=
  let k := s.core c
  let x := k.hart h
  let bit (b : Bool) (n : Nat) : BitVec 32 := if b then 1#32 <<< n else 0
  bit x.trap.soft 0 ||| bit (k.ltp h) 1 ||| bit (s.headSafe c && !k.anyRx) 2 |||
    bit ((List.range 16).any fun n => k.chan.held n != 0) 3 |||
    (List.range 8).foldl (fun a n => a ||| bit (!(k.chan.fifo (16 + n)).isEmpty) (4 + n)) 0 |||
    (x.trap.edge.setWidth 32 <<< 12)

/-- The lowest source that is pending and enabled. -/
def State.firstSource (s : State) (c : CoreId) (h : HartId) : Option Nat :=
  let m := s.ipend c h &&& (s.hartAt c h).trap.ien
  (List.range 32).find? fun n => m.getLsbD n

/-- The part holds a ticket, was refused, or waits to be sent again. -/
def Stage.stuck : Stage → Bool
  | .refused .. => true
  | .ticket .. => true
  | .parked .. => true
  | .fault .. => true
  | .undone => true
  | .lost => true
  | _ => false

/-- No access that the hart's pc has passed holds a ticket or a refusal: the rewind of R251 has taken place. -/
def State.rewound (s : State) (c : CoreId) (h : HartId) : Bool :=
  let n := (s.hartAt c h).nseq
  !(s.live c h).any fun a => decide (a.seq < n) && a.parts.any fun p => p.stage.stuck

/-- The waits that an interrupt may end (R104, R217). -/
def Wait.interruptible : Wait → Bool
  | .gjoin .. => false
  | .hart _ => false
  | .precise => false
  | .access _ => false
  | .tlbinv => false
  | _ => true

/-- The core's context is to switch at a time that has come (R360). -/
def State.timeUp (s : State) (c : CoreId) : Bool :=
  let k := s.core c
  k.mem.ctxid != 0 && k.sys.switcht != 0 && decide (k.sys.switcht.toNat ≤ (s.ptc c).toNat)

/-- The core has been stopped by the heel tree, or is to stop because its time to switch has come: an instruction that waits goes on waiting
(R357, R360). -/
def State.atRest (s : State) (c : CoreId) : Bool := (s.core c).sys.heeled || s.timeUp c

/-- The hart is to issue nothing else, and to take no interrupt, before this operation is over: a precise operation under way, or the result of a
class C half that has had its effect. A class A half's result that waits beside the other half does not bind it (R104, R131, log 148). -/
def Pend.binds (p : Pend) : Bool := if p.isReady then (info p.op).major < 20 else p.precise

/-- Hart `h` of core `c` takes an interrupt now (R62, R104): at an instruction boundary, with IE set and an enabled source pending. Accesses
may still be unconfirmed behind it; a parked hart takes it once it has rewound and every access older than the ticketed one is confirmed
(log 11). -/
def State.interruptDue (s : State) (c : CoreId) (h : HartId) : Bool :=
  let x := s.hartAt c h
  !x.stopped && x.ie && x.wait.interruptible && !x.pend.any Pend.binds &&
    (!x.tkp || (s.rewound c h && !s.unconfirmed c h)) && (s.firstSource c h).isSome

/-- A waiting instruction of hart `h` of core `c` gets its result: a lone word writes it and retires; a half of a pair finds it when
the pair issues again, its destinations full with their old values until then, and both halves retire together (R50). -/
def State.finishWait (s : State) (c : CoreId) (h : HartId) (r : OpResult) : State :=
  match (s.hartAt c h).waitAt with
  | none => s
  | some a =>
    match a.slot with
    | .lone => ((s.issuing c h .lone).takeResult a.op r).complete
    | _ =>
      let p : Pend := { id := s.fresh, seq := (s.hartAt c h).nseq, op := a.op, kind := .ready r, dsts := [], precise := true }
      (s.onHartAt c h fun x => { x with
        wait := .none, waitAt := none, pend := x.pend ++ [p], regs := r.writes.foldl (fun g w => g.write (g.read w.r) w.r) x.regs }).bump

/-- The flags of a result in what a rewind brings back. -/
def Resume.flagged (m : Resume) (r : OpResult) : Resume :=
  { m with fpstat := fpOr m.fpstat r.flags, moflags := m.moflags ||| (BitVec.ofBool r.badNan ++ BitVec.ofBool r.badNeg) }

/-- Flags set by an operation of hart `h` of core `c` that is older than access `n` stay when the hart rewinds to that access or a younger one (R51,
R263). -/
def State.flagMarks (s : State) (c : CoreId) (h : HartId) (n : Nat) (r : OpResult) : State :=
  { s with net := { s.net with accs := s.net.accs.map fun (a : Access) =>
      if a.core == c && a.hart == h && a.frozen == 0 && !a.orphan && decide (n ≤ a.seq) then { a with mark := a.mark.flagged r } else a } }

/-- A result that is one register. -/
def oneWrite (r : RegRef) (x : BitVec 1024) : OpResult := ⟨[⟨r, x⟩], 0, 0, false, false⟩

/-- A result that writes nothing. -/
def noWrite : OpResult := ⟨[], 0, 0, false, false⟩

/-- The context is being resumed, and messages of it may still lie in spill reserves (R284). -/
def State.reinjecting (s : State) (x : BitVec 16) : Bool := s.pkg.switching.contains (x, 3)

/-- The message of this number lies in a spill reserve (R361). -/
def State.spilled (s : State) (n : Nat) : Bool := s.pkg.spills.any fun p => p.2.contains n && !s.reinjecting p.1

/-- A step of the package takes place. -/
def State.occur (s : State) : Out := .next { s with disp := .occurred }

/-- A step of the package finds nothing to act on, and nothing changes. -/
def State.idle (s : State) : Out := .next { s with disp := .idle }

end Sys2Proof.Machine
end

