-- ==== Sys2Proof/Machine/Records.lean ====
section
/-!
DEFINITION. What the device writes down of its own accord: event records (R310, R311), late records (R277, R278, R312), the error
log (R342, R343), and the order of tags and keys (R264, R267).
-/

namespace Sys2Proof.Machine

/-! Event records. -/

/-- An event record (R311). -/
def eventWord (kind : BitVec 8) (status : Byte) (payload : BitVec 48) : W := kind ++ status ++ payload

/-- A record of producer `src` sets out for FIFO `fifo` of core `c` (R310). -/
def State.post (s : State) (src : Nat) (c : CoreId) (fifo : BitVec 5) (kind : BitVec 8) (status : Byte) (payload : BitVec 48) : State :=
  let e : EvMsg := { id := s.fresh, src := src, core := c, fifo := fifo, record := eventWord kind status payload }
  let s' : State := { s with net := { s.net with events := s.net.events ++ [e] } }
  s'.bump

/-- Producer numbers: a core itself, an array, the barrier tree, the front end and the host's service core. -/
def srcCore (c : CoreId) : Nat := c.toNat
/-- An array as a producer. -/
def srcArray (a : BitVec 7) : Nat := 0x1000 + a.toNat
/-- The barrier tree as a producer. -/
def srcBarrier : Nat := 0x2000
/-- The front end as a producer. -/
def srcFront : Nat := 0x2001
/-- The host service core of die 0 as a producer. -/
def srcHost : Nat := 0x2002

/-- Interrupt source `n`, 12 to 15, becomes pending on core `c` (R105): a core condition, so on all its harts. -/
def State.edge (s : State) (c : CoreId) (n : Nat) : State :=
  s.onHarts c fun _ h => { h with trap := { h.trap with edge := h.trap.edge ||| (1#4 <<< (n - 12)) } }

/-! Tags and keys. -/

/-- Lexicographic order of number lists. -/
def lexLt : List Nat → List Nat → Bool
  | _, [] => false
  | [], _ :: _ => true
  | x :: t, y :: u => decide (x < y) || (x == y && lexLt t u)

/-- The inbox key of a message, and its place in the order of arrival, which orders equal keys (R267). -/
def InMsg.key (m : InMsg) : List Nat := [m.t.toNat, m.m.toNat, m.port.toNat, m.score.toNat, m.shart.toNat, m.pidx.toNat, m.arr]

/-- Inserts a message into the inbox by its key (R267). DEDUCED (log 152): a message delivered flagged that is at the head stays there, since R275 makes
it the head and safe at once; the messages behind it are ordered among themselves. -/
def insertMsg (x : InMsg) : List InMsg → List InMsg
  | [] => [x]
  | y :: t => if y.late then y :: insertMsg x t else if lexLt x.key y.key then x :: y :: t else y :: insertMsg x t

/-- The key of a reaction (R236, R271). -/
def Reaction.key (r : Reaction) (c : CoreId) : List Nat := [r.t.toNat, r.m.toNat, c.toNat, r.hart.toNat]

/-- The reactions of a core that are not committed, in firing order. -/
def Tags.reactions (t : Tags) : List Reaction := t.window ++ t.active.toList

/-! The late ring. -/

/-- Records that the ring holds at most (R277). -/
def Tags.ringSize (t : Tags) : Nat := 2 ^ (t.ltSz.toNat + 1)

/-- Local address of record `i` (R277). -/
def Tags.recordAt (t : Tags) (i : Byte) : Nat := t.ltBase.toNat * 128 + 128 * (i.toNat % t.ringSize)

/-- A late record (R278): PTC, HZN, HZNM, LFT and LFTM stand as they were when the core accepted the message. DESIGN CHOICE (log 153): TIME and MSTEP hold
the original tag of the message, also where it was delivered flagged with another. -/
def lateRecord (x : InMsg) (kind act : BitVec 3) : BitVec 1024 :=
  x.payload ++ x.sptc ++ x.aptc ++ x.ahznm.extractLsb' 0 32 ++ 0#32 ++ x.ahzn ++ x.alft ++ x.alftm ++ 0#24 ++ 0#1 ++ act ++ 0#1 ++ kind ++
    x.om ++ x.score ++ x.shart ++ x.port ++ x.pidx ++ 0#6 ++ x.ot

/-- Writes a late record and posts its event, or loses it (R277, R312). -/
def State.late (s : State) (c : CoreId) (x : InMsg) (kind act : BitVec 3) : State :=
  let t := (s.core c).tags
  let port : BitVec 48 := x.port.setWidth 48 <<< 8
  if (t.ltTail - t.ltHead).toNat == t.ringSize then
    (s.onCore c fun k => { k with tags := { k.tags with ltOvf := true } }).post (srcCore c) c 19 0x19 (kind.setWidth 8) port
  else
    let s := storeBytes s (localKey c (t.recordAt t.ltTail)) (natLe 128 (lateRecord x kind act).toNat)
    (s.onCore c fun k => { k with tags := { k.tags with ltTail := k.tags.ltTail + 1 } }).post (srcCore c) c 19 0x18
      (act.setWidth 8 <<< 4 ||| kind.setWidth 8) (port ||| t.ltTail.setWidth 48)

/-! The error log. -/

/-- A group 6 cause (R340). -/
def errCause (detector action : Nat) : BitVec 9 := BitVec.ofNat 9 (0x180 + 8 * detector + action)

/-- Where a logged event was found. -/
structure ErrAt where
  core : CoreId
  hart : HartId
  unit : BitVec 3
  addr : W
  info : W
  /-- the context concerned, where it is not the present one of the core named -/
  ctx : Option (BitVec 16) := none
deriving DecidableEq, Repr

/-- A record of the error log (R343). -/
def errRecord (s : State) (x : ErrAt) (cause : BitVec 9) : BitVec 256 :=
  s.ptc x.core ++ x.addr ++ x.info ++ x.ctx.getD (s.core x.core).mem.ctxid ++ x.core ++ x.hart ++ 0#2 ++ x.unit ++ 0#20 ++ cause

/-- Writes a record with a cause into the log of the die of the core named (R343). -/
def State.logCause (s : State) (x : ErrAt) (cause : BitVec 9) : State :=
  let d := dieOf x.core
  let r := s.pkg.elog[d.toNat]'(by have := d.isLt; omega)
  if r.getLsbD 0 then
    let n := 2 ^ ((r.extractLsb' 8 4).toNat + 7)
    let tail := r.extractLsb' 48 16
    let place := 4096 * (r.extractLsb' 12 36).toNat + 32 * (tail.toNat % n)
    let s := storeBytes s place (natLe 32 (errRecord s x cause).toNat)
    { s with pkg := { s.pkg with elog := s.pkg.elog.setIfInBounds d.toNat ((tail + 1) ++ r.extractLsb' 0 48) } }
  else s

/-- Logs an event of group 6, and raises source 15 for actions 0, 1 and 7 (R342, R343). -/
def State.logError (s : State) (x : ErrAt) (detector action : Nat) : State :=
  let s := s.logCause x (errCause detector action)
  if action == 0 || action == 1 || action == 7 then s.edge x.core 15 else s

end Sys2Proof.Machine
end

