-- ==== Sys2Proof/Machine/Stop.lean ====
section
/-!
DEFINITION. How work in progress is given up: waits (R104), tickets (R99, R253), reactions (R274), group memberships (R114), leases
(R178), engine commands (R313, R339), a hart stopped as HSTOP stops it (R99), and a kennel fenced (R350).
-/

namespace Sys2Proof.Machine

/-- A register of any hart becomes full with the value that it holds. -/
def State.refill (s : State) (c : CoreId) (h : HartId) (r : RegRef) : State :=
  s.onHartAt c h fun x => { x with regs := x.regs.write (x.regs.read r) r }

/-- The register that an access fills. -/
def AccOp.dst : AccOp → Option RegRef
  | .load d _ => some (.g d)
  | .vload d _ _ _ => some (.v d)
  | .tload r _ _ => some r
  | _ => none

/-- Removes the first occurrence of a hart from a list. -/
def dropHart (h : HartId) (l : List HartId) : List HartId := l.filter fun x => x != h

/-- A wait ends without its instruction having had any effect (R104, R230, R281, R308, R337): destinations become full with their
old values, a queue place is given up, and a read under way is forgotten. An arrival in GBAR stays. -/
def State.cancelWait (s : State) (c : CoreId) (h : HartId) : State :=
  let w := (s.hartAt c h).wait
  let s := s.onHartAt c h fun x => { x with wait := .none, waitAt := none, we := false, emptyMet := none }
  match w with
  | .waita d _ _ _ _ _ _ =>
    let s := { s with net := { s.net with accs := s.net.accs.filter fun (a : Access) => !(a.core == c && a.hart == h && a.frozen == 0 && a.op == AccOp.waita) } }
    s.refill c h (.g d)
  | .next d => (s.onCore c fun k => { k with tags := { k.tags with nexters := dropHart h k.tags.nexters } }).refill c h (.v d)
  | .deq r _ => (s.onCore c fun k => { k with chan := { k.chan with takers := k.chan.takers.filter fun p => p.1 != h } }).refill c h r
  | .wwait d _ _ => s.refill c h (.g d)
  | _ => s

/-! Late records (R279, R286). -/

/-- Address of the oldest record that LATEQ has not returned. -/
def Tags.oldestLate (t : Tags) : Nat := t.recordAt (t.ltHead + (if t.ltPend then 1 else 0))

/-- The late cause of core `c` (R279). -/
def lateCause (s : State) (c : CoreId) : BitVec 9 :=
  let r := BitVec.ofNat 1024 (readNat s.mem (localKey c (s.core c).tags.oldestLate) 128)
  BitVec.ofNat 9 (0x100 + 8 * (r.extractLsb' 128 3).toNat + (r.extractLsb' 78 4).toNat / 2)

/-- The hart waits in NEXT. -/
def Wait.isNext : Wait → Bool
  | .next _ => true
  | _ => false

/-- A hart that waits in NEXT traps when its LTP has become 1 (R286). -/
def State.wakeLate (s : State) (c : CoreId) : State :=
  let h := (s.core c).tags.lthart
  if (s.core c).ltp h && (s.hartAt c h).wait.isNext then
    (s.cancelWait c h).trapAt c h false (lateCause s c) (BitVec.ofNat 64 (s.core c).tags.oldestLate) 0 (s.hartAt c h).pc
  else s

/-- The part still travels without a ticket. -/
def Stage.onWay : Stage → Bool
  | .slice => true
  | .ats => true
  | .sent _ => true
  | .answered _ => true
  | _ => false

/-- An access that its hart's stop cancels. -/
def Access.cancelled (a : Access) : Bool :=
  a.frozen != 0 || a.parts.any (fun p => p.stage.stuck) || !a.parts.any fun p => p.stage.onWay

/-- Cancels the ticket entries, log and frozen groups of a hart; accesses on their way without a ticket go on (R99). -/
def State.cancelTickets (s : State) (c : CoreId) (h : HartId) : State :=
  let mine (a : Access) := a.core == c && a.hart == h && !a.orphan
  let lost := s.net.accs.filter fun a => mine a && a.cancelled && a.frozen == 0
  let s := { s with net := { s.net with accs := s.net.accs.filter fun a => !(mine a && a.cancelled) } }
  let s := s.onHartAt c h fun x => { x with log := [], frozen := [], intMarks := [], tkp := false }
  lost.foldl (fun s a => match a.op.dst with
    | some r => s.refill c h r
    | none => s) s

/-- What a hart's stop leaves of its accesses on their way: each goes its way by itself and still fills its destination, and no access that the hart
issues once it has started again waits for it (R99). -/
def State.detach (s : State) (c : CoreId) (h : HartId) : State :=
  { s with net := { s.net with accs := s.net.accs.map fun (a : Access) => if a.core == c && a.hart == h then { a with orphan := true } else a } }

/-! Groups. -/

/-- A hart leaves a group (R114): it counts as arrived in an open episode, and a group without members ceases to exist, which is
recorded on FIFO 22 (R312). -/
def State.leaveGroup (s : State) (c : CoreId) (h : HartId) (id : BitVec 12) : State :=
  match s.groups.find? fun g => g.id == id && g.members.any fun m => m.1 == c && m.2.1 == h with
  | none => s
  | some g =>
    let out (l : List (CoreId × HartId)) := l.filter fun m => !(m.1 == c && m.2 == h)
    let g' := { g with members := g.members.filter fun m => !(m.1 == c && m.2.1 == h),
                       awaited := out g.awaited, arrived := out g.arrived, owed := out g.owed }
    if g'.members.isEmpty then
      let s' := { s with groups := s.groups.filter fun x => x.id != id }
      s'.post srcBarrier c 22 0x61 0 (g.episode ++ 0#4 ++ id)
    else { s with groups := s.groups.map fun x => if x.id == id then g' else x }

/-- The groups that a hart belongs to. -/
def State.memberships (s : State) (c : CoreId) (h : HartId) : List Group :=
  s.groups.filter fun g => g.members.any fun m => m.1 == c && m.2.1 == h

/-- A hart leaves all its groups. -/
def State.leaveGroups (s : State) (c : CoreId) (h : HartId) : State :=
  (s.memberships c h).foldl (fun s g => s.leaveGroup c h g.id) s

/-! Leases. -/

/-- The destination of a queued LEASH becomes full with all ones (R178, R182). -/
def State.refuseLeash (s : State) (c : CoreId) (h : HartId) : State :=
  match (s.hartAt c h).mx.leashD with
  | none => s
  | some d => (s.onHartAt c h fun x => { x with mx := { x.mx with leashD := none } }).fill c h (.g d) (BitVec.allOnes 64 |>.setWidth 1024)

/-- A buffer without its loader. -/
def BBuf.unload (b : BBuf) : BBuf := { b with loader := none }

/-- An array whose lease is revoked (R178, R182): its buffers lose their loader, and so do loads that it has accepted and not yet made (DEDUCED,
log 131). -/
def Arr.revoked (a : Arr) : Arr :=
  { a with
    holder := none
    buf0 := a.buf0.unload
    buf1 := a.buf1.unload
    queue := a.queue.map fun (k : MxCmd) => { k with lost := true } }

/-- Revokes a hart's lease or its queued request (R178). -/
def State.revoke (s : State) (c : CoreId) (h : HartId) : State :=
  let x := (s.hartAt c h).mx
  if x.held then
    (s.onArray x.array Arr.revoked).onHartAt c h fun k =>
      { k with mx := { k.mx with held := false, rev := true } }
  else if x.queued then
    ((s.onArray x.array fun a => { a with fifo := a.fifo.filter fun p => !(p.1 == c && p.2 == h) }).onHartAt c h fun k =>
      { k with mx := { k.mx with queued := false, rev := true } }).refuseLeash c h
  else s

/-! Reactions. -/

/-- One of these reactions has this number. -/
def hasRid (rs : List Reaction) (n : Nat) : Bool := rs.any fun r => r.id == n

/-- The message was posted by one of these reactions. -/
def postedBy (rs : List Reaction) (k : Option Nat) : Bool := k.any (hasRid rs)

/-- The answer to an access that is one message: its part is confirmed as answered. -/
def answerAcc (id : Nat) (l : List Access) : List Access :=
  l.map fun a => if a.id == id then { a with parts := a.parts.map fun p => { p with stage := .answered 0 } } else a

/-- Aborts the reactions of core `c` from place `keep` on in firing order (R274). Their messages return to the inbox, but for those that an
aborted reaction posted to the core itself. The hart of an active one restarts by an event of its own. -/
def State.abortFrom (s : State) (c : CoreId) (keep : Nat) : State :=
  let t := (s.core c).tags
  let kept := t.reactions.take keep
  let gone := t.reactions.drop keep
  if gone.isEmpty then s
  else
    let last := match kept.getLast? with
      | some r => (r.t, r.m)
      | none => (t.cft, t.cftm)
    let s := (gone.filter fun r => r.escaped).foldl (fun s r => s.late c r.msg 0 1) s
    let s := s.onCore c fun k =>
      let back := (gone.map (·.msg)).filter fun x => !postedBy gone x.selfKey
      -- R274 returns the messages to the inbox; one whose ACT 1 record finds the ring full is no exception (DESIGN CHOICE, log 154)
      let inbox := back.foldl (fun l x => insertMsg x l) (k.tags.inbox.filter fun x => !postedBy gone x.selfKey)
      { k with tags := { k.tags with inbox := inbox, window := kept, active := none, lft := last.1, lftm := last.2,
                                     obuf := k.tags.obuf.filter fun e => !hasRid gone e.rid } }
    let own := s.net.posts.filter fun p => p.core == c && p.dst == c && postedBy gone p.fromReaction
    let s := s.onCore c fun k => { k with sys := { k.sys with ins := k.sys.ins + BitVec.ofNat 32 own.length } }
    let s := { s with
      reads := s.reads.filter fun r => !(r.core == c && hasRid gone r.rid),
      net := { s.net with posts := s.net.posts.filter fun p => !own.any fun q => q.id == p.id,
                          accs := own.foldl (fun l p => answerAcc p.acc l) s.net.accs } }
    match t.active with
    | none => s
    | some r =>
      let s := if (s.hartAt c r.hart).tkp then s.cancelTickets c r.hart else s
      s.onHartAt c r.hart fun x => { x with react := { x.react with abort := true } }

/-- The results that wait for a pair which is not to retire land all the same: their operations were issued without a trap (R131). -/
def landReady (x : Hart) : Hart :=
  { x.pend.foldl (fun y p => match p.kind with
      | .ready r => y.land r
      | _ => y) x with pend := dropReady x.pend }

/-- A hart whose active reaction was aborted stands at its NEXT again (R274). -/
def restartHart (x : Hart) : Hart :=
  { x with rx := false, pc := x.react.rxpc, arrival := .fall, log := [], react := { x.react with abort := false } }

/-! Stops. -/

/-- Hart `h` of core `c` stops as HSTOP stops it (R99), at an instruction boundary. -/
def State.stopHart (s : State) (c : CoreId) (h : HartId) : State :=
  if (s.hartAt c h).stopped then s
  else
    let s := s.cancelWait c h
    let s := if (s.hartAt c h).rx then
        let s := s.abortFrom c (s.core c).tags.window.length
        s.onHartAt c h restartHart
      else s
    let s := (((s.cancelTickets c h).detach c h).leaveGroups c h).revoke c h
    s.onHartAt c h fun x => { landReady x with stopped := true, pause := 0, lost := 0 }

/-- The hart waits for the acknowledgement of an HSTART or HSTOP. -/
def Wait.isHart : Wait → Bool
  | .hart _ => true
  | _ => false

/-- A hart stands where a stop can take it: at an instruction boundary, in a wait that may be given up, or in an HSTART or HSTOP whose
command goes its way without it (R99, R104). -/
def State.stoppable (s : State) (c : CoreId) (h : HartId) : Bool :=
  let x := s.hartAt c h
  x.stopped || ((x.wait.interruptible || x.wait.isHart) && !x.pend.any Pend.binds && (!x.tkp || s.rewound c h))

/-- A run that ends with this outcome, or with one that it has already: none of its rows is owed any more. -/
def Run.endWith (r : Run) (o : BitVec 4) : Run := { r with outcome := if r.outcome == 0 then o else r.outcome, owed := 0 }

/-! Batches. -/

/-- The status byte with one more problem of a code (R293). -/
def addProblem (x : Byte) (code : Nat) : Byte :=
  BitVec.ofNat 4 (max (x.extractLsb' 4 4).toNat code) ++ satInc (x.extractLsb' 0 4)

/-- A status of a batch is changed; the hart keeps those of its 16 most recent numbers (R293). -/
def Batch.setStatus (x : Batch) (b : BitVec 16) (v : Byte) : Batch :=
  { x with status := ((b, v) :: x.status.filter fun p => p.1 != b).filter fun p => decide ((x.bopen - p.1).toNat ≤ 15) }

/-- The status of a batch so far. -/
def Batch.statusOf (x : Batch) (b : BitVec 16) : Byte := ((x.status.find? fun p => p.1 == b).map (·.2)).getD 0

/-- Commands of these batches are discarded (R293, R313): outcome 7 stands in the status of each, and of each sealed batch that has not
reported; none of them makes a report but by BDONE and BSTAT. -/
def Batch.discard (x : Batch) (bs : List (BitVec 16)) : Batch :=
  let hit := bs ++ x.sealed.map fun p => p.1
  let y := hit.foldl (fun (y : Batch) b => y.setStatus b (7#4 ++ (y.statusOf b).extractLsb' 0 4)) x
  { y with sealed := y.sealed.map fun p => (p.1, 0, p.2.2) }

/-- A collective slot that a recall or a fence disarms: outcome 6 if its generation was not complete (R335, R339). -/
def CSlot.discard (x : CSlot) : CSlot := { CSlot.reset with outcome := if x.arm && !x.done then 6 else 0 }

/-- An engine's request for a translation (R259). -/
def Access.isProbe (a : Access) : Bool :=
  match a.op with
  | .xlat _ => a.orphan
  | _ => false

/-- Discards the engine commands of the harts that `p` names and the waves and armed slots of the cores that `q` names (R178, R313,
R339): bytes already written and rows already applied stay. A report on its way arrives, but its batch no longer waits for the answer. -/
def State.discardEngines (s : State) (p : CoreId → HartId → Bool) (q : CoreId → Bool) : State :=
  let mine (a : BitVec 7 × Arr) := a.2.runs.filter fun r => p r.cmd.core r.cmd.hart
  let runs := s.arrays.flatMap fun a => (mine a).map fun r => (a.1, r.seq)
  let batches (c : CoreId) (h : HartId) := (s.net.cmds.filter fun k => k.core == c && k.hart == h).map (·.batch)
  { s with
    arrays := s.arrays.map fun a => (a.1, { a.2 with
      queue := a.2.queue.filter fun m => !p m.core m.hart,
      runs := a.2.runs.map fun r => if p r.cmd.core r.cmd.hart then r.endWith 4 else r })
    net := { s.net with
      cmds := s.net.cmds.filter fun k => !p k.core k.hart,
      accs := s.net.accs.filter fun a => !(a.isProbe && p a.core a.hart),
      chans := (s.net.chans.filter fun m => !(m.held && p m.core m.hart)).map fun m => if p m.core m.hart then { m with batch := none } else m,
      partials := s.net.partials.filter fun m => !runs.contains (m.array, m.seq),
      waves := s.net.waves.filter fun w => !q w.core }
    cores := s.cores.map fun k =>
      let x := hartIds.foldl (fun (x : Core) h =>
        if p k.1 h then x.setHart h { x.hart h with batch := (x.hart h).batch.discard (batches k.1 h) } else x) k.2
      (k.1, if q k.1 then { x with slots := x.slots.map CSlot.discard } else x) }

/-- The part of KENNEL that cores of one kennel share: EN, PF and the rectangle (R350). -/
def kennelKey (w : W) : BitVec 2 × BitVec 22 := (w.extractLsb' 62 2, w.extractLsb' 10 22)

/-- The cores of core `c`'s kennel; none when it is in none. -/
def State.kennel (s : State) (c : CoreId) : List CoreId :=
  let w := (s.core c).sys.kennel
  if w.getLsbD 63 then (s.cores.filter fun k => k.2.sys.kennel.getLsbD 63 && kennelKey k.2.sys.kennel == kennelKey w).map (·.1) else []

/-- The accesses of fenced cores that are on their way go on, and their answers will be discarded (R350). -/
def muteAccs (p : CoreId → Bool) (l : List Access) : List Access := l.map fun a => if p a.core then { a with mute := true } else a

/-- An operation of a hart that has stopped: it completes into its destinations, and raises no trap (R131). -/
def Pend.unbound (p : Pend) : Pend := if p.precise then { p with precise := false, dsts := (info p.op).writes.filter fun r => r != .g 0 } else p

/-- The registers that answers to these accesses were to fill become full with their old values. -/
def State.refillAll (s : State) (l : List Access) : State :=
  l.foldl (fun s a => match a.op.dst with
    | some r => s.refill a.core a.hart r
    | none => s) s

/-- A hart of a fenced kennel: stopped, with its waits, tickets and reaction gone (R350); what it has issued completes (R131). -/
def fencedHart (x : Hart) : Hart :=
  { x with stopped := true, wait := .none, waitAt := none, we := false, emptyMet := none, pause := 0, lost := 0, tkp := false, log := [], frozen := [],
           rx := false, react := { x.react with abort := false }, pend := x.pend.map Pend.unbound }

/-- The kennel of core `x` is fenced for an event of a detector (R350). DEDUCED (log 149): a register that a discarded answer was to fill becomes full
with its old value. -/
def State.fenceKennel (s : State) (x : CoreId) (h : HartId) (detector : Nat) (addr : W) : State :=
  let ks := s.kennel x
  let inK (c : CoreId) := ks.contains c
  let s := s.logError { core := x, hart := h, unit := 0, addr := addr, info := 0 } detector 3
  let s := ks.foldl (fun s c => hartIds.foldl (fun s i => s.stopHart c i) s) s
  let s := s.discardEngines (fun c _ => inK c) inK
  let s := s.refillAll (s.net.accs.filter fun a => inK a.core && !a.mute)
  let s := { s with net := { s.net with accs := muteAccs inK s.net.accs },
                    reads := s.reads.filter fun r => !inK r.core }
  ks.foldl (fun s c =>
    (s.onHarts c fun _ k => fencedHart k).onCore c fun k =>
      { k with tags := { k.tags with inbox := [], window := [], active := none, obuf := [], nexters := [] },
               chan := { k.chan with takers := [] },
               sys := { k.sys with fenced := true, fenceDet := BitVec.ofNat 3 detector, fenceAddr := addr, fenceBy := x } }) s

/-- Poisoned data has been consumed by hart `h` of core `c`: its kennel is fenced if it asks for that (R348). -/
def State.fencesPoison (s : State) (c : CoreId) : Bool := (s.core c).sys.kennel.getLsbD 63 && (s.core c).sys.kennel.getLsbD 62

/-- A fault of the executing hart, by a poisoned line at an address or not (R212, R343, R348): the trap, or the fence of its kennel. -/
def State.faultOrFence (s : State) (poison : Option W) (cause : BitVec 9) (addr info : W) : State :=
  match poison with
  | some a => if s.fencesPoison s.cur then { s.fenceKennel s.cur s.curHart 7 a with disp := .trapped 10 } else s.fault cause addr info
  | none => s.fault cause addr info

end Sys2Proof.Machine
end

