-- ==== Sys2Proof/Machine/Access.lean ====
section
/-!
DEFINITION. An access to memory from its instruction: the checks at the requester (R195 to R202, R211, R213, R245), watches (R345),
what a local access does at once (R212, R217), the entry that any other access takes (R249), and what an instruction does when it
meets its own entry again at replay (R252).
-/

namespace Sys2Proof.Machine

/-- One element of an access as its instruction asks for it. -/
structure El where
  va : W
  size : Nat
  data : BitVec 512
  kind : AccKind
deriving DecidableEq, Repr

/-- What an instruction asks of memory. -/
structure Ask where
  op : AccOp
  els : List El
  /-- a vector access: faults tell the element (R196) -/
  vec : Bool
  /-- a scalar access without ordering, which device registers accept (R202) -/
  plain : Bool
  acq : Bool
deriving DecidableEq, Repr

/-- What the requester finds of one element: where its request goes, or a cause and the address of a poisoned line. -/
inductive Reach where
  | go (st : Stage)
  | stop (cause : BitVec 9) (poison : Option W)
deriving DecidableEq, Repr

/-- A trap enable of FPSTAT is set: an operation with flags is precise (R130). -/
def fpPrecise (st : BitVec 13) : Bool := fpEnables st != 0

/-- The access is a message, which reaches no memory. -/
def AccOp.isMessage : AccOp → Bool
  | .message _ => true
  | _ => false

/-- The access is a translation alone. -/
def AccOp.isXlat : AccOp → Bool
  | .xlat _ => true
  | _ => false

/-- The access kind of a code (R245). -/
def kindOf (k : BitVec 2) : AccKind := if k == 0 then .fetch else if k == 1 then .load else if k == 2 then .store else .atomic

/-- The access belongs to the ordered region (R237). -/
def AccOp.ordered : AccOp → Bool
  | .tload .. => true
  | .tstore .. => true
  | _ => false

/-- The kind of part `n` of an access (R196): the flag of an STF is an atomic, its data a store. -/
def AccOp.partKind (op : AccOp) (n : Nat) : AccKind :=
  match op with
  | .load .. => .load
  | .vload .. => .load
  | .waita => .load
  | .shape _ => .load
  | .xlat k => kindOf k
  | .atomic .. => .atomic
  | .tload .. => .atomic
  | .tstore .. => .atomic
  | .stf => if n == 0 then .store else .atomic
  | .store => .store
  | .vstore => .store
  | .message _ => .store

/-- A reach port that is up leads to package `k` (R326). -/
def State.routed (s : State) (k : BitVec 4) : Bool :=
  let v := (s.pkg.rproute.toNat / 2 ^ (4 * k.toNat)) % 16
  k != 0 && 1 ≤ v && v ≤ 8 && (s.pkg.rpState[v - 1]?.getD 0) == 2

/-- The link of the reach port that leads to package `k` retrains (R322), or has gone down and its 100 µs run (R327): what is on its way waits. -/
def State.retraining (s : State) (k : BitVec 4) : Bool :=
  let v := (s.pkg.rproute.toNat / 2 ^ (4 * k.toNat)) % 16
  k != 0 && ((s.pkg.links.any fun l => l.retrain && l.id + 1 == v) || (decide (1 ≤ v ∧ v ≤ 8) && (s.pkg.rpDown[v - 1]?.getD none).isSome))

/-- The part writes a whole line, or does not depend on what a line holds (R212). -/
def wholeLine (k : AccKind) (size : Nat) : Bool := k == .store && size == 64

/-- The first page address of the page that an entry maps. -/
def TlbEntry.page (e : TlbEntry) : BitVec 36 := BitVec.ofNat 36 (e.vpn.toNat / (pageBytes e.size / 4096) * (pageBytes e.size / 4096))

/-- A replayable launch runs in context `x` (R351). -/
def State.replaying (s : State) (x : BitVec 16) : Bool := s.cores.any fun p => p.2.mem.ctxid == x && p.2.sys.lrstat.getLsbD 63

/-- A write by any party of a context in which a replayable launch runs, to an HBM page that has no shadow yet (R352). -/
def State.needsShadow (s : State) (k : AccKind) (e : TlbEntry) (pa : BitVec 48) : Bool :=
  s.replaying e.ctx && (k == .store || k == .atomic) && decide (pa.toNat < Config.hbmLimit) &&
    !s.books.shadows.any fun x => x.1 == e.ctx && x.2.1 == e.page

/-- A translated address goes to its physical target, if the physical map lets it (R202, R237). A bin table is only translated here (R301). -/
def State.reachPhys (s : State) (op : AccOp) (k : AccKind) (plain : Bool) (mode : BitVec 2) (pa : BitVec 48) (page : BitVec 2)
    (size : Nat) : Reach :=
  if op.ordered && !(Config.commonsBase ≤ pa.toNat && pa.toNat < Config.commonsBase + 0x100000000) then
    .stop (accCause .atomic (physSpace pa) .protection) none
  else if op.isXlat && physCheck s.cap k plain mode pa size != .withdrawn then .go (.sent (.phys pa page))
  else match physCheck s.cap k plain mode pa size with
    | .ok => .go (.sent (.phys pa page))
    | .device => .go (.sent (.phys pa page))
    | .withdrawn => .stop (xlatCause k 3 0) none
    | .problem p => .stop (accCause k (physSpace pa) p) none

/-- An entry of a TLB meets an access (R245, R247). -/
def State.reachEntry (s : State) (op : AccOp) (k : AccKind) (plain : Bool) (mode : BitVec 2) (e : TlbEntry) (va : W) (size : Nat) :
    Reach :=
  if e.permits k mode then s.reachPhys op k plain mode (e.phys va) e.size size else .stop (xlatCause k 1 0) none

/-- The checks at the requester of one element, in the executing hart's core and mode (R195 to R202, R211). -/
def State.reach (s : State) (op : AccOp) (plain : Bool) (e : El) : Reach :=
  let k := e.kind
  let mode := s.hart.mode
  if e.va.toNat % e.size != 0 then .stop (accCause k (spaceOf e.va).code .misaligned) none
  else match spaceOf e.va with
    | .beyond => .stop (accCause k 0 .bounds) none
    | .wild => .stop (accCause k 2 .bounds) none
    | .loc =>
      if op.ordered || !guardOk s.self.mem.lguard mode k e.va.toNat e.size then .stop (accCause k 0 .protection) none
      else if !wholeLine k e.size && poisoned s (localKey s.cur e.va.toNat) e.size then .stop (accCause k 0 .poisoned) (some e.va)
      else .go (.sent (.own e.va.toNat))
    | .peer =>
      if op.ordered then .stop (accCause k 1 .protection) none
      else if e.va.extractLsb' 52 4 != 0 && !s.routed (e.va.extractLsb' 52 4) then .stop (accCause k 1 .bounds) none
      else .go (.sent (.peer (e.va.extractLsb' 52 4) (e.va.extractLsb' 40 12) (e.va.extractLsb' 36 4) (e.va.extractLsb' 0 36)))
    | .global =>
      match s.self.mem.lookup e.va with
      | none => .go .slice
      | some t => if s.needsShadow k t (t.phys e.va) then .go .slice else s.reachEntry op k plain mode t e.va e.size

/-- TRINFO of a fault (R196, R253): the element of a vector access, its low four bits, in [3:0] for group 1 and in [27:24] for group
2 beside the ticket's slice and number. -/
def faultInfo (cause : BitVec 9) (vec : Bool) (n : Nat) (ticket : BitVec 22) : W :=
  let e : W := if vec then BitVec.ofNat 64 (n % 16) else 0
  if cause.extractLsb' 6 3 == 2#3 then e <<< 24 ||| ticket.setWidth 64 else if cause.extractLsb' 6 3 == 1#3 then e else 0

/-- The first element that the checks refuse, in ascending order (R213): its number, address, cause, and the address of a poisoned line if
that is the reason. -/
def firstStop (s : State) (q : Ask) : List El → Nat → Option (Nat × W × BitVec 9 × Option W)
  | [], _ => none
  | e :: t, n => match s.reach q.op q.plain e with
    | .stop cause p => some (n, e.va, cause, p)
    | .go _ => firstStop s q t (n + 1)

/-- What a watch sees of an element of an access (R344, R345): nothing of an engine's, an ordered access as a read, the flag of an STF as a
write. -/
def AccOp.watch (op : AccOp) (k : AccKind) : Option WatchKind :=
  match op with
  | .xlat _ => none
  | .message _ => none
  | .stf => some .write
  | .tload .. => some .read
  | .tstore .. => some .read
  | _ => match k with
    | .fetch => some .fetch
    | .load => some .read
    | .store => some .write
    | .atomic => some .both

/-- The lowest byte of an access that watch `n` matches (R345). -/
def watchOn (h : Hart) (q : Ask) (n : Nat) : Option Nat :=
  q.els.foldl (fun a e =>
    match a, (q.op.watch e.kind).bind fun k => h.watchedBy n k e.va.toNat e.size with
    | none, x => x
    | some y, some x => some (min x y)
    | some y, none => some y) none

/-- Watches that match an access without trapping are used up. -/
def useSkips (h : Hart) (q : Ask) : Hart := h.usingSkips (watchOn h q)

/-- The watch that traps an access: its number and the lowest matching byte of any watch that traps. -/
def watchTrap (h : Hart) (q : Ask) : Option (Nat × Nat) := h.trapping (watchOn h q)

/-- The slice would let an element pass as things stand (R245, R246): its TLB or a walk gives an entry that translates it. -/
def State.sliceWould (s : State) (q : Ask) (e : El) : Bool :=
  let mode := s.hart.mode
  let pass (t : TlbEntry) : Bool := match s.reachEntry q.op e.kind q.plain mode t e.va e.size with
    | .go _ => !s.needsShadow e.kind t (t.phys e.va)
    | .stop .. => false
  match s.sliceHit (sliceOf s.cur e.va) s.self.mem.ctxid e.va with
  | some t => pass t
  | none => match walk s.mem e.va 4 s.self.mem.root with
    | .leaf size pte _ => pass (leafEntry s.self.mem.ctxid e.va size pte)
    | _ => false

/-- The first element whose checks at its slice are still to be made, with its number (R345): the requester lets it go there, and its page is not
translated yet. -/
def firstUntranslated (s : State) (q : Ask) : List El → Nat → Option (Nat × El)
  | [], _ => none
  | e :: t, n => match s.reach q.op q.plain e with
    | .go .slice => if s.sliceWould q e then firstUntranslated s q t (n + 1) else some (n, e)
    | _ => firstUntranslated s q t (n + 1)

/-! What an access does at its target. -/

/-- `size` bytes at a memory key. -/
def State.bytesAt (s : State) (key size : Nat) : BitVec 512 := BitVec.ofNat 512 (readNat s.mem key size)

/-- The FP32 lanes of a 64-byte operation (R216). -/
def lanes32 (f : Nat → Nat → Nat) (a b : BitVec 512) : BitVec 512 :=
  (List.range 16).foldl (fun r i => r ||| (BitVec.ofNat 512 (f (laneBits a.toNat 32 i) (laneBits b.toNat 32 i)) <<< (32 * i))) 0

/-- The new memory operand of an atomic (R216): old value `m` of `size` bytes, operand `b`, compared value `cmp`. -/
def atomicNew (fn : BitVec 5) (size : Nat) (m b : BitVec 512) (cmp : W) : BitVec 512 :=
  let w := 8 * size
  let mod (x : Nat) : BitVec 512 := BitVec.ofNat 512 (x % 2 ^ w)
  let mu := m.toNat % 2 ^ w
  let bu := b.toNat % 2 ^ w
  let pick (x : Bool) : BitVec 512 := if x then mod bu else mod mu
  match fn.toNat with
  | 0 => mod (mu + bu)
  | 1 => mod (mu &&& bu)
  | 2 => mod (mu ||| bu)
  | 3 => mod (mu ^^^ bu)
  | 4 => pick (decide (signed w bu < signed w mu))
  | 5 => pick (decide (signed w mu < signed w bu))
  | 6 => pick (decide (bu < mu))
  | 7 => pick (decide (mu < bu))
  | 8 => mod bu
  | 9 => pick (mu == cmp.toNat % 2 ^ w)
  | 10 => pick (mu == cmp.toNat % 2 ^ w)
  | 11 => mod (fp32.add 0 mu bu).1
  | 12 => mod (fp32.minMax false mu bu).1
  | 13 => mod (fp32.minMax true mu bu).1
  | 14 => lanes32 (fun x y => (fp32.add 0 x y).1) m b
  | 15 => lanes32 (fun x y => (fp32.minMax true x y).1) m b
  | _ => if bu ≤ mu then mod 0 else mod (mu + 1)

/-- Performs part `n` of an access at a memory key: the state and the value that goes back (R211, R213, R216, R218). -/
def State.perform (s : State) (op : AccOp) (n key size : Nat) (data : BitVec 512) : State × BitVec 512 :=
  match op.partKind n with
  | .load => (s, s.bytesAt key size)
  | .fetch => (s, s.bytesAt key size)
  | .store => (storeBytes s key (natLe size data.toNat), 0)
  | .atomic =>
    let old := s.bytesAt key size
    let new := match op with
      | .atomic fn _ b cmp => atomicNew fn size old b cmp
      | _ => old + 1
    (storeBytes s key (natLe size new.toNat), old)

/-! What comes back to the hart. -/

/-- The value of a load of a format pair (R214): memory elements `xs` of the memory format as lanes of the lane format, with NV for a
signalling NaN that a conversion meets. -/
def convertLoad (lo hi : W) (ff tf : BitVec 4) (bc : Bool) (block : Nat) : Nat × BitVec 5 :=
  let t := (laneTy tf).getD 0
  let f := if ff == 0 then tyCode t else ff
  let w := if tf == 0 then 32 else tyWidth t
  (List.range (512 / w)).foldl (fun r i =>
    let x := if tf == 0 then (laneBits block 32 (if bc then 0 else i), (0 : BitVec 5))
      else srcLane t block ⟨f, 8, 8, false⟩ lo hi (if bc then 0 else i)
    (r.1 + x.1 * 2 ^ (w * i), r.2 ||| x.2)) (0, 0)

/-- Elements side by side, each `w` bits wide. -/
def joinEls (w : Nat) : List (BitVec 512) → Nat
  | [] => 0
  | x :: t => x.toNat % 2 ^ w + 2 ^ w * joinEls w t

/-- The result of a load from the bytes of its parts: register, value and flags. -/
def loadResult (lo hi : W) (op : AccOp) (size : Nat) (xs : List (BitVec 512)) : Option (RegRef × BitVec 1024 × BitVec 5) :=
  let one := (xs.head?.getD 0).toNat
  let ext (sx : Bool) : BitVec 1024 := (if sx then BitVec.ofInt 64 (signed (8 * size) one) else BitVec.ofNat 64 one).setWidth 1024
  match op with
  | .load d sx => some (.g d, ext sx, 0)
  | .tload (.g d) sx _ => some (.g d, ext sx, 0)
  | .tload r _ _ => some (r, BitVec.ofNat 1024 one, 0)
  | .vload d ff tf bc =>
    let block := if xs.length == 1 then one else joinEls (if ff == 0 then 32 else codeWidth ff) xs
    let v := convertLoad lo hi ff tf bc block
    some (.v d, BitVec.ofNat 1024 v.1, v.2)
  | _ => none

/-- The register result of an atomic: the old value, a 32-bit one sign-extended (R216). -/
def atomicResult (r : RegRef) (size : Nat) (old : BitVec 512) : OpResult :=
  oneWrite r (if size == 4 then (BitVec.ofInt 64 (signed 32 old.toNat)).setWidth 1024 else old.setWidth 1024)

/-! Shape records (R295, R296). -/

/-- Reads a shape record, or the cause that it raises. -/
def readShape (r : BitVec 512) : Except (BitVec 9) Shape :=
  let s : Shape := { esz := r.extractLsb' 0 3, aln := r.extractLsb' 4 4, dims := r.extractLsb' 8 2, n0 := r.extractLsb' 32 32,
                     n1 := r.extractLsb' 64 32, n2 := r.extractLsb' 96 32, ss1 := r.extractLsb' 128 64, ss2 := r.extractLsb' 192 64,
                     ds1 := r.extractLsb' 256 64, ds2 := r.extractLsb' 320 64 }
  let e := 2 ^ s.esz.toNat
  let a := 2 ^ s.aln.toNat
  let n (x : BitVec 32) (hi : Nat) : Bool := 1 ≤ x.toNat && x.toNat ≤ hi
  let ok := r.extractLsb' 384 128 == 0 && r.extractLsb' 10 22 == 0 && !r.getLsbD 3 && s.dims != 3 && s.esz != 7 &&
    s.esz.toNat ≤ s.aln.toNat && s.aln.toNat ≤ 12 && n s.n0 (2 ^ 24) && n s.n1 65536 && n s.n2 65536 &&
    (2 ≤ s.dims.toNat || (s.n2 == 1 && s.ss2 == 0 && s.ds2 == 0)) && (s.dims != 0 || (s.n1 == 1 && s.ss1 == 0 && s.ds1 == 0))
  let aligned := [s.ss1, s.ss2, s.ds1, s.ds2].all (fun x => x.toNat % a == 0) && (s.n0.toNat * e) % a == 0
  if !ok then .error 0x140
  else if !aligned then .error 0x141
  else if 2 ^ 32 < s.n0.toNat * s.n1.toNat * s.n2.toNat * e then .error 0x140
  else .ok s

/-! Entries. -/

/-- Frees the entries and log records of a hart that no replay can need any more (R249). -/
def State.reap (s : State) (c : CoreId) (h : HartId) : State :=
  let next := (s.hartAt c h).nseq
  let open' := (s.live c h).filter fun a => decide (a.seq < next) && !a.confirmed
  let old := open'.foldl (fun m a => min m a.seq) next
  { s.onHartAt c h (fun x => { x with log := x.log.filter fun r => match r with
      | .reg key _ _ _ => decide (2 * old < key)
      | .done seq .. => decide (old ≤ seq) }) with
    net := { s.net with accs := s.net.accs.filter fun a =>
      !(a.core == c && a.hart == h && a.frozen == 0 && !a.orphan && decide (a.seq < old)) } }

/-- Entries of the ticket table in use (R249). -/
def State.inUse (s : State) (c : CoreId) (h : HartId) : Nat :=
  (s.net.accs.filter fun a => a.core == c && a.hart == h && !a.orphan).length

/-- The hart may take another entry (R249). -/
def State.entryFree (s : State) : Bool :=
  decide (s.inUse s.cur s.curHart < if s.hart.frozen.isEmpty then 28 else 32)

/-- The access takes the hart's next sequence number (R249). -/
def State.numbered (s : State) : State := s.onHart fun h => { h with nseq := h.nseq + 1 }

/-- Notes a destination's old value under the access's own number (R249, R251). -/
def State.logOwn (s : State) (r : RegRef) (always : Bool) : State :=
  s.onHart (logReg true r (always || s.unconfirmed s.cur s.curHart))

/-- The parts of an access with what the requester finds of each. -/
def makeParts (s : State) (q : Ask) : List El → Nat → List Part
  | [], _ => []
  | e :: t, n =>
    { n := n, va := e.va, size := e.size, data := e.data
      stage := match s.reach q.op q.plain e with
        | .go st => st
        | .stop .. => .undone } :: makeParts s q t (n + 1)

/-- Performs the parts in the hart's own store, in ascending order (R212, R213, R217). The flag of an STF waits for its data. -/
def performOwn (s : State) (op : AccOp) : List Part → Bool → State × List Part
  | [], _ => (s, [])
  | p :: t, before =>
    match p.stage with
    | .sent (.own off) =>
      if op == .stf && !before then
        let r := performOwn s op t before
        (r.1, p :: r.2)
      else
        let x := s.perform op p.n (localKey s.cur off) p.size p.data
        let r := performOwn x.1 op t before
        (r.1, { p with stage := .done x.2 } :: r.2)
    | _ =>
      let r := performOwn s op t false
      (r.1, p :: r.2)

/-- The value of a part that is done. -/
def Part.value (p : Part) : BitVec 512 :=
  match p.stage with
  | .done x => x
  | _ => 0

/-- All parts are done. -/
def partsDone (l : List Part) : Bool := l.all fun p => match p.stage with
  | .done _ => true
  | _ => false

/-- The kind code that a log record keeps (R252): load, store, atomic. -/
def AccOp.logKind (op : AccOp) : BitVec 2 := BitVec.ofNat 2 ((op.partKind 0).code)

/-- WAITA has read its location (R230): it ends when the value differs or the limit is reached; `none` to go on waiting. -/
def waitaEnds (size : Nat) (x : BitVec 512) (cmp start now : W) (limit : BitVec 32) : Bool :=
  x.toNat % 2 ^ (8 * size) != cmp.toNat % 2 ^ (8 * size) || decide (limit.toNat ≤ (now - start).toNat)

/-- The value that WAITA leaves. -/
def waitaValue (size : Nat) (x : BitVec 512) : BitVec 1024 := (BitVec.ofInt 64 (signed (8 * size) x.toNat)).setWidth 1024

/-- The bytes of the parts as one number, in order of the parts. -/
def packParts (l : List Part) : BitVec 512 := BitVec.ofNat 512 (joinEls (8 * (l.head?.map (·.size)).getD 1) (l.map Part.value))

/-- XSHAPE has read a record: it fills its slot, or raises what is wrong with it (R295, R296). -/
def State.takeShape (s : State) (slot : BitVec 3) (va : W) (x : BitVec 512) : State :=
  match readShape x with
  | .error cause => s.fault cause va 0
  | .ok sh => (s.onHart fun h => { h with batch := { h.batch with slots := h.batch.slots.setIfInBounds slot.toNat (some sh) } }).numbered.complete

/-- An access that needs no entry, because it lies in the hart's own store, is done (R212, R217, R249). `x` holds its parts done. -/
def State.ownDone (s : State) (i : Instr) (op : AccOp) (ps : List Part) : State :=
  let va := (ps.head?.map (·.va)).getD 0
  let size := (ps.head?.map (·.size)).getD 0
  let open' := s.unconfirmed s.cur s.curHart
  let rec' (s : State) : State := if open' then s.onHart fun h =>
      { h with log := h.log ++ [.done h.nseq op.logKind (ps.map fun p => (p.va, p.size)) (packParts ps)] } else s
  let later (r : RegRef) (conv : Option (BitVec 4 × BitVec 4 × Bool)) (x : BitVec 512) : State :=
    if r == .g 0 then (rec' s).numbered.complete
    else
      let p : Pend := { id := s.fresh, seq := s.hart.nseq, op := i, kind := .localLoad r x conv, dsts := [r], precise := false }
      let s := (rec' (s.logOwn r false)).onHart fun h => { h with pend := h.pend ++ [p] }
      s.bump.numbered.complete
  match op with
  | .load d _ => later (.g d) none (match loadResult 0 0 op size (ps.map Part.value) with
      | some r => r.2.1.setWidth 512
      | none => 0)
  | .vload d ff tf bc =>
    if fpPrecise s.hart.arith.fpstat then
      match loadResult s.self.cblo s.self.cbhi op size (ps.map Part.value) with
      | some (r, x, fl) =>
        if fpTraps s.hart.arith.fpstat fl then s.fault (fpCause 1 s.hart.arith.fpstat fl) 0 (fl.setWidth 64)
        else ((rec' (s.logOwn r false)).numbered.onHart (Hart.land ⟨[⟨r, x⟩], fl, 0, false, false⟩)).complete
      | none => s
    else later (.v d) (some (ff, tf, bc)) (if ps.length == 1 then (ps.head?.map Part.value).getD 0
      else BitVec.ofNat 512 (joinEls (if ff == 0 then 32 else codeWidth ff) (ps.map Part.value)))
  | .atomic _ r _ _ =>
    ((rec' (s.logOwn r false)).numbered.onHart (Hart.land (atomicResult r size ((ps.head?.map Part.value).getD 0)))).complete
  | .shape slot => s.takeShape slot va ((ps.head?.map Part.value).getD 0)
  | _ => (rec' s).numbered.complete

/-- Where a rewind of the instruction that issues brings the hart back to. -/
def Hart.resume (h : Hart) : Resume where
  pc := h.pc
  loops := h.loops
  pp := h.pp
  fields := h.fields
  instret := h.instret
  arrival := h.arrival
  fpstat := h.arith.fpstat
  moflags := h.arith.moflags

/-- The instruction issues an access that takes an entry, or sends the access of an entry afresh (R212, R249, R252). -/
def State.sendOut (s : State) (i : Instr) (q : Ask) (ps : List Part) : State :=
  let h := s.hart
  let kept := (s.live s.cur s.curHart).find? fun a => a.seq == h.nseq
  let id := match kept with
    | some b => b.id
    | none => s.fresh
  let a : Access := { id := id, core := s.cur, hart := s.curHart, seq := h.nseq, mark := h.resume, ctx := s.self.mem.ctxid, agid := h.agid,
                      mode := h.mode, op := q.op, vec := q.vec, plain := q.plain, acq := q.acq, orphan := false, mute := false, parts := ps,
                      frozen := 0, since := 0 }
  let s := match kept with
    | some b => { s with net := { s.net with accs := s.net.accs.map fun (x : Access) => if x.id == b.id then a else x } }
    | none => State.bump { s with net := { s.net with accs := s.net.accs ++ [a] } }
  match q.op with
  | .atomic _ r _ _ => (s.logOwn r true).numbered.waitIn i (.access id)
  | .shape _ => s.numbered.waitIn i (.access id)
  | .xlat _ => s.numbered.waitIn i (.access id)
  | .message (some _) => s.numbered.waitIn i (.access id)
  | .waita => s.numbered
  | .vload d .. =>
    let s := (s.logOwn (.v d) true).onHart fun x => { x with regs := x.regs.empty (.v d) }
    if fpPrecise h.arith.fpstat then s.numbered.waitIn i (.access id) else s.numbered.complete
  | op => match op.dst with
    | some r => ((s.logOwn r true).onHart fun x => { x with regs := x.regs.empty r }).numbered.complete
    | none => s.numbered.complete

/-- A replayed access differs from its record (R252, R254): the records are discarded and cause 0x1C5 with reason 3 is raised. -/
def State.diverged (s : State) : State :=
  if s.unconfirmed s.cur s.curHart then s.hold
  else
    let n := s.hart.nseq
    let s := { s with net := { s.net with accs := s.net.accs.filter fun a =>
      !(a.core == s.cur && a.hart == s.curHart && a.frozen == 0 && !a.orphan && decide (n ≤ a.seq)) } }
    (s.onHart fun h => { h with log := [] }).fault 0x1C5 0 3

/-- An access that was performed before a rewind takes its value from the record (R252). -/
def State.replayed (s : State) (q : Ask) (xs : List (BitVec 512)) : State :=
  let m := s.self
  let size := (q.els.head?.map (·.size)).getD 0
  match q.op with
  | .atomic _ r _ _ => ((s.logOwn r false).numbered.onHart (Hart.land (atomicResult r size (xs.head?.getD 0)))).complete
  | .shape slot => s.takeShape slot ((q.els.head?.map (·.va)).getD 0) (xs.head?.getD 0)
  | op => match loadResult m.cblo m.cbhi op size xs with
    | some (r, x, fl) => ((s.logOwn r false).numbered.onHart (Hart.land ⟨[⟨r, x⟩], fl, 0, false, false⟩)).complete
    | none => s.numbered.complete

/-- The parts of a record against what the instruction now asks for (R252). -/
def sameParts (ps : List Part) (els : List El) : Bool :=
  ps.length == els.length && (ps.zip els).all fun x => x.1.va == x.2.va && x.1.size == x.2.size

/-- The entry that the hart already holds for the access that it comes to. -/
def State.ownEntry (s : State) : Option Access := (s.live s.cur s.curHart).find? fun a => a.seq == s.hart.nseq

/-- The entry of the access that the hart comes to is given up: the instruction needs it no longer. -/
def State.dropOwn (s : State) : State :=
  let n := s.hart.nseq
  { s with net := { s.net with accs := s.net.accs.filter fun a =>
    !(a.core == s.cur && a.hart == s.curHart && a.frozen == 0 && !a.orphan && a.seq == n) } }

/-- The record of a local access that was performed before a rewind. -/
def State.ownRecord (s : State) : Option LogRec :=
  s.hart.log.find? fun r => match r with
    | .done seq .. => seq == s.hart.nseq
    | _ => false

/-- The entry stands on a ticket that is still open. -/
def Access.parked (a : Access) : Bool := a.parts.any fun p => match p.stage with
  | .parked .. => true
  | _ => false

/-- The entry's ticket was lost (R254). -/
def Access.lost (a : Access) : Bool := a.parts.any fun p => p.stage == .lost

/-- An access was performed at the number that the hart comes to. An instruction that takes the number and does not repeat that access differs from
its record (R252). -/
def State.doneBefore (s : State) : Bool := s.ownEntry.any Access.confirmed || s.ownRecord.isSome

/-- What the entry at the hart's number makes of the instruction before it sends anything: cause 0x1C5, reason 2, for a lost ticket (R254), another
park on a ticket that is open (R104), or nothing. -/
def State.ownStops (s : State) : Option State :=
  match s.ownEntry with
  | none => none
  | some a =>
    if a.lost then some (if s.unconfirmed s.cur s.curHart then s.hold else s.dropOwn.fault 0x1C5 0 2)
    else if a.parked then some (s.onHart fun h => { h with tkp := true }).hold
    else none

/-- An instruction that takes a number and is no memory access goes on as `t`, unless the replay has diverged (R252) or a ticket stops it. -/
def State.orReplayed (s t : State) : State := if s.doneBefore then s.diverged else s.ownStops.getD t

/-- The hart may take an entry, or holds one already. -/
def State.entryReady (s : State) : Bool := s.ownEntry.isSome || s.entryFree

/-- Element `n` of an access has its page translated before anything is sent (R345): its checks at the slice come first. -/
def State.translateFirst (s : State) (i : Instr) (q : Ask) (n : Nat) (e : El) : State :=
  if s.entryReady then
    s.sendOut i { q with op := .xlat (BitVec.ofNat 2 e.kind.code) } [{ n := n, va := e.va, size := e.size, data := 0, stage := .slice }]
  else s.hold

/-- What the checks at the requester and the watches leave of an access (R195 to R202, R211, R213, R245, R345): a state in which the
instruction goes no further, or none. A watch that matches traps once the checks of groups 0 to 2 have passed for every element, so that the pages
of a matching access are translated first. -/
def State.gate (s : State) (i : Instr) (q : Ask) : Option State :=
  match firstStop s q q.els 0 with
  | some (n, va, cause, poison) => some (s.faultOrFence poison cause va (faultInfo cause q.vec n 0))
  | none =>
    match watchTrap s.hart q with
    | none => none
    | some (w, a) => match firstUntranslated s q q.els 0 with
      | some (n, e) => some (s.translateFirst i q n e)
      | none => some (s.fault 0x1C4 (BitVec.ofNat 64 a) (BitVec.ofNat 64 w))

/-- Every element lies in the hart's own store. -/
def allOwn (ps : List Part) : Bool := ps.all fun p => match p.stage with
  | .sent (.own _) => true
  | _ => false

/-- The access is sent, or done at once in the hart's own store. -/
def State.launch (s : State) (i : Instr) (q : Ask) : State :=
  let s := s.onHart fun h => useSkips h q
  let ps := makeParts s q q.els 0
  let r := performOwn s q.op ps true
  if allOwn ps then r.1.dropOwn.ownDone i q.op r.2 else r.1.sendOut i q r.2

/-- An older access of the hart still owes a part in the hart's own store on the line of an element, as an STF owes its flag: the element is
not performed before it (R222, R223). -/
def State.ownOwed (s : State) (q : Ask) : Bool :=
  let n := s.hart.nseq
  (s.live s.cur s.curHart).any fun a => decide (a.seq < n) && a.parts.any fun p =>
    (match p.stage with
      | .done _ => false
      | .answered _ => false
      | _ => true) && spaceOf p.va == .loc && !a.op.isMessage &&
    q.els.any fun e => spaceOf e.va == .loc && decide (p.va.toNat / 64 ≤ (e.va.toNat + e.size - 1) / 64 ∧ e.va.toNat / 64 ≤ (p.va.toNat + p.size - 1) / 64)

/-- A converting load whose trap would be precise is sent when no older access is unconfirmed, so that its trap need not wait (log 44). -/
def State.mayConvert (s : State) (q : Ask) : Bool :=
  match q.op with
  | .vload .. => !fpPrecise s.hart.arith.fpstat || !s.unconfirmed s.cur s.curHart
  | _ => true

/-- An access that is not in the records is checked and, if nothing stops it, made (R195 to R202, R211 to R213, R249, R345). -/
def State.attempt (s : State) (i : Instr) (q : Ask) : State :=
  match s.gate i q with
  | some t => t
  | none =>
    if s.ownOwed q then s.hold
    else if (s.ownEntry.isNone && allOwn (makeParts s q q.els 0)) || (s.entryReady && s.mayConvert q) then s.launch i q
    else s.hold

/-- An instruction that has passed its checks reaches memory (R249, R252, R254): an access that was performed before a rewind takes its value from
the record, before any other check, or differs from it; any other is attempted. -/
def State.access (s : State) (i : Instr) (q : Ask) : State :=
  let size := (q.els.head?.map (·.size)).getD 0
  match s.ownEntry, s.ownRecord with
  | some a, _ =>
    if a.confirmed then
      (if a.op.logKind == q.op.logKind && sameParts a.parts q.els then s.replayed q (a.parts.map Part.value) else s.diverged)
    else s.ownStops.getD (s.attempt i q)
  | none, some (.done _ kind els x) =>
    if kind == q.op.logKind && els == q.els.map (fun e => (e.va, e.size)) then
      s.replayed q ((List.range q.els.length).map fun j => BitVec.ofNat 512 (laneBits x.toNat (8 * size) j))
    else s.diverged
  | none, _ => s.attempt i q

/-! Where bytes lie. -/

/-- A window entry (R199). -/
def windowEntry (s : State) (c : CoreId) (w : BitVec 4) : BitVec 128 :=
  BitVec.ofNat 128 (readNat s.mem (localKey c (((s.core c).mem.winbase.extractLsb' 8 11).toNat * 256 + 16 * w.toNat)) 16)

/-- A bit of a window entry's fields that must be zero is set (R199). -/
def windowBad (e : BitVec 128) : Bool :=
  e.extractLsb' 116 12 != 0 || e.extractLsb' 84 12 != 0 || e.extractLsb' 19 45 != 0 || e.extractLsb' 0 6 != 0

/-- Steps 4 and 5 of R200 at core `c`: the window lets a party of context `ctx` reach these bytes; a local address, or a problem. -/
def windowRegion (s : State) (ctx : BitVec 16) (k : AccKind) (c : CoreId) (w : BitVec 4) (off : BitVec 36) (size : Nat) : Except Problem Nat :=
  let open' := (s.core c).mem.winbase.getLsbD 0
  let e := windowEntry s c w
  if !open' && ctx == 0 then (if Config.localSize < off.toNat + size then .error .bounds else .ok off.toNat)
  else if !open' || !e.getLsbD 115 || windowBad e || (ctx != 0 && e.extractLsb' 96 16 != ctx) then .error .protection
  else if !(match k with
      | .load => e.getLsbD 112
      | .fetch => false
      | .store => e.getLsbD 113
      | .atomic => e.getLsbD 114) then .error .protection
  else
    let base := (e.extractLsb' 6 13).toNat * 64
    if (e.extractLsb' 64 20).toNat < off.toNat + size || Config.spillBase < base + off.toNat + size then .error .bounds
    else .ok (base + off.toNat)

/-- The memory registers by which context `x` is translated (R257): those of core `c` if it holds the context, else of a core that does, else of the
saved image of one. -/
def State.memOf (s : State) (c : CoreId) (x : BitVec 16) : CoreMem :=
  if (s.core c).mem.ctxid == x then (s.core c).mem
  else match s.cores.find? fun p => p.2.mem.ctxid == x with
    | some p => p.2.mem
    | none => match s.images.find? fun (i : Image) => i.ctx == x with
      | some i => i.core.mem
      | none => (s.core c).mem

/-- The physical address to which a global address of context `x` leads for core `c`, by its slice's TLB or a walk; none where no page answers. -/
def State.located (s : State) (c : CoreId) (x : BitVec 16) (va : W) : Option Nat :=
  match s.sliceHit (sliceOf c va) x va with
  | some e => some (e.phys va).toNat
  | none => match walk s.mem va 4 (s.memOf c x).root with
    | .leaf size pte _ => some ((leafEntry x va size pte).phys va).toNat
    | _ => none

/-- The memory key of `n` bytes at an address, as core `c` in context `x` reaches them; none outside this package. -/
def State.keyOf (s : State) (c : CoreId) (x : BitVec 16) (va : W) (n : Nat) : Option Nat :=
  match spaceOf va with
  | .loc => some (localKey c va.toNat)
  | .peer =>
    if va.extractLsb' 52 4 != 0 then none
    else match windowRegion s x .load (va.extractLsb' 40 12) (va.extractLsb' 36 4) (va.extractLsb' 0 36) n with
      | .ok a => some (localKey (va.extractLsb' 40 12) a)
      | .error _ => none
  | .global => s.located c x va
  | _ => none

end Sys2Proof.Machine
end

