-- ==== Sys2Proof/Machine/Fabric.lean ====
section
/-!
DEFINITION. The fabric (R314 to R324): where routers stand and how they give out their outputs, what a packet carries and its header, which
packets a source has sent and not had answered, and what a destination keeps to reject duplicates. Where the routers hold the flits of a
packet at any moment shows only in time, so a packet on its way is one thing here (log 127).
-/

namespace Sys2Proof.Machine

/-! Routers (R11, R314, R316). -/

/-- Column of a core's router in the torus (R11). -/
def routerX (c : CoreId) : Nat := 32 * (c.extractLsb' 10 1).toNat + (c.extractLsb' 0 5).toNat

/-- Row of a core's router in the torus (R11). -/
def routerY (c : CoreId) : Nat := 32 * (c.extractLsb' 11 1).toNat + (c.extractLsb' 5 5).toNat

/-- The core whose router stands at a place of the torus. -/
def routerAt (x y : Nat) : CoreId :=
  BitVec.ofNat 1 (y / 32) ++ BitVec.ofNat 1 (x / 32) ++ BitVec.ofNat 5 y ++ BitVec.ofNat 5 x

/-- Steps between two places of a ring of 64. -/
def ringSteps (a b : Nat) : Nat := min (max a b - min a b) (64 - (max a b - min a b))

/-- The minimal hop count between two routers (R314). -/
def hops (c d : CoreId) : Nat := ringSteps (routerX c) (routerX d) + ringSteps (routerY c) (routerY d)

/-- The four links of a router. -/
inductive TorusLink where
  | east
  | west
  | south
  | north
deriving DecidableEq, Repr

/-- The router at the other end of a link. -/
def TorusLink.to (l : TorusLink) (c : CoreId) : CoreId :=
  match l with
  | .east => routerAt ((routerX c + 1) % 64) (routerY c)
  | .west => routerAt ((routerX c + 63) % 64) (routerY c)
  | .south => routerAt (routerX c) ((routerY c + 1) % 64)
  | .north => routerAt (routerX c) ((routerY c + 63) % 64)

/-- A flit at a router, by its sideband (R318). -/
structure Flit where
  dst : CoreId
  cls : BitVec 2
  age : Byte
  src : CoreId
  seq : BitVec 6
  index : BitVec 4
deriving DecidableEq, Repr

/-- Flit `a` comes before flit `b` when a router gives out its outputs (R316): by class, then the greater AGE, the lower source, the lower SEQ. -/
def Flit.first (a b : Flit) : Bool :=
  lexLt [a.cls.toNat, 255 - a.age.toNat, a.src.toNat, a.seq.toNat] [b.cls.toNat, 255 - b.age.toNat, b.src.toNat, b.seq.toNat]

/-- Inserts a flit by the order of R316. -/
def insertFlit (x : Flit) : List Flit → List Flit
  | [] => [x]
  | y :: t => if x.first y then x :: y :: t else y :: insertFlit x t

/-- The link shortens the way from router `c` to `d` (R314). -/
def TorusLink.productive (c d : CoreId) (l : TorusLink) : Bool := decide (hops (l.to c) d < hops c d)

/-- What becomes of a flit in a cycle of its router (R316): it is ejected, or leaves by a link with its AGE stepped. -/
inductive FlitGoes where
  | ejected (f : Flit)
  | leaves (f : Flit) (l : TorusLink)
deriving DecidableEq, Repr

/-- The flits, in the order of R316, take the free links of router `c`: each a free link that shortens its path, else any free link. -/
def giveLinks (c : CoreId) : List Flit → List TorusLink → List FlitGoes
  | [], _ => []
  | f :: t, free =>
    match ((free.filter (TorusLink.productive c f.dst)) ++ free).head? with
    | some l => .leaves { f with age := satInc f.age } l :: giveLinks c t (free.filter fun k => k != l)
    | none => giveLinks c t []

/-- One core cycle of router `c` (R316) over the flits that arrive: `room f` tells that the interface has a reassembly buffer for the packet of
`f`, and `free` are its links that are in service. -/
def routerCycle (c : CoreId) (room : Flit → Bool) (fs : List Flit) (free : List TorusLink) : List FlitGoes :=
  let order := fs.foldl (fun l f => insertFlit f l) []
  ((order.filter fun f => f.dst == c && room f).map .ejected) ++ giveLinks c (order.filter fun f => !(f.dst == c && room f)) free

/-! Packets. -/

/-- Why a packet is turned away (R319). -/
inductive Nack where
  | refused
  | full
  | malformed
  | replay
  | fenced
  | deadPeer
deriving DecidableEq, Repr

/-- The reason that a negative acknowledgement carries in ARGS[7:0] (R319). -/
def Nack.code : Nack → Byte
  | .refused => 1
  | .full => 2
  | .malformed => 3
  | .replay => 4
  | .fenced => 5
  | .deadPeer => 6

/-- What a packet of class 1 says (R319). -/
inductive Reply where
  | data (x : BitVec 512) (size : Nat)
  | ack
  | nack (r : Nack)
  /-- a ticket, or a replay notice -/
  | ticket (slice : BitVec 6) (num : BitVec 16)
deriving DecidableEq, Repr

/-- What a packet of class 0, 2 or 3 carries: the whole of what is sent, or packet `no` of several. -/
inductive Packet where
  | part (a : Access) (p : Part) (t : Target)
  | post (m : PostMsg)
  | chan (m : ChanMsg)
  | hart (m : HartCmd)
  | command (c : Cmd)
  | piece (c : Cmd) (p : Piece)
  | sums (m : PartialMsg) (no : Nat)
  | wave (w : Wave) (no : Nat)
  | record (e : EvMsg)
deriving DecidableEq, Repr

/-! Units and the cores beside them (R11, R203, R204, R288). Bits that R11 leaves open are those of `Config.besideUnit` (free value, log 126). -/

/-- The core beside which an array stands, as the source of its packets: the lowest of its control cores (R11). -/
def arrayCore (a : BitVec 7) : CoreId := a.extractLsb' 5 2 ++ a.extractLsb' 2 3 ++ 0#2 ++ a.extractLsb' 0 2 ++ 0#3

/-- The commons bank of a physical address (R203). -/
def bankOf (pa : Nat) : BitVec 10 := BitVec.ofNat 10 ((pa - Config.commonsBase) / 2 ^ 22)

/-- The core beside the unit that serves a physical address (R11, R203, R204): of a commons bank's four, of a stack's die, of an array's control
cores, or of the package for the host and the device range. -/
def besideCore (act : BitVec 12) (pa : Nat) : CoreId :=
  if pa < Config.hbmLimit then
    let st := (hbmPlace act pa).1
    BitVec.ofNat 2 (st / 3) ++ (Config.besideUnit (0x400 + st)).extractLsb' 0 10
  else if pa < Config.weightBase then
    let b := bankOf pa
    let f := Config.besideUnit b.toNat
    b.extractLsb' 8 2 ++ b.extractLsb' 4 4 ++ f.extractLsb' 1 1 ++ b.extractLsb' 0 4 ++ f.extractLsb' 0 1
  else if pa < Config.hostBase then
    let a : BitVec 7 := BitVec.ofNat 7 ((pa - Config.weightBase) / 2 ^ 25)
    let f := Config.besideUnit (0x800 + a.toNat)
    arrayCore a ||| (f &&& 0x067#12)
  else Config.besideUnit 0x1000

/-- A streamer (R288): `q` mod 16 of a stack, that of eight commons banks, or the interface of a core. -/
inductive Streamer where
  | stack (st : Nat) (q : Nat)
  | banks (g : BitVec 7)
  | core (c : CoreId)
deriving DecidableEq, Repr

/-- The streamer beside a physical address. Which one serves the weight store or the host, R288 does not say: the interface of the core beside the unit
(log 126). -/
def streamerOf (act : BitVec 12) (pa : Nat) : Streamer :=
  if pa < Config.hbmLimit then .stack (hbmPlace act pa).1 ((hbmPlace act pa).2.1 / 256 % 16)
  else if Config.commonsBase ≤ pa && pa < Config.weightBase then .banks ((bankOf pa).extractLsb' 3 7)
  else .core (besideCore act pa)

/-- The core beside a streamer: of its stack's die, or of the cores below its eight banks (R11). -/
def Streamer.beside : Streamer → CoreId
  | .stack st q => BitVec.ofNat 2 (st / 3) ++ (Config.besideUnit (0x2000 + 16 * st + q)).extractLsb' 0 10
  | .banks g =>
    let f := Config.besideUnit (0x3000 + g.toNat)
    g.extractLsb' 5 2 ++ g.extractLsb' 1 4 ++ f.extractLsb' 4 1 ++ g.extractLsb' 0 1 ++ f.extractLsb' 0 4
  | .core c => c

/-- The core and the package of a peer address. -/
def peerCore (va : W) : BitVec 4 × CoreId := (va.extractLsb' 52 4, va.extractLsb' 40 12)

/-- Package, 0 for this one, and core of the interface behind which an address of context `x` lies for core `c`: a unit's that core which `unit` names.
Where no page answers, no core is given (log 126). -/
def State.unitAt (s : State) (unit : Nat → CoreId) (c : CoreId) (x : BitVec 16) (va : W) : BitVec 4 × CoreId :=
  match spaceOf va with
  | .loc => (0, c)
  | .peer => peerCore va
  | _ => (0, match s.located c x va with
    | some pa => unit pa
    | none => Config.besideUnit 0x1001)

/-- Where the bytes at an address are written. -/
def State.bytesUnit (s : State) (c : CoreId) (x : BitVec 16) (va : W) : BitVec 4 × CoreId := s.unitAt (besideCore s.cap.active) c x va

/-- The interface of the streamer that reads the bytes at an address (R288). -/
def State.streamerUnit (s : State) (c : CoreId) (x : BitVec 16) (va : W) : BitVec 4 × CoreId :=
  s.unitAt (fun pa => (streamerOf s.cap.active pa).beside) c x va

/-- The address whose streamer serves a command, or sends a piece of it: the first source byte, of a fill the first byte to be written (R288). -/
def CmdKind.servedAt : CmdKind → W → W → W
  | .fill _, _, dst => dst
  | _, src, _ => src

/-- The core whose interface sends the packet. A streamer of another package is not known here: its pieces go by the issuing core (log 126). -/
def State.packetSource (s : State) : Packet → CoreId
  | .part a _ _ => a.core
  | .post m => m.core
  | .chan m => m.core
  | .hart m => m.core
  | .command c => c.core
  | .piece c p =>
    let u := s.streamerUnit c.core c.ctx (c.kind.servedAt p.src p.dst)
    if u.1 == 0 then u.2 else c.core
  | .sums m _ => arrayCore m.array
  | .wave w _ => w.core
  | .record e => if e.src < 0x1000 then BitVec.ofNat 12 e.src else if e.src < 0x2000 then arrayCore (BitVec.ofNat 7 e.src) else 31

/-- The package, 0 for this one, and the core of the interface that the packet is bound for. -/
def State.packetDst (s : State) : Packet → BitVec 4 × CoreId
  | .part _ _ (.peer k c _ _) => (k, c)
  | .part _ _ (.phys pa _) => (0, besideCore s.cap.active pa.toNat)
  | .part a _ (.own _) => (0, a.core)
  | .post m => (m.pkg, m.dst)
  | .chan m => (0, m.dst)
  | .hart m => (0, m.dst)
  | .command c => s.streamerUnit c.core c.ctx (c.kind.servedAt c.src c.dst)
  | .piece c p => s.bytesUnit c.core c.ctx p.dst
  | .sums m _ => (0, m.core)
  | .wave w _ => s.bytesUnit w.core w.ctx w.dst
  | .record e => (0, e.core)

/-- The context of the party that sends it (R318): of a record the core that produces it, of one that an array writes the core that it serves there; 0 for
barriers, the front end and the host (log 126). -/
def State.packetCtx (s : State) : Packet → BitVec 16
  | .part a _ _ => a.ctx
  | .post m => m.ctx
  | .chan m => m.ctx
  | .hart m => (s.core m.core).mem.ctxid
  | .command c => c.ctx
  | .piece c _ => c.ctx
  | .sums m _ => ((s.array m.array).runs.find? fun r => r.seq == m.seq).elim 0 fun r => r.cmd.ctx
  | .wave w _ => w.ctx
  | .record e => if e.src < 0x1000 then (s.core (BitVec.ofNat 12 e.src)).mem.ctxid else if e.src < 0x2000 then (s.core e.core).mem.ctxid else 0

/-- SHART of its header: 0 for an engine (R318). -/
def Packet.hartNo : Packet → HartId
  | .part a _ _ => a.hart
  | .post m => m.hart
  | .chan m => m.hart
  | .hart m => m.hart
  | .command c => c.hart
  | _ => 0

/-- OPCODE of its header (R319). -/
def Packet.opcode : Packet → Byte
  | .part a p _ => match a.op.partKind p.n with
    | .load => 0x01
    | .fetch => 0x01
    | .store => 0x02
    | .atomic => 0x03
  | .post _ => 0x08
  | .chan _ => 0x09
  | .hart _ => 0x0A
  | .command _ => 0x0B
  | .piece _ _ => 0x0C
  | .sums _ _ => 0x0D
  | .wave _ _ => 0x0E
  | .record _ => 0x0F

/-- OPCODE of the header of an answer (R319). -/
def Reply.opcode : Reply → Byte
  | .data _ _ => 0x04
  | .ack => 0x05
  | .nack _ => 0x06
  | .ticket _ _ => 0x07

/-- The class of an opcode (R319); none for one that is not defined. R288 lets an engine command travel in class 3: DEDUCED (log 166), the table is
followed. -/
def opcodeClass (op : Byte) : Option (BitVec 2) :=
  match op.toNat with
  | 0x01 => some 2
  | 0x02 => some 2
  | 0x03 => some 2
  | 0x04 => some 1
  | 0x05 => some 1
  | 0x06 => some 1
  | 0x07 => some 1
  | 0x08 => some 0
  | 0x09 => some 2
  | 0x0A => some 2
  | 0x0B => some 2
  | 0x0C => some 3
  | 0x0D => some 3
  | 0x0E => some 3
  | 0x0F => some 3
  | _ => none

/-- A packet of this opcode may have this many body flits (R319). -/
def opcodeBody (op : Byte) (n : Nat) : Bool :=
  match op.toNat with
  | 0x02 => n == 0 || n == 2
  | 0x03 => n == 0 || n == 2
  | 0x04 => n == 0 || n == 2
  | 0x08 => n == 2
  | 0x09 => n == 1 || n == 2
  | 0x0B => decide (n ≤ 3)
  | 0x0C => decide (n ≤ 15)
  | 0x0D => decide (n ≤ 15)
  | 0x0E => decide (n ≤ 15)
  | _ => n == 0

/-- Body bytes that one packet holds (R319). -/
def bodyMax : Nat := 480

/-- Body number `no` of bytes that take several packets. -/
def sliceOfBody (no : Nat) (l : List Byte) : List Byte := (l.drop (bodyMax * no)).take bodyMax

/-- Packets that so many bytes take. -/
def packetsFor (n : Nat) : Nat := max 1 ((n + bodyMax - 1) / bodyMax)

/-- The bytes that a wave brings (R331, R332): of a list its pairs, of index and value; BF16 elements take two bytes. -/
def Wave.payload (w : Wave) : List Byte :=
  if !w.reduce then w.raw.map fun x => x.1
  else if w.list then w.pairs.flatMap fun p => natLe 4 p.1 ++ natLe 4 p.2.1.toNat
  else w.elems.flatMap fun x => natLe (if w.typ == 1 then 2 else 4) x.1.toNat

/-- Packets of a wave. -/
def Wave.packets (w : Wave) : Nat := packetsFor w.payload.length

/-- Packets of one owner's part of a row: more than 480 bytes take several. -/
def PartialMsg.packets (m : PartialMsg) : Nat := packetsFor (4 * (m.means.length + m.vars.length))

/-- Operands of a command that its packet carries beside ARGS (R319). Their layout is not stated; a shape travels with the commands that use one
(log 126). -/
def Cmd.operands (c : Cmd) : List Byte :=
  let shape (x : Shape) : List Byte :=
    natLe 8 (x.n0.toNat + 2 ^ 32 * x.n1.toNat) ++ natLe 8 (x.n2.toNat + 2 ^ 32 * (x.esz ++ x.aln ++ x.dims).toNat) ++ natLe 8 x.ss1.toNat ++
      natLe 8 x.ss2.toNat ++ natLe 8 x.ds1.toNat ++ natLe 24 x.ds2.toNat
  natLe 8 c.dst.toNat ++ natLe 8 c.src.toNat ++ match c.kind with
    | .copy => natLe 16 c.len
    | .fill p => natLe 8 p.toNat ++ natLe 8 c.len
    | .copys x => natLe 16 0 ++ shape x
    | .gath x l n => natLe 8 l.toNat ++ natLe 8 n ++ shape x
    | .scat x l n => natLe 8 l.toNat ++ natLe 8 n ++ shape x

/-- The bytes of a fill at an address (R298). -/
def fillBytes (pattern va : W) (n : Nat) : List (Byte × Bool) :=
  (List.range n).map fun i => (pattern.extractLsb' (8 * ((va.toNat + i) % 8)) 8, false)

/-- The bytes that a piece pushes, as they stand at its source; zeros where nothing can be read there. -/
def State.pieceBody (s : State) (c : Cmd) (p : Piece) : List Byte :=
  match c.kind with
  | .fill x => (fillBytes x p.dst p.len).map fun b => b.1
  | _ => match s.keyOf c.core c.ctx p.src p.len with
    | some key => readBytes s.mem key p.len
    | none => List.replicate p.len 0

/-- Bytes of the body that a packet carries (R318, R319): data of more than 8 bytes travel in body flits. -/
def State.packetBody (s : State) : Packet → List Byte
  | .part a p _ => if 8 < p.size && (a.op.partKind p.n).code != 1 then natLe 64 p.data.toNat else []
  | .post m => natLe 64 m.payload.toNat
  | .chan m => natLe (if m.wide then 64 else 32) m.data.toNat
  | .hart _ => []
  | .command c => c.operands
  | .piece c p => s.pieceBody c p
  | .sums m no => sliceOfBody no ((m.means ++ m.vars).flatMap fun (x : BitVec 32) => natLe 4 x.toNat)
  | .wave w no => sliceOfBody no w.payload
  | .record _ => []

/-- Body of an answer (R319): data of more than 8 bytes. -/
def Reply.body : Reply → List Byte
  | .data x size => if 8 < size then natLe 64 x.toNat else []
  | _ => []

/-- Body flits of so many bytes. -/
def flitsOf (l : List Byte) : Nat := (l.length + 31) / 32

/-- Body flits of a packet. -/
def State.bodyFlits (s : State) (x : Packet) : Nat := flitsOf (s.packetBody x)

/-- The header of a packet (R318). -/
structure Header where
  crc : BitVec 32
  age : Byte
  seq : BitVec 16
  ctx : BitVec 16
  flits : BitVec 4
  opcode : Byte
  cls : BitVec 2
  spkg : BitVec 4
  dpkg : BitVec 4
  score : CoreId
  shart : HartId
  dcore : CoreId
  args : BitVec 128
deriving DecidableEq, Repr

/-- The 256 bits of a header (R318). -/
def Header.word (h : Header) : BitVec 256 :=
  h.crc ++ h.age ++ h.seq ++ h.ctx ++ h.flits ++ h.opcode ++ h.cls ++ h.spkg ++ h.dpkg ++ h.score ++ h.shart ++ h.dcore ++ 0#8 ++ h.args

/-- A whole packet with this header is malformed at a package whose number is `rpid` (R324). Which bits of ARGS are reserved is not stated. -/
def headerBad (w : BitVec 256) (rpid : BitVec 4) : Bool :=
  let op : Byte := w.extractLsb' 172 8
  opcodeClass op != some (w.extractLsb' 170 2) || !opcodeBody op (w.extractLsb' 180 4).toNat || w.extractLsb' 128 8 != 0 || w.extractLsb' 162 4 != rpid

/-- One bit of the CRC-32 of R321. -/
def crcBit (c : BitVec 32) : BitVec 32 := if c.getLsbD 0 then (c >>> 1) ^^^ 0xEDB88320#32 else c >>> 1

/-- One byte of the CRC-32. -/
def crcByte (c : BitVec 32) (b : Byte) : BitVec 32 := (List.range 8).foldl (fun c _ => crcBit c) (c ^^^ b.setWidth 32)

/-- The CRC-32 of R321: reflected, initial and final value all ones. -/
def crc32 (l : List Byte) : BitVec 32 := ~~~(l.foldl crcByte 0xFFFFFFFF#32)

/-- The CRC of a packet (R321): over its flits in order, the header with CRC and AGE zero and the body padded to whole flits. -/
def packetCrc (h : Header) (body : List Byte) : BitVec 32 :=
  crc32 (natLe 32 { h with crc := 0, age := 0 }.word.toNat ++ body ++ List.replicate ((32 - body.length % 32) % 32) 0)

/-- A header with its CRC over itself and a body. -/
def Header.sealed (h : Header) (body : List Byte) : Header := { h with crc := packetCrc h body }

/-- The header with which a packet is sent (R318, R326). How ARGS lays out what its opcode carries is not stated: free bits (log 126). -/
def State.header (s : State) (f : Flight) (x : Packet) : Header :=
  let body := s.packetBody x
  Header.sealed { crc := 0, age := 0, seq := f.seq, ctx := s.packetCtx x, flits := BitVec.ofNat 4 (flitsOf body), opcode := x.opcode,
                  cls := (opcodeClass x.opcode).getD 0, spkg := s.pkg.rpid, dpkg := f.dpkg, score := f.src, shart := x.hartNo, dcore := f.dst,
                  args := Config.packetArgs f.n f.k } body

/-- ARGS of an answer: a negative acknowledgement has its reason in [7:0] (R319); the rest is not laid out (log 126). -/
def Reply.args (r : Reply) (free : BitVec 128) : BitVec 128 :=
  match r with
  | .nack x => free.extractLsb' 8 120 ++ x.code
  | _ => free

/-- The header of answer `j` to the packet of a flight, a packet of class 1 from its destination to its source (R318, R319). -/
def State.replyHeader (s : State) (f : Flight) (x : Packet) (r : Reply) (j : Nat) : Header :=
  Header.sealed { crc := 0, age := 0, seq := Config.answerSeq f.n f.k j, ctx := s.packetCtx x, flits := BitVec.ofNat 4 (flitsOf r.body),
                  opcode := r.opcode, cls := 1, spkg := f.dpkg, dpkg := s.pkg.rpid, score := f.dst, shart := x.hartNo, dcore := f.src,
                  args := r.args (Config.packetArgs f.n f.k) } r.body

/-- The answer to the access carries data (R249); a store, an STF or a message is acknowledged. -/
def AccOp.returnsData : AccOp → Bool
  | .store => false
  | .vstore => false
  | .stf => false
  | .tstore .. => false
  | .message _ => false
  | _ => true

/-- Why a part of an access was refused (R319): its peer is dead (R327), its target is fenced (R350), its packet was malformed (R324), or its target
refused it. -/
def State.nackOf (s : State) (t : Target) (cause : BitVec 9) : Nack :=
  if cause == 0x1AF then .malformed
  else match t with
    | .peer k c _ _ => if k != 0 && !s.routed k then .deadPeer else if k == 0 && (s.core c).sys.fenced then .fenced else .refused
    | _ => .refused

/-- What goes back for a packet of which the destination has disposed as its stage tells (R319); a full ring or inbox answers so too. -/
def State.replyTo (s : State) : Packet → Option Reply
  | .part a p t => match p.stage with
    | .answered x => some (if a.op.returnsData then .data x p.size else .ack)
    | .refused cause _ => some (.nack (s.nackOf t cause))
    | .ticket slice num => some (.ticket slice num)
    | _ => none
  | .post m => if m.full then some (.nack .full) else none
  | .chan m => if m.held then some (.nack .full) else none
  | _ => none

/-! Packets on their way. -/


/-- The parts of an access that are on the way to their targets over the fabric. -/
def Access.onFabric (a : Access) : List (Nat × Nat × Packet) :=
  if a.op.isMessage then []
  else a.parts.filterMap fun p => match p.stage with
    | .sent (.own _) => none
    | .sent t => some (a.id, p.n, .part a p t)
    | _ => none

/-- The packets of a streamer command on their way: its own until it is cut, then those of its pieces, by number. -/
def Cmd.onFabric (c : Cmd) : List (Nat × Nat × Packet) :=
  if !c.cut then [(c.id, 0, .command c)]
  else (c.pieces.filter fun p => p.bad.isNone && !p.here).map fun p => (c.id, p.no + 1, .piece c p)

/-- The packets of a wave that have not come to its destination. -/
def Wave.onFabric (w : Wave) : List (Nat × Nat × Packet) :=
  if w.dead then [] else (List.range (w.packets - w.got)).map fun i => (w.id, w.got + i, .wave w (w.got + i))

/-- The packets of one owner's part of a row. -/
def PartialMsg.onFabric (m : PartialMsg) : List (Nat × Nat × Packet) := (List.range m.packets).map fun i => (m.id, i, .sums m i)

/-- Every packet that its destination has not met yet: its number, that of the part of an access or of the packet among several, and what it carries. -/
def State.onWire (s : State) : List (Nat × Nat × Packet) :=
  ((s.net.accs.flatMap Access.onFabric) ++ (s.net.posts.map fun (m : PostMsg) => (m.id, 0, Packet.post m)) ++
    ((s.net.chans.filter fun (m : ChanMsg) => !m.held).map fun (m : ChanMsg) => (m.id, 0, Packet.chan m)) ++
    (s.net.hcmds.map fun (m : HartCmd) => (m.id, 0, Packet.hart m)) ++ (s.net.cmds.flatMap Cmd.onFabric) ++
    (s.net.partials.flatMap PartialMsg.onFabric) ++ (s.net.waves.flatMap Wave.onFabric) ++
    (s.net.events.map fun (e : EvMsg) => (e.id, 0, Packet.record e))).filter fun x => !s.spilled x.1

/-- The packet on its way of a number and part. -/
def State.packetAt (s : State) (n k : Nat) : Option Packet := (s.onWire.find? fun x => x.1 == n && x.2.1 == k).map fun x => x.2.2

/-- The flight of a packet. -/
def State.flight (s : State) (n k : Nat) : Option Flight := s.net.flights.find? fun f => f.n == n && f.k == k

/-- Replaces a flight. -/
def State.putFlight (s : State) (f : Flight) : State :=
  { s with net := { s.net with flights := s.net.flights.map fun g => if g.n == f.n && g.k == f.k then f else g } }

/-- Unanswered packets from a source towards a destination interface (R323). -/
def State.laneLoad (s : State) (src : CoreId) (pkg : BitVec 4) (dst : CoreId) : Nat :=
  (s.net.flights.filter fun f => f.src == src && f.pkg == pkg && f.dst == dst).length

/-- What source and destination keep of the packets between them; nothing has been sent at reset. -/
def State.lane (s : State) (src : CoreId) (pkg : BitVec 4) (dst : CoreId) : Lane :=
  (s.net.lanes.find? fun l => l.src == src && l.pkg == pkg && l.dst == dst).getD
    { src := src, pkg := pkg, dst := dst, next := 0, high := BitVec.allOnes 16, seen := 0 }

/-- Puts the state of a lane. -/
def State.putLane (s : State) (l : Lane) : State :=
  { s with net := { s.net with lanes := l :: s.net.lanes.filter fun x => !(x.src == l.src && x.pkg == l.pkg && x.dst == l.dst) } }

/-- A destination accepts a SEQ (R323): the highest moves up to it, with the record of the 64 values below. -/
def Lane.accept (l : Lane) (q : BitVec 16) : Lane :=
  let up := (q - l.high).toNat
  if 0 < up && up < 0x8000 then { l with high := q, seen := (l.seen <<< up) ||| 1 }
  else { l with seen := l.seen ||| (1#64 <<< (l.high - q).toNat) }

/-- A SEQ is a duplicate at the destination (R323): accepted within the window, or below it. -/
def Lane.duplicate (l : Lane) (q : BitVec 16) : Bool :=
  let down := (l.high - q).toNat
  down < 0x8000 && (64 ≤ down || l.seen.getLsbD down)

/-- Adds one to a 16-bit field of a register, up to its largest value. -/
def bumpField (x : W) (at' : Nat) : W :=
  let f : BitVec 16 := x.extractLsb' at' 16
  (x &&& ~~~(0xFFFF#64 <<< at')) ||| ((satInc f).setWidth 64 <<< at')

/-- A counter of FABSTAT of core `c` steps (R325): the field at this bit. -/
def State.fabCount (s : State) (c : CoreId) (at' : Nat) : State := s.onCore c fun k => { k with sys := { k.sys with fabstat := bumpField k.sys.fabstat at' } }

/-- A counter of FABSTAT at the destination, where that lies in this package. -/
def State.countAt (s : State) (f : Flight) (at' : Nat) : State := if f.pkg == 0 then s.fabCount f.dst at' else s

/-! Reassembly (R320). -/

/-- A flit comes to a reassembly buffer, in any order: it is placed by its index. -/
def Reassembly.take (b : Reassembly) (i : BitVec 4) : Reassembly := { b with got := b.got ||| (1#16 <<< i.toNat) }

/-- Flits come to a reassembly buffer one after another. -/
def Reassembly.takeAll (b : Reassembly) (l : List Nat) : Reassembly := l.foldl (fun b i => b.take (BitVec.ofNat 4 i)) b

/-- Every flit of a packet with so many body flits has come. -/
def Reassembly.whole (b : Reassembly) (flits : Nat) : Bool := b.got.toNat == 2 ^ (flits + 1) - 1

/-- The destination has no reassembly buffer for a packet (R320): 32 are in use, none by the packet itself, whose flits are put together whichever
sending they belong to (log 127). -/
def State.noBuffer (s : State) (f : Flight) : Bool :=
  f.pkg == 0 && 32 ≤ (s.net.reasm.filter fun b => b.dst == f.dst).length && !s.net.reasm.any fun b => b.dst == f.dst && b.n == f.n && b.k == f.k

/-! What an interface makes of packets and answers (R321, R323). -/

/-- How far a flight's packet has come, as its source and destination know it. -/
inductive Progress where
  /-- its destination has not met it -/
  | waits
  /-- its destination has disposed of it, and the answer is awaited -/
  | met
  /-- nothing more is awaited -/
  | over
deriving DecidableEq, Repr

/-- How far a flight's packet has come. -/
def State.progress (s : State) (f : Flight) : Progress :=
  match s.net.accs.find? fun a => a.id == f.n with
  | some a => match a.parts.find? fun p => p.n == f.k with
    | some p => match p.stage with
      | .sent (.own _) => .over
      | .sent _ => .waits
      | .answered _ => .met
      | .refused .. => .met
      | .ticket .. => .met
      | _ => .over
    | none => .over
  | none => if (s.packetAt f.n f.k).isSome || s.spilled f.n then .waits else .met

/-- The answer of a flight is taken by a step of its own, that of an access. -/
def State.answersAccess (s : State) (f : Flight) : Bool := s.net.accs.any fun a => a.id == f.n

/-- Copies that come after the packet has been answered are duplicates, or are dropped for their wrong bits (R321, R323). -/
def State.countCopies (s : State) (f : Flight) : State := f.copies.foldl (fun s c => s.countAt f (if c.2 then 16 else 32)) s

/-- The destination has met a packet: its SEQ is accepted, and a partial copy of it is let go (R320, R323). -/
def State.metPacket (s : State) (f : Flight) : State :=
  let s := s.putLane ((s.lane f.src f.pkg f.dst).accept f.seq)
  { s with net := { s.net with reasm := s.net.reasm.filter fun b => !(b.n == f.n && b.k == f.k) } }

/-- What a flight leaves after a turn (R321, R323), and what interfaces have counted: once its packet is met, an answer is on the way back, and further
copies are duplicates; an answer that no step of its own takes is taken here, unless its bits are wrong. -/
def State.closeFlight (s : State) (f : Flight) : State × Option Flight :=
  match s.progress f with
  | .waits => (s, some f)
  | .over => (((if f.done then s else s.metPacket f).countCopies { f with copies := f.copies.drop (if f.done then 0 else 1) }), none)
  | .met =>
    if !f.done then
      (s.metPacket f, some { f with done := true, copies := f.copies.drop 1, answers := [Config.answerDamaged f.n f.k f.resends] })
    else if s.answersAccess f then (s, some f)
    else match f.answers with
      | [] => (s, some f)
      | true :: t => (s.fabCount f.src 16, some { f with answers := t })
      | false :: _ => (s.countCopies f, none)

/-- Brings the flights up to date with what has been met and answered. -/
def State.closeFlights (s : State) : State :=
  let r := s.net.flights.foldl (fun (x : State × List Flight) f =>
    let y := x.1.closeFlight f
    (y.1, x.2 ++ y.2.toList)) (s, [])
  { r.1 with net := { r.1.net with flights := r.2 } }

/-- A packet leaves its source with the next SEQ, unless 64 towards its destination are unanswered (R323). -/
def State.openFlight (s : State) (x : Nat × Nat × Packet) : State :=
  let src := s.packetSource x.2.2
  let d := s.packetDst x.2.2
  if (s.flight x.1 x.2.1).isSome || 64 ≤ s.laneLoad src d.1 d.2 then s
  else
    let l := s.lane src d.1 d.2
    let f : Flight := { n := x.1, k := x.2.1, src := src, dst := d.2, pkg := d.1, dpkg := if d.1 == 0 then s.pkg.rpid else d.1, seq := l.next,
                        since := (s.core src).cycles, resends := 0, copies := [(0, Config.damaged x.1 x.2.1 0)], answers := [], done := false }
    let s := s.putLane { l with next := l.next + 1 }
    { s with net := { s.net with flights := s.net.flights ++ [f] } }

/-- After a turn, the interfaces know which packets have been met and answered, and send what is new (R323). -/
def State.noteFlights (s : State) : State :=
  let s := s.closeFlights
  s.onWire.foldl State.openFlight s

/-- RPID of package `k`, as the reach port that leads to it has learnt it (R326); of this one for 0. -/
def State.rpidOf (s : State) (k : BitVec 4) : BitVec 4 :=
  if k == 0 then s.pkg.rpid else (s.pkg.rpPeer[(s.pkg.rproute.toNat / 2 ^ (4 * k.toNat)) % 16 - 1]?).getD 0

/-- A flight's packet is malformed where it arrives (R324). -/
def State.badFlight (s : State) (f : Flight) (x : Packet) : Bool := headerBad (s.header f x).word (s.rpidOf f.pkg)

/-- The interface at its destination does not examine the next copy of a flight's packet (R320, R321, R323): none is on the way, no reassembly buffer is
free, its bits are wrong, or its SEQ is a duplicate. -/
def State.stopsAt (s : State) (f : Flight) : Bool :=
  f.copies.isEmpty || s.noBuffer f || (f.copies.head?.any fun c => c.2) || f.done || (s.lane f.src f.pkg f.dst).duplicate f.seq

/-- Packet `n`, `k` is not performed at its destination as things stand: it lies in a spill reserve (R361), its interface does not examine it, it is
malformed (R324), or it waits at its source behind 64 others (R323). -/
def State.heldBack (s : State) (n k : Nat) : Bool :=
  s.spilled n || match s.flight n k, s.packetAt n k with
    | some f, some x => s.stopsAt f || s.badFlight f x
    | none, some x => decide (64 ≤ s.laneLoad (s.packetSource x) (s.packetDst x).1 (s.packetDst x).2)
    | _, none => false

/-- The first packet of number `n` that is held back. -/
def State.heldAny (s : State) (n : Nat) : Option Nat := ((s.onWire.filter fun x => x.1 == n).find? fun x => s.heldBack n x.2.1).map fun x => x.2.1

/-- What comes of a packet that is not performed when its turn comes: a copy with wrong bits is discarded and counts in CRCE (R321); a duplicate
counts, and the answer saved for it is sent again (R323). A SEQ below the window that was never accepted has no answer saved (log 151). -/
def State.turnedAway (s : State) (n k : Nat) : Out :=
  match s.flight n k with
  | none => s.idle
  | some f => match f.copies with
    | [] => s.idle
    | (j, bad) :: t =>
      if s.spilled n || s.noBuffer f then s.idle
      else if bad then ((s.countAt f 16).putFlight { f with copies := t }).occur
      else if f.done || (s.lane f.src f.pkg f.dst).duplicate f.seq then
        ((s.countAt f 32).putFlight { f with copies := t, answers := if f.done then f.answers ++ [Config.answerDamaged n k j] else f.answers }).occur
      else s.idle

/-- The answer to packet `n`, `k` comes to its source, which goes on as `t`, unless its bits are wrong: it is discarded then, and counts (R321). -/
def State.takeAnswer (s : State) (n k : Nat) (t : Out) : Out :=
  match s.flight n k with
  | none => t
  | some f => match f.answers with
    | [] => if f.done then s.idle else t
    | true :: r => ((s.fabCount f.src 16).putFlight { f with answers := r }).occur
    | false :: _ => t

/-- The answer to packet `n`, `k` is there to be taken. -/
def State.answerReady (s : State) (n k : Nat) : Bool :=
  match s.flight n k with
  | none => true
  | some f => match f.answers with
    | [] => !f.done
    | x :: _ => !x

end Sys2Proof.Machine
end

