-- ==== Sys2Proof/Machine/Front.lean ====
section
/-!
DEFINITION. The front end's queues (R363 to R365): registration, doorbells and hardware slots; and doorbells to cores (R372).
-/

namespace Sys2Proof.Machine

/-- A field of `n` bytes of a queue record, at byte `off` (R363). -/
def State.queueField (s : State) (pa : BitVec 48) (off n : Nat) : Nat := readNat s.mem (pa.toNat + off) n

/-- HEAD of a queue: descriptors ever taken. -/
def State.queueHead (s : State) (pa : BitVec 48) : W := BitVec.ofNat 64 (s.queueField pa 16 8)

/-- TAIL of a queue: descriptors ever written. -/
def State.queueTail (s : State) (pa : BitVec 48) : W := BitVec.ofNat 64 (s.queueField pa 24 8)

/-- PRIO and QIDX share 16 bits of the record. -/
def State.queueWord (s : State) (pa : BitVec 48) : BitVec 16 := BitVec.ofNat 16 (s.queueField pa 48 2)

/-- AGID of a queue's launches. -/
def State.queueAgid (s : State) (pa : BitVec 48) : BitVec 16 := BitVec.ofNat 16 (s.queueField pa 50 2)

/-- Context of a queue's launches. -/
def State.queueCtx (s : State) (pa : BitVec 48) : BitVec 16 := BitVec.ofNat 16 (s.queueField pa 52 2)

/-- Length of the ring in descriptors. -/
def State.queueLen (s : State) (pa : BitVec 48) : Nat := s.queueField pa 54 2

/-- Address of the ring. -/
def State.queueRing (s : State) (pa : BitVec 48) : Nat := s.queueField pa 56 8

/-- The lowest number that is not taken, below `n`. -/
def lowestFree (taken : List Nat) : Nat → Nat → Option Nat
  | 0, _ => none
  | n + 1, i => if taken.contains i then lowestFree taken n (i + 1) else some i

/-- Registers the queue whose record lies at `x` (R364): it gets the lowest index not in use, or 0xFFF and no service when its context is not placed. -/
def State.registerQueue (s : State) (x : W) : State :=
  let pa := x.extractLsb' 0 48
  let ctx := s.queueCtx pa
  let placed := if ctx == 0 || (s.partition ctx).isEmpty then none else lowestFree (s.front.queues.map fun q => q.qidx.toNat) 4096 0
  let i : BitVec 12 := BitVec.ofNat 12 (placed.getD 0xFFF)
  let w := i ++ (s.queueWord pa).extractLsb' 0 4
  let s := storeBytes s (pa.toNat + 48) (natLe 2 w.toNat)
  if placed.isNone then s
  else { s with front := { s.front with queues := s.front.queues ++
    [{ qidx := i, pa := pa, rung := false, passes := 0, slot := none, stamp := s.nextId }] } }

/-- A launch of registered queue `q` has been taken and not yet bound: it holds its queue (R365, R369). -/
def State.holdsQueue (s : State) (q : BitVec 12) : Bool := s.front.launches.any fun (l : Launch) => l.phase == 1 && l.queue == some q

/-- A slot for a rung queue (R365): a free one, or the slot of the queue that has gone longest with HEAD = TAIL and no launch that waits. -/
def State.mapQueues (s : State) : State :=
  s.front.queues.foldl (fun s q =>
    if !q.rung || q.slot.isSome then s
    else
      let used := s.front.queues.filterMap fun r => r.slot.map (·.toNat)
      let put (l : List QueueRec) (n : Nat) := l.map fun r => if r.qidx == q.qidx then { r with slot := some (BitVec.ofNat 6 n) } else r
      match lowestFree used 64 0 with
      | some n => { s with front := { s.front with queues := put s.front.queues n } }
      | none =>
        let idle := s.front.queues.filter fun r => r.slot.isSome && s.queueHead r.pa == s.queueTail r.pa && !s.holdsQueue r.qidx
        match idle with
        | [] => s
        | a :: t =>
          let old := t.foldl (fun m r => if r.stamp < m.stamp then r else m) a
          let l := s.front.queues.map fun r => if r.qidx == old.qidx then { r with slot := none, rung := false } else r
          { s with front := { s.front with queues := put l ((old.slot.map (·.toNat)).getD 0) } }) s

/-- A store to the doorbell of queue `q` (R364). Queues that wait for a slot are kept in doorbell order (R365). -/
def State.ringQueue (s : State) (q : BitVec 12) : State :=
  match s.front.queues.find? fun r => r.qidx == q with
  | none => s
  | some r =>
    let rest := s.front.queues.filter fun x => x.qidx != q
    let l := if r.rung then s.front.queues else rest ++ [{ r with rung := true }]
    State.mapQueues { s with front := { s.front with queues := l } }

/-- A store to the doorbell of core `c` (R372). -/
def State.ringCore (s : State) (c : CoreId) (x : W) : State := s.post srcHost c 21 0x50 0 (x.extractLsb' 0 48)

end Sys2Proof.Machine
end

