-- ==== Sys2Proof/Machine/Device.lean ====
section
/-!
DEFINITION. Device registers and capability space (R20, R202, R326, R364, R372, R384): what a load or store of an accepted kind does
there, and reach ports that train and isolate (R326, R327).
-/

namespace Sys2Proof.Machine

/-! The capability list (R20 to R22, R383, R384). -/

/-- The features of this part: each identifier that R22 assigns, once, in the order of the list. -/
def capIds : List Nat := [1, 2, 3, 4, 5, 6, 7, 8]

/-- BODY of a feature: the reach ports' registers and the firmware column map lie behind the list; no other feature has registers. DESIGN
CHOICE (log 122): boot sets the places. -/
def capBody (id : Nat) : Nat := if id == 4 then 0x1000 else if id == 8 then 0x2000 else 0

/-- The low doubleword of a record (R20): enabled, and VER 1 (R383). -/
def capLow (id : Nat) : W := BitVec.ofNat 32 (capBody id) ++ 1#8 ++ 1#8 ++ BitVec.ofNat 16 id

/-- Address of record `i` of the list. -/
def capAt (i : Nat) : Nat := Config.deviceBase + 16 * i

/-- Doubleword `n` of the list: of record n div 2 its low half, or the address of the next record, 0 at the end (R20). -/
def capWord (n : Nat) : Option W :=
  if capIds.length ≤ n / 2 then none
  else if n % 2 == 0 then some (capLow (capIds[n / 2]?.getD 0))
  else some (if n / 2 + 1 == capIds.length then 0 else BitVec.ofNat 64 (capAt (n / 2 + 1)))

/-- Doubleword `n` of the firmware column map (R384): FCWIDTH, then FCROLE by die and column from 31 down, two bits a row. -/
def BootTable.mapWord (t : BootTable) (n : Nat) : Option W :=
  if n == 0 then some (t.wm1.setWidth 64)
  else if n ≤ 16 then
    let at' (i : Nat) : CoreId := BitVec.ofNat 12 ((n - 1) / 4 * 1024 + i * 32 + (31 - (n - 1) % 4))
    some ((List.range 32).foldl (fun (w : W) i => w ||| ((t.role (at' i)).setWidth 64 <<< (2 * i))) 0)
  else none

/-- A doubleword that boot has set: of the capability list, or of the firmware column map. -/
def State.bootWord (s : State) (a : Nat) : Option W :=
  match s.pkg.boot with
  | .done _ t =>
    if a % 8 != 0 || a < Config.deviceBase then none
    else match capWord ((a - Config.deviceBase) / 8) with
      | some w => some w
      | none =>
        let b := Config.deviceBase + capBody 8
        if b ≤ a then t.mapWord ((a - b) / 8) else none
  | _ => none

/-- CAPBASE (R19): the address of the first record, once boot has built the list. -/
def State.capbase (s : State) : W :=
  match s.pkg.boot with
  | .done _ _ => BitVec.ofNat 64 (capAt 0)
  | _ => 0

/-- The capability record with an identifier, from address `a` on, at most `fuel` records (R20, R21): its low doubleword. -/
def findRecord (s : State) (id : BitVec 16) : Nat → Nat → Option W
  | 0, _ => none
  | fuel + 1, a =>
    if a == 0 then none
    else match s.bootWord a, s.bootWord (a + 8) with
      | some w, some nx => if w.extractLsb' 0 16 == id then some w else findRecord s id fuel (nx.extractLsb' 0 48).toNat
      | _, _ => none

/-- Address of a feature's registers, when its record is present and enabled (R20, R21). -/
def State.featureBody (s : State) (id : BitVec 16) : Option Nat :=
  match findRecord s id 256 s.capbase.toNat with
  | some w => if w.getLsbD 24 then some (Config.deviceBase + (w.extractLsb' 32 32).toNat) else none
  | none => none

/-- A packet to package `k` leaves by reach port `p` (R326). -/
def State.viaPort (s : State) (p : Nat) (k : BitVec 4) : Bool := k != 0 && (s.pkg.rproute.toNat / 2 ^ (4 * k.toNat)) % 16 == p + 1

/-- The request of this number and part is outstanding towards the peer of a port: its packet is on its way there, or not yet answered. -/
def State.owedBy (s : State) (p n k : Nat) : Bool :=
  (s.flight n k).any (fun f => s.viaPort p f.pkg) || (s.packetAt n k).any fun x => s.viaPort p (s.packetDst x).1

/-- Some packet of this number is outstanding towards the peer of a port. -/
def State.owedAny (s : State) (p n : Nat) : Bool :=
  (s.net.flights.any fun f => f.n == n && s.viaPort p f.pkg) || s.onWire.any fun x => x.1 == n && s.viaPort p (s.packetDst x.2.2).1

/-- Requests outstanding towards a port's peer (R326). -/
def State.outstanding (s : State) (p : Nat) : Nat :=
  (s.net.flights.filter fun f => s.viaPort p f.pkg).length +
    (s.onWire.filter fun x => (s.flight x.1 x.2.1).isNone && s.viaPort p (s.packetDst x.2.2).1).length

/-- RPSTAT of port `p` (R326). -/
def State.rpstat (s : State) (p : Nat) : W :=
  (s.pkg.rpState[p]?.getD 0) ++ 0#2 ++ (s.pkg.rpPeer[p]?.getD 0) ++ 0#8 ++ (s.pkg.rpRepl[p]?.getD 0) ++ BitVec.ofNat 32 (s.outstanding p)

/-- The cause that a dead peer gives an access (R327). -/
def deadPeer (k : AccKind) : BitVec 9 := accCause k 1 .bounds

/-- A port isolates (R327): every request outstanding towards its peer is answered with reason 6, and what the peer answers later is discarded.
A channel message never leaves its package, since CHOUT names none (R306). -/
def State.isolate (s : State) (p : Nat) : State :=
  let gone := s.net.posts.filter fun m => s.viaPort p m.pkg
  let mark (a : Access) (x : Part) : Part :=
    match gone.find? fun m => m.acc == a.id with
    | some m => { x with stage := .refused (BitVec.ofNat 9 (0x138 + m.port.toNat / 2)) none }
    | none => if s.owedBy p a.id x.n then { x with stage := .refused (deadPeer (a.op.partKind x.n)) none } else x
  let piece (c : Cmd) : Cmd :=
    { c with pieces := c.pieces.map fun x => if s.owedBy p c.id (x.no + 1) then { x with bad := some true } else x }
  { s with
    pkg := { s.pkg with rpState := s.pkg.rpState.setIfInBounds p 3#2, rpDown := s.pkg.rpDown.setIfInBounds p none }
    net := { s.net with
      accs := s.net.accs.map fun a => { a with parts := a.parts.map (mark a) }
      posts := s.net.posts.filter fun m => !s.viaPort p m.pkg
      cmds := s.net.cmds.map piece
      waves := s.net.waves.map fun w => if s.owedAny p w.id then { w with dead := true } else w
      flights := s.net.flights.filter fun f => !s.viaPort p f.pkg } }

/-- A port that is down or isolated begins to train, which clears its duplicate windows (R326, R327). -/
def State.trainPort (s : State) (p : Nat) : State :=
  let st := s.pkg.rpState[p]?.getD 0
  if st == 0 || st == 3 then
    { s with pkg := { s.pkg with rpState := s.pkg.rpState.setIfInBounds p 1#2 },
             net := { s.net with lanes := s.net.lanes.filter fun l => !s.viaPort p l.pkg } }
  else s

/-- What lies at a doubleword of the device range. -/
inductive DevReg where
  | boot (x : W)
  | rpstat (p : Nat)
  | rproute
  | rpid
  | queueDoorbell (q : BitVec 12)
  | coreDoorbell (c : CoreId)
  | qreg
deriving DecidableEq, Repr

/-- The register or record at doubleword address `a` (R20, R202, R326, R364, R372, R384). -/
def State.devReg (s : State) (a : Nat) : Option DevReg :=
  if 0x300000010000 ≤ a && a < 0x300000018000 then some (.queueDoorbell (BitVec.ofNat 12 ((a - 0x300000010000) / 8)))
  else if 0x300000018000 ≤ a && a < 0x300000020000 then some (.coreDoorbell (BitVec.ofNat 12 ((a - 0x300000018000) / 8)))
  else if a == 0x300000020000 then some .qreg
  else match s.bootWord a with
    | some x => some (.boot x)
    | none => match s.featureBody 4 with
      | none => none
      | some b =>
        if b ≤ a && a < b + 64 then some (.rpstat ((a - b) / 8))
        else if a == b + 0x40 then some .rproute
        else if a == b + 0x48 then some .rpid
        else none

/-- What a load of a device register returns. Doorbells and QREG are written only: they read as zero, as WO fields do (R5, log 20). -/
def State.devRead (s : State) : DevReg → W
  | .boot x => x
  | .rpstat p => s.rpstat p
  | .rproute => s.pkg.rproute
  | .rpid => s.pkg.rpid.setWidth 64
  | .queueDoorbell _ => 0
  | .coreDoorbell _ => 0
  | .qreg => 0

/-- A 32-bit store is refused there (R202): doorbells, QREG, and registers with a WO field. -/
def DevReg.wide : DevReg → Bool
  | .queueDoorbell _ => true
  | .coreDoorbell _ => true
  | .qreg => true
  | .rpstat _ => true
  | _ => false

/-- The doubleword `old` with `size` bytes at byte `off` replaced. -/
def patch (old : W) (off size : Nat) (x : W) : W :=
  if size == 8 then x
  else if off == 0 then old.extractLsb' 32 32 ++ x.extractLsb' 0 32 else x.extractLsb' 0 32 ++ old.extractLsb' 0 32

/-- A store to a device register by a hart in this mode (R202, R326, R364, R372). The fields of reach registers change in M only. -/
def State.devWrite (s : State) (mode : BitVec 2) (r : DevReg) (off size : Nat) (x : W) : State :=
  let m := mode == 3#2
  match r with
  | .boot _ => s
  | .rpstat p =>
    if !m then s
    else
      let s := { s with pkg := { s.pkg with rpRepl := s.pkg.rpRepl.setIfInBounds p (x.extractLsb' 32 16) } }
      match (x.extractLsb' 60 2).toNat with
      | 1 => s.trainPort p
      | 2 => s.isolate p
      | _ => s
  | .rproute => if m then { s with pkg := { s.pkg with rproute := patch s.pkg.rproute off size x &&& ~~~0xF#64 } } else s
  | .rpid => if m && off == 0 then { s with pkg := { s.pkg with rpid := x.extractLsb' 0 4 } } else s
  | .queueDoorbell q => s.ringQueue q
  | .coreDoorbell c => s.ringCore c x
  | .qreg => s.registerQueue x

end Sys2Proof.Machine
end

