-- ==== Sys2Proof/Machine/Transit.lean ====
section
/-!
DEFINITION. Accesses on their way: what a request does at its target (R200 to R203, R212, R217, R222, R236), how its answer reaches the
hart (R212, R217, R230, R249), and how a refusal or a ticket rewinds it (R201, R251).
-/

namespace Sys2Proof.Machine

/-! Finding an access and its parts. -/

/-- The access of a number. -/
def State.acc (s : State) (n : Nat) : Option Access := s.net.accs.find? fun a => a.id == n

/-- Part `k` of an access. -/
def Access.part (a : Access) (k : Nat) : Option Part := a.parts.find? fun p => p.n == k

/-- Applies a change to the access of a number. -/
def State.onAcc (s : State) (n : Nat) (f : Access → Access) : State :=
  { s with net := { s.net with accs := s.net.accs.map fun a => if a.id == n then f a else a } }

/-- Puts part `k` at a stage. -/
def Access.stageAt (a : Access) (k : Nat) (st : Stage) : Access :=
  { a with parts := a.parts.map fun p => if p.n == k then { p with stage := st } else p }

/-- Puts part `k` of access `n` at a stage. -/
def State.stageAt (s : State) (n k : Nat) (st : Stage) : State := s.onAcc n fun a => a.stageAt k st

/-- Removes an access. -/
def State.dropAcc (s : State) (n : Nat) : State := { s with net := { s.net with accs := s.net.accs.filter fun a => a.id != n } }

/-- The part has been performed. -/
def Stage.performed : Stage → Bool
  | .answered _ => true
  | .done _ => true
  | _ => false

/-- Two parts share a 64-byte line of virtual addresses. -/
def sameLine (p q : Part) : Bool :=
  decide (p.va.toNat / 64 ≤ (q.va.toNat + q.size - 1) / 64 ∧ q.va.toNat / 64 ≤ (p.va.toNat + p.size - 1) / 64)

/-- Access `b` of the hart of access `a` is older: those that a fence has orphaned are older than the hart's later ones, and stand among
themselves in order of issue (R222, R350). -/
def Access.olderThan (b a : Access) : Bool :=
  match b.orphan, a.orphan with
  | true, true => decide (b.id < a.id)
  | true, false => true
  | false, true => false
  | false, false => b.frozen == a.frozen && decide (b.seq < a.seq)

/-- The parts on the same virtual line that come before part `p` of access `a` and are not performed (R213, R222, R223). -/
def State.before (s : State) (a : Access) (p : Part) : List Part :=
  s.net.accs.flatMap fun b =>
    if b.core == a.core && b.hart == a.hart && !b.op.isMessage then
      b.parts.filter fun q => sameLine p q && !q.stage.performed && (b.olderThan a || (b.id == a.id && b.op == .vstore && decide (q.n < p.n)))
    else []

/-! At the target. -/

/-- A packet of this opcode from a party of context `ctx` passes core `c`'s router (R374). -/
def State.admits (s : State) (c : CoreId) (ctx : BitVec 16) (opcode : Nat) : Bool :=
  !s.firmware c || ctx == 0 || (s.core c).sys.fwmask.getLsbD opcode

/-- The packet opcode of an access (R319). -/
def AccKind.opcode : AccKind → Nat
  | .fetch => 1
  | .load => 1
  | .store => 2
  | .atomic => 3

/-- Steps 2 to 5 of R200 at core `c`, for a packet of this opcode: a local address, or a problem. -/
def windowCheck (s : State) (opcode : Nat) (ctx : BitVec 16) (k : AccKind) (c : CoreId) (w : BitVec 4) (off : BitVec 36) (size : Nat) :
    Except Problem Nat :=
  if s.pkg.absent.contains c then .error .bounds
  else if (s.core c).sys.fenced then .error .poisoned
  else if !s.admits c ctx opcode then .error .protection
  else windowRegion s ctx k c w off size

/-- What becomes of a request at its target. -/
inductive Arrive where
  /-- it cannot be performed yet -/
  | hold
  | refuse (cause : BitVec 9) (poison : Option W)
  /-- performed, with what goes back -/
  | did (s : State) (x : BitVec 512)

/-- Eight free words side by side (log 8). -/
def State.free512 (s : State) : BitVec 512 :=
  BitVec.ofNat 512 (joinEls 64 ((List.range 8).map fun i => (Config.freeWord (s.freeCount + i)).setWidth 512))

/-- A write of core `c` that no shadow covers sets BROKE on every core of the replayable launch that runs in its context (R352). -/
def State.breaks (s : State) (c : CoreId) : State :=
  let x := (s.core c).mem.ctxid
  { s with cores := s.cores.map fun p =>
      if p.2.mem.ctxid == x && p.2.sys.lrstat.getLsbD 63 then (p.1, { p.2 with sys := { p.2.sys with lrstat := p.2.sys.lrstat ||| (1#64 <<< 62) } })
      else p }

/-- The access writes. -/
def AccKind.writes : AccKind → Bool
  | .store => true
  | .atomic => true
  | _ => false

/-- A device register meets a load or store (R202). -/
def arriveDevice (s : State) (a : Access) (p : Part) (k : AccKind) (pa : Nat) : Arrive :=
  let off := pa % 8
  match s.devReg (pa - off) with
  | none => .refuse (accCause k 2 .bounds) none
  | some r =>
    if k == .load then
      let x := s.devRead r
      .did s (if p.size == 4 then (x.extractLsb' (8 * off) 32).setWidth 512 else x.setWidth 512)
    else if p.size == 4 && r.wide then .refuse (accCause k 2 .protection) none
    else .did ((s.devWrite a.mode r off p.size (p.data.setWidth 64)).breaks a.core) 0

/-! The ordered region (R236). -/

/-- The key of the reaction that holds a buffer entry. -/
def OrdEntry.key (e : OrdEntry) (c : CoreId) : List Nat := [e.t.toNat, e.m.toNat, c.toNat, e.hart.toNat]

/-- Puts a buffer entry's bytes over a line. -/
def OrdEntry.over (e : OrdEntry) (line : BitVec 512) : BitVec 512 :=
  (List.range 64).foldl (fun r i =>
    if e.mask.getLsbD i then (r &&& ~~~(0xFF#512 <<< (8 * i))) ||| ((e.data.extractLsb' (8 * i) 8).setWidth 512 <<< (8 * i)) else r) line

/-- Inserts a buffer entry by its key. -/
def insertEntry (c : CoreId) (x : OrdEntry) : List OrdEntry → List OrdEntry
  | [] => [x]
  | y :: t => if lexLt (x.key c) (y.key c) then x :: y :: t else y :: insertEntry c x t

/-- The bytes that a reaction of core `c` at `key` reads at a line (R236). -/
def orderedLine (s : State) (c : CoreId) (key : List Nat) (line : Nat) : BitVec 512 :=
  let mine := (s.core c).tags.obuf.filter fun e => e.line == line && !lexLt key (e.key c)
  (mine.foldl (fun l e => insertEntry c e l) []).foldl (fun r e => e.over r) (s.bytesAt (64 * line) 64)

/-- The read record of a line has room for core `c`: four cores (R236). -/
def recordRoom (s : State) (c : CoreId) (line : Nat) : Bool :=
  let cs := ((s.reads.filter fun r => r.line == line).map fun r => r.core).eraseDups
  cs.contains c || decide (cs.length < 4)

/-- Core `c` has an uncommitted reaction of this number. -/
def State.hasReaction (s : State) (c : CoreId) (rid : Nat) : Bool := (s.core c).tags.reactions.any fun r => r.id == rid

/-- An ordered load at the bank (R236). One of a reaction that has been aborted in the meantime leaves no record (R274). -/
def arriveTload (s : State) (a : Access) (p : Part) (key : Option (W × BitVec 32 × Nat)) (pa : Nat) : Arrive :=
  match key with
  | none => .did s (s.bytesAt pa p.size)
  | some (t, m, rid) =>
    let line := pa / 64
    if !s.hasReaction a.core rid then .did s (s.bytesAt pa p.size)
    else if !recordRoom s a.core line then .hold
    else
      let x := orderedLine s a.core [t.toNat, m.toNat, a.core.toNat, a.hart.toNat] line
      let r : ReadRec := { line := line, core := a.core, t := t, m := m, hart := a.hart, rid := rid }
      .did { s with reads := if s.reads.contains r then s.reads else s.reads ++ [r] }
        (BitVec.ofNat 512 (x.toNat / 2 ^ (8 * (pa % 64)) % 2 ^ (8 * p.size)))

/-- The mask of `size` bytes from byte `off` of a line. -/
def byteMask (off size : Nat) : W := BitVec.ofNat 64 ((2 ^ size - 1) * 2 ^ off)

/-- An ordered store reaches its core's buffer (R236); one of a reaction that has been aborted in the meantime leaves no entry (R274). -/
def arriveTstore (s : State) (a : Access) (p : Part) (t : W) (m : BitVec 32) (rid : Nat) (full : BitVec 9) (pa : Nat) : Arrive :=
  let line := pa / 64
  let off := pa % 64
  let data : BitVec 512 := BitVec.ofNat 512 ((p.data.toNat % 2 ^ (8 * p.size)) * 2 ^ (8 * off))
  let new : OrdEntry := { rid := rid, t := t, m := m, hart := a.hart, line := line, mask := byteMask off p.size, data := data }
  let own (e : OrdEntry) : Bool := e.rid == rid
  let buf := (s.core a.core).tags.obuf
  let put (b : List OrdEntry) := s.onCore a.core fun k => { k with tags := { k.tags with obuf := b } }
  if !s.hasReaction a.core rid then .did s 0
  else if buf.any fun e => own e && e.line == line then
    .did (put (buf.map fun e => if own e && e.line == line then { e with mask := e.mask ||| new.mask, data := new.over e.data } else e)) 0
  else if buf.length < 256 then .did (put (buf ++ [new])) 0
  else if buf.any fun e => !own e then .hold
  else .refuse full none

/-- A part of an ordered access waits for room, in a read record or in the buffer (R236): its hart is not ready. -/
def State.orderedHeld (s : State) (c : CoreId) (h : HartId) : Bool :=
  (s.live c h).any fun a => a.parts.any fun p => match p.stage, a.op with
    | .sent (.phys pa _), .tload _ _ key => (match arriveTload s a p key pa.toNat with
      | .hold => true
      | _ => false)
    | .sent (.phys pa _), .tstore t m rid full => (match arriveTstore s a p t m rid full pa.toNat with
      | .hold => true
      | _ => false)
    | _, _ => false

/-- The part writes a whole line, so that what the line holds does not matter (R212, R348). -/
def wholePart (op : AccOp) (k : AccKind) (size : Nat) : Bool :=
  match op with
  | .tstore .. => size == 64
  | _ => wholeLine k size

/-- A request at a physical address (R202, R203, R207, R212). -/
def arrivePhys (s : State) (a : Access) (p : Part) (k : AccKind) (pa : Nat) : Arrive :=
  match a.op with
  | .xlat _ => .did s 0
  | op =>
    if migrationHolds s.cap pa then .hold
    else if Config.deviceBase ≤ pa then arriveDevice s a p k pa
    else
      if !wholePart op k p.size && poisoned s pa p.size then
        .refuse (accCause k (physSpace (BitVec.ofNat 48 pa)) .poisoned) (some (BitVec.ofNat 64 pa))
      else match op with
        | .tload _ _ key => arriveTload s a p key pa
        | .tstore t m rid full => arriveTstore s a p t m rid full pa
        | _ =>
          let r := s.perform op p.n pa p.size p.data
          .did (if k.writes && Config.commonsBase ≤ pa then r.1.breaks a.core else r.1) r.2

/-- A request at another core's store, or at another package's (R200). What another package answers is free; it accepts what it is sent
(log 12). -/
def arrivePeer (s : State) (a : Access) (p : Part) (k : AccKind) (pkg : BitVec 4) (c : CoreId) (w : BitVec 4) (off : BitVec 36) : Arrive :=
  if pkg != 0 then
    if s.retraining pkg then .hold
    else if s.routed pkg then
      let t := { s with freeCount := s.freeCount + 8 }
      .did (if k.writes then t.breaks a.core else t) (BitVec.ofNat 512 (s.free512.toNat % 2 ^ (8 * p.size)))
    else .refuse (accCause k 1 .bounds) none
  else match windowCheck s k.opcode a.ctx k c w off p.size with
    | .error e => .refuse (accCause k 1 e) none
    | .ok at' =>
      if !wholeLine k p.size && poisoned s (localKey c at') p.size then .refuse (accCause k 1 .poisoned) (some (BitVec.ofNat 64 at'))
      else
        let r := s.perform a.op p.n (localKey c at') p.size p.data
        .did (if k.writes && !((s.core c).mem.ctxid == a.ctx) then r.1.breaks a.core else r.1) r.2

/-- A request at its target. -/
def arrive (s : State) (a : Access) (p : Part) (t : Target) : Arrive :=
  let k := a.op.partKind p.n
  match t with
  | .own off =>
    if !wholeLine k p.size && poisoned s (localKey a.core off) p.size then .refuse (accCause k 0 .poisoned) (some (BitVec.ofNat 64 off))
    else
      let r := s.perform a.op p.n (localKey a.core off) p.size p.data
      .did r.1 r.2
  | .phys pa _ => arrivePhys s a p k pa.toNat
  | .peer pkg c w off => arrivePeer s a p k pkg c w off

/-- A request on its way reaches its target. One that stands behind an older access to its line waits for it, and is sent afresh later
when that access holds a ticket or a refusal (R222, R234, R251). -/
def State.request (s : State) (n k : Nat) (want : AccKind → Bool) : Out :=
  match s.acc n with
  | none => s.turnedAway n k
  | some a =>
    match a.part k with
    | none => s.turnedAway n k
    | some p =>
      match p.stage with
      | .sent t =>
        if a.op.isMessage || !want (a.op.partKind k) then s.idle
        else if s.heldBack n k then s.turnedAway n k
        else
          let b := s.before a p
          if b.any fun q => q.stage.stuck then (s.stageAt n k .undone).occur
          else if !b.isEmpty then s.idle
          else match arrive s a p t with
            | .hold => s.idle
            | .refuse cause poison => (s.stageAt n k (.refused cause poison)).occur
            | .did s' x => (s'.stageAt n k (.answered x)).occur
      | _ => s.turnedAway n k

/-- The part is the flag of an STF. -/
def State.isFlag (s : State) (n k : Nat) : Bool :=
  match s.acc n with
  | some a => a.op == .stf && k == 1
  | none => false

/-- LOAD_REQUEST (R200, R212). -/
def execLoadRequest (n k : Nat) (s : State) : Out := s.request n k fun x => x == .load
/-- STORE_REQUEST (R200, R212). -/
def execStoreRequest (n k : Nat) (s : State) : Out := s.request n k fun x => x == .store
/-- ATOMIC_REQUEST (R217). -/
def execAtomicRequest (n k : Nat) (s : State) : Out := if s.isFlag n k then s.idle else s.request n k fun x => x == .atomic

/-- STF_FLAG_INCREMENT (R218): the flag follows the data once that is performed. Behind data that hold a ticket or a refusal it is not
performed, and is sent afresh with them (R251). -/
def execStfFlagIncrement (n : Nat) (s : State) : Out :=
  match s.acc n with
  | none => s.idle
  | some a =>
    match a.part 0, a.part 1 with
    | some p, some q =>
      if a.op != .stf then s.idle
      else if p.stage.performed then s.request n 1 fun x => x == .atomic
      else match p.stage.stuck, q.stage with
        | true, .sent _ => (s.stageAt n 1 .undone).occur
        | _, _ => s.idle
    | _, _ => s.idle

/-! Refusals, tickets and the rewind (R201, R251). -/

/-- The part has been answered for good, or waits to be sent again. -/
def Stage.settled : Stage → Bool
  | .done _ => true
  | .parked .. => true
  | .fault .. => true
  | .undone => true
  | .lost => true
  | _ => false

/-- Restores one logged register. -/
def restoreReg (h : Hart) : LogRec → Hart
  | .reg _ r old full =>
    let x := h.regs.write old r
    { h with regs := if full then x else x.empty r }
  | .done .. => h

/-- The log record belongs to what a rewind to access `n` undoes. -/
def LogRec.undoneBy (n : Nat) : LogRec → Bool
  | .reg key _ _ _ => decide (2 * n < key)
  | .done .. => false

/-- The first interrupt that the hart has taken since access `n` (log 11). -/
def Hart.intSince (h : Hart) (n : Nat) : Option IntMark := h.intMarks.find? fun m => decide (n < m.seq)

/-- An interrupt taken since access `n` is undone: the trap registers and the status stand as they stood before it, and what its handler has
performed leaves no record (log 11). -/
def undoInt (n : Nat) (h : Hart) : Hart :=
  match h.intSince n with
  | none => h
  | some m =>
    { h with
      trap := { h.trap with trpc := m.trpc, trcause := m.trcause, traddr := m.traddr, trinfo := m.trinfo }
      mode := m.mode, pmode := m.pmode, pie := m.pie, ie := m.ie, spp := m.spp, intMarks := h.intMarks.filter fun k => decide (k.seq ≤ n)
      log := h.log.filter fun r => match r with
        | .done seq .. => decide (seq < m.seq)
        | .reg .. => true }

/-- Rewinds a hart to the access `a` (R251, R263): registers and full bits from the log, the newest record first, the place of its
instruction, and the flags that older instructions have set (R51). -/
def rewindHart (a : Access) (h : Hart) : Hart :=
  let h := undoInt a.seq ((h.log.reverse.filter (LogRec.undoneBy a.seq)).foldl restoreReg h)
  { h with
    log := h.log.filter fun r => !r.undoneBy a.seq
    pc := a.mark.pc, loops := a.mark.loops, pp := a.mark.pp, fields := a.mark.fields, instret := a.mark.instret, arrival := a.mark.arrival
    arith := { h.arith with fpstat := a.mark.fpstat, moflags := a.mark.moflags }
    nseq := a.seq, wait := .none, waitAt := none, we := false, emptyMet := none, pause := 0
    pend := h.pend.filter fun p => !(p.isReady || p.precise) }

/-- The oldest access, by sequence number. -/
def oldest : List Access → Option Access
  | [] => none
  | a :: t => match oldest t with
    | some b => if b.seq < a.seq then some b else some a
    | none => some a

/-- TRADDR and TRINFO of a refused or faulted part (R196, R253, R254, R340). -/
def partTrap (a : Access) (p : Part) (cause : BitVec 9) (info : BitVec 22) : W × W :=
  if a.op.isMessage then (p.va, p.data.setWidth 64)
  else if cause.extractLsb' 6 3 == 1#3 || cause.extractLsb' 6 3 == 2#3 then (p.va, faultInfo cause a.vec p.n info)
  else if cause == 0x1C5 then (0, 2)
  else (0, 0)

/-- The lowest part of an access that has a fault, or a lost ticket (R254). -/
def Access.firstFault (a : Access) : Option (Part × BitVec 9 × BitVec 22 × Option W) :=
  a.parts.findSome? fun p => match p.stage with
    | .fault cause info poison => some (p, cause, info, poison)
    | .lost => some (p, 0x1C5, 0, none)
    | _ => none

/-- A fault of a part that is to be sent afresh anyway is forgotten (R251). -/
def Access.unfault (a : Access) : Access :=
  { a with parts := a.parts.map fun p => match p.stage with
    | .fault .. => { p with stage := .undone }
    | _ => p }

/-- A hart that stands at an access with a fault takes the trap, once every older access is confirmed (R201, R250, R253). Every part with
a fault will be sent afresh if its instruction is executed again; the entry of a lost ticket is freed (R254). -/
def State.faultAt (s : State) (a : Access) (f : Part × BitVec 9 × BitVec 22 × Option W) : State :=
  if s.unconfirmed a.core a.hart then s
  else
    let s := if f.2.1 == 0x1C5 then s.dropAcc a.id else s.onAcc a.id Access.unfault
    let i := partTrap a f.1 f.2.1 f.2.2.1
    if f.2.2.2.isSome && s.fencesPoison a.core then s.fenceKennel a.core a.hart 7 (f.2.2.2.getD 0)
    else s.trapAt a.core a.hart false f.2.1 i.1 i.2 (s.hartAt a.core a.hart).pc

/-- The accesses of hart `h` of core `c` after a rewind to access `o`: what the handler of an undone interrupt has sent is forgotten, and a
younger fault is (R251, log 11). -/
def rewindAccs (c : CoreId) (h : HartId) (o : Nat) (m : Option IntMark) (l : List Access) : List Access :=
  let mine (a : Access) : Bool := a.core == c && a.hart == h && a.frozen == 0 && !a.orphan
  (l.filter fun a => !(mine a && m.any fun m => decide (m.seq ≤ a.seq))).map fun a => if mine a && decide (o < a.seq) then a.unfault else a

/-- A parked hart goes on as far as the answers allow (R201, R251 to R253): it rewinds to its oldest access that holds a ticket or a
refusal once everything younger is answered and every younger operation but a precise one, which is discarded, has its result; it takes the trap of a fault, and is
free again when nothing holds it. -/
def State.settle (s : State) (c : CoreId) (h : HartId) : State :=
  let n := (s.hartAt c h).nseq
  let s := match oldest ((s.live c h).filter fun a => decide (a.seq < n) && a.parts.any fun p => p.stage.stuck) with
    | none => s
    | some o =>
      if ((s.live c h).all fun a => decide (a.seq < o.seq) || a.parts.all fun p => p.stage.settled) &&
          (s.hartAt c h).pend.all (fun p => p.isReady || p.precise) then
        let m := (s.hartAt c h).intSince o.seq
        { s.onHartAt c h (rewindHart o) with net := { s.net with accs := rewindAccs c h o.seq m s.net.accs } }
      else s
  let x := s.hartAt c h
  if !x.tkp || !s.rewound c h then s
  else match (s.live c h).find? fun a => a.seq == x.nseq with
    | none => s.onHartAt c h fun x => { x with tkp := false }
    | some e =>
      if e.parked then s
      else match e.firstFault with
        | some f => s.faultAt e f
        | none => s.onHartAt c h fun x => { x with tkp := false }

/-- An access of a stopped hart that met a refusal or a ticket is forgotten. R99 has the loads that it had issued complete; what becomes of one that
cannot is not stated. DESIGN CHOICE (log 150): its destination becomes full with the value that it held. -/
def State.forget (s : State) (a : Access) : State :=
  let s := s.dropAcc a.id
  if a.mute then s
  else match a.op.dst with
    | some r => s.refill a.core a.hart r
    | none => s

/-- NEGATIVE_ACKNOWLEDGEMENT (R201): the hart learns of a refusal. -/
def execNegativeAcknowledgement (n k : Nat) (s : State) : Out :=
  match s.acc n with
  | none => s.idle
  | some a =>
    match a.part k with
    | none => s.idle
    | some p =>
      match p.stage with
      | .refused cause poison =>
        if a.isProbe then s.idle
        else s.takeAnswer n k
          (if a.orphan || (s.hartAt a.core a.hart).stopped then (s.forget a).occur
          else (((s.stageAt n k (.fault cause 0 poison)).onHartAt a.core a.hart fun x => { x with tkp := true }).settle a.core a.hart).occur)
      | _ => s.idle

/-- A ticket record on FIFO 20 (R255): 0x20 ticket, 0x21 notice, 0x22 fault. -/
def State.ticketRecord (s : State) (c : CoreId) (h : HartId) (kind : BitVec 8) (va : W) (slice : BitVec 6) : State :=
  if (s.hartAt c h).tkEv then
    s.post (srcCore c) c 20 kind (h.setWidth 8) ((va.extractLsb' 12 36).setWidth 48 <<< 12 ||| slice.setWidth 48 <<< 6)
  else s

/-- TICKET (R251): the hart parks. -/
def execTicket (n k : Nat) (s : State) : Out :=
  match s.acc n with
  | none => s.idle
  | some a =>
    match a.part k with
    | none => s.idle
    | some p =>
      match p.stage with
      | .ticket slice num =>
        if a.orphan || (s.hartAt a.core a.hart).stopped then (s.forget a).occur
        else
          let now := s.cycleOf a.core a.hart
          let s := (s.onAcc n fun b => { b.stageAt k (.parked slice num) with since := now }).onHartAt a.core a.hart fun x => { x with tkp := true }
          ((s.ticketRecord a.core a.hart 0x20 p.va slice).settle a.core a.hart).occur
      | _ => s.idle

/-- TICKET_REWIND (R251): once the younger accesses are answered, the hart stands at the ticketed instruction. -/
def execTicketRewind (c : BitVec 12) (h : BitVec 2) (s : State) : Out :=
  let t := s.settle c h
  if t == s then s.idle else t.occur

/-! Answers. -/

/-- WAITA has read its location: it ends, or waits to read again (R230). -/
def State.waitaRead (s : State) (c : CoreId) (h : HartId) (x : BitVec 512) : State :=
  match (s.hartAt c h).wait with
  | .waita d va size cmp start last true =>
    let now := s.cycleOf c h
    let _ := last
    if waitaEnds size x cmp start now (s.hartAt c h).waitlim then s.finishWait c h (oneWrite (.g d) (waitaValue size x))
    else s.onHartAt c h fun k => { k with wait := .waita d va size cmp start now false }
  | _ => s

/-- The hart waits in this very access. -/
def State.waitsFor (s : State) (a : Access) : Bool := (s.hartAt a.core a.hart).wait == .access a.id

/-- A load's result reaches its hart, which does not wait for it. -/
def State.landLoad (s : State) (a : Access) (r : OpResult) : State :=
  (s.onHartAt a.core a.hart (Hart.land r)).flagMarks a.core a.hart (a.seq + 1) r

/-- Every part of an access is done: its result reaches the hart. That of a hart stopped since still fills its register (R99); that of a fenced one is
discarded (R350). -/
def State.accDone (s : State) (a : Access) : State :=
  let xs := a.parts.map Part.value
  let one := xs.head?.getD 0
  let size := (a.parts.head?.map Part.size).getD 0
  let va := (a.parts.head?.map Part.va).getD 0
  let k := s.core a.core
  if a.mute then s.dropAcc a.id
  else if a.orphan then
    match loadResult k.cblo k.cbhi a.op size xs with
    | some (r, x, fl) => (s.dropAcc a.id).onHartAt a.core a.hart (Hart.land ⟨[⟨r, x⟩], fl, 0, false, false⟩)
    | none => s.dropAcc a.id
  else
    let s := match a.op with
      | .vload d ff tf bc =>
        match loadResult k.cblo k.cbhi (.vload d ff tf bc) size xs with
        | none => s
        | some (r, x, fl) =>
          let y := s.hartAt a.core a.hart
          if !s.waitsFor a then s.landLoad a ⟨[⟨r, x⟩], fl, 0, false, false⟩
          else if fpTraps y.arith.fpstat fl then
            ((s.dropAcc a.id).refill a.core a.hart r).trapAt a.core a.hart false (fpCause 1 y.arith.fpstat fl) 0 (fl.setWidth 64) y.pc
          else s.finishWait a.core a.hart ⟨[⟨r, x⟩], fl, 0, false, false⟩
      | .atomic _ r _ _ => if s.waitsFor a then s.finishWait a.core a.hart (atomicResult r size one) else s
      | .message (some d) => if s.waitsFor a then s.finishWait a.core a.hart (oneWrite (.g d) (one.setWidth 1024)) else s
      | .waita => (s.dropAcc a.id).waitaRead a.core a.hart one
      | .shape slot =>
        if !s.waitsFor a then s
        else match readShape one with
          | .ok sh => (s.onHartAt a.core a.hart fun h => { h with batch := { h.batch with slots := h.batch.slots.setIfInBounds slot.toNat (some sh) } }).finishWait
              a.core a.hart noWrite
          | .error cause => (s.dropAcc a.id).trapAt a.core a.hart false cause va 0 (s.hartAt a.core a.hart).pc
      | .xlat _ =>
        if s.waitsFor a then (s.dropAcc a.id).onHartAt a.core a.hart fun h => { h with wait := .none, waitAt := none, nseq := a.seq } else s
      | op => match loadResult k.cblo k.cbhi op size xs with
        | some (r, x, fl) => s.landLoad a ⟨[⟨r, x⟩], fl, 0, false, false⟩
        | none => s
    s.reap a.core a.hart

/-- The answer of part `k` reaches the hart. -/
def State.answer (s : State) (n k : Nat) (data : Bool) : Out :=
  match s.acc n with
  | none => s.idle
  | some a =>
    match a.part k with
    | none => s.idle
    | some p =>
      match p.stage with
      | .answered x =>
        if a.op.returnsData != data then s.idle
        else
          let t := s.stageAt n k (.done x)
          let b := a.stageAt k (.done x)
          let t := if partsDone b.parts then t.accDone b else t
          s.takeAnswer n k (t.settle a.core a.hart).occur
      | _ => s.idle

/-- DATA_RESPONSE (R212, R217, R249): load data, or the old value of an atomic. -/
def execDataResponse (n k : Nat) (s : State) : Out := s.answer n k true
/-- ACKNOWLEDGEMENT (R249): a store, an STF or a message is confirmed. -/
def execAcknowledgement (n k : Nat) (s : State) : Out := s.answer n k false

end Sys2Proof.Machine
end

