-- ==== Sys2Proof/Machine/Tickets.lean ====
section
/-!
DEFINITION. Translation: slices that walk (R245 to R247), tickets with their notices, faults and timeouts (R249 to R256), and host-backed
pages (R259).
-/

namespace Sys2Proof.Machine

/-! TLBs. -/

/-- Appends an entry to a bounded list, of which the oldest entry gives way (log 13). -/
def pushBounded {α : Type} (n : Nat) (l : List α) (x : α) : List α := (if l.length < n then l else l.drop 1) ++ [x]

/-- A slice's TLB takes an entry (R246). -/
def State.cacheSlice (s : State) (slice : BitVec 6) (e : TlbEntry) : State :=
  let mine := s.books.sliceTlb.filter fun x => x.1 == slice
  let rest := s.books.sliceTlb.filter fun x => x.1 != slice
  let l := if mine.any fun x => x.2 == e then mine else pushBounded 256 mine (slice, e)
  { s with books := { s.books with sliceTlb := rest ++ l } }

/-- A slice answers a translated access: its TLB and the core's hold the entry (R246, R247). -/
def State.cacheEntry (s : State) (slice : BitVec 6) (c : CoreId) (e : TlbEntry) : State :=
  (s.cacheSlice slice e).onCore c fun k => if k.mem.tlb.contains e then k else { k with mem := { k.mem with tlb := pushBounded 32 k.mem.tlb e } }

/-! Tickets. -/

/-- A ticket number that is not open at the slice: `n`, or the next one that is free (log 14). -/
def freeNumber (used : List Nat) : Nat → Nat → Nat
  | 0, n => n % 65536
  | fuel + 1, n => if used.contains (n % 65536) then freeNumber used fuel (n + 1) else n % 65536

/-- Part `k` of an access takes a ticket at its slice (R245, R246). -/
def State.giveTicket (s : State) (a : Access) (p : Part) (reason : TicketReason) (level : Nat) : State :=
  let slice := sliceOf a.core p.va
  let num := BitVec.ofNat 16 (freeNumber ((s.openAt slice).map fun t => t.num.toNat) 1024 s.free.toNat)
  let t : Ticket := { slice := slice, num := num, ctx := a.ctx, core := a.core, hart := a.hart, agid := a.agid,
                      vpn := p.va.extractLsb' 12 36, kind := BitVec.ofNat 2 (a.op.partKind p.n).code, level := BitVec.ofNat 2 level,
                      reason := reason.code, answer := none, engine := a.isProbe, since := none }
  { s.freed with books := { s.books with tickets := s.books.tickets ++ [t] } }.stageAt a.id p.n (.ticket slice num)

/-- The open ticket of a page at a slice. -/
def State.pageTicket (s : State) (slice : BitVec 6) (ctx : BitVec 16) (va : W) : Option Ticket :=
  s.books.tickets.find? fun t => t.slice == slice && t.ctx == ctx && t.vpn == va.extractLsb' 12 36 && t.kind != 0 && !t.engine

/-- A slice meets an access with the entry of its page (R245 to R247, R352). A host entry is cached in the slice before the access is judged
(R259). A translation alone is answered by the slice. -/
def State.throughEntry (s : State) (a : Access) (p : Part) (e : TlbEntry) : State :=
  let k := a.op.partKind p.n
  let s := if e.host then s.cacheSlice (sliceOf a.core p.va) e else s
  if !e.permits k a.mode then s.stageAt a.id p.n (.refused (xlatCause k 1 0) none)
  else if s.needsShadow k e (e.phys p.va) then s.giveTicket a p .firstWrite 0
  else match s.reachPhys a.op k a.plain a.mode (e.phys p.va) e.size p.size with
    | .go st => (if a.isProbe then s.cacheSlice (sliceOf a.core p.va) e else s.cacheEntry (sliceOf a.core p.va) a.core e).stageAt a.id p.n
        (if a.op.isXlat then .answered 0 else st)
    | .stop cause poison => s.stageAt a.id p.n (.refused cause poison)

/-- The walk of an access (R245). -/
def State.walkOf (s : State) (a : Access) (va : W) : Walk := walk s.mem va 4 (s.memOf a.core a.ctx).root

/-- The slice has dealt with part of access `n`. An engine's request for a translation ends with that, unless it was refused, which the engine takes
(R256, R259). -/
def State.sliceDone (s : State) (n : Nat) : Out :=
  match s.acc n with
  | none => s.occur
  | some a =>
    if a.isProbe && a.parts.all (fun p => match p.stage with
      | .answered _ => true
      | .ticket .. => true
      | _ => false) then (s.dropAcc n).occur
    else s.occur

/-- SLICE_WALK (R245, R246): the page's open ticket, a hit, or a walk settles the access. A malformed entry is logged; the manual does not
say with what. DESIGN CHOICE (log 123): the record has UNIT 1, the cause of the fault, and the virtual address of the access. -/
def execSliceWalk (n k : Nat) (s : State) : Out :=
  match s.acc n with
  | none => s.idle
  | some a =>
    match a.part k with
    | none => s.idle
    | some p =>
      if p.stage != .slice then s.idle
      else
        let slice := sliceOf a.core p.va
        let kind := a.op.partKind k
        match s.pageTicket slice a.ctx p.va with
        | some t => (s.stageAt n k (.ticket t.slice t.num)).sliceDone n
        | none =>
          match s.sliceHit slice a.ctx p.va with
          | some e =>
            if s.needsShadow kind e (e.phys p.va) && 1024 ≤ (s.openAt slice).length then s.idle else (s.throughEntry a p e).sliceDone n
          | none =>
            if 1024 ≤ (s.openAt slice).length then s.idle
            else match s.walkOf a p.va with
              | .fault o l _ =>
                ((s.logCause { core := a.core, hart := a.hart, unit := 1, addr := p.va, info := 0 } (xlatCause kind o l)).stageAt n k
                  (.refused (xlatCause kind o l) none)).occur
              | .ticket r l _ => (s.giveTicket a p r l).sliceDone n
              | .host _ _ _ =>
                if (s.memOf a.core a.ctx).hpasid.getLsbD 63 then (s.stageAt n k .ats).occur
                else (s.stageAt n k (.refused (xlatCause kind 0 0) none)).occur
              | .leaf size pte _ => (s.throughEntry a p (leafEntry a.ctx p.va size pte)).sliceDone n

/-- What an ATS completion grants is what the access needs (R259). -/
def atsEnough (k : AccKind) (r w : Bool) : Bool :=
  match k with
  | .load => r
  | .fetch => r
  | .store => w
  | .atomic => r && w

/-- The entry that a completion yields: the leaf's permissions and the granted ones, at host address `a` (R259). -/
def hostEntry (ctx : BitVec 16) (va : W) (pte : W) (a : W) (r w : Bool) (z : BitVec 2) : TlbEntry where
  ctx := ctx
  vpn := va.extractLsb' 12 36
  size := if z == 3 then 2 else z
  frame := BitVec.ofNat 36 ((Config.hostBase + a.toNat) / 4096)
  r := pte.getLsbD 2 && r
  w := pte.getLsbD 3 && w
  x := false
  u := pte.getLsbD 5
  host := true

/-- ATS_COMPLETION (R259): `o` tells success, `a` the host address of the page, `r` and `w` what is granted, `z` the size covered.
A request that was outstanding when an Invalidation Request for its page came has been withdrawn, and its access asks again (R262, log 124). -/
def execAtsCompletion (n k : Nat) (o : Bool) (a : BitVec 64) (r w : Bool) (z : BitVec 2) (s : State) : Out :=
  match s.acc n with
  | none => s.idle
  | some x =>
    match x.part k with
    | none => s.idle
    | some p =>
      if p.stage != .ats then s.idle
      else
        let kind := x.op.partKind k
        match s.walkOf x p.va with
        | .host _ pte _ =>
          if !o || !atsEnough kind r w then
            (if 1024 ≤ (s.openAt (sliceOf x.core p.va)).length then s.idle else (s.giveTicket x p .host 0).sliceDone n)
          else if 2 ^ 44 ≤ a.toNat then (s.stageAt n k (.refused (xlatCause kind 0 0) none)).occur
          else (s.throughEntry x p (hostEntry x.ctx p.va pte a r w z)).sliceDone n
        | _ => (s.stageAt n k .slice).occur

/-! Answers to tickets. -/

/-- The ticket of a slice and number. -/
def State.findTicket (s : State) (slice : BitVec 6) (num : BitVec 16) : Option Ticket :=
  s.books.tickets.find? fun t => t.slice == slice && t.num == num

/-- Answers a ticket: with none a notice, else a fault (R257). -/
def State.answerTicket (s : State) (slice : BitVec 6) (num : BitVec 16) (x : Option (BitVec 9)) : State :=
  { s with books := { s.books with tickets := s.books.tickets.map fun t => if t.slice == slice && t.num == num then { t with answer := some x } else t } }

/-- Removes a ticket. -/
def State.closeTicket (s : State) (slice : BitVec 6) (num : BitVec 16) : State :=
  { s with books := { s.books with tickets := s.books.tickets.filter fun t => !(t.slice == slice && t.num == num) } }

/-- The access holds the ticket, or it is on the way to it. -/
def Part.holds (slice : BitVec 6) (num : BitVec 16) (p : Part) : Bool := p.stage == .parked slice num

/-- The ticket still travels to some access. -/
def State.ticketTravels (s : State) (slice : BitVec 6) (num : BitVec 16) : Bool :=
  s.net.accs.any fun a => a.parts.any fun p => p.stage == .ticket slice num

/-- A group 2 cause for another kind of access (R245). -/
def recode (cause : BitVec 9) (k : AccKind) : BitVec 9 := (cause &&& ~~~0x30#9) ||| (BitVec.ofNat 9 k.code <<< 4)

/-- The answer reaches one access of context `ctx`: a ticketed part is to be sent afresh, or has its fault; a fault of an access that the hart has not
come to, or of a frozen one, is met again when that access is sent afresh (R251 to R253). -/
def Access.resolve (ctx : BitVec 16) (slice : BitVec 6) (num : BitVec 16) (x : Option (BitVec 9)) (stands : Bool) (a : Access) : Access :=
  { a with parts := a.parts.map fun p =>
    if a.ctx == ctx && p.holds slice num then
      { p with stage := match x with
          | some cause => if stands then .fault (recode cause (a.op.partKind p.n)) (slice ++ num) none else .undone
          | none => .undone }
    else p }

/-- The hart stands at the access, or has passed it and will rewind to it. -/
def State.standsAt (s : State) (a : Access) : Bool :=
  let x := s.hartAt a.core a.hart
  a.frozen == 0 && (decide (a.seq < x.nseq) || (a.seq == x.nseq && x.tkp))

/-- An answer reaches every access of context `ctx` that holds the ticket (R252, R253, R256). -/
def State.resolveTicket (s : State) (ctx : BitVec 16) (slice : BitVec 6) (num : BitVec 16) (x : Option (BitVec 9)) : State :=
  let holders := s.net.accs.filter fun a => a.ctx == ctx && a.parts.any (Part.holds slice num)
  let s := { s with net := { s.net with accs := s.net.accs.map fun (a : Access) => a.resolve ctx slice num x (s.standsAt a) } }
  let s := holders.foldl (fun s a =>
    s.ticketRecord a.core a.hart (if x.isSome then 0x22 else 0x21) ((a.parts.find? (Part.holds slice num)).map Part.va |>.getD 0) slice) s
  holders.foldl (fun s a => s.settle a.core a.hart) s

/-- The ticket's context is switched out (R256). -/
def State.isSwitchedOut (s : State) (x : BitVec 16) : Bool := s.images.any fun m => m.ctx == x

/-- The address of a ticket's page. -/
def Ticket.va (t : Ticket) : W := t.vpn.setWidth 64 <<< 12

/-- A record about the ticket of a fetch (R255), when its core still runs the ticket's context. -/
def State.fetchRecord (s : State) (t : Ticket) (kind : BitVec 8) : State :=
  if t.kind == 0 && (s.core t.core).mem.ctxid == t.ctx then s.ticketRecord t.core t.hart kind t.va t.slice else s

/-- An answer comes for a ticket: it is applied, saved for a context that is switched out, or discarded (R252, R253, R256). A hart whose fetch
waited fetches again. -/
def State.deliverAnswer (s : State) (t : Ticket) (x : Option (BitVec 9)) : State :=
  let s := s.closeTicket t.slice t.num
  if t.kind == 0 then s.fetchRecord t 0x21
  else if s.isSwitchedOut t.ctx then
    { s with books := { s.books with savedNotices := s.books.savedNotices ++ [(t.ctx, t.slice, t.num, x)] } }
  else s.resolveTicket t.ctx t.slice t.num x

/-! Tickets of fetches, and lost tickets. -/

/-- Puts the time at which a fetch's ticket reached its hart. -/
def State.stampFetch (s : State) (t : Ticket) (since : Option W) : State :=
  { s with books := { s.books with tickets := s.books.tickets.map fun u => if u.slice == t.slice && u.num == t.num then { u with since := since } else u } }

/-- A fetch of hart `h` of core `c` at `va` waits for its page. When its slice has none open for it, a ticket is opened; a ticket that is not at
the hart reaches it, which is recorded (R245, R246, R255). `r` and `level` are the reason and level of a new one. -/
def State.waitFetch (s : State) (c : CoreId) (h : HartId) (va : W) (new : Option (TicketReason × Nat)) : State :=
  let now := s.cycleOf c h
  match fetchTicket s c h va, new with
  | some t, _ => if t.since.isNone then (s.stampFetch t (some now)).fetchRecord t 0x20 else s
  | none, some (r, level) =>
    let slice := sliceOf c va
    let num := BitVec.ofNat 16 (freeNumber ((s.openAt slice).map fun u => u.num.toNat) 1024 s.free.toNat)
    let t : Ticket := { slice := slice, num := num, ctx := (s.core c).mem.ctxid, core := c, hart := h, agid := (s.hartAt c h).agid,
                        vpn := va.extractLsb' 12 36, kind := 0, level := BitVec.ofNat 2 level, reason := r.code, answer := none,
                        engine := false, since := some now }
    { s.freed with books := { s.books with tickets := s.books.tickets ++ [t] } }.fetchRecord t 0x20
  | none, none => s

/-- The part waits for a ticket of a slice in the set. -/
def Part.lostAt (slices : BitVec 64) (p : Part) : Bool :=
  match p.stage with
  | .parked slice _ => slices.getLsbD slice.toNat
  | .ticket slice _ => slices.getLsbD slice.toNat
  | _ => false

/-- The slices of a set lose their tickets (R254): each access that waits for one has a fault with cause 0x1C5, reason 2, once its hart stands at it,
a younger or a frozen one when the hart comes to it again; a fetch meets the same when it is tried again; an engine asks again. -/
def State.loseTickets (s : State) (slices : BitVec 64) : State :=
  let hit := s.net.accs.filter fun a => !a.orphan && a.parts.any (Part.lostAt slices)
  let lose (a : Access) : Access := if a.orphan then a else
    { a with parts := a.parts.map fun p => if p.lostAt slices then { p with stage := .lost } else p }
  let tickets := s.books.tickets.filterMap fun t =>
    if !slices.getLsbD t.slice.toNat then some t
    else if t.kind == 0 && !t.engine then some { t with answer := some (some 0x1C5) } else none
  let s := { s with net := { s.net with accs := s.net.accs.map lose }, books := { s.books with tickets := tickets } }
  hit.foldl (fun s a => (s.onHartAt a.core a.hart fun x => { x with tkp := x.tkp || (a.frozen == 0 && decide (a.seq < x.nseq)) }).settle a.core a.hart) s

/-- REPLAY_NOTICE (R252). -/
def execReplayNotice (slice : BitVec 6) (num : BitVec 16) (s : State) : Out :=
  match s.findTicket slice num with
  | none => s.idle
  | some t =>
    if t.answer == some none && !s.ticketTravels slice num then (s.deliverAnswer t none).occur else s.idle

/-- TICKET_FAULT (R253). The fault of a fetch is taken by its hart when it fetches again, and that of an engine by the engine. -/
def execTicketFault (slice : BitVec 6) (num : BitVec 16) (s : State) : Out :=
  match s.findTicket slice num with
  | none => s.idle
  | some t =>
    match t.answer with
    | some (some cause) => if t.kind == 0 || t.engine || s.ticketTravels slice num then s.idle else (s.deliverAnswer t (some cause)).occur
    | _ => s.idle

/-- A ticket that reached the hart at `since` has stayed open for TKLIM core cycles (R255). -/
def State.overLimit (s : State) (c : CoreId) (h : HartId) (since : W) : Bool :=
  let x := s.hartAt c h
  x.tklim != 0 && decide (x.tklim.toNat ≤ (s.cycleOf c h - since).toNat)

/-- The open ticket of the fetch at the pc of a hart that waits for nothing else. -/
def State.waitingFetch (s : State) (c : CoreId) (h : HartId) : Option (Ticket × W) :=
  let x := s.hartAt c h
  if x.stopped || x.wait != .none || x.tkp then none
  else match fetchTicket s c h x.pc with
    | some t => if t.answer.isNone then t.since.map fun w => (t, w) else none
    | none => none

/-- TICKET_TIMEOUT (R254, R255): the entry is freed, and TRET sends the access afresh. A fetch that waits for its page times out too. -/
def execTicketTimeout (c : BitVec 12) (h : BitVec 2) (s : State) : Out :=
  let x := s.hartAt c h
  if s.unconfirmed c h then s.idle
  else match (s.live c h).find? fun a => a.seq == x.nseq with
    | some a =>
      if x.tkp && s.rewound c h && a.parked && s.overLimit c h a.since then ((s.dropAcc a.id).trapAt c h false 0x1C5 0 1 x.pc).occur
      else s.idle
    | none => match s.waitingFetch c h with
      | some (t, w) => if s.overLimit c h w then ((s.stampFetch t none).trapAt c h false 0x1C5 0 1 x.pc).occur else s.idle
      | none => s.idle

end Sys2Proof.Machine
end

