-- ==== Sys2Proof/Machine/Engine.lean ====
section
/-!
DEFINITION. How an engine reaches memory (R197, R200, R202, R256, R289, R302): it translates as a hart does, but it waits on tickets
itself, and what fails becomes a problem in a status, never a trap.
-/

namespace Sys2Proof.Machine

/-- For whom an engine works: the issuing hart, and what a command carries of it (R208). -/
structure Party where
  core : CoreId
  hart : HartId
  ctx : BitVec 16
  agid : BitVec 16
  mode : BitVec 2
  /-- the opcode of the packets that carry what it writes (R319) -/
  opcode : Nat
deriving DecidableEq, Repr

/-- What an engine finds of one address. -/
inductive EngReach where
  /-- a memory key, and the state in which its slice holds the page -/
  | here (s : State) (key : Nat)
  /-- another package's store (R200) -/
  | remote
  /-- not yet: a ticket or a migration; with the state in which a ticket has been asked for -/
  | wait (s : State)
  /-- a problem, by its code in R293 -/
  | problem (s : State) (code : Nat)

/-- The code of a ticket that resolved as a fault (R302). -/
def problemCode (cause : BitVec 9) : Nat :=
  match (cause.extractLsb' 2 2).toNat with
  | 2 => 3
  | 3 => 4
  | _ => 1

/-- The engine's ticket for a page. -/
def State.engineTicket (s : State) (slice : BitVec 6) (ctx : BitVec 16) (va : W) : Option Ticket :=
  s.books.tickets.find? fun t => t.engine && t.slice == slice && t.ctx == ctx && t.vpn == va.extractLsb' 12 36

/-- An engine asks for a ticket (R246, R256). -/
def State.askTicket (s : State) (p : Party) (k : AccKind) (va : W) (reason : TicketReason) (level : Nat) : State :=
  let slice := sliceOf p.core va
  if 1024 ≤ (s.openAt slice).length then s
  else
    let num := BitVec.ofNat 16 (freeNumber ((s.openAt slice).map fun t => t.num.toNat) 1024 s.free.toNat)
    let t : Ticket := { slice := slice, num := num, ctx := p.ctx, core := p.core, hart := p.hart, agid := p.agid,
                        vpn := va.extractLsb' 12 36, kind := BitVec.ofNat 2 k.code, level := BitVec.ofNat 2 level,
                        reason := reason.code, answer := none, engine := true, since := none }
    { s.freed with books := { s.books with tickets := s.books.tickets ++ [t] } }

/-- The request for a translation of a page that an engine has made (R259). -/
def State.findProbe (s : State) (p : Party) (k : AccKind) (va : W) : Option Access :=
  s.net.accs.find? fun a => a.isProbe && a.core == p.core && a.hart == p.hart && a.ctx == p.ctx && a.op == .xlat (BitVec.ofNat 2 k.code) &&
    a.parts.any fun q => q.va.extractLsb' 12 36 == va.extractLsb' 12 36

/-- The cause with which an engine's request for a translation was refused. -/
def Access.refusal (a : Access) : Option (BitVec 9) := a.parts.findSome? fun q => match q.stage with
  | .refused cause _ => some cause
  | _ => none

/-- An engine meets a host-backed leaf that no slice holds: it asks its slice for a translation alone, by which no byte is read or written (R259). -/
def State.probe (s : State) (p : Party) (k : AccKind) (va : W) : State :=
  let h := s.hartAt p.core p.hart
  if (s.findProbe p k va).isSome then s
  else
    let a : Access := { id := s.fresh, core := p.core, hart := p.hart, seq := 0, mark := h.resume, ctx := p.ctx, agid := p.agid, mode := p.mode,
                        op := .xlat (BitVec.ofNat 2 k.code), vec := false, plain := false, acq := false, orphan := true, mute := false,
                        parts := [{ n := 0, va := va, size := 1, data := 0, stage := .slice }], frozen := 0, since := 0 }
    { s with net := { s.net with accs := s.net.accs ++ [a] } }.bump

/-- An engine meets the entry of a page. -/
def throughEngine (s : State) (p : Party) (k : AccKind) (va : W) (size : Nat) (e : TlbEntry) : EngReach :=
  if !e.permits k p.mode then .problem s 1
  else if s.needsShadow k e (e.phys va) then .wait (s.askTicket p k va .firstWrite 0)
  else match physCheck s.cap k false p.mode (e.phys va) size with
    | .ok => if migrationHolds s.cap (e.phys va).toNat then .wait s else .here s (e.phys va).toNat
    | .withdrawn => .problem s 4
    | .problem _ => .problem s 1
    | .device => .problem s 1

/-- What an engine finds of `size` bytes at `va`, which lie in one page (R195 to R202, R245, R256, R302). It writes its core's own store without
passing the guard (R197). A miss at a slice that holds 1 024 tickets waits, and what a walk finds fills the slice's TLB (R246). Its reads of a peer's store go there with its command, opcode 0x0B (R288). DESIGN CHOICE (log 123): the record of a
malformed entry holds UNIT 1, the cause that a hart would take, and the virtual address. -/
def engineReach (s : State) (p : Party) (k : AccKind) (va : W) (size : Nat) : EngReach :=
  match spaceOf va with
  | .loc =>
    if k.writes || guardOk (s.core p.core).mem.lguard p.mode k va.toNat size then
      (if va.toNat + size ≤ Config.localSize then .here s (localKey p.core va.toNat) else .problem s 1)
    else .problem s 1
  | .beyond => .problem s 1
  | .wild => .problem s 1
  | .peer =>
    if va.extractLsb' 52 4 != 0 then
      (if s.retraining (va.extractLsb' 52 4) then .wait s else if s.routed (va.extractLsb' 52 4) then .remote else .problem s 1)
    else match windowCheck s (if k.writes then p.opcode else 11) p.ctx k (va.extractLsb' 40 12) (va.extractLsb' 36 4) (va.extractLsb' 0 36) size with
      | .ok a => .here s (localKey (va.extractLsb' 40 12) a)
      | .error _ => .problem s 1
  | .global =>
    let slice := sliceOf p.core va
    match s.engineTicket slice p.ctx va with
    | some { answer := none, .. } => .wait s
    | some { answer := some (some cause), num, .. } => .problem (s.closeTicket slice num) (problemCode cause)
    | _ =>
      match s.sliceHit slice p.ctx va with
      | some e => throughEngine s p k va size e
      | none => match (s.findProbe p k va).bind fun a => a.refusal.map fun cause => (a, cause) with
        | some (a, cause) => .problem (s.dropAcc a.id) (problemCode cause)
        | none =>
        if 1024 ≤ (s.openAt slice).length then .wait s
        else match walk s.mem va 4 (s.memOf p.core p.ctx).root with
        | .fault o l _ => .problem (s.logCause { core := p.core, hart := p.hart, unit := 1, addr := va, info := 0 } (xlatCause k o l)) 1
        | .ticket r l _ => .wait (s.askTicket p k va r l)
        | .host _ _ _ => if (s.memOf p.core p.ctx).hpasid.getLsbD 63 then .wait (s.probe p k va) else .problem s 1
        | .leaf size' pte _ =>
          let e := leafEntry p.ctx va size' pte
          throughEngine (s.cacheSlice slice e) p k va size e

/-- What an engine's read gives: bytes, each with whether its line is poisoned. -/
inductive EngRead where
  | bytes (s : State) (l : List (Byte × Bool))
  | wait (s : State)
  | problem (s : State) (code : Nat)

/-- Free bytes (log 8). -/
def freeBytes (s : State) (n : Nat) : State × List (Byte × Bool) :=
  ({ s with freeCount := s.freeCount + n }, (List.range n).map fun i => ((Config.freeWord (s.freeCount + i)).setWidth 8, false))

/-- The bytes at a key, each with whether its line is poisoned. -/
def mixedAt (s : State) (key n : Nat) : List (Byte × Bool) :=
  (List.range n).map fun i => (readByte s.mem (key + i), poisoned s (key + i) 1)

/-- An engine reads bytes within one page. -/
def engineReadIn (s : State) (p : Party) (va : W) (n : Nat) : EngRead :=
  match engineReach s p .load va n with
  | .here s key => .bytes s (mixedAt s key n)
  | .remote => let r := freeBytes s n; .bytes r.1 r.2
  | .wait s => .wait s
  | .problem s c => .problem s c

/-- Bytes from `a` to the end of its page, at most `n`. -/
def inPage (a n : Nat) : Nat := min n (4096 - a % 4096)

/-- An engine reads a range of bytes, page by page. -/
def engineReadFrom (s : State) (p : Party) : Nat → Nat → Nat → EngRead
  | 0, _, _ => .bytes s []
  | fuel + 1, a, n =>
    if n == 0 then .bytes s []
    else if 2 ^ 64 ≤ a then .problem s 1
    else
      let k := inPage a n
      match engineReadIn s p (BitVec.ofNat 64 a) k with
      | .bytes s x => match engineReadFrom s p fuel (a + k) (n - k) with
        | .bytes s y => .bytes s (x ++ y)
        | r => r
      | r => r

/-- An engine reads `n` bytes at `va`. -/
def engineRead (s : State) (p : Party) (va : W) (n : Nat) : EngRead := engineReadFrom s p (n / 4096 + 2) va.toNat n

/-- The little-endian number that bytes hold. -/
def mixedNat (l : List (Byte × Bool)) : Nat := leNat (l.map (·.1))

/-- Some of the bytes are poisoned. -/
def anyPoison (l : List (Byte × Bool)) : Bool := l.any (·.2)

/-- An engine waits: nothing happens, but for a ticket that it has asked for. -/
def State.waited (s t : State) : Out := if t.books == s.books && t.net == s.net then s.idle else t.occur

/-- What an engine's write gives. -/
inductive EngWrite where
  | ok (s : State)
  | wait (s : State)
  | problem (s : State) (code : Nat)

/-- The lines that the bytes at a key touch. -/
def linesOf (key n : Nat) : List Nat := if n == 0 then [] else (List.range ((key + n - 1) / 64 - key / 64 + 1)).map fun i => key / 64 + i

/-- Marks lines as poisoned. -/
def State.poisonLines (s : State) (l : List Nat) : State := { s with poison := l.foldl (fun m x => insertNat x m) s.poison }

/-- Every byte of a line is among bytes at a key, and none of them is poisoned. -/
def cleansLine (key : Nat) (l : List (Byte × Bool)) (line : Nat) : Bool :=
  decide (key ≤ 64 * line ∧ 64 * line + 64 ≤ key + l.length) && !anyPoison ((l.drop (64 * line - key)).take 64)

/-- Stores bytes of which some are poisoned: those are not written, and their lines become poisoned (R302). A line written whole with bytes that are not
loses its poison (R212). -/
def storeMixed (s : State) (key : Nat) (l : List (Byte × Bool)) : State :=
  if l.all fun x => !x.2 then storeBytes s key (l.map (·.1))
  else
    let idx := l.zip (List.range l.length)
    let m := idx.foldl (fun m (x : (Byte × Bool) × Nat) => if x.1.2 then m else writeByte m (key + x.2) x.1.1) s.mem
    let kept := s.poison.filter fun line => !cleansLine key l line
    { s with mem := m, poison := kept }.poisonLines
      ((idx.filter fun (x : (Byte × Bool) × Nat) => x.1.2).map fun (x : (Byte × Bool) × Nat) => (key + x.2) / 64)

/-- A write of an engine outside its partition or to shared memory breaks a replayable launch (R352). -/
def engineBreaks (s : State) (p : Party) (key : Nat) : State :=
  if key < Config.commonsBase then s
  else if key < 2 ^ 48 then s.breaks p.core
  else if (s.core (BitVec.ofNat 12 ((key - 2 ^ 48) / Config.localSize))).mem.ctxid == p.ctx then s
  else s.breaks p.core

/-- An engine writes bytes within one page, some of them poisoned. -/
def engineWriteIn (s : State) (p : Party) (va : W) (l : List (Byte × Bool)) : EngWrite :=
  match engineReach s p .store va l.length with
  | .here s key => .ok (engineBreaks (storeMixed s key l) p key)
  | .remote => .ok (s.breaks p.core)
  | .wait s => .wait s
  | .problem s c => .problem s c

/-- Every page of a range lets the engine write; the first that does not decides. -/
def engineCanWrite (s : State) (p : Party) : Nat → Nat → Nat → EngWrite
  | 0, _, _ => .ok s
  | fuel + 1, a, n =>
    if n == 0 then .ok s
    else if 2 ^ 64 ≤ a then .problem s 1
    else match engineReach s p .store (BitVec.ofNat 64 a) (inPage a n) with
      | .wait s => .wait s
      | .problem s c => .problem s c
      | .here s _ => engineCanWrite s p fuel (a + inPage a n) (n - inPage a n)
      | .remote => engineCanWrite s p fuel (a + inPage a n) (n - inPage a n)

/-- An engine writes bytes that all pages let pass. -/
def engineWriteAll (s : State) (p : Party) : Nat → Nat → List (Byte × Bool) → State
  | 0, _, _ => s
  | fuel + 1, a, l =>
    if l.isEmpty then s
    else
      let k := inPage a l.length
      match engineWriteIn s p (BitVec.ofNat 64 a) (l.take k) with
      | .ok s => engineWriteAll s p fuel (a + k) (l.drop k)
      | _ => s

/-- An engine writes a range of bytes, all of them or none. -/
def engineWrite (s : State) (p : Party) (va : W) (l : List (Byte × Bool)) : EngWrite :=
  let fuel := l.length / 4096 + 2
  match engineCanWrite s p fuel va.toNat l.length with
  | .ok s => .ok (engineWriteAll s p fuel va.toNat l)
  | r => r

/-- Bytes without poison. -/
def clean (l : List Byte) : List (Byte × Bool) := l.map fun x => (x, false)

end Sys2Proof.Machine
end

