-- ==== Sys2Proof/Machine/Time.lean ====
section
/-!
DEFINITION. Tags, clocks and reactions (R264 to R287): NEXT, DONE, POST, POSTP, TNOW, LATEQ, TWAIT, the arrival of tagged messages, late
records, rewinds, the horizon and the commit of ordered stores.
-/

namespace Sys2Proof.Machine

/-! Clocks (R265). -/

/-- TIME_TREE_REFERENCE (R15, R265): the reference reads `t`, and core `c` is disciplined to stand `k` ns off it, within its bound. Its PTC keeps the
value that it has until its clock has caught up. -/
def execTimeTreeReference (t : BitVec 64) (c : BitVec 12) (k : BitVec 16) (s : State) : Out :=
  if s.timeRef.toNat ≤ t.toNat && k.toInt.natAbs ≤ (s.core c).tags.terr.toNat then
    let now := s.ptc c
    { s with timeRef := t }.onCore c (fun x => { x with tags := { x.tags with skew := k, held := now } }) |>.occur
  else s.idle

/-! Late records (R277 to R279, R286). -/

/-- A NEXT or DONE of the executing hart meets LTP = 1 (R279). -/
def State.lateTrap (s : State) : State := s.fault (lateCause s s.cur) (BitVec.ofNat 64 s.self.tags.oldestLate) 0

/-! The inbox and reactions. -/

/-- Port group of a port. -/
def portGroup (p : BitVec 4) : Nat := p.toNat / 2

/-- NEXT (R281): the hart joins the core's waiting NEXTs. RXPC takes the address of the NEXT when that begins a reaction (R270): one that an interrupt
ends has begun none. -/
def State.next (s : State) (i : Instr) (d : BitVec 5) : State :=
  if s.hart.rx then s.fault (BitVec.ofNat 9 (0x128 + portGroup s.hart.react.curp)) 0 0
  else if s.self.ltp s.curHart then s.lateTrap
  else
    let s := s.markEmpty (.v d)
    let me := s.curHart
    (s.onSelf fun k => { k with tags := { k.tags with nexters := k.tags.nexters ++ [me] } }).waitIn i (.next d)

/-- NEXT (R281). -/
def execNext (d : BitVec 5) (w l : Bool) (s : State) : Out :=
  issue (.next d w l) s (s.preciseOr (.next d w l) (s.next (.next d w l) d))

/-- CURS of a message (R270). -/
def InMsg.curs (m : InMsg) : W := BitVec.ofBool m.late ++ 0#41 ++ m.pidx ++ m.shart ++ m.score

/-- The head of the inbox fires a reaction on hart `h` (R271, R281). -/
def State.deliver (s : State) (c : CoreId) (h : HartId) (d : BitVec 5) (m : InMsg) : State :=
  let id := s.fresh
  let s := s.bump.onCore c fun k => { k with tags := { k.tags with
    inbox := k.tags.inbox.drop 1, nexters := dropHart h k.tags.nexters, lft := m.t, lftm := m.m,
    active := some { id := id, t := m.t, m := m.m, hart := h, msg := m, escaped := false } } }
  let s := s.onHartAt c h fun x => { x with
    rx := true, react := { x.react with rxpc := x.pc, curt := m.ot, curm := m.om, curp := m.port, curs := m.curs, posts := 0 } }
  s.finishWait c h (oneWrite (.v d) (m.payload.setWidth 1024))

/-- NEXT_DELIVERY (R268, R271, R281); a hart whose LTP is 1 takes the late trap instead (R286). -/
def execNextDelivery (c : BitVec 12) (s : State) : Out :=
  let k := s.core c
  match k.tags.inbox, k.tags.nexters with
  | m :: _, h :: _ =>
    if s.headSafe c && !k.anyRx && k.tags.window.length < 8 && !s.atRest c && !k.sys.fenced && !s.reinjecting k.mem.ctxid then
      match (k.hart h).wait with
      | .next d => if k.ltp h then (s.wakeLate c).occur else (s.deliver c h d m).occur
      | _ => s.idle
    else s.idle
  | _, _ => s.idle

/-- DONE (R281): the reaction enters the window. -/
def execDone (w l : Bool) (s : State) : Out :=
  issue (.done w l) s
    (if !s.hart.rx then s.fault (BitVec.ofNat 9 (0x130 + portGroup s.hart.react.curp)) 0 0
     else if s.self.ltp s.curHart then s.lateTrap
     else
      ((s.onSelf fun k => { k with tags := { k.tags with window := k.tags.window ++ k.tags.active.toList, active := none } }).onHart
        fun h => { h with rx := false, react := { h.react with posts := 0 } }).complete)

/-! Posts. -/

/-- The number that the next access of the executing hart has. -/
def State.accId (s : State) : Nat := (s.ownEntry.map Access.id).getD s.fresh

/-- The hart issues a message: an access of one part, which the message's acceptance confirms (R249). `va` and `data` are TRADDR and
TRINFO of a refusal. -/
def State.issueMessage (s : State) (i : Instr) (status : Option (BitVec 5)) (va data : W) : State :=
  s.sendOut i { op := .message status, els := [], vec := false, plain := false, acq := false }
    [{ n := 0, va := va, size := 8, data := data.setWidth 512, stage := .sent (.own 0) }]

/-- The tag of a post (R282). -/
def State.postTag (s : State) (p : Bool) (d : W) : Nat × Nat :=
  if p then ((s.ptc s.cur).toNat + d.toNat, 0)
  else
    let base := if s.hart.rx then (s.self.tags.lft.toNat, s.self.tags.lftm.toNat) else (0, 0)
    if d == 0 then (base.1, base.2 + 1) else (base.1 + d.toNat, 0)

/-- POST and POSTP (R264, R269, R282). DESIGN CHOICE (log 155): the post index counts a post as it issues, and keeps that count when the post is refused
for good. -/
def State.post' (s : State) (i : Instr) (p : Bool) (e : W) (x : VReg) (d : W) : State :=
  let port := e.extractLsb' 12 4
  let pkg := e.extractLsb' 16 4
  let dst := e.extractLsb' 0 12
  let refuse (s : State) (kind : Nat) (info : W) := s.fault (BitVec.ofNat 9 (0x100 + 8 * kind + portGroup port)) 0 info
  if e.extractLsb' 20 44 != 0 || (pkg != 0 && !s.routed pkg) then refuse s 7 0
  else
    let now := s.ptc s.cur
    let tag := s.postTag p d
    let t := s.self.tags
    let tardy := decide (tag.1 + t.safeofs.toNat < now.toNat + t.flb.toNat)
    if 2 ^ 63 ≤ tag.1 || 2 ^ 32 - 2 < tag.2 then refuse s 3 1
    else if tardy && t.tpf then refuse s 3 0
    else s.orReplayed (if !s.entryReady then s.hold else
      let h := s.hart
      let away := pkg != 0 || dst != s.cur
      let id := s.accId
      let ctx := s.self.mem.ctxid
      let key := if h.rx then t.active.map fun r => r.id else none
      let s := s.onSelf fun k => { k with sys := { k.sys with outs := k.sys.outs + 1 }, tags := { k.tags with
        tcnt := if tardy && k.tags.tcnt != 0xFFFF then k.tags.tcnt + 1 else k.tags.tcnt
        active := if h.rx && away then k.tags.active.map fun r => { r with escaped := true } else k.tags.active } }
      let s := s.onHart fun h => { h with react := { h.react with posts := h.react.posts + 1 } }
      let s := s.issueMessage i none 0 0
      let m : PostMsg := { id := s.fresh, core := s.cur, hart := s.curHart, ctx := ctx, pkg := pkg, dst := dst, port := port,
                           t := BitVec.ofNat 64 tag.1, m := BitVec.ofNat 32 tag.2, pidx := h.react.posts, sptc := now, payload := x,
                           acc := id, full := false, fromReaction := key }
      { s with net := { s.net with posts := s.net.posts ++ [m] } }.bump)

/-- POST (R282). -/
def execPost (c b a : BitVec 5) (w l : Bool) (s : State) : Out :=
  issue (.post c b a w l) s (s.post' (.post c b a w l) false (s.g a) (s.v b) (s.g c))
/-- POSTP (R282). -/
def execPostp (c b a : BitVec 5) (w l : Bool) (s : State) : Out :=
  issue (.postp c b a w l) s (s.post' (.postp c b a w l) true (s.g a) (s.v b) (s.g c))

/-- TNOW (R283). -/
def execTnow (d : BitVec 5) (w l : Bool) (s : State) : Out :=
  issue (.tnow d w l) s (s.setG d (s.ptc s.cur)).complete

/-- LATEQ (R283). -/
def State.lateq (s : State) (d : BitVec 5) : State :=
  let t := s.self.tags
  let head := if t.ltPend then t.ltHead + 1 else t.ltHead
  let s := s.onSelf fun k => { k with tags := { k.tags with ltHead := head, ltPend := head != t.ltTail } }
  if head == t.ltTail then (s.setG d 0).complete
  else
    let at' := t.recordAt head
    let key := localKey s.cur (at' + 16)
    ((storeBytes s key [readByte s.mem key ||| 0x80#8]).setG d (BitVec.ofNat 64 at')).complete

/-- LATEQ (R283). -/
def execLateq (d : BitVec 5) (w l : Bool) (s : State) : Out := issue (.lateq d w l) s (s.lateq d)

/-- TWAIT has waited long enough: outside a reaction the post count starts again (R282). -/
def resetPosts (h : Hart) : Hart := if h.rx then h else { h with react := { h.react with posts := 0 } }

/-- TWAIT (R283). -/
def execTwait (a : BitVec 5) (w l : Bool) (s : State) : Out :=
  issue (.twait a w l) s
    (s.preciseOr (.twait a w l)
      (if (s.g a).toNat ≤ (s.ptc s.cur).toNat then (s.onHart resetPosts).complete else s.waitIn (.twait a w l) (.twait (s.g a))))

/-- TWAIT_EXPIRY (R283). -/
def execTwaitExpiry (c : BitVec 12) (h : BitVec 2) (s : State) : Out :=
  match (s.hartAt c h).wait with
  | .twait t => if t.toNat ≤ (s.ptc c).toNat && !s.atRest c then ((s.onHartAt c h resetPosts).finishWait c h noWrite).occur else s.idle
  | _ => s.idle

/-! Arrival (R267, R275, R276). -/

/-- Removes a message in flight. -/
def State.dropPost (s : State) (n : Nat) : State := { s with net := { s.net with posts := s.net.posts.filter fun m => m.id != n } }

/-- The message is refused for good with this cause, which its sender meets by R201. -/
def State.refusePost (s : State) (m : PostMsg) : State :=
  (s.dropPost m.id).stageAt m.acc 0 (.refused (BitVec.ofNat 9 (0x138 + portGroup m.port)) none)

/-- The message is accepted: its sender's access is answered. -/
def State.acceptPost (s : State) (m : PostMsg) : State := (s.dropPost m.id).stageAt m.acc 0 (.answered 0)

/-- The message as the inbox of its target holds it: with its place in the order of arrival, and what the core shows as it accepts it (R267, R278). -/
def State.received (s : State) (m : PostMsg) : InMsg where
  t := m.t
  m := m.m
  port := m.port
  score := m.core
  shart := m.hart
  pidx := m.pidx
  sptc := m.sptc
  payload := m.payload
  ot := m.t
  om := m.m
  late := false
  selfKey := if m.core == m.dst then m.fromReaction else none
  arr := s.fresh
  aptc := s.ptc m.dst
  ahzn := (s.core m.dst).tags.hzn
  ahznm := (s.core m.dst).tags.hznm
  alft := (s.core m.dst).tags.lft
  alftm := (s.core m.dst).tags.lftm

/-- A late arrival is counted at its port (R266, R275). -/
def countLate (p : BitVec 4) (k : Core) : Core :=
  let w := k.tags.portcfg[p.toNat]?.getD 0
  { k with tags := { k.tags with portcfg := k.tags.portcfg.setIfInBounds p.toNat (satInc (w.extractLsb' 32 32) ++ w.extractLsb' 0 32) } }

/-- The tag lies below another. -/
def tagLt (t : W) (m : BitVec 32) (t' : W) (m' : BitVec 32) : Bool := lexLt [t.toNat, m.toNat] [t'.toNat, m'.toNat]

/-- The re-tag of deliver flagged (R275): the greater of (LFT, LFTM + 1) and HZN. -/
def Tags.retag (t : Tags) : W × BitVec 32 :=
  let m := t.hznm.extractLsb' 0 32
  if tagLt t.lft (t.lftm + 1) t.hzn m then (t.hzn, m) else (t.lft, t.lftm + 1)

/-- A late message of a kind meets its port's policy (R275, R276). -/
def State.latePolicy (s : State) (c : CoreId) (x : InMsg) (kind : Nat) : State :=
  let s := s.onCore c (countLate x.port)
  let t := (s.core c).tags
  let held (s : State) := s.late c x (BitVec.ofNat 3 kind) 0
  let put (s : State) (y : InMsg) := s.onCore c fun k => { k with tags := { k.tags with inbox := insertMsg y k.tags.inbox } }
  match ((t.portcfg[x.port.toNat]?.getD 0).extractLsb' 2 2).toNat with
  | 0 => held s
  | 1 => s
  | 2 =>
    let r := t.retag
    s.onCore c fun k => { k with tags := { k.tags with inbox := { x with t := r.1, m := r.2, late := true } :: k.tags.inbox } }
  | _ =>
    let rs := t.reactions
    let keep := (rs.takeWhile fun r => tagLt r.t r.m x.t x.m).length
    if kind == 0 && !tagLt x.t x.m t.hzn (t.hznm.extractLsb' 0 32) && !(rs.drop keep).any fun r => r.escaped then
      put (s.abortFrom c keep) x
    else held s

/-- A tagged message is at its target (R267, R275). -/
def State.tagged (s : State) (m : PostMsg) : State :=
  let c := m.dst
  let k := s.core c
  if m.pkg != 0 then (if s.routed m.pkg then s.acceptPost m else s.refusePost m)
  else if s.pkg.absent.contains c || k.sys.fenced || !s.admits c m.ctx 8 || k.mem.ctxid != m.ctx ||
      !(k.tags.portcfg[m.port.toNat]?.getD 0).getLsbD 0 then s.refusePost m
  else if 256 ≤ k.tags.inbox.length then
    { s with net := { s.net with posts := s.net.posts.map fun x => if x.id == m.id then { x with full := true } else x } }
  else
    let x := s.received m
    let below := tagLt x.t x.m k.tags.lft k.tags.lftm
    let bound := tagLt x.t x.m k.tags.hzn (k.tags.hznm.extractLsb' 0 32)
    let s := (s.acceptPost m).bump.onCore c fun k => { k with sys := { k.sys with ins := k.sys.ins + 1 } }
    if !below && !bound then s.onCore c fun k => { k with tags := { k.tags with inbox := insertMsg x k.tags.inbox } }
    else (s.latePolicy c x (if m.full then 2 else if below then 0 else 1)).wakeLate c

/-- The message of a number. -/
def State.findPost (s : State) (n : Nat) : Option PostMsg := s.net.posts.find? fun m => m.id == n

/-- TAGGED_MESSAGE (R275). -/
def execTaggedMessage (n : Nat) (s : State) : Out :=
  match s.findPost n with
  | some m => if m.full || s.retraining m.pkg then s.idle else if s.heldBack n 0 then s.turnedAway n 0 else (s.tagged m).occur
  | none => s.turnedAway n 0

/-- INBOX_RESEND (R267): a message that a full inbox refused comes again. -/
def execInboxResend (n : Nat) (s : State) : Out :=
  match s.findPost n with
  | some m =>
    let t := s.tagged m
    if m.full && !s.heldBack n 0 && t.net.posts != s.net.posts then t.occur else s.idle
  | none => s.idle

/-! The horizon and commits (R236, R272 to R274). -/

/-- A horizon key: time, microstep, core, hart, and 1 for the key immediately above. -/
abbrev HKey := List Nat

/-- The lesser of two keys. -/
def minKey (a b : HKey) : HKey := if lexLt a b then a else b

/-- What core `c` contributes to the horizon (R272). -/
def horizonOf (s : State) (c : CoreId) : HKey :=
  let t := (s.core c).tags
  let clock : HKey := [(s.ptc c).toNat - t.safeofs.toNat, 0, 0, 0, 0]
  let a := match t.active with
    | some r => minKey clock (r.key c ++ [0])
    | none => clock
  let w := match t.window with
    | r :: _ => minKey a (r.key c ++ [1])
    | [] => a
  match t.inbox with
  | m :: _ => minKey w [m.t.toNat, m.m.toNat, c.toNat, 0, 0]
  | [] => w

/-- The key that a core shows in HZN and HZNM. -/
def Tags.horizon (t : Tags) : HKey :=
  [t.hzn.toNat, (t.hznm.extractLsb' 0 32).toNat, (t.hznm.extractLsb' 32 12).toNat, (t.hznm.extractLsb' 44 2).toNat,
   (t.hznm.extractLsb' 46 1).toNat]

/-- HZN and HZNM that show a key (R273). -/
def horizonRegs (k : HKey) : W × W :=
  let n (i : Nat) := k[i]?.getD 0
  (BitVec.ofNat 64 (n 0), 0#17 ++ BitVec.ofNat 1 (n 4) ++ BitVec.ofNat 2 (n 3) ++ BitVec.ofNat 12 (n 2) ++ BitVec.ofNat 32 (n 1))

/-- An entry of the ordered buffer is written to its bank; a poisoned line stays poisoned unless it is written whole (R212). -/
def writeEntry (s : State) (e : OrdEntry) : State :=
  let line := natLe 64 (e.over (s.bytesAt (64 * e.line) 64)).toNat
  if e.mask == BitVec.allOnes 64 then storeBytes s (64 * e.line) line else { s with mem := writeBytes s.mem (64 * e.line) line }

/-- The key of the reaction that a read record names (R236). -/
def ReadRec.key (r : ReadRec) : List Nat := [r.t.toNat, r.m.toNat, r.core.toNat, r.hart.toNat]

/-- The read record of the earlier reaction of two. -/
def earlier (a : Option ReadRec) (b : ReadRec) : Option ReadRec :=
  match a with
  | none => some b
  | some x => if lexLt b.key x.key then some b else some x

/-- A commit of `key` on core `c` to a line calls for the abort of another core's readers above it (R236). -/
def doomReaders (s : State) (c : CoreId) (key : List Nat) (line : Nat) : State :=
  (s.reads.filter fun r => r.line == line && r.core != c && lexLt key r.key).foldl
    (fun s r => s.onCore r.core fun k => { k with tags := { k.tags with doomed := earlier k.tags.doomed r } }) s

/-- Commits the oldest reaction of core `c`'s window (R236, R272): all its entries in one step. -/
def State.commit (s : State) (c : CoreId) (r : Reaction) : State :=
  let own (e : OrdEntry) : Bool := e.rid == r.id
  let es := (s.core c).tags.obuf.filter own
  let s := es.foldl writeEntry s
  let s := if es.isEmpty then s else s.breaks c
  let s := es.foldl (fun s e => doomReaders s c (r.key c) e.line) s
  let s := s.onCore c fun k => { k with tags := { k.tags with
    window := k.tags.window.drop 1, obuf := k.tags.obuf.filter fun e => !own e, cft := r.t, cftm := r.m } }
  { s with reads := s.reads.filter fun x => !(x.core == c && x.rid == r.id) }

/-- The core of the partition whose oldest finished reaction has the lowest key below the horizon. -/
def firstCommit (s : State) (cs : List CoreId) (h : HKey) : Option (CoreId × Reaction) :=
  cs.foldl (fun a c => match (s.core c).tags.window with
    | [] => a
    | r :: _ =>
      if !lexLt (r.key c ++ [0]) h then a
      else match a with
        | none => some (c, r)
        | some (c', r') => if lexLt (r.key c) (r'.key c') then some (c, r) else a) none

/-- Commits reactions below the horizon in ascending key, as long as no abort is called for (R236, R272). -/
def commitAll (cs : List CoreId) (h : HKey) : Nat → State → State
  | 0, s => s
  | n + 1, s =>
    if cs.any fun c => (s.core c).tags.doomed.isSome then s
    else match firstCommit s cs h with
      | none => s
      | some (c, r) => commitAll cs h n (s.commit c r)

/-- HORIZON_PUBLISH (R272): the least key over the partition of context `x` reaches every core of it. DESIGN CHOICE (log 129): where that key has
fallen below the last one published, so that R272's two bounds cannot both hold, the last one stays. -/
def execHorizonPublish (x : BitVec 16) (s : State) : Out :=
  let cs := s.partition x
  match cs with
  | [] => s.idle
  | c :: t =>
    if cs.any fun c => (s.core c).tags.doomed.isSome then s.idle
    else
      let low := t.foldl (fun a c => minKey a (horizonOf s c)) (horizonOf s c)
      let old := t.foldl (fun a c => if lexLt a (s.core c).tags.horizon then (s.core c).tags.horizon else a) (s.core c).tags.horizon
      let key := if lexLt low old then old else low
      let regs := horizonRegs key
      let s := cs.foldl (fun s c => s.onCore c fun k => { k with tags := { k.tags with hzn := regs.1, hznm := regs.2 } }) s
      (commitAll cs key (8 * cs.length) s).occur

/-- Place of the reaction that a read record names among those of its core. -/
def Tags.indexOf (t : Tags) (k : ReadRec) : Option Nat := t.reactions.findIdx? fun r => r.id == k.rid

/-- REACTION_ABORT (R236, R274): the abort that a commit has called for takes place on core `c`, from the reaction at place `n` on. -/
def execReactionAbort (c : BitVec 12) (n : Nat) (s : State) : Out :=
  match (s.core c).tags.doomed with
  | none => s.idle
  | some k =>
    let i := (s.core c).tags.indexOf k
    if i == some n || i.isNone then
      let s := s.onCore c fun x => { x with tags := { x.tags with doomed := none } }
      ((if i.isSome then s.abortFrom c n else s).wakeLate c).occur
    else s.idle

/-- REACTION_ABORT_RESTART (R274): once its accesses are answered, a hart whose reaction was aborted stands at its NEXT again; its entries go, frozen
ones among them. -/
def execReactionAbortRestart (c : BitVec 12) (h : BitVec 2) (s : State) : Out :=
  let x := s.hartAt c h
  if x.react.abort && !s.unconfirmed c h && x.wait.interruptible && !x.pend.any Pend.binds then
    (((s.cancelWait c h).cancelTickets c h).onHartAt c h restartHart).occur
  else s.idle

end Sys2Proof.Machine
end

