-- ==== Sys2Proof/Machine/Queue.lean ====
section
/-!
DEFINITION. Queues (R304 to R309): channels between cores with their held messages, the event FIFOs (R310), and messages to a front end
(R366).
-/

namespace Sys2Proof.Machine

/-! Sending. -/

/-- The queue is a channel. -/
def isChannel (q : BitVec 5) : Bool := decide (q.toNat < 16)

/-- CHOUT of a channel of the executing core. -/
def State.chout (s : State) (q : BitVec 5) : W := s.self.chan.chout[q.toNat]?.getD 0

/-- The address that a message to queue `q` takes: a core and an endpoint; 16 stands for the front end of the die (R366). -/
def State.endpoint (s : State) (q : BitVec 5) : CoreId × BitVec 5 :=
  if isChannel q then ((s.chout q).extractLsb' 0 12, ((s.chout q).extractLsb' 12 4).setWidth 5) else (s.cur, 16)

/-- Core `c` has sent a tagged or channel message (R358). -/
def State.countOut (s : State) (c : CoreId) : State := s.onCore c fun k => { k with sys := { k.sys with outs := k.sys.outs + 1 } }

/-- A sending form on a queue that takes it (R307): the message sets out, and its acceptance confirms the access. -/
def State.send (s : State) (i : Instr) (q : BitVec 5) (wide : Bool) (x : VReg) (status : Option (BitVec 5)) : State :=
  let out := if isChannel q then s.chout q else 0
  if isChannel q && !out.getLsbD 63 then s.fault 0x171 (q.setWidth 64) out
  else s.orReplayed (if !s.entryReady then s.hold else
    let id := s.accId
    let e := s.endpoint q
    let t := s.issueMessage i status (q.setWidth 64) out
    let m : ChanMsg := { id := t.fresh, core := s.cur, hart := s.curHart, ctx := s.self.mem.ctxid, agid := s.hart.agid, dst := e.1,
                         chan := e.2, wide := wide, data := x, acc := some id, once := status.isSome, held := false, batch := none }
    { t with net := { t.net with chans := t.net.chans ++ [m] } }.bump.countOut s.cur)

/-- ENQ: channels, and queue 23 (R304). -/
def execEnq (q d : BitVec 5) (w l : Bool) (s : State) : Out :=
  issue (.enq q d w l) s
    (if isChannel q || q == 23 then s.send (.enq q d w l) q false ((s.g d).setWidth 512) none else s.fault 0x170 (q.setWidth 64) 0)
/-- ENQV: channels (R304). -/
def execEnqv (q d : BitVec 5) (w l : Bool) (s : State) : Out :=
  issue (.enqv q d w l) s (if isChannel q then s.send (.enqv q d w l) q true (s.v d) none else s.fault 0x170 (q.setWidth 64) 0)
/-- ENQN: as ENQ, and the hart waits for the answer (R307). -/
def execEnqn (b q d : BitVec 5) (w l : Bool) (s : State) : Out :=
  issue (.enqn b q d w l) s (s.preciseOr (.enqn b q d w l)
    (if isChannel q || q == 23 then s.send (.enqn b q d w l) q false ((s.g d).setWidth 512) (some b) else s.fault 0x170 (q.setWidth 64) 0))

/-! At the target (R307). -/

/-- Bytes of a message. -/
def ChanMsg.size (m : ChanMsg) : Nat := if m.wide then 64 else 8

/-- Bytes of the ring of endpoint `n` (R306). -/
def Channels.ringBytes (x : Channels) (n : Nat) : Nat := 8 * ((x.inReg n).extractLsb' 19 16).toNat

/-- Local address of byte `i` of the running count of endpoint `n` (R306). -/
def Channels.ringAddr (x : Channels) (n i : Nat) : Nat := 8 * ((x.inReg n).extractLsb' 3 16).toNat + i % x.ringBytes n

/-- Writes a message into a ring at the running index PROD, byte by byte across its end, and advances PROD (R307 case 4). -/
def State.ringWrite (s : State) (c : CoreId) (n size : Nat) (x : VReg) : State :=
  let ch := (s.core c).chan
  let p := (ch.chptr[n]?.getD 0).extractLsb' 32 32
  let s := (List.range size).foldl (fun s i =>
    storeBytes s (localKey c (ch.ringAddr n (p.toNat + i))) [(x.extractLsb' (8 * i) 8)]) s
  s.onCore c fun k => { k with chan := { k.chan with
    chptr := k.chan.chptr.setIfInBounds n ((p + BitVec.ofNat 32 size) ++ (ch.chptr[n]?.getD 0).extractLsb' 0 32) } }

/-- What the target does with a message. -/
inductive ChanAnswer where
  | refuse (cause : BitVec 9)
  /-- accepted, in this state -/
  | accept (s : State)
  | full

/-- The cores of die `d` that the configuration table makes front ends (R373). -/
def State.frontEnds (s : State) (d : BitVec 2) : List CoreId :=
  match s.pkg.boot with
  | .done _ t => (t.roles.map (·.1)).filter fun c => dieOf c == d && s.role c == 1
  | _ => []

/-- The target's network interface meets a message; the first case of R307 that applies decides. -/
def chanArrive (s : State) (m : ChanMsg) : ChanAnswer :=
  let k := s.core m.dst
  let n := m.chan.toNat
  if n == 16 then
    let d := dieOf m.dst
    if m.ctx != 0 && !(s.frontEnds d).any fun c => s.admits c m.ctx 9 then .refuse 0x174
    else if 64 ≤ (s.front.soft.filter fun x => x.1 == d).length then .full
    else .accept { s with front := { s.front with soft := s.front.soft ++ [(d, m.data.extractLsb' 0 64, m.ctx, m.agid, m.core)] } }
  else if s.pkg.absent.contains m.dst || k.sys.fenced || k.mem.ctxid != m.ctx || !s.admits m.dst m.ctx 9 then .refuse 0x174
  else if !(k.chan.inReg n).getLsbD 63 then .refuse 0x171
  else if (k.chan.inReg n).getLsbD 62 != m.wide then .refuse 0x173
  else if k.chan.ringBytes n < m.size then .refuse 0x172
  else if k.chan.used n + m.size ≤ k.chan.ringBytes n then .accept ((s.ringWrite m.dst n m.size m.data).onCore m.dst fun k => { k with sys := { k.sys with ins := k.sys.ins + 1 } })
  else .full

/-- Removes a message in flight. -/
def State.dropChan (s : State) (n : Nat) : State := { s with net := { s.net with chans := s.net.chans.filter fun (m : ChanMsg) => m.id != n } }

/-- One more problem in a batch of a hart (R293). -/
def State.problem (s : State) (c : CoreId) (h : HartId) (b : BitVec 16) (code : Nat) : State :=
  s.onHartAt c h fun x => { x with batch := x.batch.setStatus b (addProblem (x.batch.statusOf b) code) }

/-- The batch finishes: BDONE steps (R292). -/
def State.finishBatch (s : State) (c : CoreId) (h : HartId) (b : BitVec 16) : State :=
  s.onHartAt c h fun x => { x with batch := { x.batch with bdone := b, sealed := x.batch.sealed.filter fun p => p.1 != b } }

/-- A message has its answer: the sender's access is answered with the status of ENQN, or the batch that it reports finishes, with a
problem of code 6 when it was refused (R303, R307). -/
def State.chanDone (s : State) (m : ChanMsg) (r : Except (BitVec 9) (BitVec 512)) : State :=
  let s := s.dropChan m.id
  let s := match m.acc, r with
    | some a, .ok x => s.stageAt a 0 (.answered x)
    | some a, .error cause => s.stageAt a 0 (.refused cause none)
    | none, _ => s
  match m.batch, r with
  | some b, .ok _ => s.finishBatch m.core m.hart b
  | some b, .error _ => (s.problem m.core m.hart b 6).finishBatch m.core m.hart b
  | none, _ => s

/-- Messages that its core has sent to the same endpoint come before (R307, R309). -/
def State.sentBefore (s : State) (m : ChanMsg) : Bool :=
  (s.net.chans.takeWhile fun (x : ChanMsg) => x.id != m.id).any fun x =>
    x.core == m.core && x.dst == m.dst && x.chan == m.chan

/-- The message of a number. -/
def State.findChan (s : State) (n : Nat) : Option ChanMsg := s.net.chans.find? fun (m : ChanMsg) => m.id == n

/-- CHANNEL_MESSAGE (R307). -/
def execChannelMessage (n : Nat) (s : State) : Out :=
  match s.findChan n with
  | none => s.turnedAway n 0
  | some m =>
    if m.held || s.sentBefore m then s.idle
    else if s.heldBack n 0 then s.turnedAway n 0
    else match chanArrive s m with
      | .refuse cause => (s.chanDone m (.error cause)).occur
      | .accept t => (t.chanDone m (.ok 0)).occur
      | .full =>
        if m.once then (s.chanDone m (.ok 1)).occur
        else { s with net := { s.net with chans := s.net.chans.map fun (x : ChanMsg) => if x.id == n then { x with held := true } else x } }.occur

/-- CHANNEL_HELD_RESEND (R307 case 5). -/
def execChannelHeldResend (n : Nat) (s : State) : Out :=
  match s.findChan n with
  | none => s.idle
  | some m =>
    if !m.held || s.sentBefore m || s.spilled n then s.idle
    else match chanArrive s m with
      | .refuse cause => (s.chanDone m (.error cause)).occur
      | .accept t => (t.chanDone m (.ok 0)).occur
      | .full => s.idle

/-! Receiving (R308). -/

/-- Messages or records that queue `q` of core `c` holds. -/
def State.queueHeld (s : State) (c : CoreId) (q : BitVec 5) : Nat :=
  if isChannel q then (s.core c).chan.held q.toNat else ((s.core c).chan.fifo q.toNat).length

/-- Takes the oldest message or record of a queue that holds one: its bits, and the queue without it. -/
def State.take (s : State) (c : CoreId) (q : BitVec 5) : VReg × State :=
  let ch := (s.core c).chan
  let n := q.toNat
  if isChannel q then
    let p := ch.chptr[n]?.getD 0
    let cons := p.extractLsb' 0 32
    let size := ch.msgSize n
    let x := (List.range size).foldl (fun a i =>
      a ||| ((readByte s.mem (localKey c (ch.ringAddr n (cons.toNat + i)))).setWidth 512 <<< (8 * i))) (0 : VReg)
    (x, s.onCore c fun k => { k with chan := { k.chan with
      chptr := k.chan.chptr.setIfInBounds n (p.extractLsb' 32 32 ++ (cons + BitVec.ofNat 32 size)) } })
  else
    (((ch.fifo n).head?.getD 0).setWidth 512, s.onCore c fun k => { k with chan := { k.chan with
      fifos := k.chan.fifos.setIfInBounds (n - 16) ((ch.fifo n).drop 1) } })

/-- The cause of a receiving form that its queue does not take (R304, R308, R309); none when it does. -/
def State.takeCause (s : State) (q : BitVec 5) (wide bound : Bool) : Option (BitVec 9) :=
  let r := s.self.chan.inReg q.toNat
  if !isChannel q then (if wide then some 0x170 else none)
  else if bound && !r.getLsbD 63 then some 0x171
  else if r.getLsbD 63 && r.getLsbD 62 != wide then some 0x173
  else none

/-- DEQ and DEQV: the hart joins the waiting DEQs of its core on the queue. -/
def State.deq (s : State) (i : Instr) (q : BitVec 5) (r : RegRef) (wide : Bool) : State :=
  match s.takeCause q wide true with
  | some cause => s.fault cause (q.setWidth 64) 0
  | none =>
    let me := s.curHart
    ((s.markEmpty r).onSelf fun k => { k with chan := { k.chan with takers := k.chan.takers ++ [(me, q)] } }).waitIn i (.deq r q)

/-- DEQ (R308). -/
def execDeq (q d : BitVec 5) (w l : Bool) (s : State) : Out :=
  issue (.deq q d w l) s (s.preciseOr (.deq q d w l) (s.deq (.deq q d w l) q (.g d) false))
/-- DEQV (R308). -/
def execDeqv (q d : BitVec 5) (w l : Bool) (s : State) : Out :=
  issue (.deqv q d w l) s (s.preciseOr (.deqv q d w l) (s.deq (.deqv q d w l) q (.v d) true))

/-- DEQ_TAKE (R308): the first waiting DEQ of the queue takes a whole message. -/
def execDeqTake (c : BitVec 12) (q : BitVec 5) (s : State) : Out :=
  let k := s.core c
  match k.chan.takers.find? fun p => p.2 == q with
  | none => s.idle
  | some p =>
    if s.queueHeld c q == 0 || s.atRest c || k.sys.fenced then s.idle
    else match (k.hart p.1).wait with
      | .deq r _ =>
        let x := s.take c q
        let t := x.2.onCore c fun k => { k with chan := { k.chan with takers := k.chan.takers.filter fun y => y != p } }
        (t.finishWait c p.1 (oneWrite r (x.1.setWidth 1024))).occur
      | _ => s.idle

/-- DEQN (R308): it never waits. -/
def State.deqn (s : State) (b q d : BitVec 5) : State :=
  match s.takeCause q false false with
  | some cause => s.fault cause (q.setWidth 64) 0
  | none =>
    if s.queueHeld s.cur q != 0 && !s.self.chan.takers.any fun p => p.2 == q then
      let x := s.take s.cur q
      ((x.2.setG d (x.1.extractLsb' 0 64)).setG b 0).complete
    else (s.setG b 1).complete

/-- DEQN (R308). -/
def execDeqn (b q d : BitVec 5) (w l : Bool) (s : State) : Out := issue (.deqn b q d w l) s (s.deqn b q d)

/-- QLEN (R308). -/
def execQlen (q d : BitVec 5) (w l : Bool) (s : State) : Out :=
  issue (.qlen q d w l) s (s.setG d (BitVec.ofNat 64 (s.queueHeld s.cur q))).complete

/-! Event FIFOs (R310). -/

/-- A record enters its FIFO, or is discarded and noted in EVSTAT when it is full (R310). -/
def Channels.push (x : Channels) (q : BitVec 5) (r : W) : Channels :=
  let l := x.fifo q.toNat
  if 64 ≤ l.length then { x with evstat := x.evstat ||| (1#8 <<< (q.toNat - 16)) }
  else { x with fifos := x.fifos.setIfInBounds (q.toNat - 16) (l ++ [r]) }

/-- EVENT_RECORD (R310): the records of one producer reach a FIFO in order. An absent core and one of a fenced kennel refuse it, and one of
the firmware from another context unless ALLOW bit 15 is set (R10, R350, R374). -/
def execEventRecord (n : Nat) (s : State) : Out :=
  match s.net.events.find? fun (e : EvMsg) => e.id == n with
  | none => s.turnedAway n 0
  | some e =>
    if (s.net.events.takeWhile fun (x : EvMsg) => x.id != n).any fun x => x.src == e.src && x.core == e.core && x.fifo == e.fifo then s.idle
    else if s.heldBack n 0 then s.turnedAway n 0
    else
      let t := { s with net := { s.net with events := s.net.events.filter fun (x : EvMsg) => x.id != n } }
      if s.pkg.absent.contains e.core || (s.core e.core).sys.fenced || !s.admits e.core (s.packetCtx (.record e)) 15 then t.occur
      else (t.onCore e.core fun k => { k with chan := k.chan.push e.fifo e.record }).occur

end Sys2Proof.Machine
end

