-- ==== Sys2Proof/Machine/Coll.lean ====
section
/-!
DEFINITION. Collectives (R328 to R339): the router adders, list buffers, wave entries that fire, waves at their destination, the COLL
instructions and the completion of a generation.
-/

namespace Sys2Proof.Machine

/-! The router adder (R328). -/

/-- Bytes of an element. -/
def elWidth (typ : BitVec 2) : Nat := if typ == 1 then 2 else 4

/-- An INT32 result, saturated, with IOV in bit 0 when it was out of range. -/
def satInt32 (z : Int) : BitVec 32 × BitVec 5 :=
  if z < -(2 ^ 31) then (0x80000000#32, 1) else if 2 ^ 31 ≤ z then (0x7FFFFFFF#32, 1) else (BitVec.ofInt 32 z, 0)

/-- NV, OF, UF, NX of FPSTAT's order, as a status record holds them, with IOV clear (R335). -/
def collFlags (fl : BitVec 5) : BitVec 5 := BitVec.ofBool (fl.getLsbD 4) ++ fl.extractLsb' 0 3 ++ 0#1

/-- A combine of two elements (R328): the result, and NV, OF, UF, NX, IOV. -/
def combine (typ op : BitVec 2) (a b : BitVec 32) : BitVec 32 × BitVec 5 :=
  let float (k : Fmt) : BitVec 32 × BitVec 5 :=
    let r := if op == 0 then k.add 0 a.toNat b.toNat else k.minMax (op == 1) a.toNat b.toNat
    (BitVec.ofNat 32 r.1, collFlags r.2)
  match typ.toNat with
  | 0 => float fp32
  | 1 => float bf16
  | _ => if op == 0 then satInt32 (a.toInt + b.toInt) else if op == 1 then (if a.slt b then b else a, 0) else (if a.slt b then a else b, 0)

/-- The identity element of an operation (R328). -/
def collIdentity (typ op : BitVec 2) : BitVec 32 :=
  let float (k : Fmt) : BitVec 32 := BitVec.ofNat 32 (if op == 0 then k.sign true else k.inf (op == 1))
  match typ.toNat with
  | 0 => float fp32
  | 1 => float bf16
  | _ => if op == 0 then 0 else if op == 1 then 0x80000000#32 else 0x7FFFFFFF#32

/-! Contents of a buffer (R331, R333). -/

/-- An element, with whether its line is poisoned. -/
abbrev CEl := BitVec 32 × Bool

/-- What a buffer or a payload holds: all elements, or the pairs of a list. -/
inductive Content where
  | dense (l : List CEl)
  | sparse (l : List (Nat × BitVec 32 × Bool))
deriving DecidableEq, Repr

/-- A combine of elements, one of which may be poisoned: so is then the result. -/
def combineEl (typ op : BitVec 2) (a b : CEl) : CEl × BitVec 5 :=
  if a.2 || b.2 then ((0, true), 0) else let r := combine typ op a.1 b.1; ((r.1, false), r.2)

/-- Combines elements one by one. -/
def combineAll (typ op : BitVec 2) : List CEl → List CEl → List CEl × BitVec 5
  | a :: t, b :: u =>
    let r := combineEl typ op a b
    let q := combineAll typ op t u
    (r.1 :: q.1, r.2 ||| q.2)
  | t, _ => (t, 0)

/-- A pair joins a list: a value of the same index is combined (R333). -/
def insertPair (typ op : BitVec 2) (x : Nat × BitVec 32 × Bool) :
    List (Nat × BitVec 32 × Bool) → List (Nat × BitVec 32 × Bool) × BitVec 5
  | [] => ([x], 0)
  | y :: t =>
    if x.1 < y.1 then (x :: y :: t, 0)
    else if x.1 == y.1 then
      let r := combineEl typ op y.2 x.2
      ((y.1, r.1) :: t, r.2)
    else
      let r := insertPair typ op x t
      (y :: r.1, r.2)

/-- All elements of a list, with the identity where it has none (R333). -/
def densify (typ op : BitVec 2) (nel : Nat) (l : List (Nat × BitVec 32 × Bool)) : List CEl :=
  (List.range nel).map fun i => match l.find? fun p => p.1 == i with
    | some p => p.2
    | none => (collIdentity typ op, false)

/-- The pairs of a list whose index is below `nel`, and how many are not (R333). -/
def inRange (nel : Nat) (l : List (Nat × BitVec 32 × Bool)) : List (Nat × BitVec 32 × Bool) × Nat :=
  let ok := l.filter fun x => decide (x.1 < nel)
  (ok, l.length - ok.length)

/-- A payload meets a buffer (R332, R333): the result, the flags, and the pairs of either that are dropped because their index is `nel` or more. -/
def meet (typ op : BitVec 2) (nel dens : Nat) (d p : Content) : Content × BitVec 5 × Nat :=
  match p with
  | .dense b =>
    let a := match d with
      | .dense a => (a, 0)
      | .sparse l => (densify typ op nel l, (inRange nel l).2)
    let r := combineAll typ op a.1 b
    (.dense r.1, r.2, a.2)
  | .sparse l =>
    let ok := inRange nel l
    match d with
    | .dense a =>
      let r := ok.1.foldl (fun (z : List CEl × BitVec 5) x =>
        let e := combineEl typ op (z.1[x.1]?.getD (0, false)) x.2
        (z.1.set x.1 e.1, z.2 ||| e.2)) (a, 0)
      (.dense r.1, r.2, ok.2)
    | .sparse a =>
      let old := inRange nel a
      let r := ok.1.foldl (fun (z : List (Nat × BitVec 32 × Bool) × BitVec 5) x =>
        let e := insertPair typ op x z.1
        (e.1, z.2 ||| e.2)) (old.1, 0)
      (if dens < r.1.length then .dense (densify typ op nel r.1) else .sparse r.1, r.2, ok.2 + old.2)

/-- Bytes that a list buffer holds (R331). -/
def listBytes (typ : BitVec 2) (nel dens : Nat) : Nat := 8 + max (8 * dens) (elWidth typ * nel)

/-- Elements from a key. -/
def readEls (s : State) (typ : BitVec 2) (key n : Nat) : List CEl :=
  let w := elWidth typ
  (List.range n).map fun i => (BitVec.ofNat 32 (readNat s.mem (key + w * i) w), poisoned s (key + w * i) w)

/-- Pairs from a key. -/
def readPairs (s : State) (typ : BitVec 2) (key n : Nat) : List (Nat × BitVec 32 × Bool) :=
  (List.range n).map fun i =>
    (readNat s.mem (key + 8 * i) 4, BitVec.ofNat 32 (readNat s.mem (key + 8 * i + 4) (elWidth typ)), poisoned s (key + 8 * i) 8)

/-- Header of a list buffer. -/
def listHeader (s : State) (key : Nat) : W := BitVec.ofNat 64 (readNat s.mem key 8)

/-- The content of a buffer at a key, dense or a list buffer. -/
def readContent (s : State) (typ : BitVec 2) (isList : Bool) (nel key : Nat) : Content :=
  if !isList then .dense (readEls s typ key nel)
  else if (listHeader s key).getLsbD 63 then .dense (readEls s typ (key + 8) nel)
  else .sparse (readPairs s typ (key + 8) ((listHeader s key).extractLsb' 0 32).toNat)

/-- The bytes of an element, each marked as the element is. -/
def elBytes (w : Nat) (x : CEl) : List (Byte × Bool) := (natLe w x.1.toNat).map fun b => (b, x.2)

/-- The bytes of a content, without a header. -/
def contentBytes (typ : BitVec 2) : Content → List (Byte × Bool)
  | .dense l => l.flatMap (elBytes (elWidth typ))
  | .sparse l => l.flatMap fun p => clean (natLe 4 p.1) ++ elBytes 4 p.2

/-- The header of a list buffer for a content; its other bits stay. -/
def headerFor (old : W) : Content → W
  | .dense _ => (old &&& 0x7FFFFFFFFFFFFFFF#64) ||| 0x8000000000000000#64
  | .sparse l => (old &&& 0x7FFFFFFF00000000#64) ||| BitVec.ofNat 64 l.length

/-- Writes a content to a buffer. -/
def writeContent (s : State) (typ : BitVec 2) (isList : Bool) (key : Nat) (x : Content) : State :=
  if isList then storeMixed s key (clean (natLe 8 (headerFor (listHeader s key) x).toNat) ++ contentBytes typ x)
  else storeMixed s key (contentBytes typ x)

/-- Some part of a content is poisoned. -/
def Content.bad : Content → Bool
  | .dense l => l.any fun x => x.2
  | .sparse l => l.any fun x => x.2.2

/-! Slots. -/

/-- Slot `i` of core `c`. -/
def State.cslot (s : State) (c : CoreId) (i : BitVec 4) : CSlot := (s.core c).slots[i.toNat]'(by have := i.isLt; omega)

/-- Applies a change to slot `i` of core `c`. -/
def State.onSlot (s : State) (c : CoreId) (i : BitVec 4) (f : CSlot → CSlot) : State :=
  s.onCore c fun k => { k with slots := k.slots.set i.toNat (f (k.slots[i.toNat]'(by have := i.isLt; omega))) (by have := i.isLt; omega) }

/-- A slot with `n` problems more, of one outcome: the greatest outcome is kept, but outcome 3 of a malformed entry stands (R337). -/
def CSlot.note (x : CSlot) (o : BitVec 4) (n : Nat) : CSlot :=
  if n == 0 then x
  else { x with outcome := if x.outcome.toNat < o.toNat && !(x.err && x.outcome == 3) then o else x.outcome, problems := BitVec.ofNat 4 (min 15 (x.problems.toNat + n)) }

/-- The state word of WCNT and WWAIT (R337). -/
def CSlot.word (x : CSlot) : W :=
  if x.arm then
    BitVec.ofBool x.arm ++ BitVec.ofBool x.pers ++ BitVec.ofBool x.err ++ BitVec.ofBool x.done ++ 0#12 ++ x.gen ++ x.count
  else 0

/-! Entries (R330, R332). -/

/-- A wave entry, read out. -/
structure WEntry where
  dst : W
  thresh : BitVec 32
  nel : Nat
  next : Option W
  dl : Bool
  src : Nat
  acc : Nat
  sl : Bool
  dslot : BitVec 4
  kind : BitVec 2
  op : BitVec 2
  typ : BitVec 2
  zero : Bool
deriving DecidableEq, Repr

/-- The fields of an entry (R330). -/
def wentry (e : BitVec 256) : WEntry where
  dst := e.extractLsb' 192 64
  thresh := e.extractLsb' 160 32
  nel := (e.extractLsb' 144 16).toNat
  next := if e.getLsbD 129 then some ((e.extractLsb' 130 14).setWidth 64 <<< 5) else none
  dl := e.getLsbD 128
  src := 32 * (e.extractLsb' 114 14).toNat
  acc := 32 * (e.extractLsb' 100 14).toNat
  sl := e.getLsbD 99
  dslot := e.extractLsb' 95 4
  kind := e.extractLsb' 93 2
  op := e.extractLsb' 91 2
  typ := e.extractLsb' 89 2
  zero := e.extractLsb' 0 89 == 0

/-- Bytes of a source or accumulating buffer of the entry. -/
def WEntry.bufBytes (e : WEntry) (dens : Nat) : Nat := if e.sl then listBytes e.typ e.nel dens else elWidth e.typ * e.nel

/-- The entry is malformed (R330). -/
def WEntry.malformed (e : WEntry) (dens : Nat) : Bool :=
  !e.zero || e.kind == 3 || e.op == 3 || e.typ == 3 || e.nel == 0 ||
    (e.kind == 0 && (e.op != 0 || e.sl != e.dl || (spaceOf e.dst == .global && e.dslot != 0))) ||
    (e.kind != 0 && (spaceOf e.dst != .peer || e.dst.extractLsb' 52 4 != 0)) ||
    decide (Config.spillBase < e.src + e.bufBytes dens) || (e.kind == 2 && decide (Config.spillBase < e.acc + e.bufBytes dens))

/-- The wave of an entry, without what it brings. -/
def waveOf (s : State) (c : CoreId) (i : BitVec 4) (x : CSlot) (e : WEntry) : Wave where
  id := s.fresh
  core := c
  hart := x.hart
  slot := i
  gen := x.gen
  ctx := x.ctx
  agid := x.agid
  mode := x.mode
  reduce := e.kind != 0
  dst := e.dst
  dslot := e.dslot
  typ := e.typ
  op := e.op
  nel := e.nel
  dl := e.dl
  list := false
  pairs := []
  elems := []
  raw := []

/-- A wave with a content to combine. -/
def Wave.bring (w : Wave) : Content → Wave
  | .dense l => { w with elems := l }
  | .sparse l => { w with list := true, pairs := l }

/-- A wave sets out: its sender awaits the answer. -/
def State.sendWave (s : State) (c : CoreId) (i : BitVec 4) (w : Wave) : State :=
  { s.onSlot c i (fun x => { x with owed := x.owed ++ [w.id] }) with net := { s.net with waves := s.net.waves ++ [w] } }.bump

/-- The bytes that a write wave takes from its source (R332). -/
def writeSource (s : State) (e : WEntry) (key : Nat) : List (Byte × Bool) :=
  let w := elWidth e.typ
  if !e.sl then mixedAt s key (w * e.nel)
  else
    let h := listHeader s key
    mixedAt s key (8 + (if h.getLsbD 63 then w * e.nel else 8 * (h.extractLsb' 0 32).toNat))

/-- The engine may use the entry's buffers: the local guard lets it read them, by the mode of the hart that armed the slot, and a list ends where its
header says. What it writes does not pass the guard (R197). -/
def State.buffersOk (s : State) (c : CoreId) (x : CSlot) (e : WEntry) (dens : Nat) : Bool :=
  let g := (s.core c).mem.lguard
  let n := e.bufBytes dens
  let fits (a : Nat) : Bool :=
    let h := listHeader s (localKey c a)
    !e.sl || h.getLsbD 63 || decide (a + 8 + 8 * (h.extractLsb' 0 32).toNat ≤ Config.spillBase)
  guardOk g x.mode .load e.src n && fits e.src && (e.kind != 2 || (guardOk g x.mode .load e.acc n && fits e.acc))

/-- An entry fires (R332): its wave sets out with what its sources hold; a problem is noted at its slot. -/
def State.fireEntry (s : State) (c : CoreId) (i : BitVec 4) (e : WEntry) : State :=
  let x := s.cslot c i
  let dens := (s.core c).colldens.toNat
  let key := localKey c e.src
  let w := waveOf s c i x e
  if !s.buffersOk c x e dens then s.onSlot c i fun x => x.note 4 1
  else if e.kind == 0 then
    let l := writeSource s e key
    (s.onSlot c i fun x => x.note 4 (if anyPoison l then 1 else 0)).sendWave c i { w with raw := l }
  else
    let a := readContent s e.typ e.sl e.nel key
    if e.kind == 1 then (s.onSlot c i fun x => x.note 4 (if a.bad then 1 else 0)).sendWave c i (w.bring a)
    else
      let akey := localKey c e.acc
      let b := readContent s e.typ e.sl e.nel akey
      let r := meet e.typ e.op e.nel dens b a
      let s := writeContent s e.typ e.sl akey
        (if e.sl then .sparse [] else .dense (List.replicate e.nel (collIdentity e.typ e.op, false)))
      (s.onSlot c i fun x => { (x.note 4 (r.2.2 + if r.1.bad then 1 else 0)) with flags := x.flags ||| r.2.1 }).sendWave c i (w.bring r.1)

/-- The chain of a slot is cut short (R335, R337); by a malformed entry with outcome 3, whatever has gone before. -/
def CSlot.cut (x : CSlot) (o : BitVec 4) : CSlot :=
  let y := x.note o 1
  { y with err := true, cursor := none, outcome := if o == 3 then 3 else y.outcome }

/-- Entries fire in the order of the chain, each once in a generation, as long as COUNT has reached their thresholds (R332). `fuel`
bounds the entries that local store can hold. -/
def State.fire (c : CoreId) (i : BitVec 4) : Nat → State → State
  | 0, s => s
  | fuel + 1, s =>
    let x := s.cslot c i
    match x.cursor with
    | none => s
    | some a =>
      let key := localKey c a.toNat
      if !x.arm then s
      else if Config.spillBase < a.toNat + 32 then s.onSlot c i fun x => x.cut 3
      else if poisoned s key 32 then s.onSlot c i fun x => x.cut 4
      else
        let e := wentry (BitVec.ofNat 256 (readNat s.mem key 32))
        if x.count.toNat < e.thresh.toNat then s
        else if e.malformed (s.core c).colldens.toNat then s.onSlot c i fun x => x.cut 3
        else
          let done := x.fired ++ [a]
          let s := (s.fireEntry c i e).onSlot c i fun x =>
            { x with fired := done, cursor := e.next.filter fun n => !done.contains n }
          State.fire c i fuel s

/-! Waves at their destination (R332 to R334). -/

/-- The content of a reduce wave. -/
def Wave.content (w : Wave) : Content := if w.list then .sparse w.pairs else .dense w.elems

/-- Bytes of a wave's payload. -/
def Wave.bytes (w : Wave) : Nat := if w.reduce then (if w.list then 8 * w.pairs.length else elWidth w.typ * w.elems.length) else w.raw.length

/-- Bytes that the wave may touch at its destination. -/
def Wave.reachBytes (w : Wave) (dens : Nat) : Nat :=
  if !w.reduce then w.raw.length else if w.dl then listBytes w.typ w.nel dens else elWidth w.typ * w.nel

/-- The wave's place in core `c`'s store, if its window lets it pass. -/
def State.wavePlace (s : State) (w : Wave) (c : CoreId) : Except Problem Nat :=
  windowRegion s w.ctx (if w.reduce then .atomic else .store) c (w.dst.extractLsb' 36 4) (w.dst.extractLsb' 0 36)
    (w.reachBytes (s.core c).colldens.toNat)

/-- A wave is applied at core `c`, from local address `a`; the answer counts its data problems (R332, R333, R348). -/
def State.applyWave (s : State) (w : Wave) (c : CoreId) (a : Nat) : State × Nat :=
  let key := localKey c a
  if !w.reduce then (storeMixed s key w.raw, 0)
  else if w.dl && poisoned s key 8 then (s, 1)
  else
    let d := readContent s w.typ w.dl w.nel key
    let r := meet w.typ w.op w.nel (s.core c).colldens.toNat d w.content
    let s := writeContent s w.typ w.dl key r.1
    (s.onSlot c w.dslot fun x => { x with flags := x.flags ||| r.2.1 }, r.2.2 + if d.bad then 1 else 0)

/-- A wave counts at its slot (R332). -/
def State.countWave (s : State) (c : CoreId) (i : BitVec 4) : State := s.onSlot c i fun x => { x with count := x.count + 1 }

/-- The staged waves of a slot are applied in the order of their arrival (R337); one whose window no longer lets it pass is a problem. -/
def State.applyStaged (s : State) (c : CoreId) (i : BitVec 4) (l : List Wave) : State :=
  l.foldl (fun s (w : Wave) => match s.wavePlace w c with
    | .ok a =>
      let r := s.applyWave w c a
      (r.1.countWave c i).onSlot c i fun x => x.note 4 r.2
    | .error _ => s.onSlot c i fun x => x.note 4 1) s

/-- The next generation of a slot begins (R337): its staged waves are applied, and its entries fire. -/
def State.nextGeneration (s : State) (c : CoreId) (i : BitVec 4) : State :=
  let y := s.cslot c i
  let t := s.onSlot c i fun y => { y with
    gen := y.gen + 1, done := false, count := 0, cursor := some y.chain, fired := [], staged := [], outcome := 0, problems := 0, flags := 0 }
  State.fire c i 16128 (t.applyStaged c i y.staged)

/-- A hart that waits in WWAIT gets its word when its count is reached or the generation is done (R337). -/
def State.wakeSlot (s : State) (c : CoreId) (i : BitVec 4) (h : HartId) : State :=
  match (s.hartAt c h).wait with
  | .wwait d j n =>
    let x := s.cslot c i
    if j == i && x.arm && (decide (n.toNat ≤ x.count.toNat) || x.done) then s.finishWait c h (oneWrite (.g d) (x.word.setWidth 1024)) else s
  | _ => s

/-- A hart that waits in WSTART begins the next generation once the slot's is done (R337). -/
def State.startSlot (s : State) (c : CoreId) (i : BitVec 4) (h : HartId) : State :=
  if (s.hartAt c h).wait == .wstart i && (s.cslot c i).done then (s.nextGeneration c i).finishWait c h noWrite else s

/-- Wakes the harts that wait for slot `i`, in WWAIT before a WSTART begins the next generation and after; who executes stays as it is. -/
def State.wakeWaiters (s : State) (c : CoreId) (i : BitVec 4) : State :=
  let all (f : State → HartId → State) (s : State) : State := hartIds.foldl f s
  let t := all (fun s h => s.wakeSlot c i h) (all (fun s h => s.startSlot c i h) (all (fun s h => s.wakeSlot c i h) s))
  { t with cur := s.cur, curHart := s.curHart, slot := s.slot, cPfx := s.cPfx, flow := s.flow, disp := s.disp }

/-- Entries of a slot that can fire do so, and harts that wait for the slot wake. -/
def State.advance (s : State) (c : CoreId) (i : BitVec 4) : State := (State.fire c i 16128 s).wakeWaiters c i

/-- The sender has the answer to a wave (R335). -/
def State.answerWave (s : State) (w : Wave) (o : BitVec 4) (n : Nat) : State :=
  s.onSlot w.core w.slot fun x =>
    if x.owed.contains w.id then { x.note o n with owed := x.owed.filter fun k => k != w.id } else x

/-- Bytes that a staged wave takes (R334). -/
def Wave.stagedBytes (w : Wave) : Nat := (32 + w.bytes + 63) / 64 * 64

/-- Bytes of the staging area in use. -/
def CSlot.stagedBytes (x : CSlot) : Nat := x.staged.foldl (fun n w => n + w.stagedBytes) 0

/-- A wave of the next generation is held whole in the staging area. How its bytes lie there is not stated: the area's place for it holds
free bytes (log 8). -/
def State.stage (s : State) (w : Wave) (c : CoreId) : State :=
  let x := s.cslot c w.dslot
  let r := freeBytes s w.stagedBytes
  (storeMixed r.1 (localKey c (x.stageBase + x.stagedBytes)) r.2).onSlot c w.dslot fun x => { x with staged := x.staged ++ [w] }

/-- A wave reaches core `c`'s interface (R329, R334). -/
def State.waveArrives (s : State) (w : Wave) (c : CoreId) : State :=
  let x := s.cslot c w.dslot
  if s.pkg.absent.contains c then s.answerWave w 4 1
  else if (s.core c).sys.fenced then s.answerWave w 1 1
  else if !s.admits c w.ctx 14 then s.answerWave w 4 1
  else if !x.arm || x.ctx != w.ctx then s.answerWave w 1 1
  else match s.wavePlace w c with
    | .error _ => s.answerWave w 4 1
    | .ok a =>
      let d := (w.gen - x.gen).toNat
      if d == 0 then
        let r := s.applyWave w c a
        ((r.1.countWave c w.dslot).answerWave w 4 r.2).advance c w.dslot
      else if d == 1 && x.pers && x.stagedBytes + w.stagedBytes ≤ x.stageLen then (s.stage w c).answerWave w 0 0
      else if d < 0x8000 then (s.onSlot c w.dslot fun x => { x with err := true, cursor := none }).answerWave w 2 1
      else s.answerWave w 1 1

/-- For whom a wave is written to global memory. -/
def Wave.party (w : Wave) : Party := { core := w.core, hart := w.hart, ctx := w.ctx, agid := w.agid, mode := w.mode, opcode := 14 }

/-- Removes a wave in flight. -/
def State.dropWave (s : State) (n : Nat) : State := { s with net := { s.net with waves := s.net.waves.filter fun (w : Wave) => w.id != n } }

/-- The wave of a number. -/
def State.findWave (s : State) (n : Nat) : Option Wave := s.net.waves.find? fun (w : Wave) => w.id == n

/-- The next packet of a wave has come to its destination. -/
def State.wavePacket (s : State) (n : Nat) : State :=
  { s with net := { s.net with waves := s.net.waves.map fun (w : Wave) => if w.id == n then { w with got := w.got + 1 } else w } }

/-- COLLECTIVE_WAVE (R332): the next packet of a wave comes to its destination, and with the last one the wave is applied. -/
def execCollectiveWave (n : Nat) (s : State) : Out :=
  match s.findWave n with
  | none => s.turnedAway n 0
  | some w =>
    let t := s.dropWave n
    if w.dead then (t.answerWave w 4 1).occur
    else if spaceOf w.dst == .peer && s.retraining (w.dst.extractLsb' 52 4) then s.idle
    else if s.heldBack n w.got then s.turnedAway n w.got
    else if w.got + 1 < w.packets then (s.wavePacket n).occur
    else match spaceOf w.dst with
    | .peer =>
      if w.dst.extractLsb' 52 4 == 0 then (t.waveArrives w (w.dst.extractLsb' 40 12)).occur
      else if s.routed (w.dst.extractLsb' 52 4) then ((t.breaks w.core).answerWave w 0 0).occur
      else (t.answerWave w 4 1).occur
    | .global =>
      match engineWrite s w.party w.dst w.raw with
      | .wait u => s.waited u
      | .ok u => ((u.dropWave n).answerWave w 0 0).occur
      | .problem u _ => ((u.dropWave n).answerWave w 4 1).occur
    | _ => (t.answerWave w 4 1).occur

/-- GENERATION_COMPLETE (R335): the last entry has fired and every wave is answered. -/
def execGenerationComplete (c : BitVec 12) (i : BitVec 4) (s : State) : Out :=
  let x := s.cslot c i
  if x.arm && !x.done && x.cursor.isNone && x.owed.isEmpty then
    let s := s.onSlot c i fun x => { x with done := true }
    ((s.post (srcCore c) c 18 0x30 (x.outcome ++ x.problems)
      (x.flags.setWidth 48 <<< 40 ||| i.setWidth 48 <<< 32 ||| x.gen.setWidth 48)).wakeWaiters c i).occur
  else s.idle

/-! The COLL instructions (R336 to R338). -/

/-- Cause 0x162 of the slot's register (R336). -/
def slotBad (x : W) (warm : Bool) : Bool := x.extractLsb' 5 59 != 0 || (!warm && x.getLsbD 4)

/-- Slot `i` of the executing hart's core. -/
def State.mySlot (s : State) (i : BitVec 4) : CSlot := s.cslot s.cur i

/-- WARM's operands are malformed (R337). -/
def warmBad (chain stage : W) : Bool :=
  chain.toNat % 32 != 0 || decide (Config.spillBase ≤ chain.toNat) || stage.extractLsb' 0 6 != 0 || stage.extractLsb' 19 13 != 0 ||
    stage.extractLsb' 48 16 != 0 ||
    decide (Config.spillBase < 64 * (stage.extractLsb' 6 13).toNat + 64 * (stage.extractLsb' 32 16).toNat)

/-- WARM (R337). -/
def execWarm (c b a : BitVec 5) (w l : Bool) (s : State) : Out :=
  let x := s.g a
  let i := x.extractLsb' 0 4
  let st := s.g c
  issue (.warm c b a w l) s
    (if slotBad x true then s.fault 0x162 x 0
     else if (s.mySlot i).arm then s.fault 0x160 x 0
     else if warmBad (s.g b) st then s.fault 0x162 x 0
     else
      let new : CSlot := { CSlot.reset with
        arm := true, pers := x.getLsbD 4, ctx := s.self.mem.ctxid, hart := s.curHart, agid := s.hart.agid, mode := s.hart.mode,
        cursor := some (s.g b), chain := s.g b, stageBase := 64 * (st.extractLsb' 6 13).toNat, stageLen := 64 * (st.extractLsb' 32 16).toNat }
      ((s.onSlot s.cur i fun _ => new).advance s.cur i).complete)

/-- WDISARM (R337). -/
def execWdisarm (a : BitVec 5) (w l : Bool) (s : State) : Out :=
  let x := s.g a
  let i := x.extractLsb' 0 4
  issue (.wdisarm a w l) s
    (if slotBad x false then s.fault 0x162 x 0
     else if !(s.mySlot i).arm then s.fault 0x161 x 0
     else (s.onSlot s.cur i fun _ => CSlot.reset).complete)

/-- WCNT (R337). -/
def execWcnt (a d : BitVec 5) (w l : Bool) (s : State) : Out :=
  let x := s.g a
  issue (.wcnt a d w l) s (if slotBad x false then s.fault 0x162 x 0 else (s.setG d (s.mySlot (x.extractLsb' 0 4)).word).complete)

/-- The checks that WADD and WWAIT share, and after them `t` (R337). -/
def State.armedThen (s : State) (x : W) (t : CSlot → State) : State :=
  let y := s.mySlot (x.extractLsb' 0 4)
  if slotBad x false then s.fault 0x162 x 0
  else if !y.arm then s.fault 0x161 x 0
  else if y.err then s.fault 0x165 x 0
  else t y

/-- WADD (R337). -/
def execWadd (b a : BitVec 5) (w l : Bool) (s : State) : Out :=
  let x := s.g a
  let i := x.extractLsb' 0 4
  let n := (s.g b).extractLsb' 0 32
  issue (.wadd b a w l) s (s.armedThen x fun _ => ((s.onSlot s.cur i fun y => { y with count := y.count + n }).advance s.cur i).complete)

/-- WWAIT (R337). -/
def execWwait (b a d : BitVec 5) (w l : Bool) (s : State) : Out :=
  let x := s.g a
  let i := x.extractLsb' 0 4
  let n := (s.g b).extractLsb' 0 32
  issue (.wwait b a d w l) s (s.preciseOr (.wwait b a d w l) (s.armedThen x fun y =>
    if n.toNat ≤ y.count.toNat || y.done then (s.setG d y.word).complete
    else (s.markEmpty (.g d)).waitIn (.wwait b a d w l) (.wwait d i n)))

/-- WSTART (R337): its checks are made once; then the hart waits until the generation is done. -/
def execWstart (a : BitVec 5) (w l : Bool) (s : State) : Out :=
  let x := s.g a
  let i := x.extractLsb' 0 4
  let y := s.mySlot i
  issue (.wstart a w l) s (s.preciseOr (.wstart a w l)
    (if slotBad x false then s.fault 0x162 x 0
     else if !y.arm then s.fault 0x161 x 0
     else if !y.pers then s.fault 0x163 x 0
     else if y.err then s.fault 0x165 x 0
     else if y.done then ((s.nextGeneration s.cur i).wakeWaiters s.cur i).complete
     else s.waitIn (.wstart a w l) (.wstart i)))

end Sys2Proof.Machine
end

