-- ==== Sys2Proof/Machine/Sys.lean ====
section
/-!
DEFINITION. Hart instructions (R98 to R100, R104, R253) and the commands that start and stop harts (R99).
-/

namespace Sys2Proof.Machine

/-- The detail of an ECALL: 0, 1 or 2 for U, S or M (R98). -/
def ecallCause (mode : BitVec 2) : BitVec 9 := if mode == 3 then 0x1C2 else 0x1C0 ||| mode.setWidth 9

/-- ECALL (R98). -/
def execEcall (w : Bool) (s : State) : Out := issue (.ecall w) s (s.fault (ecallCause s.hart.mode) 0 0)

/-- EBREAK (R98). -/
def execEbreak (w : Bool) (s : State) : Out := issue (.ebreak w) s (s.fault 0x1C3 0 0)

/-! Return from a trap. -/

/-- Forgets a hart's own accesses that are not frozen; they are confirmed. -/
def dropLive (c : CoreId) (h : HartId) (l : List Access) : List Access :=
  l.filter fun a => !(a.core == c && a.hart == h && a.frozen == 0 && !a.orphan)

/-- The top frozen group of the executing hart resumes when TRPC is its pc, and is discarded otherwise (R253). -/
def State.thaw (s : State) : State :=
  let h := s.hart
  let k := h.frozen.length
  match h.frozen.getLast? with
  | none => s
  | some g =>
    let mine (a : Access) : Bool := a.core == s.cur && a.hart == s.curHart && a.frozen == k
    if g.pc == h.trap.trpc then
      let s := { s with net := { s.net with accs := (dropLive s.cur s.curHart s.net.accs).map fun a => if mine a then { a with frozen := 0 } else a } }
      s.onHart fun h => { h with frozen := h.frozen.dropLast, nseq := g.nseq, log := g.log }
    else
      let s := { s with net := { s.net with accs := s.net.accs.filter fun a => !mine a } }
      s.onHart fun h => { h with frozen := h.frozen.dropLast }

/-- The effect of TRET (R104, R253). -/
def State.tret (s : State) : State :=
  let t := s.hart.trap.trpc
  { s.thaw.onHart tretHart with flow := .tret t }.complete

/-- TRET (R104). -/
def execTret (w : Bool) (s : State) : Out := issue (.tret w) s s.tret

/-! WFI and HALT (R100). -/

/-- WFI (R100). -/
def execWfi (w : Bool) (s : State) : Out :=
  issue (.wfi w) s (if (s.firstSource s.cur s.curHart).isSome then s.complete else s.waitIn (.wfi w) .wfi)

/-- HALT (R100): not ready while another hart of the core cannot stop yet. -/
def State.halt (s : State) : State :=
  let others := hartIds.filter fun h => h != s.curHart
  let c := s.cur
  let me := s.curHart
  if others.all fun h => s.stoppable c h then
    let s := ((others.foldl (fun s h => s.stopHart c h) s).wakeLate c).complete
    ((s.stopHart c me).wakeLate c).onCore c fun k => { k with sys := { k.sys with low := true } }
  else s.hold

/-- HALT (R100). -/
def execHalt (w : Bool) (s : State) : Out := issue (.halt w) s s.halt

/-! Starting and stopping other harts (R99). -/

/-- The target that a register names: core and hart (R99). -/
def hartTarget (x : W) : CoreId × HartId := (x.extractLsb' 0 12, x.extractLsb' 12 2)

/-- The executing hart may not name this target (R99). -/
def State.targetRefused (s : State) (x : W) : Bool :=
  x.extractLsb' 14 50 != 0 || (s.hart.mode != 3 && (s.core (x.extractLsb' 0 12)).mem.ctxid != s.self.mem.ctxid)

/-- A command to a hart sets out, and its issuer waits for the acknowledgement (R99). -/
def State.hartCommand (s : State) (i : Instr) (start : Bool) (x pc : W) : State :=
  let t := hartTarget x
  let m : HartCmd := { id := s.fresh, start := start, dst := t.1, target := t.2, pc := pc, core := s.cur, hart := s.curHart, mode := s.hart.mode }
  { s with net := { s.net with hcmds := s.net.hcmds ++ [m] } }.bump.waitIn i (.hart m.id)

/-- HSTART (R99). -/
def execHstart (b a : BitVec 5) (w : Bool) (s : State) : Out :=
  let x := s.g a
  let pc := s.g b
  issue (.hstart b a w) s
    (if s.targetRefused x then s.fault 0x1C7 x 0
     else if pc.extractLsb' 0 2 != 0 then s.fault (accCause .fetch (spaceOf pc).code .misaligned) pc 0
     else s.hartCommand (.hstart b a w) true x pc)

/-- HSTOP (R99). -/
def execHstop (a : BitVec 5) (w : Bool) (s : State) : Out :=
  let x := s.g a
  issue (.hstop a w) s (if s.targetRefused x then s.fault 0x1C7 x 0 else s.hartCommand (.hstop a w) false x 0)

/-- A stopped hart starts as HSTART starts it (R99); from here on it has loaded no tile and set no descriptor, as R181 judges them. -/
def startedHart (issuer : BitVec 2) (pc : W) (h : Hart) : Hart :=
  { h with
    mode := if issuer == 3 then 1 else 0, ie := false, pie := false, pmode := 0, pp := false, spp := false,
    loops := { h.loops with depth := 0, sdepth := 0 }, pc := pc, stopped := false, arrival := .fall, lost := 0, pause := 0,
    block := none, mx := { h.mx with valid := false, loaded := false } }

/-- HSTART at its target: the core leaves its low-power state, and a stopped hart starts (R99, R100). -/
def State.startHart (s : State) (m : HartCmd) : State :=
  let s := s.onCore m.dst fun k => { k with sys := { k.sys with low := false } }
  if (s.hartAt m.dst m.target).stopped then s.onHartAt m.dst m.target (startedHart m.mode m.pc) else s

/-- A command takes effect in the order of receipt (R99): those to one target core go in turn. -/
def State.findHartCmd (s : State) (n : Nat) (start : Bool) : Option HartCmd :=
  match s.net.hcmds.find? fun (m : HartCmd) => m.id == n with
  | some m => if m.start == start && !s.heldBack n 0 then some m else none
  | none => none

/-- Takes a command off its way. -/
def State.dropHartCmd (s : State) (m : HartCmd) : State :=
  { s with net := { s.net with hcmds := s.net.hcmds.filter fun (x : HartCmd) => x.id != m.id } }

/-- The issuer gets its acknowledgement (R99). -/
def State.ackHart (s : State) (m : HartCmd) : State :=
  let s := s.dropHartCmd m
  if (s.hartAt m.core m.hart).wait == .hart m.id then s.finishWait m.core m.hart noWrite else s

/-- The target core takes no command: it is fenced (R350) or absent (R10). -/
def State.closedTo (s : State) (c : CoreId) : Bool := (s.core c).sys.fenced || s.pkg.absent.contains c

/-- The target core turns a command away: it takes none, or it is a firmware core that does not admit opcode 0x0A from the issuer's context (R374). -/
def State.refusesHart (s : State) (m : HartCmd) : Bool := s.closedTo m.dst || !s.admits m.dst (s.packetCtx (.hart m)) 10

/-- A command fails, and its issuer traps at its HSTART or HSTOP. -/
def State.failHart (s : State) (m : HartCmd) (cause : BitVec 9) (addr : W) : State :=
  let s := s.dropHartCmd m
  if (s.hartAt m.core m.hart).wait == .hart m.id then
    (s.cancelWait m.core m.hart).trapAt m.core m.hart false cause addr 0 (s.hartAt m.core m.hart).pc
  else s

/-- The issuer gets a negative acknowledgement (R10, R350, R374). What becomes of its HSTART or HSTOP the manual does not say: it traps with "hart
target refused" (DEDUCED, log 79). -/
def State.nackHart (s : State) (m : HartCmd) : State := s.failHart m 0x1C7 ((m.target ++ m.dst).setWidth 64)

/-- HART_START_COMMAND (R99). -/
def execHartStartCommand (n : Nat) (s : State) : Out :=
  match s.findHartCmd n true with
  | none => s.turnedAway n 0
  | some m => (if s.refusesHart m then s.nackHart m else (s.startHart m).ackHart m).occur

/-- HART_STOP_COMMAND (R99): the target stops before its next issue; a hart that named itself stops when its HSTOP retires. -/
def execHartStopCommand (n : Nat) (s : State) : Out :=
  match s.findHartCmd n false with
  | none => s.turnedAway n 0
  | some m =>
    if s.refusesHart m then (s.nackHart m).occur
    else if m.core == m.dst && m.hart == m.target then (((s.ackHart m).stopHart m.dst m.target).wakeLate m.dst).occur
    else if s.stoppable m.dst m.target then (((s.stopHart m.dst m.target).wakeLate m.dst).ackHart m).occur
    else s.idle

end Sys2Proof.Machine
end

