-- ==== Sys2Proof/Machine/Trans.lean ====
section
/-!
DEFINITION. The functions that are no ratio of their operands (R152, R166): exponentials, the logistic function, the hyperbolic
tangent, the reciprocal square root and the normal distribution, in fixed point with 320 fraction bits, and their rounding.
-/

namespace Sys2Proof.Machine

/-- Fraction bits of the fixed-point numbers below. -/
def fixBits : Nat := 320

/-- One in fixed point. -/
def fixOne : Nat := 2 ^ fixBits

/-- The natural logarithm of 2 in fixed point. -/
def fixLn2 : Nat := 1480553391661173448385607439722553250922680800745876974795605978609098082859138712941075737848984

/-- The circle constant in fixed point. -/
def fixPi : Nat := 6710401180212168915155840974220003240804194089427148950727106424351713218671805380099500388914039

/-- An exact value in fixed point; values of the formats have at most 150 fraction bits. -/
def Dy.fix (d : Dy) : Int :=
  let e := d.x + fixBits
  if 0 ≤ e then d.v * (2 ^ e.toNat : Nat) else d.v / (2 ^ (-e).toNat : Nat)

/-- The exponential series by Horner's scheme: `n` further terms, the next of number `j`. -/
def expTail (r : Int) : Nat → Nat → Int
  | 0, _ => fixOne
  | n + 1, j => fixOne + r * expTail r n (j + 1) / (j * fixOne : Nat)

/-- The largest argument of an exponential that is computed; beyond it every format overflows or underflows. -/
def expLimit : Int := 4096 * fixOne

/-- `2^k · e^r` as a number and an exponent, for `r` below the logarithm of 2. -/
def expParts (k r : Int) : Nat × Int := ((expTail r 90 1).toNat, k - fixBits)

/-- The exponential of a fixed-point number, as a number and an exponent. -/
def expFix (x : Int) : Nat × Int :=
  let x := max (-expLimit) (min x expLimit)
  let k := x / fixLn2
  expParts k (x - k * fixLn2)

/-- The power of 2 of a fixed-point number. -/
def exp2Fix (x : Int) : Nat × Int :=
  let x := max (-expLimit) (min x expLimit)
  expParts (x / fixOne) ((x % fixOne) * fixLn2 / fixOne)

/-- `e^|x|` as a fraction over `fixOne`. -/
def expAbs (x : Int) : Nat :=
  let r := expFix x.natAbs
  r.1 * 2 ^ (r.2 + fixBits).toNat

/-- A positive fraction as a number and an exponent, with at least 640 significant bits. -/
def fraction (num den : Nat) : Nat × Int :=
  let s := 2 * fixBits + bitLen den - bitLen num
  (num * 2 ^ s / den, -(s : Int))

/-- The logistic function as a fraction. -/
def logistic (x : Int) : Nat × Nat :=
  let e := expAbs x
  (if 0 ≤ x then e else fixOne, fixOne + e)

/-- Rounds an irrational value, known to lie just above `m · 2^x`, to nearest (R152). -/
def Fmt.roundAbove (k : Fmt) (neg : Bool) (p : Nat × Int) : Nat × BitVec 5 :=
  let r := stick p.1 p.2 true
  k.round 0 neg r.1 r.2

/-- One in a format. -/
def Fmt.one (k : Fmt) : Nat := (k.round 0 false 1 0).1

/-- VRCP of a lane (R152). -/
def Fmt.rcp (k : Fmt) (a : Nat) : Nat × BitVec 5 := k.divV 0 (.fin false 1 0) (k.val a)

/-- VRSQ of a lane (R152). -/
def Fmt.rsq (k : Fmt) (a : Nat) : Nat × BitVec 5 :=
  match k.val a with
  | .nan s => (k.nan, nvIf s)
  | .inf n => if n then (k.nan, flagNV) else (k.sign false, 0)
  | .fin n m x =>
    if m == 0 then (k.inf n, flagDZ)
    else if n then (k.nan, flagNV)
    else
      let odd := x % 2 != 0
      let m := if odd then 2 * m else m
      let e := if odd then x - 1 else x
      let s := 64 + bitLen m
      let r := isqrt (2 ^ (2 * s) / m)
      let p := stick r (-(s : Int) - e / 2) (r * r * m != 2 ^ (2 * s))
      k.round 0 false p.1 p.2

/-- VEXP of a lane (R152): 0 is the exponential, 1 the power of 2, 2 the logistic function. -/
def Fmt.expLane (k : Fmt) (which : Nat) (a : Nat) : Nat × BitVec 5 :=
  match k.val a with
  | .nan s => (k.nan, nvIf s)
  | .inf n => if n then (k.sign false, 0) else if which == 2 then (k.one, 0) else (k.inf false, 0)
  | .fin n m x =>
    let v := (dyOf n m x).fix
    if m == 0 then (if which == 2 then ((k.round 0 false 1 (-1)).1, 0) else (k.one, 0))
    else match which with
      | 0 => k.roundAbove false (expFix v)
      | 1 =>
        if v % fixOne == 0 then k.round 0 false 1 (max (-8192) (min (v / fixOne) 8192)) else k.roundAbove false (exp2Fix v)
      | _ => k.roundAbove false (fraction (logistic v).1 (logistic v).2)

/-- VTANH of a lane (R152). -/
def Fmt.tanh (k : Fmt) (a : Nat) : Nat × BitVec 5 :=
  match k.val a with
  | .nan s => (k.nan, nvIf s)
  | .inf n => (k.sign n + k.one, 0)
  | .fin n m x =>
    if m == 0 then (k.sign n, 0)
    else
      let e := expAbs (2 * (dyOf false m x).fix)
      k.roundAbove n (fraction (e - fixOne) (e + fixOne))

/-! Faithful results (R166). -/

/-- One of the two FP32 values that bracket a value just above `m · 2^x`; `up` tells which (log 9). -/
def faithful (up : Bool) (p : Nat × Int) : Nat × BitVec 5 :=
  let r := stick p.1 p.2 true
  let lo := (fp32.round 1 false r.1 r.2).1
  let hi := (fp32.round 3 false r.1 r.2).1
  if hi == fp32.inf false then (hi, flagOF ||| flagNX)
  else (if up then hi else lo, flagNX ||| (if (bitLen p.1 : Int) + p.2 ≤ -126 then flagUF else 0))

/-- The square root of `m · 2^x` as a number and an exponent, with at least 320 significant bits. -/
def sqrtParts (m : Nat) (x : Int) : Nat × Int :=
  let s : Nat := 2 * fixBits + (if x % 2 == 0 then 0 else 1)
  (isqrt (m * 2 ^ s), (x - s) / 2)

/-- The density of the standard normal distribution at 0, in fixed point. -/
def fixPdf0 : Nat := isqrt (fixOne * fixOne * fixOne / (2 * fixPi))

/-- The series of the normal distribution: `n` further terms, the next of number `j` and value `t`, upon the sum `acc`; `q` is the
square of the argument. -/
def normSeries (q : Int) : Nat → Nat → Int → Int → Int
  | 0, _, _, acc => acc
  | n + 1, j, t, acc => normSeries q n (j + 1) (-(t * q) / (2 * (j + 1) * fixOne : Nat)) (acc + t / (2 * j + 1 : Nat))

/-- The standard normal distribution function at `z`, of absolute value at most 8, in fixed point (R167). -/
def fixCdf (z : Int) : Int := (fixOne / 2 : Nat) + fixPdf0 * normSeries (z * z / fixOne) 280 0 z 0 / fixOne

/-- The standard normal density at `z` in fixed point (R167). -/
def fixPdf (z : Int) : Int :=
  let r := expFix (-(z * z / (2 * fixOne : Nat)))
  (fixPdf0 * r.1 / 2 ^ (-r.2).toNat : Nat)

end Sys2Proof.Machine
end

