-- ==== Sys2Proof/Machine/VecOps.lean ====
section
/-!
DEFINITION. What vector operations compute (R133 to R153): from the operands as they stood at issue and the core's codebook at
acceptance, the registers written and the flags raised.
-/

namespace Sys2Proof.Machine

/-! Lanes. -/

/-- Lanes and flags. -/
abbrev Lanes := Nat × BitVec 5

/-- `n` lanes of width `w`, lane `i` from `f` where the mask selects it and from `old` elsewhere (R133). -/
def mergeLanes (w n : Nat) (mask : W) (old : Nat) (f : Nat → Lanes) : Lanes :=
  (List.range n).foldl (fun r i =>
    let x := if mask.getLsbD i then f i else (laneBits old w i, 0)
    (r.1 + x.1 % 2 ^ w * 2 ^ (w * i), r.2 ||| x.2)) (0, 0)

/-- Lanes of a type (R133). -/
def tyLanes (t : BitVec 2) : Nat := 512 / tyWidth t

/-- A result that is one v register. -/
def outV (d : BitVec 5) (r : Lanes) : OpResult := ⟨[⟨.v d, BitVec.ofNat 1024 (r.1 % 2 ^ 512)⟩], r.2, 0, false, false⟩

/-- A result that is one g register. -/
def outG (d : BitVec 5) (x : Nat) (fl : BitVec 5) : OpResult := ⟨[⟨.g d, BitVec.ofNat 1024 (x % 2 ^ 64)⟩], fl, 0, false, false⟩

/-- A result that is one k register. -/
def outK (d : BitVec 3) (x : Nat) (fl : BitVec 5) : OpResult := ⟨[⟨.k d, BitVec.ofNat 1024 (x % 2 ^ 64)⟩], fl, 0, false, false⟩

/-- An integer as the bits of a field of width `w`. -/
def wrap (w : Nat) (z : Int) : Nat := (z % (2 ^ w : Nat)).toNat

/-- SatI32 (R25). -/
def satI32 (z : Int) : Int := max (-(2 ^ 31)) (min z (2 ^ 31 - 1))

/-- An integer result as a lane, saturated under SA or wrapped. -/
def i32Lane (sa : Bool) (z : Int) : Nat := wrap 32 (if sa then satI32 z else z)

/-- Source A of an operation, lane `i`, in type `t` (R135). -/
def OpCtx.laneA (o : OpCtx) (t : BitVec 2) (lo hi : W) (i : Nat) : Lanes := srcLane t o.a.toNat (srcA t o.pfx) lo hi i

/-- Source B of an operation. -/
def OpCtx.laneB (o : OpCtx) (t : BitVec 2) (lo hi : W) (i : Nat) : Lanes := srcLane t o.b.toNat (srcB t o.pfx) lo hi i

/-- Element-wise results (R137): `fi` on integers, `ff` on the bits of floats. -/
def OpCtx.elementwise (o : OpCtx) (t : BitVec 2) (d : BitVec 5) (lo hi : W) (fi : Int → Int → Int → Int) (ff : Nat → Nat → Nat → Lanes) :
    OpResult :=
  let w := tyWidth t
  outV d (mergeLanes w (tyLanes t) o.mask o.d.toNat fun i =>
    let a := o.laneA t lo hi i
    let b := o.laneB t lo hi i
    let c := laneBits o.d.toNat w i
    if t == 3 then (i32Lane (pfSA o.pfx) (fi (signed 32 a.1) (signed 32 b.1) (signed 32 c)), 0)
    else
      let r := ff a.1 b.1 c
      (r.1, r.2 ||| a.2 ||| b.2))

/-- Element-wise results of one source. -/
def OpCtx.unary (o : OpCtx) (t : BitVec 2) (d : BitVec 5) (lo hi : W) (fi : Int → Int) (ff : Nat → Lanes) : OpResult :=
  outV d (mergeLanes (tyWidth t) (tyLanes t) o.mask o.d.toNat fun i =>
    let a := o.laneA t lo hi i
    if t == 3 then (i32Lane (pfSA o.pfx) (fi (signed 32 a.1)), 0)
    else
      let r := ff a.1
      (r.1, r.2 ||| a.2))

/-- The rounding mode that the operation found in FPSTAT. -/
def OpCtx.rm (o : OpCtx) : BitVec 3 := fpRm o.fpstat

/-- VADD (R137). -/
def vaddOut (t : BitVec 2) (d : BitVec 5) (o : OpCtx) (lo hi : W) : OpResult :=
  o.elementwise t d lo hi (fun a b _ => a + b) fun a b _ => (tyFmt t).add o.rm a b
/-- VSUB (R137). -/
def vsubOut (t : BitVec 2) (d : BitVec 5) (o : OpCtx) (lo hi : W) : OpResult :=
  o.elementwise t d lo hi (fun a b _ => a - b) fun a b _ => (tyFmt t).sub o.rm a b
/-- VMUL (R137). -/
def vmulOut (t : BitVec 2) (d : BitVec 5) (o : OpCtx) (lo hi : W) : OpResult :=
  o.elementwise t d lo hi (fun a b _ => a * b) fun a b _ => (tyFmt t).mul o.rm a b
/-- VFMA (R137). -/
def vfmaOut (t : BitVec 2) (d : BitVec 5) (o : OpCtx) (lo hi : W) : OpResult :=
  o.elementwise t d lo hi (fun a b c => c + a * b) fun a b c => (tyFmt t).fma o.rm a b c
/-- VMIN (R137). -/
def vminOut (t : BitVec 2) (d : BitVec 5) (o : OpCtx) (lo hi : W) : OpResult :=
  o.elementwise t d lo hi (fun a b _ => min a b) fun a b _ => (tyFmt t).minMax false a b
/-- VMAX (R137). -/
def vmaxOut (t : BitVec 2) (d : BitVec 5) (o : OpCtx) (lo hi : W) : OpResult :=
  o.elementwise t d lo hi (fun a b _ => max a b) fun a b _ => (tyFmt t).minMax true a b

/-- Bits below the sign. -/
def Fmt.magnitude (k : Fmt) (x : Nat) : Nat := x % 2 ^ (k.e + k.f)

/-- VABS (R137). -/
def vabsOut (t : BitVec 2) (d : BitVec 5) (o : OpCtx) (lo hi : W) : OpResult :=
  o.unary t d lo hi (fun a => a.natAbs) fun a => ((tyFmt t).magnitude a, 0)
/-- VNEG (R137). -/
def vnegOut (t : BitVec 2) (d : BitVec 5) (o : OpCtx) (lo hi : W) : OpResult :=
  o.unary t d lo hi (fun a => -a) fun a =>
    let k := tyFmt t
    (k.magnitude a + (if k.magnitude a == a then k.sign true else 0), 0)

/-- Bitwise results (R138). -/
def OpCtx.bits (o : OpCtx) (t : BitVec 2) (d : BitVec 5) (f : Nat → Nat → Nat) : OpResult :=
  let w := tyWidth t
  outV d (mergeLanes w (tyLanes t) o.mask o.d.toNat fun i => (f (laneBits o.a.toNat w i) (laneBits o.b.toNat w i), 0))

/-- VAND (R138). -/
def vandOut (t : BitVec 2) (d : BitVec 5) (o : OpCtx) : OpResult := o.bits t d fun a b => a &&& b
/-- VOR (R138). -/
def vorOut (t : BitVec 2) (d : BitVec 5) (o : OpCtx) : OpResult := o.bits t d fun a b => a ||| b
/-- VXOR (R138). -/
def vxorOut (t : BitVec 2) (d : BitVec 5) (o : OpCtx) : OpResult := o.bits t d fun a b => a ^^^ b
/-- VSHL (R138). -/
def vshlOut (d : BitVec 5) (o : OpCtx) : OpResult := o.bits 3 d fun a b => a * 2 ^ (b % 32)
/-- VSHR (R138). -/
def vshrOut (d : BitVec 5) (o : OpCtx) : OpResult := o.bits 3 d fun a b => a / 2 ^ (b % 32)
/-- VSRA (R138). -/
def vsraOut (d : BitVec 5) (o : OpCtx) : OpResult := o.bits 3 d fun a b => wrap 32 (signed 32 a / (2 ^ (b % 32) : Nat))

/-- Compares (R139): 0 equal, 1 less, 2 less or equal. -/
def OpCtx.compare (o : OpCtx) (t : BitVec 2) (d : BitVec 3) (lo hi : W) (which : Nat) : OpResult :=
  let r := mergeLanes 1 (tyLanes t) o.mask 0 fun i =>
    let a := o.laneA t lo hi i
    let b := o.laneB t lo hi i
    if t == 3 then
      let x := signed 32 a.1
      let y := signed 32 b.1
      (if (match which with
        | 0 => x == y
        | 1 => decide (x < y)
        | _ => decide (x ≤ y)) then 1 else 0, 0)
    else
      let r := (tyFmt t).compare which a.1 b.1
      (if r.1 then 1 else 0, r.2 ||| a.2 ||| b.2)
  outK d r.1 r.2

/-- VSEL (R140). -/
def vselOut (t : BitVec 2) (d : BitVec 5) (o : OpCtx) (lo hi : W) : OpResult :=
  outV d (mergeLanes (tyWidth t) (tyLanes t) (BitVec.allOnes 64) 0 fun i =>
    let a := o.laneA t lo hi i
    let b := o.laneB t lo hi i
    (if o.mask.getLsbD i then a.1 else b.1, a.2 ||| b.2))

/-! Conversions. -/

/-- An element of a source format converted to a type (R37, R141). -/
def convertTo (t : BitVec 2) (rm : BitVec 3) (v : FVal) : Lanes :=
  if t == 3 then
    let r := floatToInt rm (-(2 ^ 31)) (2 ^ 31 - 1) v
    (wrap 32 r.1, r.2)
  else
    let k := tyFmt t
    match v with
    | .nan s => (k.nan, nvIf s)
    | .inf n => (k.inf n, 0)
    | .fin n m x => k.round rm n m x

/-- The exact product of two values (R142). -/
def FVal.times (a b : FVal) : FVal × BitVec 5 :=
  match a, b with
  | .nan s, y => (.nan false, nvIf (s || y.snan))
  | x, .nan s => (.nan false, nvIf (s || x.snan))
  | .inf m, .inf n => (.inf (m != n), 0)
  | .inf m, .fin n y _ => if y == 0 then (.nan false, flagNV) else (.inf (m != n), 0)
  | .fin n y _, .inf m => if y == 0 then (.nan false, flagNV) else (.inf (m != n), 0)
  | .fin n1 m1 x1, .fin n2 m2 x2 => (.fin (n1 != n2) (m1 * m2) (x1 + x2), 0)

/-- The lane layout of VCVT and VCVTS (R141): `n` lanes are written, those above become zero. -/
def convertLanes (t : BitVec 2) (d : BitVec 5) (f : BitVec 4) (o : OpCtx) (g : Nat → Lanes) : OpResult :=
  outV d (mergeLanes (tyWidth t) (512 / max (codeWidth f) (tyWidth t)) o.mask o.d.toNat g)

/-- VCVT from format `f` (R141). -/
def vcvtOut (t : BitVec 2) (f : BitVec 4) (d : BitVec 5) (o : OpCtx) (lo hi : W) : OpResult :=
  let f := if f == 0 then tyCode t else f
  let src : SrcFmt := ⟨f, (pfQA o.pfx).toNat + 1, (pfPP o.pfx).toNat + 1, pfCE o.pfx⟩
  convertLanes t d f o fun i => convertTo t o.rm (elementVal o.a.toNat src lo hi i)

/-- SCALE register `i` (R32). -/
def OpCtx.scaleVal (o : OpCtx) (i : Nat) : FVal := fp32.val (o.scale[i]?.getD 0).toNat

/-- VCVTS (R142). -/
def vcvtsOut (t : BitVec 2) (d : BitVec 5) (o : OpCtx) (lo hi : W) : OpResult :=
  let src := srcA t o.pfx
  convertLanes t d src.f o fun i =>
    let p := (elementVal o.a.toNat src lo hi i).times (o.scaleVal (pfSC o.pfx).toNat)
    let r := convertTo t 0 p.1
    (r.1, r.2 ||| p.2)

/-! Reductions and movers. -/

/-- The reduction of the selected lanes so far (R143): an exact sum or lane bits. -/
def reduceStep (t : BitVec 2) (rm : BitVec 3) (kind : Nat) (acc : Option Int) (a : Nat) : Option Int × BitVec 5 :=
  match acc with
  | none => (some (if t == 3 then signed 32 a else (a : Int)), 0)
  | some x =>
    if t == 3 then
      let y := signed 32 a
      (some (if kind == 0 then x + y else if kind == 1 then min x y else max x y), 0)
    else
      let k := tyFmt t
      let r := if kind == 0 then k.add rm x.toNat a else k.minMax (kind == 2) x.toNat a
      (some (r.1 : Int), r.2)

/-- What a reduction of no lane gives (R143). -/
def reduceNone (t : BitVec 2) (kind : Nat) : Int :=
  if t == 3 then (if kind == 0 then 0 else if kind == 1 then 2 ^ 31 - 1 else -(2 ^ 31))
  else
    let k := tyFmt t
    (if kind == 0 then 0 else k.inf (kind == 2) : Nat)

/-- VRED (R143): 0 sum, 1 min, 2 max. -/
def vredOut (t : BitVec 2) (kind : Nat) (d : BitVec 5) (o : OpCtx) (lo hi : W) : OpResult :=
  let r := (List.range (tyLanes t)).foldl (fun (r : Option Int × BitVec 5) i =>
    if o.mask.getLsbD i then
      let a := o.laneA t lo hi i
      let x := reduceStep t o.rm kind r.1 a.1
      (x.1, r.2 ||| a.2 ||| x.2)
    else r) (none, 0)
  let z := r.1.getD (reduceNone t kind)
  let z := if t == 3 then (if pfSA o.pfx then satI32 z else signed 32 (wrap 32 z)) else z
  outG d (wrap 64 z) r.2

/-- VSPLAT (R144). -/
def vsplatOut (t : BitVec 2) (d : BitVec 5) (o : OpCtx) : OpResult :=
  outV d (mergeLanes (tyWidth t) (tyLanes t) o.mask o.d.toNat fun _ => (o.ga.toNat, 0))
/-- VEXT (R144). -/
def vextOut (t : BitVec 2) (lane : Nat) (d : BitVec 5) (o : OpCtx) : OpResult :=
  let x := laneBits o.a.toNat (tyWidth t) lane
  outG d (if t == 3 then wrap 64 (signed 32 x) else x) 0
/-- VINS (R144). -/
def vinsOut (t : BitVec 2) (lane : Nat) (d : BitVec 5) (o : OpCtx) : OpResult :=
  outV d (mergeLanes (tyWidth t) (tyLanes t) (1#64 <<< lane) o.d.toNat fun _ => (o.ga.toNat, 0))
/-- VPERM (R144). -/
def vpermOut (t : BitVec 2) (d : BitVec 5) (o : OpCtx) : OpResult :=
  let w := tyWidth t
  outV d (mergeLanes w (tyLanes t) o.mask o.d.toNat fun i => (laneBits o.a.toNat w (laneBits o.b.toNat w i % tyLanes t), 0))
/-- VIDX (R144). -/
def vidxOut (t : BitVec 2) (d : BitVec 5) (o : OpCtx) : OpResult :=
  outV d (mergeLanes (tyWidth t) (tyLanes t) o.mask o.d.toNat fun i => (if t == 3 then i else ((tyFmt t).ofInt 0 i).1, 0))
/-- VSLIDE (R144). -/
def vslideOut (t : BitVec 2) (d : BitVec 5) (o : OpCtx) : OpResult :=
  let w := tyWidth t
  outV d (mergeLanes w (tyLanes t) o.mask o.d.toNat fun i =>
    let j : Int := i + o.gb.toInt
    (if 0 ≤ j && j < tyLanes t then laneBits o.a.toNat w j.toNat else 0, 0))
/-- VMOV (R144). -/
def vmovOut (t : BitVec 2) (d : BitVec 5) (o : OpCtx) : OpResult :=
  let w := tyWidth t
  outV d (mergeLanes w (tyLanes t) o.mask o.d.toNat fun i => (laneBits o.a.toNat w i, 0))

/-- The number of one bits. -/
def onesOf (w x : Nat) : Nat := ((List.range w).filter fun i => x.testBit i).length

/-! Products and planes. -/

/-- The float format of a half-precision source (R146, R147). -/
def halfFmt (t : BitVec 2) (f : BitVec 4) : Fmt := (codeFmt (if f == 0 then tyCode t else f)).getD fp16

/-- A lane of VWFMA (R146): the exact product is added to the old lane with one rounding, special values by R43. -/
def wfmaLane (p q : FVal) (c : Nat) : Lanes :=
  match p, q with
  | .fin .., .fin .. => fp32.fmaV 0 p q (fp32.val c)
  | _, _ =>
    let s := (GroupSum.zero.addProduct p q).result
    let r := fp32.add 0 c s.1
    (r.1, s.2 ||| r.2)

/-- VWFMA (R146). -/
def vwfmaOut (t : BitVec 2) (d : BitVec 4) (o : OpCtx) : OpResult :=
  let fa := halfFmt t (pfFA o.pfx)
  let fb := halfFmt t (pfFB o.pfx)
  let half (old : VReg) (base : Nat) : Lanes := mergeLanes 32 16 (o.mask >>> base) old.toNat fun i =>
    wfmaLane (fa.val (laneBits o.a.toNat 16 (base + i))) (fb.val (laneBits o.b.toNat 16 (base + i))) (laneBits old.toNat 32 i)
  let x := half o.d 0
  let y := half o.d1 16
  ⟨[⟨.v (d ++ 0#1), BitVec.ofNat 1024 x.1⟩, ⟨.v (d ++ 1#1), BitVec.ofNat 1024 y.1⟩], x.2 ||| y.2, 0, false, false⟩

/-- VDOT (R147). -/
def vdotOut (t : BitVec 2) (d : BitVec 5) (o : OpCtx) (lo hi : W) : OpResult :=
  outV d (mergeLanes 32 16 o.mask o.d.toNat fun i =>
    let old := laneBits o.d.toNat 32 i
    if t == 3 then
      let z := (List.range 4).foldl (fun z j =>
        z + intElement o.a.toNat (srcA t o.pfx) lo hi (4 * i + j) * intElement o.b.toNat (srcB t o.pfx) lo hi (4 * i + j)) (signed 32 old)
      (i32Lane (pfSA o.pfx) z, 0)
    else
      let fa := halfFmt t (pfFA o.pfx)
      let fb := halfFmt t (pfFB o.pfx)
      let s := ([2 * i, 2 * i + 1].foldl (fun (g : GroupSum) j =>
        g.addProduct (fa.val (laneBits o.a.toNat 16 j)) (fb.val (laneBits o.b.toNat 16 j))) GroupSum.zero).result
      let r := fp32.add 0 old s.1
      (r.1, s.2 ||| r.2))

/-- VPDOT (R148). -/
def vpdotOut (d : BitVec 5) (o : OpCtx) (lo hi : W) : OpResult :=
  outV d (mergeLanes 32 16 o.mask o.d.toNat fun i =>
    (wrap 32 ((List.range 4).foldl (fun z j =>
      z + intElement o.a.toNat (srcA 3 o.pfx) lo hi (4 * i + j) * intElement o.b.toNat (srcB 3 o.pfx) lo hi (4 * i + j)) 0), 0))

/-- VLUT (R149): lanes of a type, or 64 INT8 lanes. -/
def vlutOut (t : BitVec 2) (bytes : Bool) (d : BitVec 5) (o : OpCtx) (lo hi : W) : OpResult :=
  let entry (i : Nat) : Int := codeEntry lo hi (laneBits o.a.toNat 4 i)
  if bytes then outV d (mergeLanes 8 64 o.mask o.d.toNat fun i => (wrap 8 (entry i), 0))
  else outV d (mergeLanes (tyWidth t) (tyLanes t) o.mask o.d.toNat fun i =>
    (if t == 3 then wrap 32 (entry i) else ((tyFmt t).ofInt 0 (entry i)).1, 0))

/-- VPLN at precision `p` (R150). -/
def vplnOut (p : Nat) (d : BitVec 5) (o : OpCtx) : OpResult :=
  let val (e : Nat) : Nat :=
    let x := laneBits o.a.toNat 8 e
    if pfSA o.pfx then wrap p (max (-(2 ^ (p - 1) : Nat)) (min (signed 8 x) ((2 ^ (p - 1) : Nat) - 1))) else x % 2 ^ p
  outV d ((List.range p).foldl (fun r q => (List.range 64).foldl (fun r e =>
    r + laneBits (val e) 1 (p - 1 - q) * 2 ^ (64 * q + e)) r) 0, 0)

/-- VUPL at precision `p` (R150). -/
def vuplOut (p : Nat) (d : BitVec 5) (o : OpCtx) : OpResult :=
  let q := if o.pfx == 0 then p else (pfQA o.pfx).toNat + 1
  outV d (mergeLanes 8 64 o.mask o.d.toNat fun e => (wrap 8 (planeValue o.a.toNat q p (pfCE o.pfx) e), 0))

/-! Other integer forms, transcendental forms and the generator. -/

/-- VPOPC (R151). -/
def vpopcOut (d : BitVec 5) (o : OpCtx) : OpResult := o.bits 3 d fun a _ => onesOf 32 a
/-- VMULH (R151). -/
def vmulhOut (d : BitVec 5) (o : OpCtx) : OpResult := o.bits 3 d fun a b => wrap 32 (signed 32 a * signed 32 b / (2 ^ 32 : Nat))
/-- VSAT to `n` bits (R151). -/
def vsatOut (n : Nat) (d : BitVec 5) (o : OpCtx) : OpResult :=
  o.bits 3 d fun a _ => wrap 32 (min (max (signed 32 a) (-(2 ^ (n - 1) : Nat))) ((2 ^ (n - 1) : Nat) - 1))

/-- VRCP (R152). -/
def vrcpOut (t : BitVec 2) (d : BitVec 5) (o : OpCtx) (lo hi : W) : OpResult := o.unary t d lo hi id (tyFmt t).rcp
/-- VRSQ (R152). -/
def vrsqOut (t : BitVec 2) (d : BitVec 5) (o : OpCtx) (lo hi : W) : OpResult := o.unary t d lo hi id (tyFmt t).rsq
/-- VEXP (R152). -/
def vexpOut (t : BitVec 2) (which : Nat) (d : BitVec 5) (o : OpCtx) (lo hi : W) : OpResult := o.unary t d lo hi id ((tyFmt t).expLane which)
/-- VTANH (R152). -/
def vtanhOut (t : BitVec 2) (d : BitVec 5) (o : OpCtx) (lo hi : W) : OpResult := o.unary t d lo hi id (tyFmt t).tanh

/-- A lane of VRAND (R153). -/
def randLane (key ctr : W) (i : Nat) : BitVec 32 :=
  let lo (x : W) : BitVec 32 := x.extractLsb' 0 32
  let hi (x : W) : BitVec 32 := x.extractLsb' 32 32
  let x := (lo ctr + BitVec.ofNat 32 i) ^^^ lo key
  let h := hi ctr ^^^ hi key
  let x := x * 0x9E3779B1#32
  let x := (x ^^^ (x >>> 16)) ^^^ h
  let x := x * 0x6C8E9CF5#32
  x ^^^ (x >>> 15)

/-- VRAND (R153). -/
def vrandOut (d : BitVec 5) (o : OpCtx) : OpResult :=
  outV d (mergeLanes 32 16 o.mask o.d.toNat fun i => ((randLane o.ga o.gb i).toNat, 0))

/-- The result of a vector operation with the codebook as it stands at acceptance (R30, R130). -/
def vecOut (o : OpCtx) (lo hi : W) : OpResult :=
  match o.op with
  | .vadd t _ _ _ d _ _ => vaddOut t d o lo hi
  | .vsub t _ _ _ d _ _ => vsubOut t d o lo hi
  | .vmul t _ _ _ d _ _ => vmulOut t d o lo hi
  | .vfma t _ _ _ d _ _ => vfmaOut t d o lo hi
  | .vmin t _ _ _ d _ _ => vminOut t d o lo hi
  | .vmax t _ _ _ d _ _ => vmaxOut t d o lo hi
  | .vabs t _ _ d _ _ => vabsOut t d o lo hi
  | .vneg t _ _ d _ _ => vnegOut t d o lo hi
  | .vand t _ _ _ d _ _ => vandOut t d o
  | .vor t _ _ _ d _ _ => vorOut t d o
  | .vxor t _ _ _ d _ _ => vxorOut t d o
  | .vshl _ _ _ d _ _ => vshlOut d o
  | .vshr _ _ _ d _ _ => vshrOut d o
  | .vsra _ _ _ d _ _ => vsraOut d o
  | .vceq t _ _ _ d _ _ => o.compare t d lo hi 0
  | .vclt t _ _ _ d _ _ => o.compare t d lo hi 1
  | .vcle t _ _ _ d _ _ => o.compare t d lo hi 2
  | .vsel t _ _ _ d _ _ => vselOut t d o lo hi
  | .vcvt t _ f _ d _ _ => vcvtOut t f d o lo hi
  | .vred t _ n _ d _ _ => vredOut t n.toNat d o lo hi
  | .vsplat t _ _ d _ _ => vsplatOut t d o
  | .vext t b _ d _ _ => vextOut t b.toNat d o
  | .vins t b _ d _ _ => vinsOut t b.toNat d o
  | .vperm t _ _ _ d _ _ => vpermOut t d o
  | .vwfma t _ _ _ d _ _ => vwfmaOut t d o
  | .vdot t _ _ _ d _ _ => vdotOut t d o lo hi
  | .vlut t _ f _ d _ _ => vlutOut t f d o lo hi
  | .vpln p _ d _ _ => vplnOut (p.toNat + 1) d o
  | .vupl _ p _ d _ _ => vuplOut (p.toNat + 1) d o
  | .vrcp t _ _ d _ _ => vrcpOut t d o lo hi
  | .vrsq t _ _ d _ _ => vrsqOut t d o lo hi
  | .vexp t _ f _ d _ _ => vexpOut t f.toNat d o lo hi
  | .kand _ _ d _ _ => outK d (o.ka &&& o.kb).toNat 0
  | .kor _ _ d _ _ => outK d (o.ka ||| o.kb).toNat 0
  | .kxor _ _ d _ _ => outK d (o.ka ^^^ o.kb).toNat 0
  | .knot _ d _ _ => outK d (~~~o.ka).toNat 0
  | .kpopc _ d _ _ => outG d (onesOf 64 o.ka.toNat) 0
  | .kmovKK _ d _ _ => outK d o.ka.toNat 0
  | .kmovKG _ d _ _ => outK d o.ga.toNat 0
  | .kmovGK _ d _ _ => outG d o.ka.toNat 0
  | .vidx t _ d _ _ => vidxOut t d o
  | .vslide t _ _ _ d _ _ => vslideOut t d o
  | .vmov t _ _ d _ _ => vmovOut t d o
  | .vtanh t _ _ d _ _ => vtanhOut t d o lo hi
  | .vrand _ _ _ d _ _ => vrandOut d o
  | .vpopc _ _ d _ _ => vpopcOut d o
  | .vpdot _ _ _ d _ _ => vpdotOut d o lo hi
  | .vcvts t _ _ d _ _ => vcvtsOut t d o lo hi
  | .vmulh _ _ _ d _ _ => vmulhOut d o
  | .vsat _ n _ d _ _ => vsatOut (n.toNat + 1) d o
  | _ => noResult
where
  /-- An operation that writes nothing. -/
  noResult : OpResult := ⟨[], 0, 0, false, false⟩

end Sys2Proof.Machine
end

