-- ==== Sys2Proof/Machine/Mtx.lean ====
section
/-!
DEFINITION. Matrix arrays (R173 to R194): leases, the MTX instructions, B buffers, runs, and the rows that owners add.
-/

namespace Sys2Proof.Machine

/-! Leases. -/

/-- The array whose control cores include core `c` (R11): 32 · die + 4 · (row div 4) + (col div 8). -/
def arrayOf (c : CoreId) : BitVec 7 := c.extractLsb' 10 2 ++ c.extractLsb' 7 3 ++ c.extractLsb' 3 2

/-- Applies a change to the matrix side of a hart. -/
def State.onMx (s : State) (c : CoreId) (h : HartId) (f : MxHart → MxHart) : State := s.onHartAt c h fun x => { x with mx := f x.mx }

/-- A grant (R176, R182): the counters of the lease start again, and LEASECFG.COUNT takes effect (R179). -/
def State.grant (s : State) (a : BitVec 7) (c : CoreId) (h : HartId) : State :=
  (s.onArray a fun x => { x with holder := some (c, h), cmds := 0, rows := 0, limit := x.count }).onMx c h fun m =>
    { m with held := true, queued := false, rev := false, array := a, used := 0 }

/-- The destination of a LEASH becomes full with the array number (R182). -/
def State.fillLeash (s : State) (a : BitVec 7) (c : CoreId) (h : HartId) : State :=
  match (s.hartAt c h).mx.leashD with
  | none => s
  | some d => (s.onMx c h fun m => { m with leashD := none }).fill c h (.g d) (a.setWidth 1024)

/-- Checks that LEASH and LEASHN share (R182). -/
def State.leashCause (s : State) (x : W) : Option (BitVec 9) :=
  if x.extractLsb' 7 57 != 0 then some 0x153
  else if arrayOf s.cur != x.extractLsb' 0 7 then some 0x152
  else if s.hart.mx.held || s.hart.mx.queued then some 0x154
  else none

/-- LEASH (R182): the request joins the array's FIFO, and its destination is empty until the grant. -/
def execLeash (a d : BitVec 5) (w l : Bool) (s : State) : Out :=
  let x := s.g a
  let n := x.extractLsb' 0 7
  let me := (s.cur, s.curHart)
  issue (.leash a d w l) s (match s.leashCause x with
    | some cause => s.fault cause x 0
    | none =>
      (((s.markEmpty (.g d)).onArray n fun y => { y with fifo := y.fifo ++ [me] }).onMx s.cur s.curHart fun m =>
        { m with queued := true, array := n, leashD := if d == 0 then none else some d }).complete)

/-- LEASHN (R182): one try, which the array answers within one round trip. -/
def execLeashn (a d : BitVec 5) (w l : Bool) (s : State) : Out :=
  let x := s.g a
  let n := x.extractLsb' 0 7
  issue (.leashn a d w l) s (match s.leashCause x with
    | some cause => s.fault cause x 0
    | none =>
      if (s.array n).holder.isNone && (s.array n).fifo.isEmpty then ((s.grant n s.cur s.curHart).setG d (n.setWidth 64)).complete
      else (s.setG d (BitVec.allOnes 64)).complete)

/-- UNLEASH (R178, R182). -/
def State.unleash (s : State) : State :=
  let m := s.hart.mx
  let me := (s.cur, s.curHart)
  if m.held then ((s.onArray m.array fun y => { y with holder := none }).onMx s.cur s.curHart fun m => { m with held := false }).complete
  else if m.queued then
    (((s.onArray m.array fun y => { y with fifo := y.fifo.filter fun p => p != me }).onMx s.cur s.curHart fun m =>
      { m with queued := false }).refuseLeash s.cur s.curHart).complete
  else s.complete

/-- UNLEASH (R182). -/
def execUnleash (w l : Bool) (s : State) : Out := issue (.unleash w l) s s.unleash

/-- LEASE_GRANT (R175, R182): an array without a holder grants the head of its FIFO. -/
def execLeaseGrant (a : BitVec 7) (s : State) : Out :=
  match (s.array a).holder, (s.array a).fifo with
  | none, (c, h) :: t => (((s.onArray a fun x => { x with fifo := t }).grant a c h).fillLeash a c h).occur
  | _, _ => s.idle

/-- A counter of the lease has reached its limit (R176). -/
def Arr.spent (a : Arr) : Bool := decide (a.limit.toNat ≤ a.cmds) || decide (65536 ≤ a.rows)

/-- LEASE_EXPIRY (R176): with an empty FIFO the counters start again; else the lease passes on, and the old holder queues again. -/
def execLeaseExpiry (a : BitVec 7) (s : State) : Out :=
  match (s.array a).holder with
  | none => s.idle
  | some (c, h) =>
    if !(s.array a).spent then s.idle
    else match (s.array a).fifo with
      | [] => ((s.onArray a fun x => { x with cmds := 0, rows := 0 }).onMx c h fun m => { m with used := 0 }).occur
      | (c', h') :: t =>
        let s := (s.onArray a fun x => { x with fifo := t ++ [(c, h)] }).onMx c h fun m => { m with held := false, queued := true }
        ((s.grant a c' h').fillLeash a c' h').occur

/-- MXQRY (R183). Without a holder there is no current lease, and no rows of one. -/
def execMxqry (a d : BitVec 5) (w l : Bool) (s : State) : Out :=
  let x := s.g a
  let y := s.array (x.extractLsb' 0 7)
  let who : W := match y.holder with
    | some (c, h) => ((BitVec.ofNat 17 y.rows).setWidth 64 <<< 32) ||| ((BitVec.ofNat 7 y.cmds).setWidth 64 <<< 23) |||
        ((BitVec.ofNat 8 y.fifo.length).setWidth 64 <<< 15) ||| (c ++ h ++ 1#1).setWidth 64
    | none => 0
  issue (.mxqry a d w l) s
    (if x.extractLsb' 7 57 != 0 then s.fault 0x153 x 0
     else (s.setG d ((y.count.setWidth 64 <<< 49) ||| who)).complete)

/-! The accumulator rectangle (R186, R187). -/

/-- A descriptor with its local base, read out. -/
structure Rect where
  origin : CoreId
  h : Nat
  w : Nat
  rpc : Nat
  pairs : Bool
  base : Nat
deriving DecidableEq, Repr

/-- The fields of a descriptor (R186). -/
def rectOf (desc lbase : W) : Rect where
  origin := desc.extractLsb' 0 12
  h := (desc.extractLsb' 12 5).toNat + 1
  w := (desc.extractLsb' 17 5).toNat + 1
  rpc := (desc.extractLsb' 22 10).toNat + 1
  pairs := desc.getLsbD 32
  base := (lbase.extractLsb' 6 13).toNat * 64

/-- Columns of each owner, c of R186. -/
def Rect.cols (r : Rect) : Nat := 256 / r.w

/-- Bytes of an element. -/
def Rect.elBytes (r : Rect) : Nat := if r.pairs then 8 else 4

/-- Rows of the rectangle. -/
def Rect.rows (r : Rect) : Nat := r.h * r.rpc

/-- Row of the origin. -/
def Rect.row0 (r : Rect) : Nat := (r.origin.extractLsb' 5 5).toNat

/-- Column of the origin. -/
def Rect.col0 (r : Rect) : Nat := (r.origin.extractLsb' 0 5).toNat

/-- The owner at row `i` and column `j` of cores. -/
def Rect.owner (r : Rect) (i j : Nat) : CoreId := dieOf r.origin ++ BitVec.ofNat 5 (r.row0 + i) ++ BitVec.ofNat 5 (r.col0 + j)

/-- All owners. -/
def Rect.owners (r : Rect) : List CoreId := (List.range r.h).flatMap fun i => (List.range r.w).map fun j => r.owner i j

/-- The rectangle is not all in the partition of core `c`, or it meets the firmware column (R186). -/
def State.rectOutside (s : State) (c : CoreId) (r : Rect) : Bool :=
  r.owners.any fun k => (s.core k).mem.ctxid != (s.core c).mem.ctxid || s.firmware k

/-- Cause 0x155 (R186). -/
def rectBad (desc lbase : W) : Bool :=
  let r := rectOf desc lbase
  desc.extractLsb' 33 31 != 0 || lbase.extractLsb' 19 45 != 0 || lbase.extractLsb' 0 6 != 0 ||
    !(r.w == 1 || r.w == 2 || r.w == 4 || r.w == 8 || r.w == 16 || r.w == 32) || decide (32 < r.row0 + r.h) || decide (32 < r.col0 + r.w)

/-- MXCFG (R186). -/
def execMxcfg (b a : BitVec 5) (w l : Bool) (s : State) : Out :=
  let x := s.g a
  let y := s.g b
  let r := rectOf x y
  issue (.mxcfg b a w l) s
    (if rectBad x y then s.fault 0x155 x 0
     else if s.rectOutside s.cur r then s.fault 0x156 x 0
     else if Config.spillBase < r.base + r.rpc * r.cols * r.elBytes then s.fault 0x15D x 0
     else (s.onMx s.cur s.curHart fun m => { m with desc := x, lbase := y, valid := true }).complete)

/-! Commands. -/

/-- The format is FP16 or BF16; 0000 means FP16 (R185, R188). -/
def mxFloat (f : BitVec 4) : Bool := f == 0 || f == 2 || f == 3

/-- A command goes to the array of the hart's lease (R177): the hart is not ready while it queues for the grant, while the array's command
queue is full, and while a counter of the lease has reached its limit (R176). -/
def State.sendMx (s : State) (t : State) : State :=
  let m := s.hart.mx
  let y := s.array m.array
  let waitingRuns := (y.runs.filter fun r => r.next == 0 && r.outcome == 0).length
  if m.held then
    if 4 ≤ y.queue.length + waitingRuns || y.spent then s.hold else t
  else if m.queued then s.hold
  else if m.rev then (s.onMx s.cur s.curHart fun m => { m with rev := false }).fault 0x151 0 0
  else s.fault 0x150 0 0

/-- What every command carries of its hart. -/
def State.mxCmd (s : State) : MxCmd where
  kind := 2
  core := s.cur
  hart := s.curHart
  ctx := s.self.mem.ctxid
  mode := s.hart.mode
  agid := s.hart.agid
  tile := 0
  pair := false
  fmt := 2
  q := 1
  p := 1
  ce := false
  cblo := s.self.cblo
  cbhi := s.self.cbhi
  buf := false
  addr := 0
  stride := 0
  rows := (rectOf s.hart.mx.desc s.hart.mx.lbase).rows
  orow := 0
  acc := false
  mmode := 0
  scale := 0
  desc := s.hart.mx.desc
  lbase := s.hart.mx.lbase
  d := 0
  sflags := 0
  lost := false

/-- A command counts in the lease of its hart as the array takes it into its command queue (R176). -/
def State.countMx (s : State) (a : BitVec 7) (k : MxCmd) : State :=
  if (s.array a).holder == some (k.core, k.hart) then
    (s.onArray a fun y => { y with cmds := y.cmds + 1, rows := y.rows + (if k.kind == 1 then k.rows else 0) }).onMx k.core k.hart fun m =>
      { m with used := m.used + 1 }
  else s

/-- Puts a command on the queue of the array of the hart's lease, where it counts (R176, R177). -/
def State.queueMx (s : State) (k : MxCmd) : State :=
  let a := s.hart.mx.array
  (s.onArray a fun y => { y with queue := y.queue ++ [k] }).countMx a k

/-- MXLDB (R185): it waits in the command queue until no run uses its buffer. -/
def execMxldb (b a : BitVec 5) (w l : Bool) (s : State) : Out :=
  let x := s.g a
  let y := s.g b
  let p := s.prefixed.getD 0
  let fmt : BitVec 4 := if pfFB p == 0 then 2 else pfFB p
  let pair := y.getLsbD 0
  let m := s.hart.mx
  let buf := !(s.array m.array).lastBuf
  let k : MxCmd := { s.mxCmd with kind := 0, tile := x.extractLsb' 17 8, pair := pair, fmt := fmt, q := (pfQB p).toNat + 1,
                                  p := (pfPP p).toNat + 1, ce := pfCE p, buf := buf }
  issue (.mxldb b a w l) s
    (if x.extractLsb' 0 17 != 0 || x.extractLsb' 25 39 != 0 || (pair && x.getLsbD 17) then s.fault 0x15C x 0
     else if y.extractLsb' 1 63 != 0 || (pair && !mxFloat fmt) then s.fault 0x157 y 0
     else s.sendMx (((s.queueMx k).onArray m.array fun z => { z with lastBuf := buf }).onMx s.cur s.curHart fun m =>
       { m with lastLoad := some (buf, fmt, pair), loaded := true }).complete)

/-- Bytes of an A row (R188). -/
def rowSize (fa : BitVec 4) (mode p : Nat) : Nat :=
  if mxFloat fa then (if mode == 0 then 512 else 1024)
  else match fa.toNat with
    | 4 => 256
    | 7 => 128
    | _ => 32 * p

/-- What a read of a row or of a column's segment fetches (R27): how many groups, the bytes between their starts, and the bytes read of each. Of a
group in the NI format these are the first `q` planes. -/
def rowGroups (f : BitVec 4) (mode q p : Nat) : Nat × Nat × Nat :=
  if mxFloat f || f == 4 || f == 7 then (1, rowSize f mode p, rowSize f mode p) else (4, 8 * p, 8 * q)

/-- What MXRUN finds of a stretch of its A rows (R188), with the state in which slices have answered: it may go on, it traps, it needs a page's
translation, or a slice holds 1 024 tickets and the miss waits there (R246). -/
inductive RowCheck where
  | ok (s : State)
  | trap (s : State) (va : W) (cause : BitVec 9)
  | page (s : State) (va : W)
  | full (s : State)

/-- The permission of an entry for the executing hart's load. -/
def State.rowEntry (s : State) (va : W) (e : TlbEntry) : RowCheck :=
  match s.reachEntry (.xlat 1) .load false s.hart.mode e va 8 with
  | .go _ => .ok s
  | .stop cause _ => .trap s va cause

/-- Checks the bytes from `a` to `a + n`, which lie in one page. What the slice answers fills its TLB and the core's (R246, R247). -/
def State.rowPart (s : State) (a n : Nat) : RowCheck :=
  let va := BitVec.ofNat 64 a
  if 2 ^ 64 ≤ a then .trap s 0 (accCause .load 2 .bounds)
  else match spaceOf va with
    | .beyond => .trap s va (accCause .load 0 .bounds)
    | .wild => .trap s va (accCause .load 2 .bounds)
    | .loc =>
      if guardOk s.self.mem.lguard s.hart.mode .load a n then .ok s
      else
        let bad := (List.range n).find? fun i => !guardOk s.self.mem.lguard s.hart.mode .load (a + i) 1
        .trap s (BitVec.ofNat 64 (a + bad.getD 0)) (accCause .load 0 .protection)
    | .peer => if va.extractLsb' 52 4 != 0 && !s.routed (va.extractLsb' 52 4) then .trap s va (accCause .load 1 .bounds) else .ok s
    | .global =>
      let slice := sliceOf s.cur va
      let answered (e : TlbEntry) : RowCheck := match s.rowEntry va e with
        | .ok t => .ok (t.cacheEntry slice s.cur e)
        | r => r
      match s.self.mem.lookup va with
      | some e => s.rowEntry va e
      | none =>
        match s.sliceHit slice s.self.mem.ctxid va with
        | some e => answered e
        | none =>
          if 1024 ≤ (s.openAt slice).length then .full s
          else match walk s.mem va 4 s.self.mem.root with
          | .leaf size pte _ => answered (leafEntry s.self.mem.ctxid va size pte)
          | _ => .page s va

/-- Checks `n` bytes from `a`, page by page; `fuel` bounds the pages. -/
def State.rowRange (s : State) : Nat → Nat → Nat → RowCheck
  | 0, _, _ => .ok s
  | fuel + 1, a, n =>
    if n == 0 then .ok s
    else match s.rowPart a (inPage a n) with
      | .ok s => s.rowRange fuel (a + inPage a n) (n - inPage a n)
      | r => r

/-- The hart's MXDESC read out. -/
def State.rect (s : State) : Rect := rectOf s.hart.mx.desc s.hart.mx.lbase

/-- Cause 0x156 of MXRUN and MXZERO (R181, R188, R192): judged only when a lease is held or requested. -/
def State.rectRefused (s : State) : Bool :=
  let m := s.hart.mx
  (m.held || m.queued) && (s.rectOutside s.cur s.rect || dieOf s.rect.origin != m.array.extractLsb' 5 2)

/-- The checks of MXRUN's registers, in order (R188): cause and TRADDR. -/
def State.runCause (s : State) (fa : BitVec 4) (opt n : W) : Option (BitVec 9 × W) :=
  let m := s.hart.mx
  let mode := (opt.extractLsb' 1 2).toNat
  let float := mxFloat fa
  let lastFmt := (m.lastLoad.map fun x => x.2.1).getD 0
  let lastPair := (m.lastLoad.map fun x => x.2.2).getD false
  if opt.extractLsb' 6 2 != 0 || opt.extractLsb' 48 16 != 0 || mode == 3 || opt.extractLsb' 8 3 != 0 then some (0x157, opt)
  else if float && opt.extractLsb' 3 3 != 0 then some (0x157, opt)
  else if !m.valid then some (0x15B, 0)
  else if n == 0 || 65536 < n.toNat || s.rect.rows < (opt.extractLsb' 32 16).toNat + n.toNat then some (0x158, n)
  else if !m.loaded || float != mxFloat lastFmt || (mode != 0 && !float) then some (0x159, 0)
  else if (mode != 0) != s.rect.pairs || (mode == 2) != lastPair then some (0x15A, 0)
  else if s.rectRefused then some (0x156, m.desc)
  else none

/-- The scale of an integer run, and the flags of its product (R44, R188, R189). -/
def State.runScale (s : State) (sc osc : BitVec 3) : BitVec 32 × BitVec 5 :=
  let r (i : BitVec 3) : Nat := (s.hart.arith.scale[i.toNat]?.getD 0).toNat
  let x := fp32.mul 0 (r sc) (r osc)
  (BitVec.ofNat 32 x.1, x.2)

/-- MXRUN past the checks of its registers: the A rows are checked and translated, and the command is sent (R188). It takes one sequence
number, for the translation (R249). -/
def State.mxrun (s : State) (i : Instr) (d : BitVec 5) (addr opt n : W) : State :=
  let p := s.prefixed.getD 0
  let fa : BitVec 4 := if pfFA p == 0 then 2 else pfFA p
  let mode := opt.extractLsb' 1 2
  let size := rowSize fa mode.toNat ((pfPP p).toNat + 1)
  let st := opt.extractLsb' 8 24
  let stride : W := if st == 0 then BitVec.ofNat 64 size else st.setWidth 64
  let total := (n.toNat - 1) * stride.toNat + size
  match s.runCause fa opt n with
  | some (cause, x) => s.fault cause x 0
  | none =>
    let k : MxCmd := { s.mxCmd with kind := 1, fmt := fa, q := (pfQA p).toNat + 1, p := (pfPP p).toNat + 1, ce := pfCE p,
                                    buf := (s.hart.mx.lastLoad.map fun x => x.1).getD false, addr := addr, stride := stride, rows := n.toNat,
                                    orow := (opt.extractLsb' 32 16).toNat, acc := opt.getLsbD 0, mmode := mode,
                                    scale := (s.runScale (pfSC p) (opt.extractLsb' 3 3)).1,
                                    sflags := (s.runScale (pfSC p) (opt.extractLsb' 3 3)).2, d := d }
    s.sendMx
      (if addr.extractLsb' 0 3 != 0 then s.fault (accCause .load (spaceOf addr).code .misaligned) addr 0
       else s.orReplayed (match s.rowRange (total / 4096 + 2) addr.toNat total with
        | .trap t va cause => t.dropOwn.fault cause va 0
        | .full t => t.hold
        | .page t va =>
          if !t.entryReady then t.hold
          else
            let q : Ask := { op := .xlat 1, els := [⟨va, 1, 0, .load⟩], vec := false, plain := false, acq := false }
            t.sendOut i q (makeParts t q q.els 0)
        | .ok t => (((t.dropOwn.markEmpty (.g d)).queueMx k).numbered).complete))

/-- MXRUN (R188). -/
def execMxrun (c b a d : BitVec 5) (w l : Bool) (s : State) : Out :=
  issue (.mxrun c b a d w l) s (s.mxrun (.mxrun c b a d w l) d (s.g a) (s.g b) (s.g c))

/-- MXZERO (R192). -/
def execMxzero (w l : Bool) (s : State) : Out :=
  issue (.mxzero w l) s
    (if !s.hart.mx.valid then s.fault 0x15B 0 0
     else if s.rectRefused then s.fault 0x156 s.hart.mx.desc 0
     else s.sendMx (s.queueMx s.mxCmd).complete)

/-- MXWAIT (R191): not ready until the run is complete; cause 0x1B2 for one that ended by checksum. DEDUCED (log 132): the 64 commands that the
array accepted most recently are those of its 64 latest sequence numbers, MXRUN and MXZERO. -/
def State.mxwait (s : State) (d : BitVec 5) (x : W) : State :=
  let y := s.array (x.extractLsb' 32 7)
  let n := x.extractLsb' 0 32
  if 2 ^ 31 ≤ (y.lastDone - n).toNat then s.hold
  else match y.recs.find? fun r => r.seq == n && r.ctx == s.self.mem.ctxid && decide ((y.seq - n).toNat ≤ 64) with
    | none => (s.setG d 0).complete
    | some r =>
      if r.status.extractLsb' 4 4 == 3 then s.fault 0x1B2 0 0
      else (s.setG d (BitVec.ofNat 64 (256 * r.rows) ||| r.status.setWidth 64)).complete

/-- MXWAIT (R191). -/
def execMxwait (a d : BitVec 5) (w l : Bool) (s : State) : Out := issue (.mxwait a d w l) s (s.mxwait d (s.g a))

/-! B buffers (R184, R185). -/

/-- The element format that a buffer or a command reads with. -/
def mxSrc (f : BitVec 4) (q p : Nat) (ce : Bool) : SrcFmt := ⟨f, q, p, ce⟩

/-- Bytes of a column's segment that a format reads (R184). -/
def segmentBytes (f : BitVec 4) (p : Nat) : Nat := if mxFloat f then 512 else rowSize f 0 p

/-- The cells of a tile of an array, from its first byte. -/
def tileCells (m : Memory) (a : BitVec 7) (tile : BitVec 8) : List Host.Cell :=
  let lo := Config.weightBase + a.toNat * 0x2000000 + tile.toNat * 0x20000
  (m.filter fun x => decide (lo ≤ x.1 ∧ x.1 < lo + 0x20000)).map fun x => (x.1 - lo, x.2)

/-- A byte that the tile's format reads (R27) lies in a poisoned line. -/
def tileBad (s : State) (a : BitVec 7) (tile : BitVec 8) (g : Nat × Nat × Nat) : Bool :=
  let lo := Config.weightBase + a.toNat * 0x2000000 + tile.toNat * 0x20000
  s.poison.any fun l => decide (lo ≤ 64 * l ∧ 64 * l < lo + 0x20000) && (List.range g.1).any fun i =>
    decide ((64 * l - lo) % 512 < i * g.2.1 + g.2.2 ∧ i * g.2.1 < (64 * l - lo) % 512 + 64)

/-- A run that is not over uses the buffer. -/
def Arr.usesBuf (y : Arr) (b : Bool) : Bool := y.runs.any fun r => r.cmd.kind == 1 && r.cmd.buf == b && r.outcome == 0 && decide (r.next < r.cmd.rows)

/-- The head of the queue leaves it. -/
def State.popMx (s : State) (a : BitVec 7) : State := s.onArray a fun y => { y with queue := y.queue.drop 1 }

/-- The head of an array's queue, if it is of this kind. -/
def Arr.headOf (y : Arr) (kind : BitVec 2) : Option MxCmd :=
  match y.queue with
  | k :: _ => if k.kind == kind then some k else none
  | [] => none

/-- The buffer that the load at the head of the queue makes (R185): `bad` is the outcome that its runs end with, 0 for a good one. -/
def State.loadedBuf (s : State) (a : BitVec 7) (k : MxCmd) (bad : BitVec 4) : BBuf where
  loader := if k.lost then none else some (k.core, k.hart)
  fmt := k.fmt
  q := k.q
  p := k.p
  ce := k.ce
  cblo := k.cblo
  cbhi := k.cbhi
  pair := k.pair
  tile := tileCells s.mem a k.tile
  tile2 := if k.pair then tileCells s.mem a (k.tile + 1) else []
  bad := bad

/-- The load at the head of the queue is made (R185). -/
def State.loadTile (s : State) (a : BitVec 7) (k : MxCmd) (bad : BitVec 4) : State :=
  let b := s.loadedBuf a k bad
  (s.popMx a).onArray a fun y => if k.buf then { y with buf1 := b } else { y with buf0 := b }

/-- The load that the array can make now (R185): it heads the queue, and no earlier run uses its buffer. -/
def Arr.nextLoad (y : Arr) : Option MxCmd := (y.headOf 0).filter fun k => !y.usesBuf k.buf

/-- ARRAY_LOAD_B_TILE (R185, R193): once no earlier run uses the buffer, the tile is read. A line that cannot be read, even when the weight store is
read a second time for the checksum, is logged with action 2 (DEDUCED, log 133). -/
def execArrayLoadBTile (a : BitVec 7) (s : State) : Out :=
  match (s.array a).nextLoad with
  | none => s.idle
  | some k =>
    let g := rowGroups k.fmt 0 k.q k.p
    let at' (t : BitVec 8) : Nat := Config.weightBase + a.toNat * 0x2000000 + t.toNat * 0x20000
    if tileBad s a k.tile g || (k.pair && tileBad s a (k.tile + 1) g) then
      ((s.loadTile a k 5).logError { core := k.core, hart := k.hart, unit := 4, addr := BitVec.ofNat 64 (at' k.tile), info := 0, ctx := some k.ctx } 4 2).occur
    else (s.loadTile a k 0).occur

/-- A buffer of an array. -/
def Arr.bufOf (y : Arr) (b : Bool) : BBuf := if b then y.buf1 else y.buf0

/-- The outcome with which a run begins (R185, R188, R191): 0, or a refusal. -/
def BBuf.refuses (b : BBuf) (k : MxCmd) : BitVec 4 :=
  if b.loader != some (k.core, k.hart) then 1
  else if b.bad != 0 then b.bad
  else if mxFloat b.fmt != mxFloat k.fmt || (k.mmode == 2) != b.pair then 2
  else 0

/-- The records that an array keeps, of the 64 commands it accepted most recently (R191). -/
def Arr.recent (y : Arr) (l : List RunRec) : List RunRec := l.filter fun x => decide ((y.seq - x.seq).toNat ≤ 64)

/-- A command is accepted, takes its sequence number and begins (R188, R192). -/
def State.beginRun (s : State) (a : BitVec 7) (k : MxCmd) (o : BitVec 4) : State :=
  (s.popMx a).onArray a fun y =>
    { y with seq := y.seq + 1, recs := { y with seq := y.seq + 1 }.recent y.recs, runs := y.runs ++ [{ cmd := k, seq := y.seq, next := 0, owed := 0, applied := 0, outcome := o, flags := 0 }] }

/-- RUN_ACCEPT (R188): gD and MXLAST name the run. -/
def execRunAccept (a : BitVec 7) (s : State) : Out :=
  let y := s.array a
  match y.headOf 1 with
  | none => s.idle
  | some k =>
    let s := s.beginRun a k ((y.bufOf k.buf).refuses k)
    if (s.core k.core).mem.ctxid == k.ctx && !(s.core k.core).sys.fenced then
      (((s.fill k.core k.hart (.g k.d) ((a ++ y.seq).setWidth 1024))).onMx k.core k.hart fun m => { m with lastArr := a, lastSeq := y.seq }).occur
    else s.occur

/-- MXZERO_ACCEPT (R192). -/
def execMxzeroAccept (a : BitVec 7) (s : State) : Out :=
  match (s.array a).headOf 2 with
  | none => s.idle
  | some k => (s.beginRun a k 0).occur

/-! Rows (R43, R44, R189). -/

/-- The little-endian number in a byte range of a tile. -/
def tileBytes (t : List Host.Cell) (off n : Nat) : Nat := leNat (readBytes t off n)

/-- Element `k` of 256 whose bytes make up the number `x`: a float with its subnormals flushed, or an exact integer (R36, R184, R189). -/
def mxElement (x : Nat) (f : SrcFmt) (lo hi : W) (k : Nat) : FVal :=
  match codeFmt f.f with
  | some m =>
    let b := laneBits x 16 k
    match m.val b with
    | .fin n v e => if b / 2 ^ m.f % 2 ^ m.e == 0 then .fin n 0 0 else .fin n v e
    | v => v
  | none =>
    let z := if f.f == 8 then intElement (x / 2 ^ (64 * f.p * (k / 64))) f lo hi (k % 64) else intElement x f lo hi k
    .fin (decide (z < 0)) z.natAbs 0

/-- The exact integer of an element. -/
def FVal.int : FVal → Int
  | .fin n m _ => if n then -(m : Int) else m
  | _ => 0

/-- A run sum of R43: groups of 16 along K, each rounded once, added in ascending order from +0. `p` gives the products at k. -/
def runSum (p : Nat → List (FVal × FVal)) : Nat × BitVec 5 :=
  (List.range 16).foldl (fun (acc : Nat × BitVec 5) g =>
    let s := ((List.range 16).foldl (fun (x : GroupSum) i => (p (16 * g + i)).foldl (fun x q => x.addProduct q.1 q.2) x) GroupSum.zero).result
    let r := fp32.add 0 acc.1 s.1
    (r.1, acc.2 ||| s.2 ||| r.2)) (0, 0)

/-- An integer run sum (R44). -/
def runInt (a b : Nat → FVal) (sc : BitVec 32) : Nat × BitVec 5 :=
  let t := (List.range 256).foldl (fun z k => z + (a k).int * (b k).int) 0
  let f := fp32.ofInt 0 t
  let u := fp32.mul 0 f.1 sc.toNat
  let r := fp32.add 0 0 u.1
  (r.1, f.2 ||| u.2 ||| r.2)

/-- The sums of one row for column `j`: mean or value, variance, flags (R189). -/
def rowSums (k : MxCmd) (b : BBuf) (row : Nat) (j : Nat) : Nat × Nat × BitVec 5 :=
  let fa := mxSrc k.fmt k.q k.p k.ce
  let fb := mxSrc b.fmt b.q b.p b.ce
  let n := segmentBytes b.fmt b.p
  let xb := tileBytes b.tile (512 * j) n
  let a (i : Nat) := mxElement row fa k.cblo k.cbhi i
  let w (i : Nat) := mxElement xb fb b.cblo b.cbhi i
  if k.kind == 2 then (0, 0, 0)
  else if !mxFloat k.fmt then
    let r := runInt a w k.scale
    (r.1, 0, r.2 ||| k.sflags)
  else if k.mmode == 0 then
    let r := runSum fun i => [(a i, w i)]
    (r.1, 0, r.2)
  else
    let va (i : Nat) := mxElement row fa k.cblo k.cbhi (256 + i)
    let sq (x : FVal) : FVal := (x.times x).1
    let m := runSum fun i => [(a i, w i)]
    if k.mmode == 1 then
      let s := runSum fun i => [(sq (w i), va i)]
      (m.1, s.1, m.2 ||| s.2)
    else
      let x2 := tileBytes b.tile2 (512 * j) n
      let wv (i : Nat) := mxElement x2 fb b.cblo b.cbhi i
      let s := runSum fun i => [(sq (a i), wv i), (sq (w i), va i), (va i, wv i)]
      (m.1, s.1, m.2 ||| s.2)

/-- For whom an array works. -/
def MxCmd.party (k : MxCmd) : Party := { core := k.core, hart := k.hart, ctx := k.ctx, agid := k.agid, mode := k.mode, opcode := 13 }

/-- An array reads `k` groups of `n` bytes, `size` bytes apart (R27); what it does not fetch stands as zeros. -/
def engineReadGroups (s : State) (p : Party) (va : W) (size n : Nat) : Nat → EngRead
  | 0 => .bytes s []
  | k + 1 => match engineRead s p va n with
    | .bytes s x => match engineReadGroups s p (va + BitVec.ofNat 64 size) size n k with
      | .bytes s y => .bytes s (x ++ clean (List.replicate (size - n) 0) ++ y)
      | r => r
    | r => r

/-- Applies a change to the run of a sequence number. -/
def State.onRun (s : State) (a : BitVec 7) (seq : BitVec 32) (f : Run → Run) : State :=
  s.onArray a fun y => { y with runs := y.runs.map fun r => if r.seq == seq then f r else r }

/-- The flags NV, OF, UF, NX of a status (R191), from those of FPSTAT's order. -/
def mxFlags (fl : BitVec 5) : BitVec 4 := BitVec.ofBool (fl.getLsbD 4) ++ fl.extractLsb' 0 3

/-- The parts of one row's sums for its owners (R187, R189), from the 256 columns' sums. -/
def rowParts (s : State) (a : BitVec 7) (r : Run) (sums : List (Nat × Nat × BitVec 5)) : List PartialMsg :=
  let t := rectOf r.cmd.desc r.cmd.lbase
  let row := r.cmd.orow + r.next
  (List.range t.w).map fun j =>
    let mine := (sums.drop (j * t.cols)).take t.cols
    { id := s.fresh + 2 * j, array := a, seq := r.seq, core := t.owner (row / t.rpc) j,
      addr := t.base + row % t.rpc * t.cols * t.elBytes, row := r.next, acc := r.cmd.acc, means := mine.map fun x => BitVec.ofNat 32 x.1,
      vars := if t.pairs then mine.map fun x => BitVec.ofNat 32 x.2.1 else [] }

/-- The lines of a row at its owners become poisoned (R348). -/
def State.poisonRow (s : State) (l : List PartialMsg) : State :=
  l.foldl (fun s m => s.poisonLines (linesOf (localKey m.core m.addr) (4 * (m.means.length + m.vars.length)))) s

/-- The run that an array works on. -/
def Arr.active (y : Arr) : Option Run := y.runs.find? fun r => r.outcome == 0 && decide (r.next < r.cmd.rows)

/-- Rows of a run are on their way to owners. -/
def State.rowsOut (s : State) (a : BitVec 7) (seq : BitVec 32) : Bool := s.net.partials.any fun (x : PartialMsg) => x.array == a && x.seq == seq

/-- ARRAY_ROW_COMPUTE (R188 to R191): the next A row is read and its sums set out, once every owner of the row has applied all that the
array sent it for earlier commands (R190). A poisoned row poisons its place at the owners (R348) once the rows before it are applied. -/
def execArrayRowCompute (a : BitVec 7) (s : State) : Out :=
  let y := s.array a
  match y.active with
  | none => s.idle
  | some r =>
    let k := r.cmd
    let b := y.bufOf k.buf
    let go (s : State) (row : Nat) : Out :=
      let sums := (List.range 256).map (rowSums k b row)
      let l := rowParts s a r sums
      if l.any fun m => s.net.partials.any fun x => x.array == a && x.core == m.core && x.seq != r.seq then s.idle
      else
        let fl := sums.foldl (fun f x => f ||| mxFlags x.2.2) 0
        let s := s.onRun a r.seq fun r => { r with next := r.next + 1, owed := r.owed + l.length, flags := r.flags ||| fl }
        State.occur { s with net := { s.net with partials := s.net.partials ++ l }, nextId := s.nextId + l.length }
    let fail (s : State) : State := s.onRun a r.seq fun r => { r with outcome := 5 }
    let g := rowGroups k.fmt k.mmode.toNat k.q k.p
    if k.kind == 2 then go s 0
    else match engineReadGroups s k.party (k.addr + BitVec.ofNat 64 r.next * k.stride) g.2.1 g.2.2 g.1 with
      | .wait t => s.waited t
      | .problem t _ => (fail t).occur
      | .bytes t l =>
        if !anyPoison l then go t (mixedNat l)
        else if s.rowsOut a r.seq then s.idle
        else ((fail t).poisonRow (rowParts t a r ((List.range 256).map fun _ => (0, 0, 0)))).occur

/-- Adds a list of values to FP32 elements from `key` on, or writes them (R189): memory and the flags. -/
def accumulate (acc : Bool) : List (BitVec 32) → Nat → Memory → BitVec 5 → Memory × BitVec 5
  | [], _, m, fl => (m, fl)
  | x :: t, key, m, fl =>
    let r := if acc then fp32.add 0 (readNat m key 4) x.toNat else (x.toNat, 0)
    accumulate acc t (key + 4) (writeNat m key 4 r.1) (fl ||| r.2)

/-- An owner applies its part of a row, whole (R189). -/
def State.applyPart (s : State) (m : PartialMsg) : State × BitVec 5 :=
  let key := localKey m.core m.addr
  let n := m.means.length
  let r := accumulate m.acc m.means key s.mem 0
  let q := accumulate m.acc m.vars (key + 4 * n) r.1 r.2
  let bytes := readBytes q.1 key (4 * (n + m.vars.length))
  (storeBytes s key bytes, q.2)

/-- Ends a run early at an owner that cannot take row `m.row` (R191): with outcome 5, no row after it is applied anywhere. -/
def State.failPart (s : State) (m : PartialMsg) (o : BitVec 4) : State :=
  let later (x : PartialMsg) : Bool := o == 5 && x.array == m.array && x.seq == m.seq && decide (m.row < x.row)
  let n := (s.net.partials.filter later).length + 1
  { s with net := { s.net with partials := s.net.partials.filter fun x => !later x } }.onRun m.array m.seq fun r =>
    { r with outcome := if r.outcome == 0 then o else r.outcome, owed := r.owed - n }

/-- The run's context is being recalled, and the flood has reached the owner: rows not yet applied there are discarded (R178, R359). -/
def State.recalledAt (s : State) (m : PartialMsg) : Bool :=
  s.pkg.recallBusy && s.packetCtx (.sums m 0) == s.pkg.victim && !s.pkg.floodDue.contains m.core

/-- PARTIAL_SUMS (R189, R190, R350): parts of one array reach an owner in order, and the rows of a run are applied in ascending order; a fenced
owner ends the run with outcome 6, and an element that cannot be read with outcome 5. -/
def execPartialSums (n : Nat) (s : State) : Out :=
  match s.net.partials.find? fun (m : PartialMsg) => m.id == n with
  | none => s.turnedAway n 0
  | some m =>
    if ((s.net.partials.takeWhile fun (x : PartialMsg) => x.id != n).any fun x => x.array == m.array && x.core == m.core) ||
        (s.net.partials.any fun (x : PartialMsg) => x.array == m.array && x.seq == m.seq && decide (x.row < m.row)) then s.idle
    else match s.heldAny n with
    | some k => s.turnedAway n k
    | none =>
      let gone := s.recalledAt m
      let s := { s with net := { s.net with partials := s.net.partials.filter fun (x : PartialMsg) => x.id != n } }
      if gone then (s.onRun m.array m.seq fun r => { r with owed := r.owed - 1 }).occur
      else if s.closedTo m.core then (s.failPart m 6).occur
      else if m.acc && poisoned s (localKey m.core m.addr) (4 * (m.means.length + m.vars.length)) then (s.failPart m 5).occur
      else
        let t := s.applyPart m
        (t.1.onRun m.array m.seq fun r => { r with owed := r.owed - 1, applied := r.applied + 1, flags := r.flags ||| mxFlags t.2 }).occur

/-- The cores that hold at least one row of a command's range. -/
def Run.recipients (r : Run) : List CoreId :=
  let t := rectOf r.cmd.desc r.cmd.lbase
  let lo := r.cmd.orow / t.rpc
  let hi := (r.cmd.orow + r.cmd.rows - 1) / t.rpc
  (List.range t.h).flatMap fun i => if lo ≤ i && i ≤ hi then (List.range t.w).map fun j => t.owner i j else []

/-- RUN_COMPLETE (R191, R192, R194): the oldest accepted command has ended and nothing of it is on the way. -/
def execRunComplete (a : BitVec 7) (s : State) : Out :=
  match (s.array a).runs with
  | [] => s.idle
  | r :: t =>
    if r.owed != 0 || (r.outcome == 0 && r.next < r.cmd.rows) then s.idle
    else
      let k := r.cmd
      let st : Byte := r.outcome ++ r.flags
      let rows := r.applied / (rectOf k.desc k.lbase).w
      let s := s.onArray a fun y => { y with
        runs := t, lastDone := r.seq,
        recs := y.recent ({ seq := r.seq, ctx := k.ctx, rows := rows, status := st } :: y.recs) }
      let s := if k.kind == 1 && (s.core k.core).mem.ctxid == k.ctx then
          s.onMx k.core k.hart fun m => { m with
            lastst := st, nv := m.nv || r.flags.getLsbD 3, of := m.of || r.flags.getLsbD 2, uf := m.uf || r.flags.getLsbD 1, nx := m.nx || r.flags.getLsbD 0 }
        else s
      (r.recipients.foldl (fun s c => s.post (srcArray a) c 17 (if k.kind == 1 then 0x11 else 0x12) st ((a ++ r.seq).setWidth 48)) s).occur

end Sys2Proof.Machine
end

