-- ==== Sys2Proof/Machine/Service.lean ====
section
/-!
DEFINITION. The memory service (R210, R257), invalidation of translations (R258, R260), and the live capacity: MEMCAP, the retirement
of a stack and the migration of its granules (R205 to R207).
-/

namespace Sys2Proof.Machine

/-! Ranges of memory. -/

/-- Forgets every cell of a range, so that it reads as memory that nothing has written (log 3). -/
def clearRange (m : Memory) (a n : Nat) : Memory := m.filter fun x => !decide (a ≤ x.1 ∧ x.1 < a + n)

/-- Zeroes a range of memory and its poison. -/
def State.zeroRange (s : State) (a n : Nat) : State :=
  let m := clearRange s.mem a n
  { s with mem := if Config.unwrittenByte == 0 then m else (List.range n).foldl (fun m i => writeByte m (a + i) 0) m
           poison := s.poison.filter fun l => !decide (a ≤ l * 64 ∧ l * 64 < a + n) }

/-- Copies a range of memory with its poison. -/
def State.copyRange (s : State) (src dst n : Nat) : State :=
  let cells := s.mem.filter fun x => decide (src ≤ x.1 ∧ x.1 < src + n)
  let bad := s.poison.filter fun l => decide (src ≤ l * 64 ∧ l * 64 < src + n)
  { s with mem := cells.foldl (fun m x => writeByte m (x.1 - src + dst) x.2) (clearRange s.mem dst n)
           poison := bad.foldl (fun l x => insertNat (x - src / 64 + dst / 64) l)
             (s.poison.filter fun l => !decide (dst ≤ l * 64 ∧ l * 64 < dst + n)) }

/-! Invalidation (R258, R260). -/

/-- The page of an entry overlaps the named page; size 3 names every page of the context. -/
def TlbEntry.overlaps (e : TlbEntry) (ctx : BitVec 16) (vpn : BitVec 36) (size : BitVec 2) : Bool :=
  e.ctx == ctx && (size == 3 ||
    (let n := max (pageBytes e.size) (pageBytes size) / 4096
     e.vpn.toNat / n == vpn.toNat / n))

/-- The part went through an entry that overlaps the named page, and is still to be performed. -/
def Part.through (vpn : BitVec 36) (size : BitVec 2) (p : Part) : Bool :=
  match p.stage with
  | .sent (.phys _ page) =>
    let z := if page.toNat < size.toNat then size else page
    size == 3 || pageOf (p.va.extractLsb' 12 36) z == pageOf vpn z
  | _ => false

/-- The parts of a context that went through a translation overlapping the named page and are still to be performed (R258). -/
def State.throughPage (s : State) (ctx : BitVec 16) (vpn : BitVec 36) (size : BitVec 2) : List (Nat × Nat) :=
  s.net.accs.flatMap fun a => if a.ctx == ctx then (a.parts.filter (Part.through vpn size)).map fun p => (a.id, p.n) else []

/-- Removes the translations of a page from every slice and core. -/
def State.purgePage (s : State) (ctx : BitVec 16) (vpn : BitVec 36) (size : BitVec 2) : State :=
  { s with
    books := { s.books with sliceTlb := s.books.sliceTlb.filter fun x => !x.2.overlaps ctx vpn size }
    cores := s.cores.map fun k => (k.1, { k.2 with mem := { k.2.mem with tlb := k.2.mem.tlb.filter fun e => !e.overlaps ctx vpn size } }) }

/-- A request to the host for a translation of the named page is withdrawn: its access is translated afresh (R258, R260, R262, log 124). -/
def Part.askAgain (vpn : BitVec 36) (size : BitVec 2) (p : Part) : Part :=
  if p.stage == .ats && (size == 3 || pageOf (p.va.extractLsb' 12 36) size == pageOf vpn size) then { p with stage := .slice } else p

/-- The requests of a context to the host for translations of the named page are withdrawn. -/
def State.withdrawAts (s : State) (ctx : BitVec 16) (vpn : BitVec 36) (size : BitVec 2) : State :=
  { s with net := { s.net with accs := s.net.accs.map fun a => if a.ctx == ctx then { a with parts := a.parts.map (Part.askAgain vpn size) } else a } }

/-- An invalidation begins: translations go at once, and it ends when the accesses that went through them are performed. -/
def State.invalidate (s : State) (w : DrainFor) (ctxs : List (BitVec 16)) (vpn : BitVec 36) (size : BitVec 2) : State :=
  let parts := ctxs.flatMap fun x => s.throughPage x vpn size
  let s := ctxs.foldl (fun s x => (s.purgePage x vpn size).withdrawAts x vpn size) s
  { s with books := { s.books with drains := s.books.drains ++ [{ waiter := w, parts := parts }] } }

/-- A write of `x` to TLBINV by a hart (R258). -/
def State.tlbinvBy (s : State) (c : CoreId) (h : HartId) (x : W) : State :=
  s.invalidate (.hart c h) [x.extractLsb' 48 16] (x.extractLsb' 12 36) (x.extractLsb' 10 2)

/-- The part is still to be performed. -/
def State.partOpen (s : State) (p : Nat × Nat) : Bool :=
  match s.acc p.1 with
  | none => false
  | some a => match a.part p.2 with
    | none => false
    | some q => match q.stage with
      | .sent (.phys ..) => true
      | _ => false

/-- The drain has ended. -/
def State.drained (s : State) (d : Drain) : Bool := !d.parts.any s.partOpen

/-- TLBINV (R258): firmware in M removes translations, and its hart is not ready until the drain ends. A CSR write of TLBINV has the
same effect. -/
def execTlbinv (c : BitVec 12) (h : BitVec 2) (x : BitVec 64) (s : State) : Out :=
  let k := s.hartAt c h
  if k.mode == 3 && !k.stopped && k.wait == .none then
    ((s.tlbinvBy c h x).onHartAt c h fun k => { k with wait := .tlbinv, waitAt := none }).occur
  else s.idle

/-- What a CSR instruction that writes TLBINV leaves in its destination: TLBINV reads zero (R92, R258). -/
def tlbinvResult (i : Instr) : OpResult :=
  match i with
  | .csrrw _ _ d .. => oneWrite (.g d) 0
  | .csrrs _ _ d .. => oneWrite (.g d) 0
  | .csrrc _ _ d .. => oneWrite (.g d) 0
  | .csrwi _ _ d .. => oneWrite (.g d) 0
  | .csrsi _ _ d .. => oneWrite (.g d) 0
  | .csrci _ _ d .. => oneWrite (.g d) 0
  | _ => noWrite

/-- TLBINV_DRAIN_COMPLETE (R258). -/
def execTlbinvDrainComplete (c : BitVec 12) (h : BitVec 2) (s : State) : Out :=
  match s.books.drains.find? fun d => d.waiter == DrainFor.hart c h with
  | none => s.idle
  | some d =>
    if !s.drained d then s.idle
    else
      let s := { s with books := { s.books with drains := s.books.drains.filter fun e => !(e.waiter == DrainFor.hart c h) } }
      match (s.hartAt c h).wait, (s.hartAt c h).waitAt with
      | .tlbinv, some w => (s.finishWait c h (tlbinvResult w.op)).occur
      | .tlbinv, none => (s.onHartAt c h fun k => { k with wait := .none }).occur
      | _, _ => s.occur

/-- The core's HPASID names a PASID, whether EN is set or not: translations made while it was are still held (R260). -/
def CoreMem.named (m : CoreMem) (p : BitVec 20) : Bool := m.hpasid.extractLsb' 0 20 == p

/-- The contexts of the cores whose HPASID names a PASID, those that are switched out among them (R260). -/
def State.contextsOf (s : State) (p : BitVec 20) : List (BitVec 16) :=
  (((s.cores.filter fun k => k.2.mem.named p).map fun k => k.2.mem.ctxid) ++
    ((s.images.filter fun (i : Image) => i.core.mem.named p).map fun (i : Image) => i.ctx)).eraseDups

/-- ATS_INVALIDATION_REQUEST (R260). -/
def execAtsInvalidationRequest (p : BitVec 20) (v : BitVec 36) (z : BitVec 2) (s : State) : Out :=
  (s.invalidate (.host p v z) (s.contextsOf p) v z).occur

/-- The PASID of a host's invalidation. -/
def Drain.pasid (d : Drain) : Option (BitVec 20) :=
  match d.waiter with
  | .host p _ _ => some p
  | _ => none

/-- Removes the first element that a test finds. -/
def removeFirst {α : Type} (p : α → Bool) : List α → List α
  | [] => []
  | x :: t => if p x then t else x :: removeFirst p t

/-- INVALIDATION_COMPLETION (R260): requests for one PASID complete in the order in which they arrived. -/
def execInvalidationCompletion (p : BitVec 20) (v : BitVec 36) (z : BitVec 2) (s : State) : Out :=
  match s.books.drains.find? fun d => d.pasid == some p with
  | none => s.idle
  | some d =>
    if d.waiter == .host p v z && s.drained d then
      { s with books := { s.books with drains := removeFirst (fun e => e.pasid == some p) s.books.drains } }.occur
    else s.idle

/-! Frames and quotas (R209, R210). -/

/-- Address of an agent's entry in the table of context `x`, which core `c` served. -/
def agentEntry (s : State) (c : CoreId) (x agid : BitVec 16) : Nat := 0x100000 * ((s.memOf c x).agtab.extractLsb' 20 28).toNat + 16 * agid.toNat

/-- Charges frames to an agent, or nothing when the quota refuses (R210). -/
def State.charge (s : State) (c : CoreId) (ctx agid : BitVec 16) (frame : BitVec 36) (units : Nat) : Option State :=
  let e := agentEntry s c ctx agid
  let limit := readNat s.mem e 8
  let used := readNat s.mem (e + 8) 8
  if limit != 2 ^ 64 - 1 && decide (limit < used + units) then none
  else some { storeBytes s (e + 8) (natLe 8 (used + units)) with
    books := { s.books with charged := s.books.charged ++ [(frame, ctx, agid, units)] } }

/-- Frees a charged frame (R210). -/
def State.uncharge (s : State) (c : CoreId) (frame : BitVec 36) : State :=
  match s.books.charged.find? fun x => x.1 == frame with
  | none => s
  | some x =>
    let e := agentEntry s c x.2.1 x.2.2.1
    { storeBytes s (e + 8) (natLe 8 (readNat s.mem (e + 8) 8 - x.2.2.2)) with
      books := { s.books with charged := s.books.charged.filter fun y => y.1 != frame } }

/-- The frame numbers `f` to `f + n - 1` are in use, for pages or for tables, withdrawn or in quarantine. -/
def State.frameTaken (s : State) (f : BitVec 36) (n : Nat) : Bool :=
  let hit (lo k : Nat) : Bool := decide (lo < f.toNat + n ∧ f.toNat < lo + k)
  (s.books.charged.any fun x => hit x.1.toNat x.2.2.2) || s.books.tables.any (fun x => hit x.1.toNat 1) ||
    s.books.quarantine.any (fun x => hit x.toNat 1) || s.books.withdrawn.any fun x => hit x.toNat 1

/-- The bytes below which frames are allocated (R206, R257): below the next capacity while a retirement is announced. -/
def Capacity.allocBytes (c : Capacity) : Nat :=
  if c.pend then c.bytes.toNat - 0x2000000000 else c.bytes.toNat

/-- The declared range that holds a page (R257). -/
def State.declaredAt (s : State) (ctx : BitVec 16) (vpn : BitVec 36) : Option Declared :=
  s.books.declared.find? fun d => d.ctx == ctx && decide (d.lo ≤ 4096 * vpn.toNat ∧ 4096 * vpn.toNat < d.hi)

/-- The leaf that the service writes for a page of a declared range (R257). -/
def leafWord (d : Declared) (frame : BitVec 36) : W :=
  0#16 ++ frame ++ 0#6 ++ BitVec.ofBool d.u ++ BitVec.ofBool d.x ++ BitVec.ofBool d.w ++ BitVec.ofBool d.r ++ 0#1 ++ 1#1

/-- The entry that the service writes for a table (R257). -/
def tableWord (frame : BitVec 36) : W := 0#16 ++ frame ++ 3#12

/-- The level of the table that holds an entry met with this code: an entry met in the walk at level `n` has `n` levels below. -/
def levelOf (m : Memory) (va : W) : Nat → Nat → Nat
  | 0, _ => 0
  | n + 1, table =>
    let e := BitVec.ofNat 64 (readNat m (table + 8 * (va.extractLsb' (12 + 9 * n) 9).toNat) 8)
    if e.getLsbD 0 && e.getLsbD 1 then levelOf m va n (4096 * (e.extractLsb' 12 36).toNat) else n

/-- Hangs `n` zeroed tables, whose frames are `f`, `f + 1` and so on, between the entry at `place` and a leaf word. -/
def State.hangLeaf (s : State) (va : W) (leaf : W) : Nat → Nat → Nat → State
  | 0, place, _ => storeBytes s place (natLe 8 leaf.toNat)
  | n + 1, place, f =>
    let s := storeBytes (s.zeroRange (4096 * f) 4096) place (natLe 8 (tableWord (BitVec.ofNat 36 f)).toNat)
    s.hangLeaf va leaf n (4096 * f + 8 * (va.extractLsb' (12 + 9 * n) 9).toNat) (f + 1)

/-- The access kind of a ticket. -/
def Ticket.access (t : Ticket) : AccKind := kindOf t.kind

/-- The range in which the service finds the page of a ticket (R257). How the supervisor declares its ranges is not stated: where the books hold
none for the page, a free value tells whether one has been declared since, and which (log 125); the books then hold it. -/
def State.rangeFor (s : State) (t : Ticket) : State × Option Declared :=
  match s.declaredAt t.ctx t.vpn with
  | some d => (s, some d)
  | none =>
    let w := s.free
    let s := s.freed
    if w.getLsbD 0 then
      let d : Declared := { ctx := t.ctx, lo := 4096 * (t.vpn.toNat - (w.extractLsb' 8 28).toNat), hi := 4096 * (t.vpn.toNat + 1 + (w.extractLsb' 36 28).toNat)
                            r := w.getLsbD 1, w := w.getLsbD 2, x := w.getLsbD 3, u := w.getLsbD 4 }
      ({ s with books := { s.books with declared := s.books.declared ++ [d] } }, some d)
    else (s, none)

/-- The new frame of a page gets its contents (R257): zeros on the first touch; a page that has been touched before and is not mapped lies in the
host's swap, at a place that is not stated (free value, log 8). -/
def State.fillPage (s : State) (t : Ticket) (f : BitVec 36) : State :=
  if s.books.touched.contains (t.ctx, t.vpn) then
    s.freed.copyRange (Config.hostBase + 4096 * (s.free.extractLsb' 0 32).toNat) (4096 * f.toNat) 4096
  else { s.zeroRange (4096 * f.toNat) 4096 with books := { s.books with touched := s.books.touched ++ [(t.ctx, t.vpn)] } }

/-- A page that is not mapped (R210, R257), on its first touch or when it lies in the host's swap: the page takes frame `f`, and the tables that
are missing take the frames after it. `place` is the entry that was not valid. DESIGN CHOICE (log 128): the page is always one of 4 KiB; its
frame is charged, and the frames of its tables are not. -/
def State.firstTouch (s : State) (t : Ticket) (f : BitVec 36) (place : Nat) : State :=
  let va : W := (t.vpn.setWidth 64) <<< 12
  let level := t.level.toNat
  match s.rangeFor t with
  | (s, none) => s.answerTicket t.slice t.num (some (xlatCause t.access 0 level))
  | (s, some d) =>
    let missing := levelOf s.mem va 4 (s.memOf t.core t.ctx).root
    if s.cap.allocBytes < 4096 * (f.toNat + missing + 1) then s.answerTicket t.slice t.num (some (xlatCause t.access 3 0))
    else match s.charge t.core t.ctx t.agid f 1 with
      | none => s.answerTicket t.slice t.num (some (xlatCause t.access 2 0))
      | some s =>
        let s := (s.fillPage t f).hangLeaf va (leafWord d f) missing place (f.toNat + 1)
        let tables := (List.range missing).map fun i => (f + 1 + BitVec.ofNat 36 i, t.ctx)
        { s with books := { s.books with tables := s.books.tables ++ tables } }.answerTicket t.slice t.num none

/-- A walk node in host memory is copied into frame `f`, and the pointer at `place`, `e`, is rewritten (R257). -/
def State.fetchNode (s : State) (t : Ticket) (f : BitVec 36) (place : Nat) (e : W) : State :=
  if s.cap.allocBytes < 4096 * (f.toNat + 1) then s.answerTicket t.slice t.num (some (xlatCause t.access 3 0))
  else
    let s := s.copyRange (4096 * (e.extractLsb' 12 36).toNat) (4096 * f.toNat) 4096
    let s := storeBytes s place (natLe 8 (tableWord f).toNat)
    { s with books := { s.books with tables := s.books.tables ++ [(f, t.ctx)] } }.answerTicket t.slice t.num none

/-- The first write of a replayable launch to a page (R352): the page is copied to frames from `f` on, which are charged and mapped. -/
def State.shadowPage (s : State) (t : Ticket) (f : BitVec 36) (place : Nat) (size : BitVec 2) (e : W) : State :=
  let n := pageBytes size
  let old := e.extractLsb' 12 36
  let page := BitVec.ofNat 36 (t.vpn.toNat / (n / 4096) * (n / 4096))
  if s.cap.allocBytes < 4096 * f.toNat + n then s.answerTicket t.slice t.num (some (xlatCause t.access 3 0))
  else match s.charge t.core t.ctx t.agid f (n / 4096) with
    | none => s.answerTicket t.slice t.num (some (xlatCause t.access 2 0))
    | some s =>
      let s := s.copyRange (4096 * old.toNat) (4096 * f.toNat) n
      let s := storeBytes s place (natLe 8 ((e &&& 0xFFFF000000000FFF#64) ||| (f.setWidth 64 <<< 12)).toNat)
      let s := s.purgePage t.ctx page size
      { s with books := { s.books with shadows := s.books.shadows ++ [(t.ctx, page, old, f)] } }.answerTicket t.slice t.num none

/-- MEMORY_SERVICE_TICKET (R257): the oldest unanswered ticket of its page is answered. `f` is the first of the free frames that the
service takes. Nothing is done while the page or its table migrates, or while the host has a page request. -/
def execMemoryServiceTicket (slice : BitVec 6) (num : BitVec 16) (f : BitVec 36) (s : State) : Out :=
  match s.findTicket slice num with
  | none => s.idle
  | some t =>
    let first := s.books.tickets.find? fun u => u.ctx == t.ctx && u.vpn == t.vpn && u.answer.isNone
    if first != some t || t.reason == TicketReason.host.code || s.frameTaken f 4 then s.idle
    else
      let va : W := (t.vpn.setWidth 64) <<< 12
      let at' (n : Nat) : W := BitVec.ofNat 64 (readNat s.mem n 8)
      match walk s.mem va 4 (s.memOf t.core t.ctx).root with
      | .fault o l _ => (s.answerTicket slice num (some (xlatCause t.access o l))).occur
      | .ticket .absent _ place => (s.firstTouch t f place).occur
      | .ticket .walkNode _ place => if (at' place).getLsbD 8 then s.idle else (s.fetchNode t f place (at' place)).occur
      | .ticket _ _ _ => s.idle
      | .host _ _ _ => (s.answerTicket slice num none).occur
      | .leaf size e place =>
        let n := pageBytes size / 4096
        if t.reason == TicketReason.firstWrite.code && !s.books.shadows.any fun x => x.1 == t.ctx && x.2.1.toNat == t.vpn.toNat / n * n then
          (if s.frameTaken f n || f.toNat % n != 0 then s.idle else (s.shadowPage t f place size e).occur)
        else (s.answerTicket slice num none).occur

/-- PRI_PAGE_GROUP_RESPONSE (R259): 0 is Success; anything else is a failure. -/
def execPriPageGroupResponse (slice : BitVec 6) (num : BitVec 16) (o : BitVec 2) (s : State) : Out :=
  match s.findTicket slice num with
  | none => s.idle
  | some t =>
    if t.reason != TicketReason.host.code || t.answer.isSome then s.idle
    else if o == 0 then (s.answerTicket slice num none).occur
    else (s.answerTicket slice num (some (xlatCause t.access (if t.access.writes then 1 else 0) 0))).occur

/-! Capacity (R205 to R207). -/

/-- Source 12 becomes pending on every core (R105, R205). -/
def State.capacityChanged (s : State) : State :=
  let t := s.cores.foldl (fun s k => s.edge k.1 12) s
  { t with cap := { t.cap with changed := true } }

/-- Bytes of a stack. -/
def stackBytes : Nat := 0x2000000000

/-- The stacks that are active. -/
def Capacity.stacks (c : Capacity) : Nat := (activeStacks c.active).length

/-- A write of MEMCAP (R205): PEND, ACTIVE and BYTES; a change makes source 12 pending. -/
def State.putMemcap (s : State) (x : W) : State :=
  let c := { s.cap with pend := x.getLsbD 63, active := x.extractLsb' 48 12, bytes := x.extractLsb' 0 48 }
  if c == s.cap then s else { s with cap := c }.capacityChanged

/-- MEMCAP_WRITE (R205): firmware changes PEND, ACTIVE and BYTES. -/
def execMemcapWrite (x : BitVec 64) (s : State) : Out := if x.extractLsb' 60 3 != 0 then s.idle else (s.putMemcap x).occur

/-! Evacuation (R206 step 2, R257). -/

/-- An entry of a context's tables: where it lies, the first page that it covers, the levels below it, and its bits. -/
structure Mapped where
  place : Nat
  vpn : Nat
  level : Nat
  pte : W
deriving DecidableEq, Repr

/-- The entry points to a table. -/
def Mapped.isTable (x : Mapped) : Bool := x.pte.getLsbD 1

/-- The entry is marked as migrating. -/
def Mapped.migrates (x : Mapped) : Bool := x.pte.getLsbD 8

/-- Its frame number. -/
def Mapped.frame (x : Mapped) : Nat := (x.pte.extractLsb' 12 36).toNat

/-- Frames that its page or table takes. -/
def Mapped.frames (x : Mapped) : Nat := if x.isTable then 1 else 512 ^ x.level

/-- The valid entries of a table at physical address `table`, `n` levels deep, and of the tables below it in HBM. -/
def mappedFrom (m : Memory) : Nat → Nat → Nat → List Mapped
  | 0, _, _ => []
  | n + 1, table, base => (List.range 512).flatMap fun i =>
    let x : Mapped := { place := table + 8 * i, vpn := base + i * 512 ^ n, level := n, pte := BitVec.ofNat 64 (readNat m (table + 8 * i) 8) }
    if !x.pte.getLsbD 0 || malformed (n + 1) x.pte then []
    else if x.isTable then x :: (if 4096 * x.frame < Config.hbmLimit then mappedFrom m n (4096 * x.frame) x.vpn else [])
    else [x]

/-- The contexts of the package with their root tables, those that are switched out among them; a core whose PTBASE is 0 has none. -/
def State.roots (s : State) : List (BitVec 16 × Nat) :=
  (((s.cores.map fun k => (k.2.mem.ctxid, k.2.mem.root)) ++ s.images.map fun (i : Image) => (i.ctx, i.core.mem.root)).filter fun x => x.2 != 0).eraseDups

/-- The pages and tables of all contexts whose frames lie at or above byte `n` of HBM. -/
def State.highEntries (s : State) (n : Nat) : List (BitVec 16 × Mapped) :=
  s.roots.flatMap fun r => ((mappedFrom s.mem 4 r.2 0).filter fun x =>
    !x.pte.getLsbD 7 && decide (n < 4096 * (x.frame + x.frames) ∧ 4096 * x.frame < Config.hbmLimit)).map fun x => (r.1, x)

/-- A shadowed page's original at or above byte `n` (R352). -/
def State.highShadow (s : State) (n : Nat) : Option (BitVec 16 × BitVec 36 × BitVec 36 × BitVec 36) :=
  s.books.shadows.find? fun x => decide (n ≤ 4096 * x.2.2.1.toNat)

/-- A frame at or above a byte still holds a page or a table. -/
def State.usedAbove (s : State) (n : Nat) : Bool := !(s.highEntries n).isEmpty || (s.highShadow n).isSome

/-- The page size whose invalidation covers what an entry at this level maps (R258). -/
def levelSize (level : Nat) : BitVec 2 := BitVec.ofNat 2 (min level 3)

/-- The move of a page or table begins (R257): its entry is marked, and its translations are invalidated. -/
def State.startMove (s : State) (ctx : BitVec 16) (x : Mapped) : State :=
  (storeBytes s x.place (natLe 8 (x.pte ||| 0x100#64).toNat)).invalidate (.move ctx (BitVec.ofNat 36 x.vpn) x.level) [ctx] (BitVec.ofNat 36 x.vpn)
    (levelSize x.level)

/-- Every book that names frame `old` names frame `f` instead. -/
def Books.reframe (b : Books) (old f : BitVec 36) : Books :=
  { b with charged := b.charged.map fun x => if x.1 == old then (f, x.2) else x
           tables := b.tables.map fun x => if x.1 == old then (f, x.2) else x
           shadows := b.shadows.map fun x => if x.2.2.2 == old then (x.1, x.2.1, x.2.2.1, f) else if x.2.2.1 == old then (x.1, x.2.1, f, x.2.2.2) else x }

/-- The tickets held on what an entry covers have their notices (R257). -/
def State.noticeMoved (s : State) (ctx : BitVec 16) (x : Mapped) : State :=
  { s with books := { s.books with tickets := s.books.tickets.map fun t =>
      if t.ctx == ctx && t.answer.isNone && t.reason != TicketReason.host.code && t.vpn.toNat / 512 ^ x.level == x.vpn / 512 ^ x.level then
        { t with answer := some none }
      else t } }

/-- The move of a page or table ends (R257): its data go to frame `f`, its entry is rewritten, and the tickets held on it have their notices. -/
def State.endMove (s : State) (ctx : BitVec 16) (x : Mapped) (f : BitVec 36) : State :=
  let moved := (x.pte &&& 0xFFFF000000000EFF#64) ||| (f.setWidth 64 <<< 12)
  let word := if x.isTable then tableWord f else match s.declaredAt ctx (BitVec.ofNat 36 x.vpn) with
    | some d => leafWord d f
    | none => moved
  let s := s.copyRange (4096 * x.frame) (4096 * f.toNat) (4096 * x.frames)
  let s := storeBytes s x.place (natLe 8 word.toNat)
  { s with books := s.books.reframe (BitVec.ofNat 36 x.frame) f }.noticeMoved ctx x

/-- Frame `f` and those after it can take `k` frames below byte `n`. -/
def State.frameFits (s : State) (f : BitVec 36) (k n : Nat) : Bool :=
  !s.frameTaken f k && f.toNat % k == 0 && decide (4096 * (f.toNat + k) ≤ n)

/-- The next step by which the service clears the frames at or above byte `n` (R206 step 2): the move that is under way ends, once its drain has
ended, or the next one begins; nothing while a move must wait. Which free frame it takes is a free value (log 8); one that does not fit is
tried no further. -/
def State.evacuate (s : State) (n : Nat) : Option State :=
  let f := s.free.extractLsb' 0 36
  match s.books.drains.find? fun d => match d.waiter with
    | .move .. => true
    | _ => false with
  | some d =>
    match d.waiter with
    | .move ctx v level =>
      let done := { s with books := { s.books with drains := s.books.drains.filter fun e => !(e.waiter == d.waiter) } }
      if !s.drained d then none
      else match (s.highEntries n).find? fun x => x.1 == ctx && x.2.vpn == v.toNat && x.2.level == level && x.2.migrates with
        | none => some done
        | some x => if s.frameFits f x.2.frames n then some (done.freed.endMove ctx x.2 f) else some s.freed
    | _ => none
  | none =>
    match (s.highEntries n).find? fun x => !x.2.migrates with
    | some x => some (s.startMove x.1 x.2)
    | none => match s.highShadow n with
      | none => none
      | some x =>
        if s.frameFits f 1 n then
          let t := s.freed.copyRange (4096 * x.2.2.1.toNat) (4096 * f.toNat) 4096
          some { t with books := t.books.reframe x.2.2.1 f }
        else some s.freed

/-- A request for HBM is in flight (R206 step 3). -/
def State.hbmInFlight (s : State) : Bool :=
  (s.net.accs.any fun a => a.parts.any fun p => match p.stage with
    | .sent (.phys pa _) => decide (pa.toNat < Config.hbmLimit)
    | _ => false) || !s.net.cmds.isEmpty

/-- STACK_RETIREMENT (R206): the next step of the service or the firmware for stack `k`: the retirement is announced; what lies above the new
capacity is evacuated; once nothing lies there and nothing is in flight, the phase opens; once every granule has moved, it closes. -/
def execStackRetirement (k : BitVec 4) (s : State) : Out :=
  let c := s.cap
  let n := (c.stacks - 1) * stackBytes
  if c.isOpen then
    if c.rstk == k && c.bounced then { s with cap := { c with isOpen := false, bounced := false, cursor := BitVec.allOnes 40 } }.occur else s.idle
  else if !c.pend then
    if c.active.getLsbD k.toNat && 1 < c.stacks then
      { s with cap := { c with pend := true, target := some k } }.capacityChanged.occur
    else s.idle
  else if c.target != some k then s.idle
  else if s.usedAbove n then (match s.evacuate n with
    | some t => t.occur
    | none => s.idle)
  else if !s.hbmInFlight then
    { s with cap := { pend := false, active := c.active &&& ~~~(1#12 <<< k.toNat), bytes := BitVec.ofNat 48 n, isOpen := true, rstk := k,
                      phase := c.phase + 1, cursor := BitVec.ofNat 40 ((c.stacks - 1) * 2 ^ 29 - 1), target := none, bounced := false, changed := c.changed } }.capacityChanged.occur
  else s.idle

/-- The cursor lies below the stretch that the engines move in place, all ones when nothing remains below it (R206 step 6). -/
def Capacity.bounces (c : Capacity) : Bool :=
  let n := c.stacks + 1
  !c.bounced && (decide (c.cursor.toNat < n * (n - 1)) || c.cursor == BitVec.allOnes 40)

/-- The stack that held granule `l` before the open phase (R204, R206). -/
def Capacity.oldStack (c : Capacity) (l : Nat) : Nat := (hbmPlace (c.active ||| (1#12 <<< c.rstk.toNat)) (256 * l)).1

/-- Granule `l` of the retiring stack may show an uncorrectable error as it is read, which a free value tells (log 8): its new place is poisoned,
and the error logged (R206, R342). -/
def State.readGranule (s : State) (l : Nat) (bad : Bool) : State :=
  if bad && s.cap.oldStack l == s.cap.rstk.toNat then
    ((List.range 4).foldl (fun (s : State) i => { s with poison := insertNat (4 * l + i) s.poison }) s).logError
      { core := besideCore (s.cap.active ||| (1#12 <<< s.cap.rstk.toNat)) (256 * l), hart := 0, unit := 3, addr := BitVec.ofNat 64 (256 * l), info := 0, ctx := some 0 } 3 2
  else s

/-- The granules from `lo` on move, `n` of them, each of which may be bad as its free bit tells. -/
def State.moveGranules (s : State) (lo n : Nat) : State :=
  let w (i : Nat) : W := Config.freeWord (s.freeCount + i / 64)
  (List.range n).foldl (fun s i => s.readGranule (lo + i) ((w i).getLsbD (i % 64))) { s with freeCount := s.freeCount + (n + 63) / 64 }

/-- MIGRATION_BLOCK_MOVE (R206, R207): a block of 64 granules moves. Where a granule lies is no part of the physical address space, so
the contents at every address stay as they are. -/
def execMigrationBlockMove (s : State) : Out :=
  let c := s.cap
  if c.isOpen && !c.bounced && !c.bounces then
    let t := s.moveGranules (c.cursor.toNat - 63) 64
    { t with cap := { t.cap with cursor := c.cursor - 64 } }.occur
  else s.idle

/-- MIGRATION_BOUNCE (R206 step 6): the remaining granules move through the bounce buffer; the phase stays open until the firmware closes it. -/
def execMigrationBounce (s : State) : Out :=
  let c := s.cap
  if c.isOpen && c.bounces then
    let t := s.moveGranules 0 (c.cursor + 1).toNat
    { t with cap := { t.cap with bounced := true } }.occur
  else s.idle

end Sys2Proof.Machine
end

