-- ==== Sys2Proof/Machine/Xfer.lean ====
section
/-!
DEFINITION. Streamers and batches (R288 to R303): the XFER instructions, and what streamers do with their commands.
-/

namespace Sys2Proof.Machine

/-! Batches. -/

/-- Sealed unfinished batches, U of R291. -/
def Batch.unfinished (x : Batch) : Nat := (x.bopen - x.bdone - 1).toNat

/-- BSEAL (R292, R293): not ready while 15 sealed batches are unfinished. The new batch starts with status 0. -/
def execBseal (d : BitVec 5) (w l : Bool) (s : State) : Out :=
  let b := s.hart.batch
  issue (.bseal d w l) s
    (if 15 ≤ b.unfinished then s.hold
     else ((s.setG d (b.bopen.setWidth 64)).onHart fun h => { h with batch := { h.batch with
        bopen := b.bopen + 1, status := h.batch.status.filter fun p => p.1 != b.bopen + 1
        sealed := h.batch.sealed ++ [(b.bopen, h.batch.xcomp, h.batch.xhandle)] } }).complete)

/-- BWAIT (R292). -/
def execBwait (n : BitVec 4) (w l : Bool) (s : State) : Out :=
  issue (.bwait n w l) s (if n.toNat < s.hart.batch.unfinished then s.hold else s.complete)

/-- What BSTAT returns for batch number `b` (R293). -/
def Batch.stat (x : Batch) (b : BitVec 16) : W :=
  let dist := (x.bopen - b).toNat
  if 15 < dist then 0x40000
  else
    (if x.unfinished < dist then 0x20000 else 0) ||| (if 1 ≤ dist then 0x10000 else 0) ||| (x.statusOf b).setWidth 64

/-- BSTAT (R293). -/
def execBstat (a d : BitVec 5) (w l : Bool) (s : State) : Out :=
  issue (.bstat a d w l) s (s.setG d (s.hart.batch.stat ((s.g a).extractLsb' 0 16))).complete

/-- XMODE (R303): endpoint and handle are taken in mode 10 only. -/
def State.xmode (s : State) (c b a : BitVec 5) : State :=
  let m := s.g a
  if m.extractLsb' 2 62 != 0 || m == 3 then s.fault 0x146 m 0
  else if m == 2 && (s.g b).extractLsb' 16 48 != 0 then s.fault 0x146 (s.g b) 0
  else
    let e := s.g b
    let hd := s.g c
    (s.onHart fun h => { h with batch :=
      if m == 2 then { h.batch with xcomp := (e.extractLsb' 0 16).setWidth 64 <<< 32 ||| 2, xhandle := hd }
      else { h.batch with xcomp := (h.batch.xcomp &&& ~~~3#64) ||| m } }).complete

/-- XMODE (R303). -/
def execXmode (c b a : BitVec 5) (w l : Bool) (s : State) : Out := issue (.xmode c b a w l) s (s.xmode c b a)

/-- Commands of a hart that are not complete. -/
def State.commands (s : State) (c : CoreId) (h : HartId) : List Cmd := s.net.cmds.filter fun k => k.core == c && k.hart == h

/-- The reporting mode, endpoint register and handle of a batch: those of its seal; a batch still open goes by what stands now. -/
def Batch.report (x : Batch) (b : BitVec 16) : W × W := ((x.sealed.find? fun p => p.1 == b).map (·.2)).getD (x.xcomp, x.xhandle)

/-- The 64-byte message that reports a batch (R303). -/
def reportBits (handle : W) (b : BitVec 16) (st : Byte) (h : HartId) : VReg :=
  (h.setWidth 512 <<< 88) ||| (st.setWidth 512 <<< 80) ||| (b.setWidth 512 <<< 64) ||| handle.setWidth 512

/-- BATCH_FINISH (R292, R303): the oldest sealed batch of a hart reports and finishes; in mode 10 once its message is accepted. -/
def execBatchFinish (c : BitVec 12) (h : BitVec 2) (s : State) : Out :=
  let x := (s.hartAt c h).batch
  let b := x.bdone + 1
  if x.unfinished == 0 || (s.commands c h).any fun k => k.batch == b then s.idle
  else
    let r := x.report b
    match (r.1.extractLsb' 0 2).toNat with
    | 1 =>
      ((s.post (srcCore c) c 16 0x01 (x.statusOf b) ((h.setWidth 48 <<< 16) ||| b.setWidth 48)).finishBatch c h b).occur
    | 2 =>
      if s.net.chans.any fun (m : ChanMsg) => m.core == c && m.hart == h && m.batch == some b then s.idle
      else
        let m : ChanMsg := { id := s.fresh, core := c, hart := h, ctx := (s.core c).mem.ctxid, agid := (s.hartAt c h).agid,
                             dst := r.1.extractLsb' 32 12, chan := (r.1.extractLsb' 44 4).setWidth 5, wide := true,
                             data := reportBits r.2 b (x.statusOf b) h, acc := none, once := false, held := false, batch := some b }
        ({ s with net := { s.net with chans := s.net.chans ++ [m] } }.bump.countOut c).occur
    | _ => (s.finishBatch c h b).occur

/-! Issue (R289, R297). -/

/-- The lowest byte below `hi`, from `a` on, that the guard does not let pass: region bounds are multiples of 64 (R198). -/
def guardFailFrom (g : Vector W 8) (mode : BitVec 2) (k : AccKind) (hi : Nat) : Nat → Nat → Option Nat
  | 0, _ => none
  | fuel + 1, a =>
    if hi ≤ a then none
    else if guardOk g mode k a 1 then guardFailFrom g mode k hi fuel ((a / 64 + 1) * 64) else some a

/-- The lowest byte of a range that lies in the hart's own store and that the local guard refuses (R197, R289). -/
def State.guardFail (s : State) (k : AccKind) (a n : Nat) : Option Nat :=
  guardFailFrom s.self.mem.lguard s.hart.mode k (min (a + n) Config.localSize) 8193 a

/-- The least of some numbers. -/
def leastOf : List Nat → Option Nat
  | [] => none
  | a :: t => match leastOf t with
    | some b => some (min a b)
    | none => some a

/-- A base at issue with its local ranges (R195, R197, R289): the address and cause of a trap. -/
def State.baseCheck (s : State) (k : AccKind) (base : W) (ranges : List (Int × Nat)) : Option (W × BitVec 9) :=
  match spaceOf base with
  | .beyond => some (base, accCause k 0 .bounds)
  | .wild => some (base, accCause k 2 .bounds)
  | .loc =>
    (leastOf (ranges.filterMap fun r =>
      if r.1 < 0 || (Config.localSize : Int) ≤ r.1 then none else s.guardFail k r.1.toNat r.2)).map
      fun a => (BitVec.ofNat 64 a, accCause k 0 .protection)
  | _ => none

/-- The addresses of the rows of a box at a base (R298): start of row r of plane p. -/
def boxRows (base : W) (n1 n2 : Nat) (s1 s2 : W) : List Int :=
  (List.range n2).flatMap fun p => (List.range n1).map fun r => (base.toNat : Int) + p * s2.toInt + r * s1.toInt

/-- Row bytes of a shape, N0 · E. -/
def Shape.rowBytes (s : Shape) : Nat := s.n0.toNat * 2 ^ s.esz.toNat

/-- Ranges of `n` rows at a stride. -/
def rowRanges (base : W) (n : Nat) (s1 : W) (len : Nat) : List (Int × Nat) := (boxRows base n 1 s1 0).map fun a => (a, len)

/-- The first trap of several checks. -/
def firstSome {α : Type} (l : List (Option α)) : Option α := l.findSome? id

/-- A command joins the open batch and sets out, unless a check traps (R289, R292). -/
def State.command (s : State) (checks : List (Option (W × BitVec 9))) (kind : CmdKind) (dst src : W) (len : Nat) : State :=
  match firstSome checks with
  | some (va, cause) => s.fault cause va 0
  | none =>
    let h := s.hart
    let c : Cmd := { id := s.fresh, core := s.cur, hart := s.curHart, ctx := s.self.mem.ctxid, agid := h.agid, mode := h.mode,
                     batch := h.batch.bopen, kind := kind, dst := dst, src := src, len := len, cut := false, pieces := [], made := [], row := 0,
                     told := false, segs := [] }
    { s with net := { s.net with cmds := s.net.cmds ++ [c] } }.bump.complete

/-- A hart with 64 commands unfinished is not ready for another (R289). -/
def State.orFull (s t : State) : State := if 64 ≤ (s.commands s.cur s.curHart).length then s.hold else t

/-- A trap of R297: a problem with the offending register's value. -/
def xferTrap (bad : Bool) (x : W) (cause : BitVec 9) : Option (W × BitVec 9) := if bad then some (x, cause) else none

/-- XCOPY (R298). -/
def execXcopy (c b a : BitVec 5) (w l : Bool) (s : State) : Out :=
  let n := (s.g c).toNat
  issue (.xcopy c b a w l) s (s.orFull (s.command
    [xferTrap (decide (2 ^ 32 < n)) (s.g c) 0x144, s.baseCheck .store (s.g a) [((s.g a).toNat, n)], s.baseCheck .load (s.g b) [((s.g b).toNat, n)]]
    .copy (s.g a) (s.g b) n))

/-- XFILL (R298). -/
def execXfill (c b a : BitVec 5) (w l : Bool) (s : State) : Out :=
  let n := (s.g b).toNat
  issue (.xfill c b a w l) s (s.orFull (s.command
    [xferTrap (decide (2 ^ 32 < n)) (s.g b) 0x144, s.baseCheck .store (s.g a) [((s.g a).toNat, n)]] (.fill (s.g c)) (s.g a) (s.g a) n))

/-- The address is not a multiple of `n`. -/
def offBy (n : Nat) (x : W) : Bool := x.toNat % n != 0

/-- The shape in a slot of the executing hart. -/
def State.slotShape (s : State) (i : BitVec 3) : Option Shape := s.hart.batch.slots[i.toNat]?.getD none

/-- XCOPYS (R298): no register holds the number of an empty slot, so TRADDR is then 0. -/
def execXcopys (i : BitVec 3) (b a : BitVec 5) (w l : Bool) (s : State) : Out :=
  issue (.xcopys i b a w l) s (s.orFull (match s.slotShape i with
    | none => s.fault 0x143 0 0
    | some x =>
      let al := 2 ^ x.aln.toNat
      let at' (base s1 s2 : W) := (boxRows base x.n1.toNat x.n2.toNat s1 s2).map fun r => (r, x.rowBytes)
      s.command [xferTrap (offBy al (s.g a)) (s.g a) 0x142, xferTrap (offBy al (s.g b)) (s.g b) 0x142,
        s.baseCheck .store (s.g a) (at' (s.g a) x.ds1 x.ds2), s.baseCheck .load (s.g b) (at' (s.g b) x.ss1 x.ss2)]
        (.copys x) (s.g a) (s.g b) 0))

/-- Row count of a control word (R299). -/
def ctlRows (c : W) : Nat := (c.extractLsb' 0 32).toNat

/-- A control word that R299 does not allow. -/
def ctlBad (c : W) : Bool := c.extractLsb' 35 29 != 0 || ctlRows c == 0 || decide (65536 < ctlRows c)

/-- XGATH (R299). -/
def execXgath (c b a d : BitVec 5) (w l : Bool) (s : State) : Out :=
  let ctl := s.g c
  let n := ctlRows ctl
  issue (.xgath c b a d w l) s (s.orFull (
    if ctlBad ctl then s.fault 0x144 ctl 0
    else match s.slotShape (ctl.extractLsb' 32 3) with
      | none => s.fault 0x143 ctl 0
      | some x =>
        let al := 2 ^ x.aln.toNat
        s.command [xferTrap (offBy al (s.g d)) (s.g d) 0x142, xferTrap (offBy al (s.g a)) (s.g a) 0x142, xferTrap (offBy 4 (s.g b)) (s.g b) 0x142,
          s.baseCheck .store (s.g d) (rowRanges (s.g d) n x.ds1 x.rowBytes), s.baseCheck .load (s.g a) [],
          s.baseCheck .load (s.g b) [((s.g b).toNat, 4 * n)]] (.gath x (s.g b) n) (s.g d) (s.g a) 0))

/-- What the hart asks of memory to translate a bin table (R301). -/
def tableAsk (va : W) : Ask := { op := .xlat 1, els := [⟨va, 4, 0, .load⟩], vec := false, plain := false, acq := false }

/-- The physical address lies in the commons (R202). -/
def inCommons (pa : Nat) : Bool := decide (Config.commonsBase ≤ pa) && decide (pa < Config.commonsBase + 0x100000000)

/-- The hart translates the bin table as a load does, then goes on with `t` when its frame lies in the commons (R301). -/
def State.withTable (s : State) (i : Instr) (va : W) (t : State → State) : State :=
  match spaceOf va with
  | .loc => s.fault 0x145 va 0
  | .peer => s.fault 0x145 va 0
  | _ =>
    let q := tableAsk va
    s.orReplayed (match s.gate i q with
    | some x => x
    | none =>
      match s.self.mem.lookup va with
      | some e => if inCommons (e.phys va).toNat then t s.dropOwn else s.dropOwn.fault 0x145 va 0
      | none => if s.entryReady then s.sendOut i q (makeParts s q q.els 0) else s.hold)

/-- XSCAT (R301). -/
def execXscat (c b a d : BitVec 5) (w l : Bool) (s : State) : Out :=
  let ctl := s.g c
  let n := ctlRows ctl
  issue (.xscat c b a d w l) s (s.orFull (
    if ctlBad ctl then s.fault 0x144 ctl 0
    else match s.slotShape (ctl.extractLsb' 32 3) with
      | none => s.fault 0x143 ctl 0
      | some x =>
        let al := 2 ^ x.aln.toNat
        let checks := [xferTrap (offBy 64 (s.g d)) (s.g d) 0x142, xferTrap (offBy al (s.g a)) (s.g a) 0x142, xferTrap (offBy 4 (s.g b)) (s.g b) 0x142,
          s.baseCheck .load (s.g d) [], s.baseCheck .load (s.g a) (rowRanges (s.g a) n x.ss1 x.rowBytes),
          s.baseCheck .load (s.g b) [((s.g b).toNat, 4 * n)]]
        match firstSome checks with
        | some (va, cause) => s.fault cause va 0
        | none => s.withTable (.xscat c b a d w l) (s.g d) fun t => t.command [] (.scat x (s.g b) n) (s.g d) (s.g a) 0))

/-- XSHAPE (R296): a 64-byte load, whose record is then checked. -/
def execXshape (i : BitVec 3) (a : BitVec 5) (w l : Bool) (s : State) : Out :=
  issue (.xshape i a w l) s (s.preciseOr (.xshape i a w l)
    (s.access (.xshape i a w l) { op := .shape i, els := [⟨s.g a, 64, 0, .load⟩], vec := true, plain := false, acq := false }))

/-! Streamers. -/

/-- For whom a streamer works. -/
def Cmd.party (c : Cmd) : Party := { core := c.core, hart := c.hart, ctx := c.ctx, agid := c.agid, mode := c.mode, opcode := 12 }

/-- The command of a number. -/
def State.findCmd (s : State) (n : Nat) : Option Cmd := s.net.cmds.find? fun (c : Cmd) => c.id == n

/-- Applies a change to the command of a number. -/
def State.onCmd (s : State) (n : Nat) (f : Cmd → Cmd) : State :=
  { s with net := { s.net with cmds := s.net.cmds.map fun c => if c.id == n then f c else c } }

/-- A problem of a command, found at `va`, in the segment or row `seg` (R293, R302): a segment or row counts once, and the first problem
of a command whose batch reports by event posts a record. -/
def State.cmdProblem (s : State) (c : Cmd) (seg : Nat × Nat) (code : Nat) (va : W) : State :=
  match s.findCmd c.id with
  | none => s
  | some k =>
    if k.segs.contains seg then s
    else
      let s := (s.problem c.core c.hart c.batch code).onCmd c.id fun k => { k with segs := k.segs ++ [seg], told := true }
      if !k.told && ((s.hartAt c.core c.hart).batch.report c.batch).1.extractLsb' 0 2 == 1#2 then
        s.post (srcCore c.core) c.core 16 0x02 (BitVec.ofNat 4 code ++ 1#4) (va.extractLsb' 0 48)
      else s

/-- The address is one of the space of its base (R298). -/
def inSpaceOf (base : W) (a : Int) : Bool :=
  decide (0 ≤ a) && decide (a < 2 ^ 64) && spaceOf (BitVec.ofNat 64 a.toNat) == spaceOf base

/-- Cuts a run of bytes at the 4 KiB segments of both addresses (R288), each piece of one packet's body (R319); `sb` and `db` are the bases that name their
spaces. -/
def cutRun (sb db : W) (row : Option Nat) : Nat → Int → Int → Nat → List Piece
  | 0, _, _, _ => []
  | fuel + 1, src, dst, len =>
    if len == 0 then []
    else
      let k := min (min len bodyMax) (min (4096 - (src % 4096).toNat) (4096 - (dst % 4096).toNat))
      { src := BitVec.ofInt 64 src, dst := BitVec.ofInt 64 dst, len := k, bad := if !inSpaceOf sb src then some false else if !inSpaceOf db dst then some true else none, row := row, no := 0 } ::
        cutRun sb db row fuel (src + k) (dst + k) (len - k)

/-- The pieces of one run. -/
def piecesOf (sb db : W) (row : Option Nat) (src dst : Int) (len : Nat) : List Piece := cutRun sb db row (len / 256 + 4) src dst len

/-- The pieces of a box (R298). -/
def boxPieces (x : Shape) (src dst : W) : List Piece :=
  ((boxRows src x.n1.toNat x.n2.toNat x.ss1 x.ss2).zip (boxRows dst x.n1.toNat x.n2.toNat x.ds1 x.ds2)).flatMap fun r =>
    piecesOf src dst none r.1 r.2 x.rowBytes

/-- What the streamer finds of the index list of XGATH, row by row: an index, or a problem of the row (R299, R302). -/
def readList (s : State) (p : Party) (list : W) : Nat → Nat → State × Option (List (Except Nat Nat))
  | 0, _ => (s, some [])
  | n + 1, i =>
    let r (s : State) (x : Except Nat Nat) : State × Option (List (Except Nat Nat)) :=
      let t := readList s p list n (i + 1)
      (t.1, t.2.map fun l => x :: l)
    let a := list.toNat + 4 * i
    if !inSpaceOf list a then r s (.error 1)
    else match engineRead s p (BitVec.ofNat 64 a) 4 with
      | .bytes s l => r s (if anyPoison l then .error 5 else .ok (mixedNat l))
      | .problem s c => r s (.error c)
      | .wait s => (s, none)

/-- A command has been cut further: the new pieces take the next numbers. -/
def Cmd.add (c : Cmd) (l : List Piece) : Cmd :=
  let new := (l.zip (List.range l.length)).map fun x => { x.1 with no := c.made.length + x.2 }
  { c with pieces := c.pieces ++ new, made := c.made ++ new }

/-- STREAMER_COMMAND (R288, R299): the streamer cuts a command into pieces; for XGATH it reads the index list first. Rows of XSCAT get
their destinations by BIN_BUMP. -/
def execStreamerCommand (n : Nat) (s : State) : Out :=
  match s.findCmd n with
  | none => s.turnedAway n 0
  | some c =>
    if c.cut || s.heldBack n 0 then s.turnedAway n 0
    else
      let put (s : State) (l : List Piece) : Out := (s.onCmd n fun k => { k.add l with cut := true }).occur
      match c.kind with
      | .copy => put s (piecesOf c.src c.dst none c.src.toNat c.dst.toNat c.len)
      | .fill _ => put s (piecesOf c.dst c.dst none c.dst.toNat c.dst.toNat c.len)
      | .copys x => put s (boxPieces x c.src c.dst)
      | .scat _ _ _ => put s []
      | .gath x list rows =>
        match readList s c.party list rows 0 with
        | (t, none) => s.waited t
        | (t, some l) =>
          let r := l.zip (List.range rows)
          let t := r.foldl (fun s x => match x.1 with
            | .error code => s.cmdProblem c (2, x.2) code (list + BitVec.ofNat 64 (4 * x.2))
            | .ok _ => s) t
          put t (r.flatMap fun y => match y.1 with
            | .ok j => piecesOf c.src c.dst (some y.2) ((c.src.toNat : Int) + j * x.ss1.toInt) ((c.dst.toNat : Int) + y.2 * x.ds1.toInt) x.rowBytes
            | .error _ => [])

/-- What a piece reads. -/
def State.pieceBytes (s : State) (c : Cmd) (p : Piece) : EngRead :=
  match c.kind with
  | .fill x => .bytes s (fillBytes x p.dst p.len)
  | _ => engineRead s c.party p.src p.len

/-- The segment or row that a problem of a piece counts for, by whether it is met on the side of the destination (R302). -/
def Piece.seg (p : Piece) (dst : Bool) : Nat × Nat :=
  match p.row with
  | some i => (2, i)
  | none => if dst then (1, p.dst.toNat / 4096) else (0, p.src.toNat / 4096)

/-- What reading the pieces of a row or segment gives: what is to be written at each destination, and where a poisoned source was met. -/
inductive PieceRead where
  | bytes (s : State) (l : List (W × List (Byte × Bool))) (poison : Option W)
  | wait (s : State)
  | problem (s : State) (seg : Nat × Nat) (code : Nat) (va : W)

/-- Reads pieces, one after the other (R298, R302). -/
def State.readPieces (s : State) (c : Cmd) : List Piece → PieceRead
  | [] => .bytes s [] none
  | p :: t =>
    match p.bad with
    | some d => .problem s (p.seg d) 1 (if d then p.dst else p.src)
    | none => match s.pieceBytes c p with
      | .wait s => .wait s
      | .problem s code => .problem s (p.seg false) code p.src
      | .bytes s l => match s.readPieces c t with
        | .bytes s r bad =>
          .bytes s ((p.dst, l) :: r) (if anyPoison l then some (p.src + BitVec.ofNat 64 (l.takeWhile fun x => !x.2).length) else bad)
        | r => r

/-- Every piece's destination lets it be written; the first that does not decides. -/
def State.canWritePieces (s : State) (c : Cmd) : List Piece → PieceRead
  | [] => .bytes s [] none
  | p :: t => if p.bad == some true then .problem s (p.seg true) 1 p.dst else match engineCanWrite s c.party (p.len / 4096 + 2) p.dst.toNat p.len with
    | .wait s => .wait s
    | .problem s code => .problem s (p.seg true) code p.dst
    | .ok s => s.canWritePieces c t

/-- Writes what pieces have read, where every page lets it pass. -/
def State.writePieces (s : State) (c : Cmd) (l : List (W × List (Byte × Bool))) : State :=
  l.foldl (fun s x => engineWriteAll s c.party (x.2.length / 4096 + 2) x.1.toNat x.2) s

/-- Some bytes of a piece lie in a segment of its command, or it belongs to the row, for which a problem counts (R302). -/
def Piece.inSeg (p : Piece) (seg : Nat × Nat) : Bool := p.seg true == seg || p.seg false == seg

/-- The pieces that are moved with piece `p`: those of its row, or those between the same two segments (R302). DESIGN CHOICE (log 167): they wait at
their destination for the last of them. -/
def Cmd.together (c : Cmd) (p : Piece) : List Piece := c.pieces.filter fun q => q.seg false == p.seg false && q.seg true == p.seg true

/-- The pieces whose reading must succeed before piece `p` is moved, since a problem concerns their whole segment or row; and so for writing. -/
def Cmd.around (c : Cmd) (p : Piece) (dst : Bool) : List Piece := c.pieces.filter fun q => q.seg dst == p.seg dst

/-- The packet of piece `no` has come to its destination. -/
def State.pieceHere (s : State) (n no : Nat) : State :=
  s.onCmd n fun c => { c with pieces := c.pieces.map fun q => if q.no == no then { q with here := true } else q }

/-- The pieces between two segments, or of a row, are read and written, or dropped with all of the segment or row that a problem concerns (R289, R293,
R298, R302). -/
def State.movePieces (s : State) (c : Cmd) (p : Piece) : Out :=
  let l := c.together p
  let gone (s : State) (f : Piece → Bool) : State := s.onCmd c.id fun c => { c with pieces := c.pieces.filter fun q => !f q }
  let bad (t : State) (seg : Nat × Nat) (code : Nat) (va : W) : Out := (gone (t.cmdProblem c seg code va) fun q => q.inSeg seg).occur
  match s.readPieces c (c.around p false) with
  | .wait t => s.waited t
  | .problem t seg code va => bad t seg code va
  | .bytes t _ _ => match t.canWritePieces c (c.around p true) with
    | .wait t => s.waited t
    | .problem t seg code va => bad t seg code va
    | .bytes t _ _ => match t.readPieces c l with
      | .wait t => s.waited t
      | .problem t seg code va => bad t seg code va
      | .bytes t xs poison =>
        let t := t.writePieces c xs
        (gone (match poison with
          | some va => t.cmdProblem c (p.seg false) 5 va
          | none => t) l.contains).occur

/-- BULK_PIECE (R289, R298, R302): the packet of the `k`-th piece still to be moved comes to its destination. With the last one of its segment or row, all
of them are moved. -/
def execBulkPiece (n k : Nat) (s : State) : Out :=
  match s.findCmd n with
  | none => s.turnedAway n (k + 1)
  | some c =>
    match c.pieces[k]? with
    | none => s.turnedAway n (k + 1)
    | some p =>
      let l := c.together p
      if l.any fun q => q.bad.isSome then s.movePieces c p
      else if !p.here && s.heldBack n (p.no + 1) then s.turnedAway n (p.no + 1)
      else if l.all fun q => q.here || q.no == p.no then s.movePieces c p
      else if p.here then s.idle else (s.pieceHere n p.no).occur

/-! Bins (R300, R301). -/

/-- A field of the bin table at a memory key. -/
def tableField (s : State) (key off n : Nat) : Nat := readNat s.mem (key + off) n

/-- A row of XSCAT takes its slot at the table that starts at `key`: the place of the entry, k, and the row's destination; `none` when
bin and spill are full (R301). -/
def binSlot (s : State) (key nb bi : Nat) (ds1 : W) : Option (Nat × Nat × Int) :=
  let entry (b : Nat) : Option (Nat × Nat × Int) :=
    let e := key + 16 + 16 * b
    let count := tableField s e 12 4
    if count < tableField s e 8 4 then some (e, count, (tableField s e 0 8 : Int) + count * ds1.toInt) else none
  match entry bi with
  | some x => some x
  | none => entry nb

/-- Adds one to a 32-bit count in memory, up to its largest value. -/
def State.countUp (s : State) (key : Nat) : State :=
  storeBytes s key (natLe 4 (min (readNat s.mem key 4 + 1) 0xFFFFFFFF))

/-- The row after a bump: the next row's turn, and pieces for the copy of this one. -/
def State.nextRow (s : State) (c : Cmd) (l : List Piece) : State := s.onCmd c.id fun k => { k.add l with row := k.row + 1 }

/-- Row `i` with bin number `bi` at the table (R301). A count in the commons is a write that no shadow covers (R352). DEDUCED (log 130): a spilled row
whose ORIG entry cannot be written has a problem, so the row is not copied (R302); its slot is taken all the same. DESIGN CHOICE (log 156): a poisoned line
of the table's header, of the bin's entry or of the spill bin's, even where the bin has room, makes the table unreadable for the row, code 6. -/
def State.bump1 (s : State) (c : Cmd) (x : Shape) (key i bi : Nat) : Out :=
  let src : Int := (c.src.toNat : Int) + i * x.ss1.toInt
  let drop (s : State) (code : Nat) : Out := ((s.cmdProblem c (2, i) code (BitVec.ofInt 64 src)).nextRow c []).occur
  let count (s : State) (at' : Nat) : State := (s.breaks c.core).countUp at'
  let nb := tableField s key 0 2
  let bytes := 16 + 16 * (nb + 1)
  if (key / 0x400000 + 1) * 0x400000 < key + bytes then drop s 6
  else if nb ≤ bi then (if poisoned s key 16 then drop s 6 else drop s 1)
  else if poisoned s key 16 || poisoned s (key + 16 + 16 * bi) 16 || poisoned s (key + 16 + 16 * nb) 16 then drop s 6
  else match binSlot s key nb bi x.ds1 with
    | none => drop (count s (key + 4)) 2
    | some (e, k, dst) =>
      let dbase : W := BitVec.ofNat 64 (tableField s e 0 8)
      let go (s : State) : State := (count s (e + 12)).nextRow c (piecesOf c.src dbase (some i) src dst x.rowBytes)
      if e == key + 16 + 16 * nb && bi != nb then
        let orig := tableField s key 8 8 + 4 * k
        match (if 2 ^ 64 ≤ orig then EngWrite.problem s 1 else engineWrite s c.party (BitVec.ofNat 64 orig) (clean (natLe 4 bi))) with
        | .ok t => (go t).occur
        | .wait t => s.waited t
        | .problem t code => ((count (t.cmdProblem c (2, i) code (BitVec.ofNat 64 orig)) (e + 12)).nextRow c []).occur
      else (go s).occur

/-- BIN_BUMP (R301): the next row of an XSCAT reads its bin number and takes its slot. -/
def execBinBump (n : Nat) (s : State) : Out :=
  match s.findCmd n with
  | none => s.idle
  | some c =>
    match c.kind with
    | .scat x list rows =>
      if !c.cut || rows ≤ c.row then s.idle
      else
        let i := c.row
        let at' := list.toNat + 4 * i
        let drop (s : State) (code : Nat) : Out := ((s.cmdProblem c (2, i) code (BitVec.ofNat 64 at')).nextRow c []).occur
        match (if inSpaceOf list at' then engineRead s c.party (BitVec.ofNat 64 at') 4 else EngRead.problem s 1) with
        | .wait t => s.waited t
        | .problem t code => drop t code
        | .bytes t l =>
          if anyPoison l then drop t 5
          else match engineReach t c.party .atomic c.dst 16 with
            | .here t key => if inCommons key then t.bump1 c x key i (mixedNat l) else drop t 1
            | .remote => drop t 1
            | .wait t => s.waited t
            | .problem t code => drop t code
    | _ => s.idle

/-- A command that has not reached its streamer moves nothing. -/
def Cmd.dropRows (c : Cmd) : Cmd := { c with cut := true, pieces := [], row := match c.kind with
  | .scat _ _ n => n
  | _ => c.row }

/-- Rows that a command still has to give their slots. -/
def Cmd.rowsLeft (c : Cmd) : Nat :=
  match c.kind with
  | .scat _ _ n => n - c.row
  | _ => 0

/-- STREAMER_COMMAND_COMPLETE (R289): every piece has been moved. -/
def execStreamerCommandComplete (n : Nat) (s : State) : Out :=
  match s.findCmd n with
  | none => s.idle
  | some c =>
    if c.cut && c.pieces.isEmpty && c.rowsLeft == 0 then
      { s with net := { s.net with cmds := s.net.cmds.filter fun (k : Cmd) => k.id != n } }.occur
    else s.idle

end Sys2Proof.Machine
end

