-- ==== Sys2Proof/Machine/Heel.lean ====
section
/-!
DEFINITION. Stops of whole partitions: the heel tree and its stop records (R357, R358), the recall flood with the kill and the quarantine of
frames (R354, R355, R359), and the gang switch with its save images (R360 to R362).
-/

namespace Sys2Proof.Machine

/-! The heel tree (R357, R358). -/

/-- STATE of the partition of context `x`: 0 running, 1 stopping, 2 stopped, 3 switched out. -/
def State.heelState (s : State) (x : BitVec 16) : BitVec 2 := ((s.pkg.heel.find? fun p => p.1 == x).map (·.2)).getD 0

/-- Sets STATE of the partition of context `x`. -/
def State.setHeel (s : State) (x : BitVec 16) (v : BitVec 2) : State :=
  let rest := s.pkg.heel.filter fun p => p.1 != x
  { s with pkg := { s.pkg with heel := if v == 0 then rest else rest ++ [(x, v)] } }

/-- Applies a change to the stop registers of core `c`. -/
def State.onSys (s : State) (c : CoreId) (f : CoreSys → CoreSys) : State := s.onCore c fun k => { k with sys := f k.sys }

/-- Core `c` stops issuing (R357): waits that an interrupt may end are given up, with the pc at their instruction, and the stop record is
written (R358). -/
def State.heelCore (s : State) (c : CoreId) : State :=
  if (s.core c).sys.heeled then s
  else
    let s := hartIds.foldl (fun s h => if (s.hartAt c h).wait.interruptible then s.cancelWait c h else s) s
    let now := s.cycleOf c 0
    s.onSys c fun y => { y with heeled := true, stopcyc := now, sent := y.outs, rcvd := y.ins }

/-- GO for the partition of context `x` (R357); nothing unless it runs. -/
def State.heelGo (s : State) (x : BitVec 16) : State :=
  if s.heelState x == 0 && !(s.partition x).isEmpty then (s.partition x).foldl State.heelCore (s.setHeel x 1) else s

/-- HEELCFG_GO (R357). -/
def execHeelcfgGo (x : BitVec 16) (s : State) : Out :=
  if s.heelState x == 0 && !(s.partition x).isEmpty then (s.heelGo x).occur else s.idle

/-- The part travels, or its answer or ticket has still to reach the hart. -/
def Stage.travels (st : Stage) : Bool :=
  st.onWay || (match st with
    | .refused .. => true
    | .ticket .. => true
    | _ => false)

/-- Core `c` has nothing outstanding (R357): its waits, operations, accesses without a ticket, engine commands and waves are over. -/
def State.quiet (s : State) (c : CoreId) : Bool :=
  (hartIds.all fun h => (s.hartAt c h).wait == .none && (s.hartAt c h).pend.all Pend.isReady && !(s.hartAt c h).react.abort) &&
    !(s.net.accs.any fun a => a.core == c && a.parts.any fun p => p.stage.travels) &&
    !(s.net.cmds.any fun (k : Cmd) => k.core == c) && !(s.net.waves.any fun (w : Wave) => w.core == c) &&
    !s.arrays.any fun a => (a.2.queue.any fun k => k.core == c) || a.2.runs.any fun r => r.cmd.core == c

/-- Every core of the partition has stopped, none is fenced (R349), and none has anything outstanding. -/
def State.allStopped (s : State) (x : BitVec 16) : Bool :=
  (s.partition x).all fun c => (s.core c).sys.heeled && !(s.core c).sys.fenced && s.quiet c

/-- PARTITION_STOPPED (R357). -/
def execPartitionStopped (x : BitVec 16) (s : State) : Out :=
  if s.heelState x == 1 && s.allStopped x then (s.setHeel x 2).occur else s.idle

/-- The cores of the partition go on where they stopped, and their message counts start again (R357, R358). -/
def State.release (s : State) (x : BitVec 16) : State :=
  (s.partition x).foldl (fun s c => s.onSys c fun y => { y with heeled := false, outs := 0, ins := 0 }) (s.setHeel x 0)

/-! The recall flood (R354, R355, R359). -/

/-- The pages that runs of bytes touch, by virtual page number. -/
def pagesOf (l : List (Nat × Nat)) : List Nat :=
  l.flatMap fun r => if r.2 == 0 then [] else (List.range ((r.1 + r.2 - 1) / 4096 - r.1 / 4096 + 1)).map fun i => r.1 / 4096 + i

/-- Ranges of memory that a command writes: those of every piece that it has been cut into, or of all it is to write (R355). -/
def Cmd.targets (c : Cmd) : List (Nat × Nat) :=
  let box (l : List Int) (n : Nat) : List (Nat × Nat) := l.filterMap fun a => if a < 0 then none else some (a.toNat, n)
  if c.cut then c.made.map fun p => (p.dst.toNat, p.len)
  else match c.kind with
    | .copy => [(c.dst.toNat, c.len)]
    | .fill _ => [(c.dst.toNat, c.len)]
    | .copys x => box (boxRows c.dst x.n1.toNat x.n2.toNat x.ds1 x.ds2) x.rowBytes
    | .gath x _ n => box (boxRows c.dst n 1 x.ds1 0) x.rowBytes
    | .scat _ _ _ => []

/-- The frames behind virtual pages of core `c`'s context. -/
def State.framesOf (s : State) (c : CoreId) (pages : List Nat) : List (BitVec 36) :=
  pages.filterMap fun p =>
    let va : W := BitVec.ofNat 64 (4096 * p)
    if spaceOf va != .global then none
    else match walk s.mem va 4 (s.core c).mem.root with
      | .leaf size pte _ => some (((leafEntry 0 va size pte).phys va).extractLsb' 12 36)
      | _ => none

/-- The frames that unfinished streamer commands and waves of core `c` were to write (R355). -/
def State.unfinishedFrames (s : State) (c : CoreId) : List (BitVec 36) :=
  let cmds := (s.net.cmds.filter fun (k : Cmd) => k.core == c).flatMap Cmd.targets
  let waves := (s.net.waves.filter fun (w : Wave) => w.core == c && !w.reduce).map fun (w : Wave) => (w.dst.toNat, w.raw.length)
  s.framesOf c (pagesOf (cmds ++ waves))

/-- Frames join the quarantine. -/
def State.quarantined (s : State) (l : List (BitVec 36)) : State :=
  { s with books := { s.books with quarantine := l.foldl (fun q f => if q.contains f then q else q ++ [f]) s.books.quarantine } }

/-- A hart as reset leaves it, but stopped (R89, R359). -/
def stoppedHart (c : CoreId) (h : HartId) : Hart := { Hart.reset c h with stopped := true }

/-- What a flood leaves of a core of the victim's partition (R359), or a replay of one (R353). -/
def sweptCore (c : CoreId) (k : Core) : Core :=
  { k with
    harts := #v[stoppedHart c 0, stoppedHart c 1, stoppedHart c 2, stoppedHart c 3]
    tags := { k.tags with inbox := [], window := [], active := none, obuf := [], nexters := [], doomed := none,
                          ltHead := 0, ltTail := 0, ltPend := false, ltOvf := false }
    chan := { k.chan with takers := [] }
    sys := { k.sys with heeled := false, fenced := false, low := false, switcht := 0 } }

/-- The messages, accesses, waves and rows' sums that context `x` has in flight from core `c`, or for it, are discarded; a run no longer waits for them
(R178, R359). -/
def State.discardFlits (s : State) (x : BitVec 16) (c : CoreId) : State :=
  let lost := s.net.partials.filter fun m => m.core == c && s.packetCtx (.sums m 0) == x
  let s := lost.foldl (fun s m => s.onRun m.array m.seq fun r => { r with owed := r.owed - 1 }) s
  { s with net := { s.net with
    partials := s.net.partials.filter fun m => !lost.any fun y => y.id == m.id
    accs := s.net.accs.filter fun a => !(a.ctx == x && a.core == c)
    posts := s.net.posts.filter fun m => !(m.ctx == x && (m.core == c || m.dst == c))
    chans := s.net.chans.filter fun m => !(m.ctx == x && (m.core == c || m.dst == c))
    waves := s.net.waves.filter fun w => !(w.ctx == x && w.core == c)
    hcmds := s.net.hcmds.filter fun m => !((s.core m.core).mem.ctxid == x && (m.core == c || m.dst == c))
    events := s.net.events.filter fun e => !((s.core e.core).mem.ctxid == x && (e.core == c || e.src == srcCore c)) } }

/-- The slices drop the tickets and entries of context `x`, and its groups are dissolved. -/
def State.dropContext (s : State) (x : BitVec 16) : State :=
  { s with
    groups := s.groups.filter fun g => g.ctx != x
    books := { s.books with
      tickets := s.books.tickets.filter fun t => t.ctx != x
      sliceTlb := s.books.sliceTlb.filter fun t => t.2.ctx != x
      savedNotices := s.books.savedNotices.filter fun n => n.1 != x } }

/-- At the flood, the frames that unfinished commands of core `c` were to write go into quarantine (R355). -/
def State.quarantineAt (s : State) (x : BitVec 16) (c : CoreId) : State :=
  if (s.core c).mem.ctxid == x then s.quarantined (s.unfinishedFrames c) else s

/-- The traffic and state of context `x` are purged at core `c` (R353, R359). -/
def State.sweepAt (s : State) (x : BitVec 16) (c : CoreId) : State :=
  let mine := (s.core c).mem.ctxid == x
  let s := if mine then (hartIds.foldl (fun s h => s.revoke c h) s).discardEngines (fun k _ => k == c) (fun k => k == c) else s
  let s := (s.discardFlits x c).dropContext x
  let s := s.onCore c fun k => { k with
    mem := { k.mem with tlb := k.mem.tlb.filter fun e => e.ctx != x }
    slots := k.slots.map fun y => if y.arm && y.ctx == x then y.discard else y }
  if mine then
    let s := { s with reads := s.reads.filter fun r => r.core != c }
    (s.zeroRange (localKey c 0) Config.spillBase).onCore c (sweptCore c)
  else s

/-- The replay of a launch of context `x` is no longer due. -/
def State.noReplay (s : State) (x : BitVec 16) : State :=
  { s with front := { s.front with launches := s.front.launches.map fun l => if l.ctx == x then { l with replay := none } else l } }

/-- A flood begins: it abandons every other mechanism in progress for the context (R349). -/
def State.flood (s : State) (x : BitVec 16) : State :=
  let t := (s.setHeel x 0).noReplay x
  { t with
    images := s.images.filter fun i => i.ctx != x
    pkg := { t.pkg with recallBusy := true, victim := x, floodDue := s.cores.map (·.1), sweepDue := [],
                        switching := s.pkg.switching.filter fun p => p.1 != x, spills := s.pkg.spills.filter fun p => p.1 != x } }

/-- A context is killed (R354): its flood begins, or waits for the end of the one in progress. -/
def State.kill (s : State) (x : BitVec 16) : State :=
  if s.pkg.recallBusy then
    (if s.pkg.victim == x || s.pkg.kills.contains x then s else { s with pkg := { s.pkg with kills := s.pkg.kills ++ [x] } })
  else s.flood x

/-- Firmware on core `c` kills a context by RECALL (R354, R359), which is logged with action 5. What detector the record names is not stated: it is
free (log 134). -/
def State.recall (s : State) (c : CoreId) (x : BitVec 16) : State :=
  (s.freed.logError { core := c, hart := 0, unit := 0, addr := 0, info := 0, ctx := some x } (s.free.extractLsb' 0 3).toNat 5).flood x

/-- RECALL_GO (R359), from the host service's die. -/
def execRecallGo (x : BitVec 16) (s : State) : Out := if s.pkg.recallBusy || x == 0 then s.idle else (s.recall 31 x).occur

/-- RECALL_FLOOD_ARRIVAL (R359). -/
def execRecallFloodArrival (c : BitVec 12) (s : State) : Out :=
  if s.pkg.recallBusy && s.pkg.floodDue.contains c then
    let t := (s.quarantineAt s.pkg.victim c).sweepAt s.pkg.victim c
    { t with pkg := { t.pkg with floodDue := t.pkg.floodDue.filter fun k => k != c, sweepDue := t.pkg.sweepDue ++ [c] } }.occur
  else s.idle

/-- RECALL_SWEEP_END (R359): what reached the core's router in the meantime is discarded too. -/
def execRecallSweepEnd (c : BitVec 12) (s : State) : Out :=
  if s.pkg.sweepDue.contains c then
    let t := s.discardFlits s.pkg.victim c
    { t with pkg := { t.pkg with sweepDue := t.pkg.sweepDue.filter fun k => k != c } }.occur
  else s.idle

/-! Reports of launches (R371). -/

/-- The front end as a party that reaches memory for a context: in M, by the tables of core `c` of the partition. -/
def frontParty (c : CoreId) (ctx agid : BitVec 16) : Party := { core := c, hart := 0, ctx := ctx, agid := agid, mode := 3, opcode := 2 }

/-- The front end as it reports for a context, by a core on which no replayable launch runs, if there is one; none when no core is left. -/
def State.reporter (s : State) (l : Launch) : Option Party :=
  match s.partition l.ctx with
  | [] => none
  | c :: t => some (frontParty (((c :: t).find? fun k => !(s.core k).sys.lrstat.getLsbD 63).getD c) l.ctx l.agid)

/-- The completion word of a launch is written (R371); or it waits until its page can be written. -/
def State.reportWord (s : State) (l : Launch) : Except State State :=
  if l.compl == 0 then .ok s
  else match s.reporter l with
    | none => .ok s
    | some p => match engineReach s p .store l.compl 8 with
      | .here s key => .ok (storeBytes s key (natLe 8 (l.status.toNat + 256 * l.rcnt.toNat)))
      | .wait t => .error t
      | .problem t _ => .ok t
      | .remote => .ok s

/-- The cores of a launch are unbound: no launch runs on them (R351, R371). -/
def State.unbind (s : State) (l : Launch) : State := l.cores.flatten.foldl (fun s c => s.onSys c fun y => { y with lrstat := 0 }) s

/-- Removes a launch. -/
def State.dropLaunch (s : State) (n : Nat) : State :=
  { s with front := { s.front with launches := s.front.launches.filter fun (l : Launch) => l.id != n } }

/-- A launch reports (R371): its completion word, then the record of a device launch; and is gone. -/
def State.report (s : State) (l : Launch) : Except State State :=
  match s.reportWord l with
  | .error t => .error t
  | .ok t =>
    .ok ((if l.queue.isNone then t.post srcFront l.by_ 23 l.kind l.status ((l.desc.extractLsb' 0 48) &&& ~~~0x3F#48) else t).dropLaunch l.id)

/-- A launch is over with a record kind and a status: it reports at once, or it stays until it can. -/
def State.endLaunch (s : State) (l : Launch) (kind status : Byte) : State :=
  let l := { l with phase := 3, kind := kind, status := status }
  match s.report l with
  | .ok t => t
  | .error t => { t with front := { t.front with launches := (t.front.launches.filter fun (y : Launch) => y.id != l.id) ++ [l] } }

/-- The launches of a killed context report status 5, or 6 when a replay was needed that the limit did not allow (R371). -/
def State.endLaunches (s : State) (x : BitVec 16) : Except State State :=
  (s.front.launches.filter fun (l : Launch) => l.ctx == x).foldlM (fun s l =>
    (s.unbind l).report (if l.phase == 3 then l else { l with kind := 0x41, status := if l.status == 6 then 6 else 5 })) s

/-- A charged run of frames holds a poisoned line, or a frame in quarantine. -/
def State.tainted (s : State) (f : BitVec 36) (n : Nat) : Bool :=
  poisoned s (4096 * f.toNat) (4096 * n) || s.books.quarantine.any fun q => decide (f.toNat ≤ q.toNat ∧ q.toNat < f.toNat + n)

/-- The frames of a killed context: some go into quarantine, the others are free (R355). -/
def State.freeFrames (s : State) (x : BitVec 16) : State :=
  let mine := s.books.charged.filter fun f => f.2.1 == x
  let bad := mine.filter fun f => s.tainted f.1 f.2.2.2
  let nodes := ((s.books.tables.filter fun f => f.2 == x).map (·.1)).filter fun f => s.tainted f 1
  let s := s.quarantined ((bad.flatMap fun f => (List.range f.2.2.2).map fun i => f.1 + BitVec.ofNat 36 i) ++ nodes)
  { s with books := { s.books with
    charged := s.books.charged.filter fun f => f.2.1 != x
    shadows := s.books.shadows.filter fun f => f.1 != x
    tables := s.books.tables.filter fun f => f.2 != x
    touched := s.books.touched.filter fun f => f.1 != x
    declared := s.books.declared.filter fun d => d.ctx != x } }

/-- The partition of context `x` is dissolved (R354). -/
def State.dissolve (s : State) (x : BitVec 16) : State :=
  { s with
    cores := s.cores.map fun k => if k.2.mem.ctxid == x then (k.1, { k.2 with mem := { k.2.mem with ctxid := 0, tlb := [] } }) else k
    front := { s.front with soft := s.front.soft.filter fun d => d.2.2.1 != x } }

/-- PURGE_CONFIRMED (R354, R355, R359, R371): every report has arrived, and the context's launches report their end; a kill that waits begins. -/
def execPurgeConfirmed (s : State) : Out :=
  if s.pkg.recallBusy && s.pkg.floodDue.isEmpty && s.pkg.sweepDue.isEmpty then
    let x := s.pkg.victim
    match s.endLaunches x with
    | .error t => s.waited t
    | .ok t =>
      let t := ((t.dropContext x).freeFrames x).dissolve x
      let t := { t with pkg := { t.pkg with recallBusy := false, victim := 0, kills := t.pkg.kills.drop 1 } }
      (match s.pkg.kills with
        | y :: _ => t.flood y
        | [] => t).occur
  else s.idle

/-! The gang switch (R360 to R362). -/

/-- A write of SWITCHT reaches the partition of context `x`, and source 13 becomes pending there (R360). -/
def State.setSwitch (s : State) (x : BitVec 16) (t : W) : State :=
  (s.partition x).foldl (fun s c => (s.onSys c fun y => { y with switcht := t }).edge c 13) s

/-- SWITCHT_WRITE (R360). -/
def execSwitchtWrite (x : BitVec 16) (t : BitVec 64) (s : State) : Out :=
  if (s.partition x).isEmpty then s.idle else (s.setSwitch x t).occur

/-- Sets the phase of a switch of context `x`; 0 for none. -/
def State.setPhase (s : State) (x : BitVec 16) (v : BitVec 2) : State :=
  let rest := s.pkg.switching.filter fun p => p.1 != x
  { s with pkg := { s.pkg with switching := if v == 0 then rest else rest ++ [(x, v)] } }

/-- The phase of a switch of context `x`. -/
def State.phaseOf (s : State) (x : BitVec 16) : BitVec 2 := ((s.pkg.switching.find? fun p => p.1 == x).map (·.2)).getD 0

/-- SWITCH_TIME_REACHED (R360): core `c` stops once its PTC has reached SWITCHT. -/
def execSwitchTimeReached (c : BitVec 12) (s : State) : Out :=
  let k := s.core c
  let x := k.mem.ctxid
  if x != 0 && k.sys.switcht != 0 && k.sys.switcht.toNat ≤ (s.ptc c).toNat && !(k.sys.heeled && s.phaseOf x != 0) then
    let s := if s.heelState x == 0 then s.setHeel x 1 else s
    ((if s.phaseOf x == 0 then s.setPhase x 1 else s).heelCore c).occur
  else s.idle

/-- Every batch of core `c` that was sealed has finished and reported (R313). -/
def State.reported (s : State) (c : CoreId) : Bool := hartIds.all fun h => (s.hartAt c h).batch.unfinished == 0

/-- SWITCH_DRAIN_DONE (R361 steps 1 and 2). -/
def execSwitchDrainDone (x : BitVec 16) (s : State) : Out :=
  if s.phaseOf x == 1 && s.allStopped x && (s.partition x).all s.reported then (s.setPhase x 2).occur else s.idle

/-- Numbers of what is in flight for core `c`, or of context `x` (R361 step 3). -/
def State.flitsFor (s : State) (x : BitVec 16) (c : CoreId) : List Nat :=
  let toCore (p : Part) : Bool := match p.stage with
    | .sent (.peer pkg k _ _) => pkg == 0 && k == c
    | _ => false
  ((s.net.accs.filter fun a => a.parts.any toCore).map fun a => a.id) ++
  ((s.net.posts.filter fun m => (m.dst == c && m.pkg == 0) || m.ctx == x).map fun m => m.id) ++
  ((s.net.chans.filter fun m => m.dst == c || m.ctx == x).map fun m => m.id) ++
  ((s.net.hcmds.filter fun m => m.dst == c).map fun m => m.id) ++
  ((s.net.events.filter fun e => e.core == c).map fun e => e.id) ++
  ((s.net.waves.filter fun w => (spaceOf w.dst == .peer && w.dst.extractLsb' 40 12 == c) || w.ctx == x).map fun w => w.id)

/-- First byte of core `c`'s save image (R360). -/
def State.imageBase (s : State) (c : CoreId) : Nat := 0x100000 * ((s.core c).sys.savebase.extractLsb' 20 28).toNat

/-- Bytes of an image that the CRC covers: 0x40 to 0xB_DFFF (R362). -/
def imageBody (s : State) (base : Nat) : List Byte := readBytes s.mem (base + 0x40) 0xBDFC0

/-- The cells of an image's device part, from its first byte: what stands between header and local store. -/
def deviceCells (m : Memory) (base : Nat) : List Host.Cell :=
  (m.filter fun x => decide (base + 0x40 ≤ x.1 ∧ x.1 < base + 0x40000)).map fun x => (x.1 - base, x.2)

/-- Writes core `c`'s save image (R362). The bytes between the header and the local store are the device's own: free (log 8). -/
def State.writeImage (s : State) (x : BitVec 16) (c : CoreId) : State :=
  let base := s.imageBase c
  let r := freeBytes s 0x3FFE4
  let free := r.2.map (·.1)
  let s := storeBytes r.1 (base + 28) free
  let s := storeMixed s (base + 0x40000) (mixedAt s (localKey c 0) Config.spillBase)
  storeBytes s base (natLe 8 0x34534156 ++ natLe 8 x.toNat ++ natLe 8 (s.ptc c).toNat ++ natLe 4 (crc32 (imageBody s base)).toNat)

/-- A core that its context has left: its harts are stopped and its registers as reset leaves them, but for those that belong to the place
(R361 step 5). -/
def vacatedCore (c : CoreId) (k : Core) : Core :=
  let r := Core.reset c
  { r with
    harts := #v[stoppedHart c 0, stoppedHart c 1, stoppedHart c 2, stoppedHart c 3]
    cycles := k.cycles
    tags := { r.tags with terr := k.tags.terr, skew := k.tags.skew, held := k.tags.held }
    sys := { r.sys with savebase := k.sys.savebase, heelctx := k.sys.heelctx, chkstat := k.sys.chkstat, ueLines := k.sys.ueLines,
                        worn := k.sys.worn, fwmask := k.sys.fwmask } }

/-- Core `c` of context `x` is saved and left (R256, R361 steps 4 and 5, R362). -/
def State.saveCore (s : State) (x : BitVec 16) (c : CoreId) : State :=
  let s := (hartIds.foldl (fun s h => s.revoke c h) s).onSys c fun y => { y with switcht := 0 }
  let s := s.writeImage x c
  let base := s.imageBase c
  let img : Image := { ctx := x, num := c, core := { s.core c with mem := { (s.core c).mem with tlb := [] } }, store := [], accs := s.net.accs.filter fun a => a.core == c && !a.orphan, base := base,
                       cells := deviceCells s.mem base, groups := s.groups.filter fun g => g.ctx == x, reads := s.reads.filter fun r => r.core == c }
  { s with
    images := s.images ++ [img]
    groups := s.groups.filter fun g => g.ctx != x
    reads := s.reads.filter fun r => r.core != c
    net := { s.net with accs := s.net.accs.filter fun a => a.core != c || a.orphan } }.onCore c (vacatedCore c)

/-- The end-to-end timers of what goes into a spill reserve stop, and what has elapsed is kept in their place; what comes out goes on from there (R361,
DEDUCED, log 135). -/
def State.turnTimers (s : State) (ids : List Nat) : State :=
  { s with net := { s.net with flights := s.net.flights.map fun f => if ids.contains f.n then { f with since := (s.core f.src).cycles - f.since } else f } }

/-- SPILL_SWEEP_END (R361 steps 3 to 5). -/
def execSpillSweepEnd (x : BitVec 16) (s : State) : Out :=
  if s.phaseOf x == 2 then
    let cs := s.partition x
    let ids := (cs.flatMap fun c => s.flitsFor x c).eraseDups
    let t := { s.turnTimers ids with pkg := { s.pkg with spills := s.pkg.spills ++ [(x, ids)] } }
    (((cs.foldl (fun s c => s.saveCore x c) t).setPhase x 0).setHeel x 3).occur
  else s.idle

/-! Resume. -/

/-- Cores that context `x` was saved from. -/
def State.imagesOf (s : State) (x : BitVec 16) : List Image := s.images.filter fun i => i.ctx == x

/-- The image at core `c`'s SAVEBASE fails its check (R362). The device's own bytes must be those that it wrote. -/
def State.imageBad (s : State) (i : Image) : Bool :=
  let base := s.imageBase i.num
  readNat s.mem (base + 8) 8 != i.ctx.toNat || readNat s.mem (base + 24) 4 != (crc32 (imageBody s base)).toNat || deviceCells s.mem base != i.cells

/-- A core reads its image back (R361): the place keeps its clock, which runs on (R284), and no translation comes back (R247). -/
def State.restoreCore (s : State) (i : Image) : State :=
  let base := s.imageBase i.num
  let save := (s.core i.num).sys.savebase
  let now := (s.core i.num).sys
  let clock := (s.core i.num).tags
  let s := storeMixed s (localKey i.num 0) (mixedAt s (base + 0x40000) Config.spillBase)
  let sys := { i.core.sys with
    savebase := save, heeled := true, heelctx := now.heelctx, chkstat := now.chkstat, ueLines := now.ueLines, worn := now.worn }
  let tags := { i.core.tags with terr := clock.terr, skew := clock.skew, held := clock.held }
  { s.setCore i.num { i.core with tags := tags, sys := sys } with
    groups := s.groups ++ i.groups, reads := s.reads ++ i.reads, net := { s.net with accs := s.net.accs ++ i.accs } }

/-- Saved notices and faults of context `x` are applied (R256). -/
def State.applyNotices (s : State) (x : BitVec 16) : State :=
  let mine := s.books.savedNotices.filter fun n => n.1 == x
  let s := { s with books := { s.books with savedNotices := s.books.savedNotices.filter fun n => n.1 != x } }
  mine.foldl (fun s n => s.resolveTicket x n.2.1 n.2.2.1 n.2.2.2) s

/-- The logical cores of context `x` are free. -/
def State.coresFree (s : State) (x : BitVec 16) : Bool :=
  (s.imagesOf x).all fun i => (s.core i.num).mem.ctxid == 0 && hartIds.all fun h => (s.hartAt i.num h).stopped

/-- A resume (R361, R362): every image is checked; if one fails the context is killed. -/
def State.resume (s : State) (x : BitVec 16) : State :=
  let l := s.imagesOf x
  let bad := l.filter s.imageBad
  let rest := s.pkg.imge.filter fun y => y != x
  if bad.isEmpty then
    let t := { s with images := s.images.filter fun i => i.ctx != x, pkg := { s.pkg with imge := rest } }
    let ids := (s.pkg.spills.filter fun (p : BitVec 16 × List Nat) => p.1 == x).flatMap fun (p : BitVec 16 × List Nat) => p.2
    (((l.foldl State.restoreCore t).turnTimers ids).setPhase x 3).applyNotices x
  else
    let t := bad.foldl (fun s i => s.logError { core := i.num, hart := 0, unit := 0, addr := 0, info := 0, ctx := some x } 3 5) s
    { t with pkg := { t.pkg with imge := rest ++ [x] } }.kill x

/-- REL for the partition of context `x` (R357, R361); nothing unless it is stopped or switched out. -/
def State.heelRel (s : State) (x : BitVec 16) : State :=
  if s.heelState x == 2 && s.phaseOf x == 0 then s.release x
  else if s.heelState x == 3 && s.phaseOf x == 0 && s.coresFree x then s.resume x
  else s

/-- HEELCFG_REL (R357, R361). -/
def execHeelcfgRel (x : BitVec 16) (s : State) : Out :=
  if (s.heelState x == 2 && s.phaseOf x == 0) || (s.heelState x == 3 && s.phaseOf x == 0 && s.coresFree x) then (s.heelRel x).occur else s.idle

/-- Something of this number is in flight. -/
def State.inFlight (s : State) (n : Nat) : Bool :=
  (s.net.accs.any fun a => a.id == n && a.parts.any fun p => match p.stage with
    | .sent _ => true
    | _ => false) || (s.net.posts.any fun m => m.id == n) || (s.net.chans.any fun m => m.id == n) ||
    (s.net.hcmds.any fun m => m.id == n) || (s.net.events.any fun e => e.id == n) || s.net.waves.any fun w => w.id == n

/-- RESUME_REINJECT_DONE (R361): every message of the context that lay in a spill reserve has been delivered, and the cores go on. -/
def execResumeReinjectDone (x : BitVec 16) (s : State) : Out :=
  let ids := (s.pkg.spills.filter fun p => p.1 == x).flatMap (·.2)
  if s.phaseOf x == 3 && !ids.any s.inFlight then
    let s := { s with pkg := { s.pkg with spills := s.pkg.spills.filter fun p => p.1 != x } }
    ((s.setPhase x 0).release x).occur
  else s.idle

end Sys2Proof.Machine
end

