-- ==== Sys2Proof/Machine/Boot.lean ====
section
/-!
DEFINITION. Package reset (R89) and the choice of a firmware slot (R376, R377).
-/

namespace Sys2Proof.Machine

/-- A marker copy is valid: magic, zero bits and CRC over its first 28 bytes (R376). -/
def markerValid (m : BitVec 256) : Bool :=
  m.extractLsb' 0 64 == 0x4D524B53#64 && m.extractLsb' 97 127 == 0#127 &&
    m.extractLsb' 224 32 == crc32 ((List.range 28).map fun i => m.extractLsb' (8 * i) 8)

/-- SEQ of a marker copy. -/
def markerSeq (m : BitVec 256) : BitVec 32 := m.extractLsb' 64 32

/-- SLOT of a marker copy: 0 A, 1 B. -/
def markerSlot (m : BitVec 256) : BitVec 1 := m.extractLsb' 96 1

/-- Sequence `a` is higher than `b` (R377). -/
def seqHigher (a b : BitVec 32) : Bool := decide (1 ≤ (a - b).toNat ∧ (a - b).toNat < 2 ^ 31)

/-- A slot of the flash: 0 A, 1 B. -/
def Flash.slot (f : Flash) (x : BitVec 1) : FwSlot := if x == 0 then f.slotA else f.slotB

/-- A configuration table keeps R373: one role a core, all of them in the firmware column, and on each die exactly one host service core, a front end
and a memory service core. -/
def BootTable.wellFormed (t : BootTable) : Bool :=
  (t.roles.map fun x => x.1).eraseDups.length == t.roles.length && (t.roles.all fun x => inFirmware t.wm1 x.1) &&
    [0#2, 1#2, 2#2, 3#2].all fun d =>
      let on (r : BitVec 2) : Nat := (t.roles.filter fun x => dieOf x.1 == d && x.2 == r).length
      on 3 == 1 && on 1 != 0 && on 2 != 0

/-- A slot verifies: both signatures do (R376), and its table keeps the rule (R373). -/
def FwSlot.verifies (x : FwSlot) : Bool := x.ed25519 && x.mlDsa65 && x.table.wellFormed

/-- A slot of the flash verifies. -/
def Flash.verifies (f : Flash) (x : BitVec 1) : Bool := (f.slot x).verifies

/-- The slot that the valid marker copies name: that of the higher SEQ, and of M0 when neither is higher (R377). -/
def Flash.named (f : Flash) : Option (BitVec 1) :=
  match markerValid f.m0, markerValid f.m1 with
  | true, true => some (if seqHigher (markerSeq f.m1) (markerSeq f.m0) then markerSlot f.m1 else markerSlot f.m0)
  | true, false => some (markerSlot f.m0)
  | false, true => some (markerSlot f.m1)
  | false, false => none

/-- The slot that the boot ROM boots: the one named, else the other, if they verify; A before B when no copy is valid (R377). -/
def bootChoice (f : Flash) : Option (BitVec 1) :=
  let first := f.named.getD 0
  if f.verifies first then some first else if f.verifies (~~~first) then some (~~~first) else none

/-- The boot harts of the four dies stop: no slot verifies, and the compute dies stay in reset (R377). -/
def State.stayInReset (s : State) : State :=
  [31#12, 1055#12, 2079#12, 3103#12].foldl (fun s c => s.onHartAt c 0 fun h => { h with stopped := true }) s

/-- Stopped harts of a firmware column are in M (R12, R90). -/
def columnHart (h : Hart) : Hart := if h.stopped then { h with mode := 3 } else h

/-- The boot ROM chooses a slot (R377), and what boot sets from its table stands: the width and roles of the firmware column (R12, R373, R384) and the
capability list (R21). Without a slot the management controller reports no firmware. -/
def State.bootRom (s : State) : State :=
  match bootChoice s.pkg.flash with
  | some x =>
    let t := { s with pkg := { s.pkg with boot := .done x (s.pkg.flash.slot x).table } }
    { t with cores := t.cores.map fun k => if t.firmware k.1 then (k.1, { k.2 with harts := k.2.harts.map columnHart }) else k }
  | none => { s.stayInReset with pkg := { s.stayInReset.pkg with boot := .noFirmware } }

/-- The boot ROM's step of the package, once after reset. -/
def execBoot (s : State) : Out := if s.pkg.boot == .pending then s.bootRom.occur else s.idle

/-- PACKAGE_RESET (R89): every register as reset leaves it and nothing in flight; memory keeps its contents (log 21), the reference time
goes on, and the boot ROM chooses a slot of the flash (R377). -/
def execPackageReset (s : State) : Out :=
  (State.bootRom { State.reset with
    mem := s.mem, poison := s.poison, timeRef := s.timeRef, nextId := s.nextId, freeCount := s.freeCount, agenda := s.agenda,
    pkg := { State.reset.pkg with flash := s.pkg.flash } }).occur

end Sys2Proof.Machine
end

