-- ==== Sys2Proof/Machine/Branch.lean ====
section
/-!
DEFINITION. Branches and jumps (R120 to R122), loops (R106 to R109) and the prefix word (R64 to R68).
-/

namespace Sys2Proof.Machine

/-- A branch: taken to the offset counted from its own word, else onwards (R50, R120). -/
def State.branch (s : State) (o : BitVec 12) (taken : Bool) : State :=
  if taken then { s with flow := .taken (s.wordPc + 4 * o.signExtend 64) }.complete else s.complete

/-- BEQ (R120). -/
def execBeq (o : BitVec 12) (b a : BitVec 5) (w l : Bool) (s : State) : Out := issue (.beq o b a w l) s (s.branch o (s.g a == s.g b))
/-- BNE (R120). -/
def execBne (o : BitVec 12) (b a : BitVec 5) (w l : Bool) (s : State) : Out := issue (.bne o b a w l) s (s.branch o (s.g a != s.g b))
/-- BLT (R120). -/
def execBlt (o : BitVec 12) (b a : BitVec 5) (w l : Bool) (s : State) : Out :=
  issue (.blt o b a w l) s (s.branch o ((s.g a).slt (s.g b)))
/-- BGE (R120). -/
def execBge (o : BitVec 12) (b a : BitVec 5) (w l : Bool) (s : State) : Out :=
  issue (.bge o b a w l) s (s.branch o (!(s.g a).slt (s.g b)))
/-- BLTU (R120). -/
def execBltu (o : BitVec 12) (b a : BitVec 5) (w l : Bool) (s : State) : Out :=
  issue (.bltu o b a w l) s (s.branch o ((s.g a).ult (s.g b)))
/-- BGEU (R120). -/
def execBgeu (o : BitVec 12) (b a : BitVec 5) (w l : Bool) (s : State) : Out :=
  issue (.bgeu o b a w l) s (s.branch o (!(s.g a).ult (s.g b)))
/-- BBS: bit gB[5:0] of gA (R120). -/
def execBbs (o : BitVec 12) (b a : BitVec 5) (w l : Bool) (s : State) : Out :=
  issue (.bbs o b a w l) s (s.branch o ((s.g a).getLsbD ((s.g b).toNat % 64)))
/-- BBC (R120). -/
def execBbc (o : BitVec 12) (b a : BitVec 5) (w l : Bool) (s : State) : Out :=
  issue (.bbc o b a w l) s (s.branch o (!(s.g a).getLsbD ((s.g b).toNat % 64)))

/-- A jump to `t` with a link in gD (R121). -/
def State.jump (s : State) (d : BitVec 5) (t : W) : State := { s.setG d s.nx with flow := .taken t }.complete

/-- JAL (R121). -/
def execJal (o : BitVec 20) (d : BitVec 5) (w l : Bool) (s : State) : Out :=
  issue (.jal o d w l) s (s.jump d (s.wordPc + 4 * o.signExtend 64))

/-- JALR: a misaligned target traps in the space of its address (R121). -/
def execJalr (i : BitVec 12) (a d : BitVec 5) (w l : Bool) (s : State) : Out :=
  let t := s.g a + i.signExtend 64
  issue (.jalr i a d w l) s
    (if t.extractLsb' 0 2 != 0 then s.fault (accCause .fetch (spaceOf t).code .misaligned) t 0 else s.jump d t)

/-! Loops (R107, R108). -/

/-- LOOP and LOOPI: a level for `n` passes from the next instruction to the word at `e`; with n = 0 the body is skipped. -/
def State.enterLoop (s : State) (n e : W) : State :=
  if n == 0 then { s with flow := .skip e }.complete
  else
    let nx := s.nx
    (s.onHart fun h =>
      let l := h.loops
      let i := l.depth.toNat
      { h with loops := { l with lps := l.lps.setIfInBounds i nx, lpe := l.lpe.setIfInBounds i e,
                                 lpc := l.lpc.setIfInBounds i n, depth := l.depth + 1 } }).complete

/-- LOOP (R107). -/
def execLoop (o : BitVec 12) (a : BitVec 5) (w l : Bool) (s : State) : Out :=
  issue (.loop o a w l) s (s.enterLoop (s.g a) (s.wordPc + 4 * o.signExtend 64))
/-- LOOPI (R107). -/
def execLoopi (n : BitVec 12) (e : BitVec 10) (w l : Bool) (s : State) : Out :=
  issue (.loopi n e w l) s (s.enterLoop (n.setWidth 64) (s.wordPc + 4 * e.setWidth 64))
/-- LBRK: control goes past the end of the top level, which is popped; the transfer unwinds as R109 gives. -/
def execLbrk (w l : Bool) (s : State) : Out :=
  issue (.lbrk w l) s
    { (s.onHart fun h => { h with loops := { h.loops with depth := h.loops.depth - 1 } }) with
      flow := .taken ((s.hart.loops.topEnd.getD 0) + 4) }.complete
/-- LPOP (R107). DESIGN CHOICE (log 162): one that stands on the end word of the level it pops has popped it before the wrap of R108, which so looks at
the level then on top. -/
def execLpop (w l : Bool) (s : State) : Out :=
  issue (.lpop w l) s (s.onHart fun h => { h with loops := { h.loops with depth := h.loops.depth - 1 } }).complete

/-- The 22 prefix fields of a PFX word (R64). -/
def pfxFields (x c : Bool) (sc p q r : BitVec 3) (f e : BitVec 4) : BitVec 22 :=
  BitVec.ofBool x ++ BitVec.ofBool c ++ sc ++ p ++ q ++ r ++ f ++ e

/-- PFX: a lone one makes its fields the pending prefix and leaves them in PFXSAVE; one in a C slot serves the A half of its pair
alone (R65, R68). -/
def execPfx (x c : Bool) (sc p q r : BitVec 3) (f e : BitVec 4) (w l : Bool) (s : State) : Out :=
  issue (.pfx x c sc p q r f e w l) s
    (if s.slot == .lone then
      { (s.onHart fun h => { h with pp := true, fields := pfxFields x c sc p q r f e }) with flow := .pfx }.complete
    else s.complete)

end Sys2Proof.Machine
end

