-- ==== Sys2Proof/Machine/Fetch.lean ====
section
/-!
DEFINITION. What stands at a hart's pc: the fetch of a lone word or pair, and steps 1 to 5 of the checks (R47, R49, R54, R56).
-/

namespace Sys2Proof.Machine

/-- What a hart finds at its pc. -/
inductive AtPc where
  | lone (i : Instr)
  | pair (c a : Instr)
  /-- an illegal instruction: the half that fails and its kind (R57); `misplaced` by its own case -/
  | illegal (slot : Slot) (kind : Nat)
  | misplaced
  /-- the fetch of the word at this address does not succeed -/
  | noFetch (va : W) (f : Fetch)
deriving DecidableEq, Repr

/-- The kind code of a rejected word (R57). -/
def rejectKind : Reject → Nat
  | .undefinedMajor => 0
  | .undefinedFunction => 1
  | .reservedField => 2

/-- The kind of a decoded word, none for an instruction. -/
def decodedKind : Decoded → Option Nat
  | .instr _ => none
  | .reject r => some (rejectKind r)

/-- The registers that a decoded word writes. DESIGN CHOICE (log 138): the manual does not say whether a word that step 5 will refuse for a reserved
field counts as writing its D for rule 4 of R49; here it writes nothing. -/
def decodedWrites : Decoded → List RegRef
  | .instr i => (info i).writes
  | .reject _ => []

/-- The major opcode of a word is one that may stand in a C slot: class C but SYS, or PFX (R48, R49). -/
def cSlotMajor (w : Word32) : Bool :=
  let m := (w.extractLsb' 2 5).toNat
  1 ≤ m && m ≤ 0x13 && m != 0x10

/-- The major opcode of a word is of class A (R48). -/
def aSlotMajor (w : Word32) : Bool :=
  let m := (w.extractLsb' 2 5).toNat
  0x14 ≤ m && m ≤ 0x1B

/-- The two halves write one register, g0 apart (R49 rule 4). -/
def writesClash (c a : Decoded) : Bool := (decodedWrites c).any fun r => r != .g 0 && (decodedWrites a).contains r

/-- A pair's words by steps 2 to 5 of R56, the C half before the A half in each step. -/
def judgePair (wc wa : Word32) : AtPc :=
  let c := decodeWord wc
  let a := decodeWord wa
  if decodedKind c == some 0 then .illegal .cHalf 0
  else if decodedKind a == some 0 then .illegal .aHalf 0
  else if !cSlotMajor wc || writesClash c a then .illegal .cHalf 3
  else if !aSlotMajor wa || wa.getLsbD 0 then .illegal .aHalf 3
  else match c, a with
    | .instr ic, .instr ia => .pair ic ia
    | .reject .undefinedFunction, _ => .illegal .cHalf 1
    | _, .reject .undefinedFunction => .illegal .aHalf 1
    | .reject _, _ => .illegal .cHalf 2
    | _, _ => .illegal .aHalf 2

/-- What stands at the pc of hart `h` of core `c` (R47). -/
def atPc (s : State) (c : CoreId) (h : HartId) : AtPc :=
  let pc := (s.hartAt c h).pc
  match fetchWord s c h pc with
  | .word w _ =>
    if w.getLsbD 0 then
      match decodeWord w with
      | .instr i => .lone i
      | .reject r => .illegal .lone (rejectKind r)
    else if pc.getLsbD 2 then .misplaced
    else match fetchWord s c h (pc + 4) with
      | .word w' _ => judgePair w w'
      | f => .noFetch (pc + 4) f
  | f => .noFetch pc f

end Sys2Proof.Machine
end

