-- ==== Sys2Proof/Machine/Sync.lean ====
section
/-!
DEFINITION. Fences (R228, R229), WAITA (R230), groups and their barriers (R111 to R114), and YIELD (R112).
-/

namespace Sys2Proof.Machine

/-! Fences. -/

/-- Hart `h` of core `c` has issued an engine command that is not complete (R232). Waves carry their core, not their hart: those of the
core count (log 15). -/
def State.engineBusy (s : State) (c : CoreId) (h : HartId) : Bool :=
  (s.net.cmds.any fun k => k.core == c && k.hart == h) || (s.net.waves.any fun w => w.core == c) ||
    s.arrays.any fun a => (a.2.queue.any fun m => m.core == c && m.hart == h) || a.2.runs.any fun r => r.cmd.core == c && r.cmd.hart == h

/-- FENCE (R228): it issues only once every older access is confirmed (R250), so that what is left to wait for are the hart's engine
commands, when E is set. A FENCE with an empty set orders nothing. -/
def execFence (e p q u v : Bool) (sc : BitVec 2) (w l : Bool) (s : State) : Out :=
  issue (.fence e p q u v sc w l) s (if e && s.engineBusy s.cur s.curHart then s.hold else s.complete)

/-- IFENCE (R229): the hart gives up the fetch block that it holds, and fetches memory as it now stands (R239). -/
def execIfence (w l : Bool) (s : State) : Out := issue (.ifence w l) s (s.onHart fun h => { h with block := none }).complete

/-! WAITA. -/

/-- The read of WAITA: a plain load (R230). -/
def waitaAsk (va : W) (size : Nat) : Ask where
  op := .waita
  els := [⟨va, size, 0, .load⟩]
  vec := false
  plain := true
  acq := false

/-- The hart empties WAITA's destination and waits in it. -/
def State.waitaWait (s : State) (i : Instr) (d : BitVec 5) (w : Wait) : State :=
  (s.onHart fun h => { h with regs := h.regs.empty (.g d) }).waitIn i w

/-- WAITA issues: its first read takes place, or sets out (R230). -/
def State.waita (s : State) (i : Instr) (d b a : BitVec 5) (size : Nat) : State :=
  let va := s.g a
  let q := waitaAsk va size
  let cmp := s.g b
  s.orReplayed (match s.gate i q with
  | some t => t
  | none =>
    if s.ownOwed q then s.hold
    else
      let s := s.onHart fun h => useSkips h q
      let now := s.cycleOf s.cur s.curHart
      let ps := makeParts s q q.els 0
      if allOwn ps then
        let x := s.bytesAt (localKey s.cur va.toNat) size
        if waitaEnds size x cmp now now s.hart.waitlim then (s.dropOwn.setG d ((waitaValue size x).setWidth 64)).numbered.complete
        else (s.dropOwn.logOwn (.g d) false).numbered.waitaWait i d (.waita d va size cmp now now false)
      else if !s.entryReady then s.hold
      else ((s.logOwn (.g d) true).sendOut i q ps).waitaWait i d (.waita d va size cmp now now true))

/-- WAITA (R230). -/
def execWaita (sc : BitVec 2) (z : Bool) (b a d : BitVec 5) (w l : Bool) (s : State) : Out :=
  issue (.waita sc z b a d w l) s
    (s.preciseOr (.waita sc z b a d w l) (s.waita (.waita sc z b a d w l) d b a (if z then 8 else 4)))

/-- A read of a WAITA that waits may be undone: a rewind to it makes its destination full with the value that it holds (R249, R251). -/
def logWaita (k : Hart) : Hart :=
  match k.wait with
  | .waita d _ _ _ _ _ _ =>
    let r := LogRec.reg (2 * k.nseq - 1) (.g d) (k.regs.read (.g d)) true
    if k.log.contains r then k else { k with log := k.log ++ [r] }
  | _ => k

/-- WAITA reads its location again, by the checks that a load meets now (R230). -/
def State.waitaAgain (s : State) (c : CoreId) (h : HartId) (i : Instr) (va : W) (size : Nat) (slot : Slot) : State :=
  let q := waitaAsk va size
  let t := { s with cur := c, curHart := h, slot := slot }
  match t.gate i q with
  | some _ =>
    let u := { s.cancelWait c h with cur := c, curHart := h, slot := slot }
    (u.gate i q).getD u
  | none =>
    let t := t.onHart fun k => useSkips k q
    let ps := makeParts t q q.els 0
    let mark (r : Bool) (k : Hart) : Hart := match k.wait with
      | .waita d va size cmp start last _ => { k with wait := .waita d va size cmp start last r }
      | _ => k
    if allOwn ps then (t.onHart (mark true)).waitaRead c h (t.bytesAt (localKey c va.toNat) size)
    else
      let k := t.hart
      let a : Access := { id := t.fresh, core := c, hart := h, seq := k.nseq - 1, mark := k.resume, ctx := t.self.mem.ctxid,
                          agid := k.agid, mode := k.mode, op := .waita, vec := false, plain := true, acq := false, orphan := false, mute := false,
                          parts := ps, frozen := 0, since := 0 }
      ({ t with net := { t.net with accs := t.net.accs ++ [a] } }.onHart fun k => logWaita (mark true k)).bump

/-- A poll of a WAITA that waits, at least 16 core cycles after its last read; `limit` asks that its limit has passed. It does not overtake an older
access to its line (R222). -/
def State.poll (s : State) (c : CoreId) (h : HartId) (limit : Bool) : Out :=
  match (s.hartAt c h).wait, (s.hartAt c h).waitAt with
  | .waita _ va size _ start last false, some w =>
    let now := s.cycleOf c h
    let late := decide ((s.hartAt c h).waitlim.toNat ≤ (now - start).toNat)
    let owed := { s with cur := c, curHart := h }.ownOwed (waitaAsk va size)
    if 16 ≤ (now - last).toNat && (!limit || late) && !s.atRest c && !owed then (s.waitaAgain c h w.op va size w.slot).occur else s.idle
  | _, _ => s.idle

/-- WAITA_POLL (R230). -/
def execWaitaPoll (c : BitVec 12) (h : BitVec 2) (s : State) : Out := s.poll c h false
/-- WAITA_LIMIT_EXPIRY (R230): the read that ends the wait because WAITLIM core cycles have passed. -/
def execWaitaLimitExpiry (c : BitVec 12) (h : BitVec 2) (s : State) : Out := s.poll c h true

/-! Groups. -/

/-- The group of an identifier. -/
def State.group (s : State) (g : BitVec 12) : Option Group := s.groups.find? fun x => x.id == g

/-- The rank of a member. -/
def Group.rank (g : Group) (c : CoreId) (h : HartId) : Option Nat := (g.members.find? fun m => m.1 == c && m.2.1 == h).map fun m => m.2.2

/-- Applies a change to a group. -/
def State.onGroup (s : State) (g : BitVec 12) (f : Group → Group) : State :=
  { s with groups := s.groups.map fun x => if x.id == g then f x else x }

/-- A join by hart `h` of core `c` is refused (R113). -/
def State.joinRefused (s : State) (c : CoreId) (h : HartId) (x : W) : Bool :=
  x.extractLsb' 12 52 != 0 ||
  (match s.group (x.extractLsb' 0 12) with
    | some g => g.ctx != (s.core c).mem.ctxid || ((g.rank c h).isNone && 4 ≤ (s.memberships c h).length)
    | none => 4 ≤ (s.memberships c h).length)

/-- Hart `h` of core `c` is a member of the group from now on (R111); the answer tells its rank. -/
def State.join (s : State) (c : CoreId) (h : HartId) (id : BitVec 12) : State × Nat :=
  match s.group id with
  | none =>
    let g : Group := { id := id, ctx := (s.core c).mem.ctxid, members := [(c, h, 0)], isOpen := false, awaited := [], arrived := [],
                       episode := 0, owed := [] }
    ({ s with groups := s.groups ++ [g] }, 0)
  | some g =>
    match g.rank c h with
    | some r => (s, r)
    | none =>
      let r := (lowestFree (g.members.map fun m => m.2.2) 16384 0).getD 0
      (s.onGroup id fun x => { x with members := x.members ++ [(c, h, r)] }, r)

/-- The refusal of a group instruction (R113). -/
def State.groupRefused (s : State) (x : W) : State := s.fault 0x1C6 x 0

/-- GJOIN (R112): the hart waits until the barrier tree confirms. -/
def execGjoin (a d : BitVec 5) (w l : Bool) (s : State) : Out :=
  let x := s.g a
  issue (.gjoin a d w l) s
    (s.preciseOr (.gjoin a d w l)
      (if s.joinRefused s.cur s.curHart x then s.groupRefused x else s.waitIn (.gjoin a d w l) (.gjoin d x)))

/-- GROUP_JOIN_CONFIRM (R112, R113): the tree confirms the join, or refuses it as it stands by now. -/
def execGroupJoinConfirm (c : BitVec 12) (h : BitVec 2) (s : State) : Out :=
  match (s.hartAt c h).wait with
  | .gjoin d x =>
    if s.joinRefused c h x then (s.trapAt c h false 0x1C6 x 0 (s.hartAt c h).pc).occur
    else
      let r := s.join c h (x.extractLsb' 0 12)
      (r.1.finishWait c h (oneWrite (.g d) (BitVec.ofNat 1024 r.2))).occur
  | _ => s.idle

/-- GLEAVE (R112, R114). -/
def execGleave (a : BitVec 5) (w l : Bool) (s : State) : Out :=
  let x := s.g a
  issue (.gleave a w l) s
    (if x.extractLsb' 12 52 != 0 then s.groupRefused x else (s.leaveGroup s.cur s.curHart (x.extractLsb' 0 12)).complete)

/-- A member arrives at its group's barrier (R114): it opens an episode, arrives in an open one that awaits it, or waits for an episode
that does not await it to end. A member whose episode completed while it was in a handler goes on. How an interrupted GBAR is known again when it is
executed again is not stated. DESIGN CHOICE (log 139): it is the member's next GBAR on the group. -/
def State.arriveAt (s : State) (i : Instr) (g : Group) : State :=
  let me := (s.cur, s.curHart)
  if g.owed.contains me then (s.onGroup g.id fun x => { x with owed := x.owed.filter fun m => m != me }).complete
  else if !g.isOpen then
    (s.onGroup g.id fun x => { x with isOpen := true, awaited := x.members.map fun m => (m.1, m.2.1), arrived := [me] }).waitIn i (.gbar g.id false)
  else if g.awaited.contains me then
    (s.onGroup g.id fun x => { x with arrived := if x.arrived.contains me then x.arrived else x.arrived ++ [me] }).waitIn i (.gbar g.id false)
  else s.waitIn i (.gbar g.id true)

/-- GBAR (R112 to R114). -/
def execGbar (a : BitVec 5) (w l : Bool) (s : State) : Out :=
  let x := s.g a
  issue (.gbar a w l) s
    (s.preciseOr (.gbar a w l)
      (if x.extractLsb' 12 52 != 0 then s.groupRefused x
       else match s.group (x.extractLsb' 0 12) with
        | some g => if (g.rank s.cur s.curHart).isSome then s.arriveAt (.gbar a w l) g else s.groupRefused x
        | none => s.groupRefused x))

/-- The harts that wait in GBAR on a group; `late` for those that an open episode does not await. -/
def State.waitersAt (s : State) (g : Group) (late : Bool) : List (CoreId × HartId) :=
  (g.members.filter fun m => (s.hartAt m.1 m.2.1).wait == .gbar g.id late).map fun m => (m.1, m.2.1)

/-- BARRIER_EPISODE_COMPLETE (R114, R312): every awaited member has arrived. Members that wait continue; an awaited member that is in a
handler finds its episode complete later; members that came late arrive in the next episode, which they open. -/
def execBarrierEpisodeComplete (g : BitVec 12) (s : State) : Out :=
  match s.group g with
  | none => s.idle
  | some x =>
    if !x.isOpen || !x.awaited.all fun m => x.arrived.contains m then s.idle
    else
      let go := s.waitersAt x false
      let late := s.waitersAt x true
      let owed := x.awaited.filter fun m => !go.contains m
      let cores := (x.members.map fun m => m.1).eraseDups
      let s := s.onGroup g fun x => { x with
        isOpen := !late.isEmpty, awaited := if late.isEmpty then [] else x.members.map fun m => (m.1, m.2.1), arrived := late,
        episode := x.episode + 1, owed := x.owed ++ owed }
      let s := late.foldl (fun s m => s.onHartAt m.1 m.2 fun h => { h with wait := .gbar g false }) s
      let s := cores.foldl (fun s c => s.post srcBarrier c 22 0x60 0 (x.episode ++ 0#4 ++ g)) s
      (go.foldl (fun s m => s.finishWait m.1 m.2 noWrite) s).occur

/-- GQRY (R112). -/
def execGqry (a d : BitVec 5) (w l : Bool) (s : State) : Out :=
  let x := s.g a
  issue (.gqry a d w l) s
    (if x.extractLsb' 12 52 != 0 then s.groupRefused x
     else (s.setG d (BitVec.ofNat 64 (((s.group (x.extractLsb' 0 12)).map fun g => g.members.length).getD 0))).complete)

/-! YIELD. -/

/-- YIELD (R112): the hart pauses in the four core cycles after the one in which it retires. -/
def execYield (w l : Bool) (s : State) : Out :=
  issue (.yield w l) s (s.onHart fun h => { h with pause := 4 }).complete

/-- The core's harts may issue: it is not stopped by the heel tree, fenced or in its low-power state (R100, R350, R357). -/
def Core.awake (k : Core) : Bool := !k.sys.heeled && !k.sys.fenced && !k.sys.low

/-- Hart `h` of core `c` is free to issue what stands at its pc (R94, R236): its core's time to switch has not come (R360). -/
def State.mayIssue (s : State) (c : CoreId) (h : HartId) : Bool :=
  let x := s.hartAt c h
  (s.core c).awake && !s.timeUp c && !x.stopped && x.wait == .none && !x.tkp && !x.react.abort && !s.orderedHeld c h

/-- YIELD_PAUSE_END (R112): no other hart of the core may issue. -/
def execYieldPauseEnd (c : BitVec 12) (h : BitVec 2) (s : State) : Out :=
  if (s.hartAt c h).pause == 0 || hartIds.any (fun i => i != h && (s.hartAt c i).pause == 0 && s.mayIssue c i) then s.idle else (s.onHartAt c h fun x => { x with pause := 0 }).occur

end Sys2Proof.Machine
end

