-- ==== Sys2Proof/Machine/Traps.lean ====
section
/-!
DEFINITION. The traps that no instruction's own meaning raises: an interrupt (R104), a word or pair that is no instruction (R56), and a
fetch that faults (R122).
-/

namespace Sys2Proof.Machine

/-- What an interrupt changes, as it stands before (R251, log 11). -/
def Hart.markNow (x : Hart) : IntMark where
  seq := x.nseq
  trpc := x.trap.trpc
  trcause := x.trap.trcause
  traddr := x.trap.traddr
  trinfo := x.trap.trinfo
  mode := x.mode
  pmode := x.pmode
  pie := x.pie
  ie := x.ie
  spp := x.spp

/-- An interrupt over accesses that are unconfirmed is noted, so that a rewind to one of them undoes it (log 11). -/
def State.markInt (s : State) (c : CoreId) (h : HartId) : State :=
  let behind := s.unconfirmed c h
  s.onHartAt c h fun x => { x with intMarks := if behind then x.intMarks ++ [x.markNow] else [] }

/-- INTERRUPT_ENTRY (R104): the lowest enabled pending source is taken. A wait ends without effect, and TRPC names its instruction; but
a WFI retires first (R100). -/
def execInterruptEntry (c : BitVec 12) (h : BitVec 2) (s : State) : Out :=
  match s.firstSource c h with
  | none => s.idle
  | some n =>
    if (s.core c).awake && !s.timeUp c && s.interruptDue c h then
      let s := if (s.hartAt c h).wait == .wfi then (s.issuing c h .lone).retire else s.cancelWait c h
      ((s.markInt c h).trapAt c h true (BitVec.ofNat 9 (0x1E0 + n)) 0 0 (s.hartAt c h).pc).occur
    else s.idle

/-- ILLEGAL_INSTRUCTION (R47, R56, R57): the word or pair at the pc fails step 1 to 5. -/
def execIllegalInstruction (c : BitVec 12) (h : BitVec 2) (s : State) : Out :=
  if s.mayIssue c h then
    match atPc s c h with
    | .illegal slot kind => .next ((s.issuing c h slot).illegal kind)
    | .misplaced => .next (s.issuing c h .lone).misplaced
    | _ => s.idle
  else s.idle

/-- The address that a record or a fence names for a key (R343): physical, or local to its core. -/
def keyAddress (key : Nat) : W := BitVec.ofNat 64 (if key < 2 ^ 48 then key else (key - 2 ^ 48) % Config.localSize)

/-- A fetch at `va` traps (R122): `t` is the state after the trap, or with the hart held while older accesses are unconfirmed (R250). What goes with
the trap is done by `f`. -/
def afterTrap (t : State) (f : State → State) : Out := .next (if t.disp == .held then t else f t)

/-- The ticket of a fetch that was answered with a fault is closed, which is recorded (R253, R255). -/
def State.closeFetch (s : State) (c : CoreId) (h : HartId) (va : W) : State :=
  match fetchTicket s c h va with
  | some t => (s.closeTicket t.slice t.num).fetchRecord t 0x22
  | none => s

/-- INSTRUCTION_FETCH_FAULT (R122, R196, R245, R253, R254): the trap is taken at the address that could not be fetched. A malformed entry that it has
met is logged. -/
def execInstructionFetchFault (c : BitVec 12) (h : BitVec 2) (s : State) : Out :=
  if s.mayIssue c h then
    let u := s.issuing c h .lone
    match atPc s c h with
    | .noFetch va (.fault cause) => .next (u.raise 0 cause va 0)
    | .noFetch va (.malformed cause) =>
      afterTrap (u.raise 0 cause va 0) fun t => t.logCause { core := c, hart := h, unit := 1, addr := va, info := 0 } cause
    | .noFetch va (.failed cause info) => afterTrap (u.raise 0 cause (if cause == 0x1C5 then 0 else va) info) fun t => t.closeFetch c h va
    | .noFetch va (.poisoned cause key) => .next (u.faultOrFence (some (keyAddress key)) cause va 0)
    | _ => s.idle
  else s.idle

end Sys2Proof.Machine
end

