-- ==== Sys2Proof/Machine/Faults.lean ====
section
/-!
DEFINITION. The containment ladder: errors and their classes (R342, R346 to R348), kennels that restart (R350), launches that are replayed
(R353), frames in quarantine (R355), cores that are retired (R356), and power (R375).
-/

namespace Sys2Proof.Machine

/-! Escalation (R348). -/

/-- Where a log record says that an error was found. -/
def errAt (c : CoreId) (h : HartId) (unit : BitVec 3) (addr : W) : ErrAt := { core := c, hart := h, unit := unit, addr := addr, info := 0 }

/-- LRSTAT of the launch that runs in context `x`: of the first core of the partition that has RPL. -/
def State.replayStat (s : State) (x : BitVec 16) : Option W :=
  ((s.partition x).find? fun c => (s.core c).sys.lrstat.getLsbD 63).map fun c => (s.core c).sys.lrstat

/-- The launch of LRSTAT may be replayed: BROKE is 0 and RCNT below LIM. -/
def mayReplay (w : W) : Bool := !w.getLsbD 62 && decide ((w.extractLsb' 8 8).toNat < (w.extractLsb' 0 8).toNat)

/-- Applies a change to the running replayable launch of context `x`. -/
def State.onReplayable (s : State) (x : BitVec 16) (f : Launch → Launch) : State :=
  { s with front := { s.front with launches := s.front.launches.map fun (l : Launch) => if l.ctx == x && l.rpl && l.phase == 2 then f l else l } }

/-- An error escalates for a context (R348): its launch is to be replayed, or the context is killed. What runs in context 0 is firmware, which no launch
and no kill concerns: the error is logged where the table of R342 has that. -/
def State.escalate (s : State) (x : BitVec 16) (d : Nat) (e : ErrAt) : State :=
  let e := { e with ctx := some x }
  if x == 0 then (if 1 ≤ d && d ≤ 4 then s.logError e d 7 else s)
  else match s.replayStat x with
    | none => (s.logError e d 5).kill x
    | some w =>
      if mayReplay w then s.onReplayable x fun l => { l with replay := some (BitVec.ofNat 3 d) }
      else
        let s := if w.getLsbD 62 then s else s.onReplayable x fun l => { l with status := 6 }
        (s.logError e d 5).kill x

/-- An error escalates for every context of a list; for none but firmware when the list is empty. -/
def State.escalateAll (s : State) (l : List (BitVec 16)) (d : Nat) (e : ErrAt) : State :=
  match l with
  | [] => s.escalate 0 d e
  | l => l.foldl (fun s x => s.escalate x d e) s

/-- The core lies in an enabled kennel. -/
def State.inKennel (s : State) (c : CoreId) : Bool := (s.core c).sys.kennel.getLsbD 63

/-- Adds one to a 16-bit saturating field of a register. -/
def countField (w : W) (pos : Nat) : W :=
  let f := w.extractLsb' pos 16
  (w &&& ~~~(0xFFFF#64 <<< pos)) ||| ((satInc f).setWidth 64 <<< pos)

/-- The key of a data line that a detector watches: the local store of core `c`, the commons, HBM, or the weight store. -/
def lineKey (d : Nat) (c : CoreId) (a : W) : Option Nat :=
  let n := a.toNat
  match d with
  | 1 => if n < Config.localSize then some (localKey c n) else none
  | 2 => if Config.commonsBase ≤ n && n < Config.commonsBase + 0x100000000 then some n else none
  | 3 => if n < Config.hbmLimit then some n else none
  | 4 => if Config.weightBase ≤ n && n < Config.weightBase + 0x100000000 then some n else none
  | _ => none

/-- UNIT of a record of detector `d` (R343). -/
def unitOf (d : Nat) : BitVec 3 :=
  match d with
  | 2 => 2
  | 3 => 3
  | 4 => 4
  | 5 => 6
  | 6 => 4
  | _ => 0

/-- An uncorrectable error in a line of core `c`'s local store is counted, and a line that shows one again after it was written whole makes
the core fit for retirement (R347, R356). -/
def noteLine (line : Nat) (poison : Bool) (y : CoreSys) : CoreSys :=
  { y with chkstat := countField y.chkstat 0, worn := y.worn || (y.ueLines.contains line && !poison), ueLines := insertNat line y.ueLines }

/-- The core that a record names for a line (R343): the core itself for its local store, the one beside the unit for any other (R11). -/
def State.lineCore (s : State) (d : Nat) (c : CoreId) (key : Nat) : CoreId := if d == 1 then c else besideCore s.cap.active key

/-- The context that a record of a line names (R343): for the local store that of its core, for HBM that to which the frame is charged, else none. -/
def State.lineCtx (s : State) (d key : Nat) : Option (BitVec 16) :=
  if d == 1 then none
  else some (if d == 3 then ((s.books.charged.find? fun x => decide (4096 * x.1.toNat ≤ key ∧ key < 4096 * (x.1.toNat + x.2.2.2))).elim 0 fun x => x.2.1) else 0)

/-- A data line is poisoned and the error logged (R348); HBM was read again once. -/
def State.lineError (s : State) (d : Nat) (c : CoreId) (h : HartId) (a : W) (key : Nat) : State :=
  let s := if d == 1 then s.onSys c (noteLine (a.toNat / 64) (poisoned s key 1)) else s
  (s.poisonLines [key / 64]).logError { errAt (s.lineCore d c key) (if d == 1 then h else 0) (unitOf d) a with ctx := s.lineCtx d key } d (if d == 3 then 2 else 7)

/-- The checker has found a second mismatch on core `c`: SUSP (R347). -/
def State.suspects (s : State) (c : CoreId) : State := s.onSys c fun y => { y with chkstat := y.chkstat ||| 0x8000000000000000#64 }

/-- The second mismatch of an instruction at the checker (R346): a precise trap, and SUSP. -/
def State.checkerTrap (s : State) (c : CoreId) (h : HartId) : State :=
  let words := issueWords s c h
  let t := ((s.issuing c h .lone).raise 10 0x182 0 words)
  if t.disp == .held then t
  else (t.suspects c).logError { errAt c h 0 0 with info := words } 0 2

/-- An instruction whose result the checker computes again, or whose branch decision, jump target or address, and that writes at retirement (R346):
by the major of its word, the divides, FDIV and FSQRT apart. DESIGN CHOICE (log 158): of the instructions of other units that read memory at an
address, WAITA is one of them, and XSHAPE is not. -/
def checkedAtRetire (w : Word32) (i : Instr) : Bool :=
  let m := (w.extractLsb' 2 5).toNat
  match i with
  | .div .. => false
  | .divu .. => false
  | .rem .. => false
  | .remu .. => false
  | .fdiv .. => false
  | .fsqrt .. => false
  | .waita .. => true
  | _ => (1 ≤ m && m ≤ 8) || m == 0x11 || (0x14 ≤ m && m ≤ 0x18)

/-- The hart stands at an instruction that the checker checks at retirement; of a pair, one half is such an instruction. -/
def State.atChecked (s : State) (c : CoreId) (h : HartId) : Bool :=
  let w := issueWords s c h
  s.mayIssue c h && (match atPc s c h with
    | .lone i => checkedAtRetire (w.setWidth 32) i
    | .pair x y => checkedAtRetire (w.setWidth 32) x || checkedAtRetire (w.extractLsb' 32 32) y
    | _ => false)

/-- The operation writes its result after retirement, and the checker computes it again (R346): a divide, FDIV, FSQRT or vector operation. -/
def Pend.checkedLate (p : Pend) : Bool :=
  match p.kind with
  | .div .. => true
  | .fdiv .. => true
  | .vecIssued _ => true
  | .vecAccepted _ => true
  | _ => false

/-- A late result of hart `h` of core `c` is found wrong twice (R346): the operation is given up, and its destinations keep what they held. -/
def State.dropLate (s : State) (c : CoreId) (h : HartId) : Option State :=
  ((s.hartAt c h).pend.find? Pend.checkedLate).map fun p =>
    p.dsts.foldl (fun s r => s.refill c h r) (s.onHartAt c h fun x => { x with pend := x.pend.filter fun q => q.id != p.id })

/-- A class B error of core `c` (R348): its kennel is fenced, or the error escalates. -/
def State.classB (s : State) (d : Nat) (c : CoreId) (h : HartId) (a : W) : State :=
  if s.inKennel c then s.fenceKennel c h d 0 else s.escalate (s.core c).mem.ctxid d (errAt c h 0 a)

/-- The contexts whose accesses are on their way to memory that `unit` names, by physical address. -/
def State.ctxsAt (s : State) (unit : Nat → Bool) : List (BitVec 16) :=
  (s.net.accs.filter fun a => a.parts.any fun p => match p.stage with
    | .sent (.phys pa _) => unit pa.toNat
    | _ => false).map fun a => a.ctx

/-- The contexts that have work in the unit outside every core in which a class C error lies (R348): by detector, a translation slice (1), the bank of a
commons address (2), the stack of an HBM address (3), the array beside core `c` (4, 6), or the router of core `c` (5), whose packets are those
that start or end there (DEDUCED, log 141). -/
def State.workIn (s : State) (d : Nat) (c : CoreId) (a : W) : List (BitVec 16) :=
  let n := a.toNat
  let y := s.array (arrayOf c)
  let l := match d with
    | 1 =>
      let slice : BitVec 6 := dieOf c ++ a.extractLsb' 0 4
      ((s.openAt slice).map fun (t : Ticket) => t.ctx) ++ ((s.net.accs.filter fun (x : Access) => x.parts.any fun (p : Part) =>
        (p.stage == Stage.slice || p.stage == Stage.ats) && sliceOf x.core p.va == slice).map fun (x : Access) => x.ctx)
    | 2 => s.ctxsAt fun pa => inCommons pa && pa / 0x400000 == n / 0x400000
    | 3 => s.ctxsAt fun pa => decide (pa < Config.hbmLimit) && (hbmPlace s.cap.active pa).1 == (hbmPlace s.cap.active n).1
    | 5 => (s.net.flights.filter fun (f : Flight) => f.src == c || (f.pkg == 0 && f.dst == c)).filterMap fun (f : Flight) => (s.packetAt f.n f.k).map s.packetCtx
    | _ => (y.queue.map fun (k : MxCmd) => k.ctx) ++ y.runs.map fun (r : Run) => r.cmd.ctx
  (l.filter fun x => x != 0).eraseDups

/-- The second mismatch of an array's checksum (R193): the run whose row it is ends with outcome 3, or the load at the head of the queue marks its buffer
so that its runs do. The error is logged against the hart of the command. -/
def State.checksumFails (s : State) (a : BitVec 7) (load : Bool) : Option State :=
  let y := s.array a
  let log (s : State) (k : MxCmd) : State := s.logError { core := k.core, hart := k.hart, unit := 4, addr := 0, info := 0, ctx := some k.ctx } 6 2
  if load then y.nextLoad.map fun k => log (s.loadTile a k 3) k
  else match y.active with
    | some r => if r.cmd.kind == 1 then some (log (s.onRun a r.seq fun r => { r with outcome := 3 }) r.cmd) else none
    | none => none

/-- UNCORRECTABLE_ERROR (R193, R346, R348): by `k`, 0 a data line, or with detector 6 a checksum of the array beside core `c`, of a row or with bit 0 of
`h` of a load; 1 core state that cannot carry poison (class B), with detector 0 a late result of hart `h` too; 2 state outside every core
(class C); 3 a second mismatch at the checker. -/
def execUncorrectableError (d : BitVec 3) (c : BitVec 12) (h : BitVec 2) (a : BitVec 64) (k : BitVec 2) (s : State) : Out :=
  let here (o : Option State) : Out := (o.map State.occur).getD s.idle
  match k.toNat with
  | 0 =>
    if d == 6 then here (s.checksumFails (arrayOf c) (h.getLsbD 0))
    else here ((lineKey d.toNat c a).map fun key => s.lineError d.toNat c h a key)
  | 1 =>
    if (s.core c).sys.fenced then s.idle
    else if d == 1 then (s.classB 1 c h a).occur
    else if d == 0 then here ((s.dropLate c h).map fun s => (s.suspects c).classB 0 c h a)
    else s.idle
  | 2 =>
    if d == 0 || d == 7 || ((d == 2 || d == 3) && (lineKey d.toNat c a).isNone) then s.idle
    else (s.escalateAll (s.workIn d.toNat c a) d.toNat (errAt (if d == 2 || d == 3 then besideCore s.cap.active a.toNat else c) 0 (if d == 1 then 1 else unitOf d.toNat) a)).occur
  | _ =>
    if d == 0 && s.atChecked c h then
      let t := s.checkerTrap c h
      if t.disp == .held then s.idle else t.occur
    else s.idle

/-- The pairs of detector and action 0 or 1 that R342 has. -/
def correctable (d k : Nat) : Bool := (k == 0 && 1 ≤ d && d ≤ 4) || (k == 1 && (d == 0 || d == 3 || d == 5 || d == 6))

/-- The command that array `a` works on: the load that it makes, or the run whose row it computes. -/
def State.arrayWork (s : State) (a : BitVec 7) : Option MxCmd :=
  match (s.array a).nextLoad with
  | some k => some k
  | none => ((s.array a).active.filter fun r => r.cmd.kind == 1).map fun r => r.cmd

/-- The first mismatch of the checksum of array `a` (R193): the load or the row is repeated, and the error is logged for the core that holds the lease, for
that of the command when none does (DEDUCED, log 159). -/
def State.checksumRetried (s : State) (a : BitVec 7) : Option State :=
  (s.arrayWork a).map fun k =>
    let who := (s.array a).holder.getD (k.core, k.hart)
    s.logError { core := who.1, hart := who.2, unit := 4, addr := 0, info := 0, ctx := some k.ctx } 6 1

/-- CORRECTED_ERROR (R193, R342, R346, R347): an error was corrected, or retried with success; with detector 6, a checksum of the array beside core `c`. -/
def execCorrectedError (d k : BitVec 3) (c : BitVec 12) (a : BitVec 64) (s : State) : Out :=
  if d == 6 && k == 1 then ((s.checksumRetried (arrayOf c)).map State.occur).getD s.idle
  else if correctable d.toNat k.toNat then
    let s := if d == 0 then s.onSys c fun y => { y with chkstat := countField y.chkstat 32 }
      else if d == 1 then s.onSys c fun y => { y with chkstat := countField y.chkstat 16 } else s
    let e : ErrAt := match lineKey d.toNat c a with
      | some key => { errAt (s.lineCore d.toNat c key) 0 (unitOf d.toNat) a with ctx := s.lineCtx d.toNat key }
      | none => { errAt c 0 (unitOf d.toNat) a with ctx := if d == 5 then some 0 else none }
    (s.logError e d.toNat k.toNat).occur
  else s.idle

/-! Kennels (R350). -/

/-- Hart 0 of a kennel core starts at KENTRY in S. -/
def kennelHart (y : CoreSys) (h : Hart) : Hart :=
  let h := startedHart 3 (y.kentry &&& ~~~3#64) h
  { h with trap := { h.trap with trcause := (errCause y.fenceDet.toNat 3).setWidth 64, traddr := y.fenceAddr, trinfo := y.fenceBy.setWidth 64 } }

/-- A core of a fenced kennel restarts; one that the heel tree has stopped in the meantime stays stopped (R349). -/
def State.restartCore (s : State) (c : CoreId) : State :=
  let y := (s.core c).sys
  (s.onHartAt c 0 (kennelHart y)).onSys c fun y => { y with fenced := false }

/-- Slices of the die of core `c` lose their tickets when a kennel restarts or a core is retired (R254). Which slices do is not stated: a free set (log
142). -/
def State.losesSlices (s : State) (c : CoreId) : State :=
  s.freed.loseTickets ((s.free.setWidth 16).setWidth 64 <<< (16 * (dieOf c).toNat))

/-- KENNEL_RESTART (R350): the fence of core `c`'s kennel lifts. -/
def execKennelRestart (c : BitVec 12) (s : State) : Out :=
  if (s.core c).sys.fenced then
    ((((s.kennel c).filter fun k => (s.core k).sys.fenced).foldl State.restartCore s).losesSlices c).occur
  else s.idle

/-! Launch replay (R353). -/

/-- A shadow is given up: its frame is uncharged and the page has its own frame again (R353). -/
def State.dropShadow (s : State) (x : BitVec 16 × BitVec 36 × BitVec 36 × BitVec 36) : State :=
  let va : W := (x.2.1.setWidth 64) <<< 12
  match s.partition x.1 with
  | [] => s
  | c :: _ =>
    let s := match walk s.mem va 4 (s.core c).mem.root with
      | .leaf _ e place => storeBytes s place (natLe 8 ((e &&& 0xFFFF000000000FFF#64) ||| (x.2.2.1.setWidth 64 <<< 12)).toNat)
      | _ => s
    s.uncharge c x.2.2.2

/-- Every shadow of context `x` is given up. -/
def State.dropShadows (s : State) (x : BitVec 16) : State :=
  let mine := s.books.shadows.filter fun y => y.1 == x
  let s := (mine.foldl State.dropShadow s).purgePage x 0 3
  { s with books := { s.books with shadows := s.books.shadows.filter fun y => y.1 != x } }

/-- LAUNCH_REPLAY (R353): the partition is stopped and purged, shadows and local stores are given up, and the launch is queued again. It abandons
a fence or a switch in progress (R349). -/
def execLaunchReplay (x : BitVec 16) (s : State) : Out :=
  match s.front.launches.find? fun (l : Launch) => l.ctx == x && l.replay.isSome with
  | none => s.idle
  | some l =>
    let cs := s.partition x
    let c := (l.cores.flatten.head?).getD 0
    let t := cs.foldl State.heelCore s
    let t := (cs.foldl (fun s c => s.sweepAt x c) t).dropShadows x
    let t := (((t.setHeel x 0).setPhase x 0).unbind l).logError (errAt c 0 0 0) ((l.replay.getD 0).toNat) 4
    { t with front := { t.front with launches := t.front.launches.map fun (y : Launch) =>
        if y.id == l.id then { y with replay := none, rcnt := y.rcnt + 1, phase := 1, cores := [] } else y } }.occur

/-! Quarantine (R355). -/

/-- FRAME_QUARANTINE_SCRUB (R355): the frame is written with zeros and read back; `o` tells whether it read back clean. -/
def execFrameQuarantineScrub (f : BitVec 36) (o : Bool) (s : State) : Out :=
  if s.books.quarantine.contains f then
    let s := s.zeroRange (4096 * f.toNat) 4096
    let q := s.books.quarantine.filter fun g => g != f
    (if o then { s with books := { s.books with quarantine := q } }
     else { s with books := { s.books with quarantine := q, withdrawn := s.books.withdrawn ++ [f] } }.logError
       { errAt (besideCore s.cap.active (4096 * f.toNat)) 0 3 (f.setWidth 64 <<< 12) with ctx := some 0 } 3 7).occur
  else s.idle

/-! Core retirement (R356). -/

/-- Two cores lie in the same row of one die. -/
def sameRow (a b : CoreId) : Bool := a.extractLsb' 5 7 == b.extractLsb' 5 7

/-- Firmware may retire the core. -/
def CoreSys.suspect (y : CoreSys) : Bool := y.chkstat.getLsbD 63 || y.worn

/-- The detector that a record of a core's retirement names: the checker, or the local-store ECC where a worn line is the case (R342, R356). -/
def CoreSys.retireDetector (y : CoreSys) : Nat := if y.chkstat.getLsbD 63 then 0 else 1

/-- CORE_RETIREMENT (R356): once the heel tree has stopped its partition, a suspect core moves to its row's spare, with its state, every register
of it, and its local store, whose lines are fresh ones; when the spare serves another core already, the logical core is marked absent and its context is killed. -/
def execCoreRetirement (c : BitVec 12) (s : State) : Out :=
  let x := (s.core c).mem.ctxid
  let still := if x == 0 then (hartIds.all fun h => (s.hartAt c h).stopped) && s.quiet c else s.heelState x == 2 && s.phaseOf x == 0
  if (s.core c).sys.suspect && still && !s.pkg.absent.contains c then
    let d := (s.core c).sys.retireDetector
    let s := s.logError (errAt c 0 0 0) d 6
    if s.pkg.moved.any (sameRow c) then
      let t := { s with pkg := { s.pkg with absent := s.pkg.absent ++ [c] } }
      (if x == 0 then t else (t.logError (errAt c 0 0 0) d 5).kill x).occur
    else
      let t := ({ s with pkg := { s.pkg with moved := s.pkg.moved ++ [c] } }.onSys c fun y => { y with worn := false, ueLines := [] }).losesSlices c
      (if x == 0 then t else t.release x).occur
  else s.idle

/-! Power (R375). -/

/-- PWRCLS of context `x`. -/
def State.classOf (s : State) (x : BitVec 16) : Nat :=
  match s.partition x with
  | [] => 1
  | c :: _ => (s.core c).sys.pwrcls.toNat

/-- What a class keeps of its requests, in eighths of a watt, when `excess` eighths exceed the budget: at least one eighth of each request. -/
def keepOf (sum excess : Nat) : Nat := max (8 * sum - excess) sum

/-- A grant (R375): the request times what its class keeps. Where that is no whole number of watts, whether it is rounded up is free. -/
def grantOf (up : Bool) (q sum keep : Nat) : Nat :=
  if sum == 0 then 0
  else
    let n := q * keep
    n / (8 * sum) + (if n % (8 * sum) != 0 && (up || n / (8 * sum) * 8 < q) then 1 else 0)

/-- Grants of one class after another, from class `k` on. -/
def grants (up : Nat → Bool) (l : List (BitVec 16 × Nat × Nat)) : Nat → Nat → Nat → List (BitVec 16 × Nat)
  | 0, _, _ => []
  | fuel + 1, k, excess =>
    let mine := l.filter fun q => q.2.1 == k
    let sum := mine.foldl (fun n q => n + q.2.2) 0
    let keep := keepOf sum excess
    ((mine.zip (List.range mine.length)).map fun q => (q.1.1, grantOf (up (4 * q.2 + k)) q.1.2.2 sum keep)) ++
      grants up l fuel (k + 1) (excess - (8 * sum - keep))

/-- A context's grant reaches its cores, and a change of it raises source 14. How RATE follows a cut is not stated: it is free, below 128. -/
def State.giveGrant (s : State) (x q g : BitVec 16) : State :=
  let rate : Byte := if g == q then 128 else (s.free.setWidth 7).setWidth 8
  (s.partition x).foldl (fun s c =>
    let old := (s.core c).sys.grant
    let s := s.onSys c fun y => { y with req := q, grant := g, rate := rate }
    if old == g then s else s.edge c 14) s.freed

/-- POWER_ARBITER_RECOMPUTE (R375): context `x` asks for `q` watts, and all grants are computed anew. -/
def execPowerArbiterRecompute (x q : BitVec 16) (s : State) : Out :=
  if (s.partition x).isEmpty then s.idle
  else
    let reqs := (s.pkg.requests.filter fun r => r.1 != x && !(s.partition r.1).isEmpty) ++ [(x, q)]
    let l := reqs.map fun r => (r.1, s.classOf r.1, r.2.toNat)
    let sum := l.foldl (fun n r => n + r.2.2) 0
    let excess := 8 * sum - 8 * s.pkg.pwrbud.toNat
    let bits := s.free
    let gs := grants (fun i => bits.getLsbD (i % 64)) l 4 0 excess
    let s := { s.freed with pkg := { s.pkg with requests := reqs } }
    (reqs.foldl (fun s r => s.giveGrant r.1 r.2 (BitVec.ofNat 16 (((gs.find? fun g => g.1 == r.1).map (·.2)).getD 0))) s).occur

/-- COLD_PLATE_LIMIT (R375): the management controller lowers PWRBUD. -/
def execColdPlateLimit (x : BitVec 13) (s : State) : Out :=
  if x.toNat < s.pkg.pwrbud.toNat then { s with pkg := { s.pkg with pwrbud := x } }.occur else s.idle

end Sys2Proof.Machine
end

