-- ==== Sys2Proof/Machine/Csr.lean ====
section
/-!
DEFINITION. The CSR instructions (R92): what each control and status register reads as, which of its bits are reserved, and what a
write of it does. Numbers that no table lists are turned away by decoding (R92), and privileges by the check of R56 step 7.
-/

namespace Sys2Proof.Machine

/-! Reserved bits. -/

/-- Bits of a hart's own registers that a table names, by number (R13, R65, R91, R95 to R106, R110). -/
def definedHart (n : Nat) : W :=
  if n == 0x000 then 0x3FFF
  else if n == 0x001 then 0x3FFF
  else if n == 0x002 then 3
  else if n == 0x008 || n == 0x009 then ~~~3#64
  else if n == 0x00A then 0x80000000000001FF
  else if n == 0x00E then 0x11FFFFF80
  else if n == 0x00F || n == 0x010 || n == 0x030 then 0xFFFFFFFF
  else if n == 0x014 then 0xFFFF
  else if n == 0x018 then 0xFFFFFFFF000000FF
  else if 0x020 ≤ n && n ≤ 0x027 then ~~~3#64
  else if n == 0x02C then 0x77
  else BitVec.allOnes 64

/-- Bits of the arithmetic and matrix registers that a table names (R39, R159, R160, R179, R186, R194). -/
def definedArith (n : Nat) : W :=
  if n == 0x100 then 0x1FFF
  else if 0x108 ≤ n && n ≤ 0x10F then 0xFFFFFFFF
  else if n == 0x140 then 0x1F07
  else if n == 0x141 then 3
  else if n == 0x180 then 0x7F
  else if n == 0x181 then 0xFFFF7F1F0F
  else if n == 0x182 then 0x1FFFFFFFF
  else if n == 0x183 then 0x7FFC0
  else if n == 0x184 then 0x7FFFFFFFFF
  else BitVec.allOnes 64

/-- Bits of the memory and translation registers that a table names (R198, R199, R205, R208, R248, R255, R258). -/
def definedMem (n : Nat) : W :=
  if n == 0x1C0 || n == 0x1C1 then 0xFFFF
  else if n == 0x1C2 then 0xFFFFFFF00000
  else if n == 0x1C8 then 0x8FFFFFFFFFFFFFFF
  else if n == 0x1C9 then 0x8F00FFFF
  else if n == 0x1CA then 0xFFFFFFFFFF
  else if 0x1D0 ≤ n && n ≤ 0x1D7 then (if n % 2 == 0 then 0x7FFC0 else 0xFFFCF)
  else if n == 0x1E0 then 0x7FF01
  else if n == 0x200 then 0xFFFFFFFFF000
  else if n == 0x201 then 0x80000000000FFFFF
  else if n == 0x208 then 0x17FFF3F3F
  else if n == 0x209 then 0xFFFFFFFF
  else if n == 0x210 then ~~~0x3FF#64
  else BitVec.allOnes 64

/-- Bits of the time, queue and fabric registers that a table names (R266, R268 to R279, R291, R303, R306, R310, R325, R333). -/
def definedTime (n : Nat) : W :=
  if n == 0x240 || n == 0x242 || n == 0x244 then 0xFFFFFFFF
  else if n == 0x245 then 0xF
  else if n == 0x246 then 0x80000000003FFFFF
  else if n == 0x248 then 0xFFFF03000007FF87
  else if n == 0x249 then 3
  else if n == 0x24A then 0xFFFFFFFFFFFF0001
  else if n == 0x24B then 0x7FFFFFFFFFFF
  else if n == 0x24C then ~~~3#64
  else if 0x250 ≤ n && n ≤ 0x25F then 0xFFFFFFFF0000000D
  else if n == 0x280 || n == 0x281 then 0xFFFF
  else if n == 0x282 then 0xFFFF00000003
  else if n == 0x284 then 0xFF
  else if 0x290 ≤ n && n ≤ 0x29F then 0xC0000007FFFFFFF8
  else if 0x2B0 ≤ n && n ≤ 0x2BF then 0x800000000000FFFF
  else if n == 0x2C0 then 0xFFFF
  else if n == 0x2C1 then 0xFFFFFFFFFF
  else BitVec.allOnes 64

/-- Bits of the containment, stop and power registers that a table names (R19, R343, R344, R347, R350, R351, R357 to R360, R373 to
R375). -/
def definedSys (n : Nat) : W :=
  if n == 0x300 then 0xF80000000000FFFF
  else if n == 0x303 then 0xFFFFFFF00000
  else if n == 0x304 then 0xC00000000000FFFF
  else if n == 0x310 then 0xE0000000FFFFFC00
  else if n == 0x311 then ~~~3#64
  else if n == 0x318 then 0x8000FFFFFFFFFFFF
  else if n == 0x320 then 0xFFFFFFFFFFFFFF01
  else if n == 0x330 then 0xC00000000000FFFF
  else if n == 0x338 || n == 0x33A then ~~~7#64
  else if n == 0x339 || n == 0x33B then 0xFC1F
  else if n == 0x380 then 3
  else if n == 0x381 then 0xFFFFFFFFFFF0
  else if n == 0x382 then 0xFFFFFFFFFF
  else if n == 0x383 then 0x1FFF
  else if n == 0x384 then 0xF
  else if n == 0x385 then 0xFFFE
  else BitVec.allOnes 64

/-- The RZ bits of CSR `n`. -/
def csrReserved (n : Nat) : W :=
  ~~~(if n < 0x100 then definedHart n else if n < 0x1C0 then definedArith n else if n < 0x240 then definedMem n
      else if n < 0x300 then definedTime n else definedSys n)

/-- The W1C bits of CSR `n` (R105, R194, R277, R310). -/
def csrW1c (n : Nat) : W :=
  if n == 0x010 then 0xF000 else if n == 0x181 then 0x1F04 else if n == 0x248 then 0x10000000000 else if n == 0x284 then 0xFF else 0

/-! Reads. -/

/-- A bit as a word. -/
def bitW (b : Bool) (n : Nat) : W := (BitVec.ofBool b).setWidth 64 <<< n

/-- HSTAT as the hart itself reads it: HLT, WW, WE and TKP are 0 (R91). -/
def State.hstat (s : State) : W :=
  let h := s.hart
  bitW (h.loops.depth != 0) 9 ||| bitW h.rx 8 ||| bitW (s.self.ltp s.curHart) 7 ||| bitW h.pp 6 ||| h.pmode.setWidth 64 <<< 4 |||
    bitW h.pie 3 ||| bitW h.ie 2 ||| h.mode.setWidth 64

/-- The hart's own registers (R13, R65, R91 to R110, R265). -/
def csrReadHart (s : State) (n : Nat) : W :=
  let h := s.hart
  let t := h.trap
  if n == 0x000 then s.hstat
  else if n == 0x001 then (s.curHart ++ s.cur).setWidth 64
  else if n == 0x002 then h.prio.setWidth 64
  else if n == 0x008 then t.tvec
  else if n == 0x009 then t.trpc
  else if n == 0x00A then t.trcause
  else if n == 0x00B then t.traddr
  else if n == 0x00C then t.trinfo
  else if n == 0x00D then t.tscratch
  else if n == 0x00E then bitW h.spp 32 ||| h.fields.setWidth 64 <<< 7
  else if n == 0x00F then t.ien.setWidth 64
  else if n == 0x010 then (s.ipend s.cur s.curHart).setWidth 64
  else if n == 0x011 then s.cycleOf s.cur s.curHart
  else if n == 0x012 then h.instret
  else if n == 0x013 then s.ptc s.cur
  else if n == 0x014 then s.self.tags.terr.setWidth 64
  else if n == 0x018 then (if s.firmware s.cur then t.deleg else 0)
  else if 0x020 ≤ n && n ≤ 0x023 then loopAt h.loops.lps (n - 0x020)
  else if 0x024 ≤ n && n ≤ 0x027 then loopAt h.loops.lpe (n - 0x024)
  else if 0x028 ≤ n && n ≤ 0x02B then loopAt h.loops.lpc (n - 0x028)
  else if n == 0x02C then h.loops.sdepth.setWidth 64 <<< 4 ||| h.loops.depth.setWidth 64
  else h.waitlim.setWidth 64

/-- The last loaded B buffer no longer carries the executing hart as loader, and no load of it is on its way (R194). -/
def State.blost (s : State) : Bool :=
  let x := s.hart.mx
  let a := s.array x.array
  match x.lastLoad with
  | none => false
  | some (b, _, _) => (if b then a.buf1 else a.buf0).loader != some (s.cur, s.curHart) &&
      !a.queue.any fun k => k.kind == 0 && k.core == s.cur && k.hart == s.curHart && k.buf == b

/-- MXSTAT (R194). A hart without a lease has counted no command in it. -/
def State.mxstat (s : State) : W :=
  let x := s.hart.mx
  x.lastst.setWidth 64 <<< 32 ||| (if x.held then x.used else 0).setWidth 64 <<< 24 ||| x.array.setWidth 64 <<< 16 ||| bitW x.iov 12 ||| bitW x.nv 11 |||
    bitW x.of 10 ||| bitW x.uf 9 ||| bitW x.nx 8 ||| bitW s.blost 3 ||| bitW x.rev 2 ||| bitW x.queued 1 ||| bitW x.held 0

/-- The arithmetic and matrix registers (R30, R32, R39, R132, R159, R160, R179, R186, R194). -/
def csrReadArith (s : State) (n : Nat) : W :=
  let h := s.hart
  if n == 0x100 then h.arith.fpstat.setWidth 64
  else if 0x108 ≤ n && n ≤ 0x10F then (h.arith.scale[n - 0x108]?.getD 0).setWidth 64
  else if n == 0x110 then s.self.cblo
  else if n == 0x111 then s.self.cbhi
  else if n == 0x120 then h.arith.vops
  else if n == 0x140 then h.arith.momode.setWidth 64
  else if n == 0x141 then h.arith.moflags.setWidth 64
  else if n == 0x180 then (s.array (arrayOf s.cur)).count.setWidth 64
  else if n == 0x181 then s.mxstat
  else if n == 0x182 then h.mx.desc
  else if n == 0x183 then h.mx.lbase
  else (h.mx.lastArr ++ h.mx.lastSeq).setWidth 64

/-- MEMCAP (R205). -/
def Capacity.memcap (c : Capacity) : W := BitVec.ofBool c.pend ++ 0#3 ++ c.active ++ c.bytes

/-- The memory and translation registers (R198, R199, R205, R208, R248, R255, R258). -/
def csrReadMem (s : State) (n : Nat) : W :=
  let h := s.hart
  let m := s.self.mem
  if n == 0x1C0 then h.agid.setWidth 64
  else if n == 0x1C1 then m.ctxid.setWidth 64
  else if n == 0x1C2 then m.agtab
  else if n == 0x1C8 then s.cap.memcap
  else if n == 0x1C9 then (BitVec.ofBool s.cap.isOpen ++ 0#3 ++ s.cap.rstk ++ 0#8 ++ s.cap.phase).setWidth 64
  else if n == 0x1CA then s.cap.cursor.setWidth 64
  else if 0x1D0 ≤ n && n ≤ 0x1D7 then m.lguard[n - 0x1D0]?.getD 0
  else if n == 0x1E0 then m.winbase
  else if n == 0x200 then m.ptbase
  else if n == 0x201 then m.hpasid
  else if n == 0x208 then
    bitW h.tkEv 32 ||| (BitVec.ofNat 7 (s.logUse s.cur s.curHart)).setWidth 64 <<< 24 ||| (BitVec.ofNat 8 h.nseq).setWidth 64 <<< 16 |||
      (BitVec.ofNat 6 (s.net.accs.filter fun (a : Access) => a.core == s.cur && a.hart == s.curHart && a.frozen != 0).length).setWidth 64 <<< 8 |||
      (BitVec.ofNat 6 (s.inUse s.cur s.curHart)).setWidth 64
  else if n == 0x209 then h.tklim.setWidth 64
  else 0

/-- LTBASE (R277). -/
def Tags.ltbase (t : Tags) : W :=
  t.ltHead ++ t.ltTail ++ 0#6 ++ BitVec.ofBool t.ltPend ++ BitVec.ofBool t.ltOvf ++ 0#21 ++ t.ltBase ++ 0#4 ++ t.ltSz

/-- The time, queue and fabric registers (R266 to R279, R291, R303, R306, R310, R325, R333). -/
def csrReadTime (s : State) (n : Nat) : W :=
  let h := s.hart
  let t := s.self.tags
  let x := s.self.chan
  if n == 0x240 then t.safeofs.setWidth 64
  else if n == 0x241 then t.lft
  else if n == 0x242 then t.lftm.setWidth 64
  else if n == 0x243 then h.react.curt
  else if n == 0x244 then h.react.curm.setWidth 64
  else if n == 0x245 then h.react.curp.setWidth 64
  else if n == 0x246 then h.react.curs
  else if n == 0x247 then t.hzn
  else if n == 0x248 then t.ltbase
  else if n == 0x249 then t.lthart.setWidth 64
  else if n == 0x24A then t.flb ++ t.tcnt ++ 0#15 ++ BitVec.ofBool t.tpf
  else if n == 0x24B then t.hznm
  else if n == 0x24C then h.react.rxpc
  else if 0x250 ≤ n && n ≤ 0x25F then t.portcfg[n - 0x250]?.getD 0
  else if n == 0x280 then h.batch.bopen.setWidth 64
  else if n == 0x281 then h.batch.bdone.setWidth 64
  else if n == 0x282 then h.batch.xcomp
  else if n == 0x283 then h.batch.xhandle
  else if n == 0x284 then x.evstat.setWidth 64
  else if 0x290 ≤ n && n ≤ 0x29F then x.chin[n - 0x290]?.getD 0
  else if 0x2A0 ≤ n && n ≤ 0x2AF then x.chptr[n - 0x2A0]?.getD 0
  else if 0x2B0 ≤ n && n ≤ 0x2BF then x.chout[n - 0x2B0]?.getD 0
  else if n == 0x2C0 then s.self.colldens.setWidth 64
  else if n == 0x2C1 then s.self.sys.fabcfg
  else s.self.sys.fabstat

/-- ELOGBASE of the executing core's die. -/
def State.elogOf (s : State) (d : BitVec 2) : W := s.pkg.elog[d.toNat]'(by have := d.isLt; omega)

/-- The containment, stop and power registers (R19, R343, R344, R347, R350, R351, R357 to R360, R373 to R375). -/
def csrReadSys (s : State) (n : Nat) : W :=
  let t := s.hart.trap
  let y := s.self.sys
  if n == 0x300 then
    (s.heelState y.heelctx).setWidth 64 <<< 60 ||| bitW (s.pkg.imge.contains y.heelctx) 59 ||| y.heelctx.setWidth 64
  else if n == 0x301 then y.stopcyc
  else if n == 0x302 then y.sent ++ y.rcvd
  else if n == 0x303 then y.savebase
  else if n == 0x304 then bitW s.pkg.recallBusy 62 ||| s.pkg.recallCtx.setWidth 64
  else if n == 0x308 then y.switcht
  else if n == 0x310 then y.kennel ||| bitW y.fenced 61
  else if n == 0x311 then y.kentry
  else if n == 0x318 then y.chkstat
  else if n == 0x320 then s.elogOf (dieOf s.cur)
  else if n == 0x330 then y.lrstat
  else if n == 0x338 then t.watch[0]
  else if n == 0x339 then t.wctl[0].setWidth 64
  else if n == 0x33A then t.watch[1]
  else if n == 0x33B then t.wctl[1].setWidth 64
  else if n == 0x380 then y.pwrcls.setWidth 64
  else if n == 0x381 then s.capbase
  else if n == 0x382 then (y.rate ++ y.req ++ y.grant).setWidth 64
  else if n == 0x383 then s.pkg.pwrbud.setWidth 64
  else if n == 0x384 then (s.role s.cur ++ s.fwW).setWidth 64
  else y.fwmask.setWidth 64

/-- The value of CSR `n` as the executing hart reads it (R92). -/
def State.csrRead (s : State) (n : Nat) : W :=
  if n < 0x100 then csrReadHart s n else if n < 0x1C0 then csrReadArith s n else if n < 0x240 then csrReadMem s n
  else if n < 0x300 then csrReadTime s n else csrReadSys s n

/-! Writes. -/

/-- What a CSR instruction supplies (R92): the value of every field it touches, with those it does not touch as they stand; the bits
of its mask; and the W1C bits that it clears. -/
structure CsrWr where
  x : W
  touch : W
  clear : W
deriving DecidableEq, Repr

/-- The field of these bits is touched. -/
def CsrWr.touches (w : CsrWr) (m : W) : Bool := w.touch &&& m != 0

/-- Applies a change to the trap registers of the executing hart. -/
def State.onTrap (s : State) (f : TrapRegs → TrapRegs) : State := s.onHart fun h => { h with trap := f h.trap }

/-- The loop registers change when the instruction has been counted at its own loop end (R110), in the fields that it touches (R92). -/
def State.putLoop (s : State) (which : BitVec 2) (i : Nat) (w : CsrWr) : State := { s with flow := .loops which i w.x w.touch }

/-- Writes of the hart's own registers. The answer is a kind of R57 for a write that is refused. -/
def csrWriteHart (s : State) (n : Nat) (w : CsrWr) : Except Nat State :=
  let x := w.x
  if n == 0x000 then
    if w.touches 0x30 && x.extractLsb' 4 2 == 2 then .error 2
    else if w.touches 0x30 && x.extractLsb' 4 2 == 3 && s.hart.mode != 3 then .error 4
    else .ok (s.onHart fun h => { h with pmode := x.extractLsb' 4 2, pie := x.getLsbD 3, ie := x.getLsbD 2 })
  else if n == 0x002 then .ok (s.onHart fun h => { h with prio := x.extractLsb' 0 2 })
  else if n == 0x008 then .ok (s.onTrap fun t => { t with tvec := x })
  else if n == 0x009 then .ok (s.onTrap fun t => { t with trpc := x })
  else if n == 0x00A then .ok (s.onTrap fun t => { t with trcause := x })
  else if n == 0x00B then .ok (s.onTrap fun t => { t with traddr := x })
  else if n == 0x00C then .ok (s.onTrap fun t => { t with trinfo := x })
  else if n == 0x00D then .ok (s.onTrap fun t => { t with tscratch := x })
  else if n == 0x00E then .ok (s.onHart fun h => { h with spp := x.getLsbD 32, fields := x.extractLsb' 7 22 })
  else if n == 0x00F then .ok (s.onTrap fun t => { t with ien := x.extractLsb' 0 32 })
  else if n == 0x010 then .ok (s.onTrap fun t => { t with soft := x.getLsbD 0, edge := t.edge &&& ~~~(w.clear.extractLsb' 12 4) })
  else if n == 0x011 then .ok (s.onHart fun h => { h with cycOff := x - s.self.cycles })
  else if n == 0x012 then .ok (s.onHart fun h => { h with instret := x - (if s.slot == .lone then 1 else 2) })
  else if n == 0x014 then .ok (s.onSelf fun k => { k with tags := { k.tags with terr := x.extractLsb' 0 16 } })
  else if n == 0x018 then .ok (if s.firmware s.cur then s.onTrap fun t => { t with deleg := x } else s)
  else if 0x020 ≤ n && n ≤ 0x023 then .ok (s.putLoop 0 (n - 0x020) w)
  else if 0x024 ≤ n && n ≤ 0x027 then .ok (s.putLoop 1 (n - 0x024) w)
  else if 0x028 ≤ n && n ≤ 0x02B then .ok (s.putLoop 2 (n - 0x028) w)
  else if n == 0x02C then
    if 4 < (x.extractLsb' 0 3).toNat || 4 < (x.extractLsb' 4 3).toNat then .error 2 else .ok (s.putLoop 3 0 w)
  else if n == 0x030 then .ok (s.onHart fun h => { h with waitlim := x.extractLsb' 0 32 })
  else .ok s

/-- Writes of the arithmetic and matrix registers. -/
def csrWriteArith (s : State) (n : Nat) (w : CsrWr) : Except Nat State :=
  let x := w.x
  let arith (f : Arith → Arith) : Except Nat State := .ok (s.onHart fun h => { h with arith := f h.arith })
  if n == 0x100 then (if 4 < (x.extractLsb' 0 3).toNat then .error 2 else arith fun a => { a with fpstat := x.extractLsb' 0 13 })
  else if 0x108 ≤ n && n ≤ 0x10F then arith fun a => { a with scale := a.scale.setIfInBounds (n - 0x108) (x.extractLsb' 0 32) }
  else if n == 0x110 then .ok (s.onSelf fun k => { k with cblo := x })
  else if n == 0x111 then .ok (s.onSelf fun k => { k with cbhi := x })
  else if n == 0x120 then arith fun a => { a with vops := x }
  else if n == 0x140 then arith fun a => { a with momode := x.extractLsb' 0 13 }
  else if n == 0x141 then arith fun a => { a with moflags := x.extractLsb' 0 2 }
  else if n == 0x180 then
    let v := x.extractLsb' 0 7
    if v == 0 || 64 < v.toNat then .error 2 else .ok (s.onArray (arrayOf s.cur) fun a => { a with count := v })
  else if n == 0x181 then
    let c := w.clear
    .ok (s.onHart fun h => { h with mx := { h.mx with
      iov := h.mx.iov && !c.getLsbD 12, nv := h.mx.nv && !c.getLsbD 11, of := h.mx.of && !c.getLsbD 10,
      uf := h.mx.uf && !c.getLsbD 9, nx := h.mx.nx && !c.getLsbD 8, rev := h.mx.rev && !c.getLsbD 2 } })
  else .ok s

/-- A LIMIT above the spill reserve (R198). -/
def guardTooHigh (x : W) : Bool := decide (0x1F80 < (x.extractLsb' 6 14).toNat)

/-- A write of CTXID: the core's TLB loses its entries (R247), and the core takes the power registers that are equal on every core of the context that
it joins (R375). DESIGN CHOICE (log 147): no step writes the CTXID of a user core, which has no mode that may; contexts come to their cores from outside
or with the image of a switch (R361). -/
def State.joinContext (s : State) (x : BitVec 16) : State :=
  let t := s.onSelf fun k => { k with mem := { k.mem with ctxid := x, tlb := [] } }
  match s.partition x with
  | [] => t
  | c :: _ =>
    let p := (s.core c).sys
    t.onSys s.cur fun y => { y with pwrcls := p.pwrcls, req := p.req, grant := p.grant, rate := p.rate }

/-- Writes of the memory and translation registers. -/
def csrWriteMem (s : State) (n : Nat) (w : CsrWr) : Except Nat State :=
  let x := w.x
  let mem (f : CoreMem → CoreMem) : Except Nat State := .ok (s.onSelf fun k => { k with mem := f k.mem })
  if n == 0x1C0 then .ok (s.onHart fun h => { h with agid := x.extractLsb' 0 16 })
  else if n == 0x1C1 then .ok (s.joinContext (x.extractLsb' 0 16))
  else if n == 0x1C2 then mem fun m => { m with agtab := x }
  else if n == 0x1C8 then .ok (s.putMemcap x)
  else if n == 0x1C9 then
    .ok { s with cap := { s.cap with isOpen := x.getLsbD 31, rstk := x.extractLsb' 24 4, phase := x.extractLsb' 0 16 } }
  else if n == 0x1CA then .ok { s with cap := { s.cap with cursor := x.extractLsb' 0 40 } }
  else if 0x1D0 ≤ n && n ≤ 0x1D7 then
    if n % 2 == 1 && guardTooHigh x then .error 2
    else mem fun m => { m with lguard := m.lguard.setIfInBounds (n - 0x1D0) x }
  else if n == 0x1E0 then mem fun m => { m with winbase := x }
  else if n == 0x200 then mem fun m => { m with ptbase := x }
  else if n == 0x201 then mem fun m => { m with hpasid := x }
  else if n == 0x208 then .ok (s.onHart fun h => { h with tkEv := x.getLsbD 32 })
  else if n == 0x209 then .ok (s.onHart fun h => { h with tklim := x.extractLsb' 0 32 })
  else .ok s

/-- A ring that LTBASE may not describe (R277). -/
def ringBad (x : W) : Bool :=
  let z := (x.extractLsb' 0 3).toNat
  z == 7 || decide (Config.spillBase < 128 * (x.extractLsb' 7 12).toNat + 128 * 2 ^ (z + 1))

/-- A write of LTBASE of core `c` (R277). -/
def State.putLtbase (s : State) (c : CoreId) (x : W) (clear : Bool) : State :=
  (s.onCore c fun k =>
    let t := k.tags
    let t := { t with ltOvf := t.ltOvf && !clear }
    let base := x.extractLsb' 7 12
    let sz := x.extractLsb' 0 3
    { k with tags := if base == t.ltBase && sz == t.ltSz then t
                     else { t with ltBase := base, ltSz := sz, ltHead := 0, ltTail := 0, ltPend := false } }).wakeLate c

/-- A ring that CHINn may not describe (R306). -/
def chinBad (x : W) : Bool :=
  let len := (x.extractLsb' 19 16).toNat
  x.getLsbD 63 && (len == 0 || decide (Config.spillBase < 8 * (x.extractLsb' 3 16).toNat + 8 * len))

/-- Sealed unfinished batches by two numbers (R291). -/
def openBatches (bopen bdone : BitVec 16) : Nat := (bopen - bdone - 1).toNat

/-- Writes of the time, queue and fabric registers. -/
def csrWriteTime (s : State) (n : Nat) (w : CsrWr) : Except Nat State :=
  let x := w.x
  let tags (f : Tags → Tags) : Except Nat State := .ok (s.onSelf fun k => { k with tags := f k.tags })
  let chan (f : Channels → Channels) : Except Nat State := .ok (s.onSelf fun k => { k with chan := f k.chan })
  let batch (f : Batch → Batch) : Except Nat State := .ok (s.onHart fun h => { h with batch := f h.batch })
  let sys (f : CoreSys → CoreSys) : Except Nat State := .ok (s.onSys s.cur f)
  if n == 0x240 then tags fun t => { t with safeofs := x.extractLsb' 0 32 }
  else if n == 0x248 then (if ringBad x then .error 2 else .ok (s.putLtbase s.cur x (w.clear.getLsbD 40)))
  else if n == 0x249 then .ok ((s.onSelf fun k => { k with tags := { k.tags with lthart := x.extractLsb' 0 2 } }).wakeLate s.cur)
  else if n == 0x24A then tags fun t => { t with flb := x.extractLsb' 32 32, tcnt := x.extractLsb' 16 16, tpf := x.getLsbD 0 }
  else if 0x250 ≤ n && n ≤ 0x25F then tags fun t => { t with portcfg := t.portcfg.setIfInBounds (n - 0x250) x }
  else if n == 0x280 then
    let m := x.extractLsb' 0 16
    if 15 < openBatches m s.hart.batch.bdone then .error 2
    else batch fun b => { b with bopen := m, status := if m == b.bopen then b.status else b.status.filter fun p => p.1 != m }
  else if n == 0x281 then
    if 15 < openBatches s.hart.batch.bopen (x.extractLsb' 0 16) then .error 2 else batch fun b => { b with bdone := x.extractLsb' 0 16 }
  else if n == 0x282 then (if x.extractLsb' 0 2 == 3 then .error 2 else batch fun b => { b with xcomp := x })
  else if n == 0x283 then batch fun b => { b with xhandle := x }
  else if n == 0x284 then chan fun c => { c with evstat := c.evstat &&& ~~~(w.clear.extractLsb' 0 8) }
  else if 0x290 ≤ n && n ≤ 0x29F then
    if chinBad x then .error 2 else chan fun c => { c with chin := c.chin.setIfInBounds (n - 0x290) x }
  else if 0x2A0 ≤ n && n ≤ 0x2AF then
    if (s.self.chan.inReg (n - 0x2A0)).getLsbD 63 then .error 2 else chan fun c => { c with chptr := c.chptr.setIfInBounds (n - 0x2A0) x }
  else if 0x2B0 ≤ n && n ≤ 0x2BF then chan fun c => { c with chout := c.chout.setIfInBounds (n - 0x2B0) x }
  else if n == 0x2C0 then .ok (s.onSelf fun k => { k with colldens := x.extractLsb' 0 16 })
  else if n == 0x2C1 then (if x.extractLsb' 0 32 == 0 then .error 2 else sys fun y => { y with fabcfg := x })
  else if n == 0x2C2 then sys fun y => { y with fabstat := x }
  else .ok s

/-- A kennel that KENNEL may not name on core `c` (R350). -/
def State.kennelBad (s : State) (c : CoreId) (x : W) : Bool :=
  let o : CoreId := x.extractLsb' 20 12
  let hm := (x.extractLsb' 15 5).toNat
  let wm := (x.extractLsb' 10 5).toNat
  let row := (o.extractLsb' 5 5).toNat
  let col := (o.extractLsb' 0 5).toNat
  let cores := (List.range (hm + 1)).flatMap fun i => (List.range (wm + 1)).map fun j => (dieOf o ++ BitVec.ofNat 5 (row + i) ++ BitVec.ofNat 5 (col + j) : CoreId)
  decide (31 < row + hm) || decide (31 < col + wm) || !cores.contains c || cores.any fun k => (s.core k).mem.ctxid != (s.core c).mem.ctxid

/-- An SZ that ELOGBASE may not hold (R343). -/
def elogBad (x : W) : Bool := decide (10 ≤ (x.extractLsb' 8 4).toNat)

/-- A write of ELOGBASE of die `d` (R343); `set` when BASE or SZ is written. -/
def State.putElogbase (s : State) (d : BitVec 2) (x : W) (set : Bool) : State :=
  let tail := if set then 0#16 else (s.elogOf d).extractLsb' 48 16
  { s with pkg := { s.pkg with elog := s.pkg.elog.setIfInBounds d.toNat (tail ++ (x.extractLsb' 0 48 &&& 0xFFFFFFFFFF01#48)) } }

/-- A write of WATCHn or WCTLn (R344). -/
def csrWriteWatch (s : State) (n : Nat) (w : CsrWr) : Except Nat State :=
  let x := w.x
  let i := (n - 0x338) / 2
  if n % 2 == 0 then .ok (s.onTrap fun t => { t with watch := t.watch.setIfInBounds i x })
  else
    let z := (x.extractLsb' 10 6).toNat
    if z < 3 || 47 < z then .error 2
    else .ok (s.onTrap fun t => { t with
      wctl := t.wctl.setIfInBounds i (x.extractLsb' 0 16)
      armed := if w.touches 0x10 then t.armed &&& ~~~(1#2 <<< i) else t.armed })

/-- A write of RECALL (R359). -/
def State.putRecall (s : State) (x : W) (go : Bool) : State :=
  let c := x.extractLsb' 0 16
  let t := { s with pkg := { s.pkg with recallCtx := c } }
  if go then t.recall s.cur c else t

/-- A write of PWRCLS reaches every core of the context (R375). -/
def State.putPwrcls (s : State) (k : BitVec 2) : State :=
  (s.cur :: s.partition s.self.mem.ctxid).foldl (fun s c => s.onSys c fun y => { y with pwrcls := k }) s

/-- Writes of the containment, stop and power registers. -/
def csrWriteSys (s : State) (n : Nat) (w : CsrWr) : Except Nat State :=
  let x := w.x
  let sys (f : CoreSys → CoreSys) : Except Nat State := .ok (s.onSys s.cur f)
  if n == 0x300 then
    let c := x.extractLsb' 0 16
    let s := s.onSys s.cur fun y => { y with heelctx := c }
    let s := if x.getLsbD 63 then s.heelGo c else s
    .ok (if x.getLsbD 62 then s.heelRel c else s)
  else if n == 0x303 then sys fun y => { y with savebase := x }
  else if n == 0x304 then
    let go := w.touches 0x8000000000000000 && x.getLsbD 63
    if go && x.extractLsb' 0 16 == 0 then .error 2 else .ok (s.putRecall x go)
  else if n == 0x308 then .ok (s.setSwitch s.self.sys.heelctx x)
  else if n == 0x310 then
    if x.getLsbD 63 && s.kennelBad s.cur x then .error 2 else sys fun y => { y with kennel := x &&& ~~~0x2000000000000000#64 }
  else if n == 0x311 then sys fun y => { y with kentry := x }
  else if n == 0x318 then sys fun y => { y with chkstat := x }
  else if n == 0x320 then (if elogBad x then .error 2 else .ok (s.putElogbase (dieOf s.cur) x (w.touches 0xFFFFFFFFFF00)))
  else if 0x338 ≤ n && n ≤ 0x33B then csrWriteWatch s n w
  else if n == 0x380 then .ok (s.putPwrcls (x.extractLsb' 0 2))
  else if n == 0x383 then .ok { s with pkg := { s.pkg with pwrbud := x.extractLsb' 0 13 } }
  else if n == 0x385 then sys fun y => { y with fwmask := x.extractLsb' 0 16 }
  else .ok s

/-- A write of CSR `n`. -/
def State.csrWrite (s : State) (n : Nat) (w : CsrWr) : Except Nat State :=
  if n < 0x100 then csrWriteHart s n w else if n < 0x1C0 then csrWriteArith s n w else if n < 0x240 then csrWriteMem s n w
  else if n < 0x300 then csrWriteTime s n w else csrWriteSys s n w

/-! The instructions. -/

/-- The forms of a CSR instruction. -/
inductive CsrForm where
  | write
  | set
  | clear
deriving DecidableEq, Repr

/-- What a form supplies, `t` being the register's value and `m` the source (R92); none for a mask of zero. -/
def CsrForm.supply (f : CsrForm) (n : Nat) (t m : W) : Option CsrWr :=
  match f with
  | .write => some { x := m, touch := BitVec.allOnes 64, clear := m &&& csrW1c n }
  | .set => if m == 0 then none else some { x := t ||| m, touch := m, clear := 0 }
  | .clear => if m == 0 then none else some { x := t &&& ~~~m, touch := m, clear := m &&& csrW1c n }

/-- The form gives a reserved bit a value that is not 0 (R5, R92). -/
def CsrForm.reservedSet (f : CsrForm) (n : Nat) (m : W) : Bool :=
  match f with
  | .clear => false
  | _ => m &&& csrReserved n != 0

/-- Kinds of pending operation that will still raise a flag in FPSTAT, or with `moment` in MOFLAGS (R39, R160). -/
def Pend.raises (moment : Bool) (p : Pend) : Bool :=
  match p.kind with
  | .fdiv .. => !moment
  | .vecIssued _ => !moment
  | .vecAccepted _ => !moment
  | .momIssued _ => true
  | .momAccepted _ => true
  | .localLoad .. => !moment
  | _ => false

/-- The register is not settled yet: an operation issued before may still change it (R39, R160); or GO is written to RECALL while a flood
is in progress (R359). -/
def State.csrBusy (s : State) (n : Nat) (w : Option CsrWr) : Bool :=
  (n == 0x100 && s.hart.pend.any (Pend.raises false)) || (n == 0x141 && s.hart.pend.any (Pend.raises true)) ||
  (n == 0x304 && s.pkg.recallBusy && (match w with
    | some w => w.touches 0x8000000000000000 && w.x.getLsbD 63 && w.x.extractLsb' 0 16 != 0
    | none => false))

/-- A reserved value or a privilege found in the value that a CSR instruction supplies: an illegal-instruction fault of this kind,
found at execution (R5, R91). -/
def State.illegalValue (s : State) (kind : Nat) : State :=
  s.raise 10 (BitVec.ofNat 9 (8 * kind) ||| (position s false).setWidth 9) 0 (issueWords s s.cur s.curHart)

/-- The effect of a CSR instruction `i` with this source (R92). -/
def State.csr (s : State) (i : Instr) (f : CsrForm) (n : Nat) (m : W) (d : BitVec 5) : State :=
  let t := s.csrRead n
  let w := f.supply n t m
  if f.reservedSet n m then s.illegalValue 2
  else if s.csrBusy n w then s.hold
  else
    match w with
    | none => (s.setG d t).complete
    | some w =>
      if n == 0x210 then
        let c := s.cur
        let h := s.curHart
        (s.tlbinvBy c h (w.x &&& w.touch)).waitIn i .tlbinv
      else match s.csrWrite n w with
        | .error k => s.illegalValue k
        | .ok s' => (s'.setG d t).complete

/-- An immediate source, zero-extended. -/
def csrImm (z : BitVec 5) : W := z.setWidth 64

/-- CSRRW (R92). -/
def execCsrrw (c : BitVec 12) (a d : BitVec 5) (w l : Bool) (s : State) : Out :=
  issue (.csrrw c a d w l) s (s.preciseOr (.csrrw c a d w l) (s.csr (.csrrw c a d w l) .write c.toNat (s.g a) d))
/-- CSRRS (R92). -/
def execCsrrs (c : BitVec 12) (a d : BitVec 5) (w l : Bool) (s : State) : Out :=
  issue (.csrrs c a d w l) s (s.preciseOr (.csrrs c a d w l) (s.csr (.csrrs c a d w l) .set c.toNat (s.g a) d))
/-- CSRRC (R92). -/
def execCsrrc (c : BitVec 12) (a d : BitVec 5) (w l : Bool) (s : State) : Out :=
  issue (.csrrc c a d w l) s (s.preciseOr (.csrrc c a d w l) (s.csr (.csrrc c a d w l) .clear c.toNat (s.g a) d))
/-- CSRWI (R92). -/
def execCsrwi (c : BitVec 12) (z d : BitVec 5) (w l : Bool) (s : State) : Out :=
  issue (.csrwi c z d w l) s (s.preciseOr (.csrwi c z d w l) (s.csr (.csrwi c z d w l) .write c.toNat (csrImm z) d))
/-- CSRSI (R92). -/
def execCsrsi (c : BitVec 12) (z d : BitVec 5) (w l : Bool) (s : State) : Out :=
  issue (.csrsi c z d w l) s (s.preciseOr (.csrsi c z d w l) (s.csr (.csrsi c z d w l) .set c.toNat (csrImm z) d))
/-- CSRCI (R92). -/
def execCsrci (c : BitVec 12) (z d : BitVec 5) (w l : Bool) (s : State) : Out :=
  issue (.csrci c z d w l) s (s.preciseOr (.csrci c z d w l) (s.csr (.csrci c z d w l) .clear c.toNat (csrImm z) d))

/-! Register writes that arrive as steps of the package. -/

/-- LTBASE_WRITE (R277). -/
def execLtbaseWrite (c : BitVec 12) (x : BitVec 64) (s : State) : Out :=
  if x &&& csrReserved 0x248 != 0 || ringBad x then s.idle else (s.putLtbase c x (x.getLsbD 40)).occur

/-- ELOGBASE_WRITE (R343). -/
def execElogbaseWrite (d : BitVec 2) (x : BitVec 64) (s : State) : Out :=
  if x &&& csrReserved 0x320 != 0 || elogBad x then s.idle else (s.putElogbase d x true).occur

end Sys2Proof.Machine
end

