-- ==== Sys2Proof/Machine/Units.lean ====
section
/-!
DEFINITION. How vector and moment operations go through their units (R129 to R132, R157, R158): issue, the choice of the operation
that a unit accepts, completion, and the precise traps of R40 and R171.
-/

namespace Sys2Proof.Machine

/-- The operands of an operation by its field numbers, read in every file; the operation uses those of its own kind (R130, R161). -/
def State.opCtx (s : State) (i : Instr) (a b d d1 : BitVec 5) (k : BitVec 3) : OpCtx where
  op := i
  pfx := s.prefixed.getD 0
  a := s.v a
  b := s.v b
  d := s.v d
  d1 := s.v d1
  ma := s.m (a.setWidth 4)
  mb := s.m (b.setWidth 4)
  md := s.m (d.setWidth 4)
  ga := s.g a
  gb := s.g b
  ka := s.k (a.setWidth 3)
  kb := s.k (b.setWidth 3)
  mask := s.k k
  fpstat := s.hart.arith.fpstat
  scale := s.hart.arith.scale
  momode := s.hart.arith.momode
  cov := s.v (s.hart.arith.momode.extractLsb' 8 5)

/-- The operation is precise (R130, R158): some trap enable is set, or NVF for a moment operation. -/
def State.preciseUnit (s : State) (moment : Bool) : Bool :=
  fpEnables s.hart.arith.fpstat != 0 || (moment && s.hart.arith.momode.getLsbD 2)

/-- An operation issues: it waits for its unit (R129), and under a precise trap its hart waits with it (R130). -/
def State.startOp (s : State) (i : Instr) (moment : Bool) (o : OpCtx) : State :=
  let precise := s.preciseUnit moment
  let ds := (info i).writes.filter fun r => r != .g 0
  let p : Pend := { id := s.fresh, seq := s.hart.nseq, op := i, kind := if moment then .momIssued o else .vecIssued o, dsts := if precise then [] else ds,
                    precise := precise }
  let open' := s.unconfirmed s.cur s.curHart
  let s := s.onHart fun h =>
    let h := if precise then h else ds.foldl (fun h r => logReg false r open' h) h
    { h with pend := h.pend ++ [p] }
  if precise then s.bump.waitIn i .precise else s.bump.complete

/-- A vector operation (R129, R130). -/
def State.vecOp (s : State) (i : Instr) (a b d : BitVec 5) (k : BitVec 3) : State :=
  s.preciseOr i (s.startOp i false (s.opCtx i a b d 0 k))

/-- A moment operation (R157, R158). -/
def State.momOp (s : State) (i : Instr) (a b d : BitVec 5) (k : BitVec 3) : State :=
  s.preciseOr i (s.startOp i true (s.opCtx i a b d 0 k))

/-- The operand of an operation that its unit has not accepted. -/
def Pend.waiting (moment : Bool) (p : Pend) : Option OpCtx :=
  match p.kind with
  | .vecIssued o => if moment then none else some o
  | .momIssued o => if moment then some o else none
  | _ => none

/-- The unaccepted operation of a core that was issued earliest (R129). -/
def State.earliestOp (s : State) (c : CoreId) (moment : Bool) : Option (HartId × Pend × OpCtx) :=
  hartIds.foldl (fun a h =>
    match (s.hartAt c h).pend.findSome? fun p => (p.waiting moment).map fun o => (p, o) with
    | none => a
    | some (p, o) => match a with
      | none => some (h, p, o)
      | some (_, q, _) => if p.id < q.id then some (h, p, o) else a) none

/-- Puts an operation of a hart at a further stage. -/
def State.setPend (s : State) (c : CoreId) (h : HartId) (id : Nat) (k : PendKind) : State :=
  s.onHartAt c h fun x => { x with pend := x.pend.map fun p => if p.id == id then { p with kind := k } else p }

/-- Removes an operation of a hart. -/
def State.dropPend (s : State) (c : CoreId) (h : HartId) (id : Nat) : State :=
  s.onHartAt c h fun x => { x with pend := x.pend.filter fun p => p.id != id }

/-- The trap that a result raises: its cause and TRINFO (R40, R171). -/
def opTrap (moment : Bool) (x : Arith) (r : OpResult) : Option (BitVec 9 × W) :=
  if fpTraps x.fpstat r.flags then some (fpCause (if moment then 2 else 1) x.fpstat r.flags, r.flags.setWidth 64)
  else if moment && x.momode.getLsbD 2 && r.bad != 0 then some (0x0FA, r.bad.setWidth 64)
  else none

/-- The result of an operation reaches the registers and flags of a hart that does not wait for it (R130, R171). `n` is the number that the hart's
accesses had come to when it was issued. -/
def State.landOp (s : State) (c : CoreId) (h : HartId) (n : Nat) (r : OpResult) : State := (s.onHartAt c h (Hart.land r)).flagMarks c h n r

/-- The oldest operation of a hart in a unit, when that has accepted it. -/
def State.nextDone (s : State) (c : CoreId) (h : HartId) (moment : Bool) : Option (Pend × OpResult) :=
  ((s.hartAt c h).pend.findSome? fun p => match p.kind with
    | .vecIssued _ => if moment then none else some none
    | .momIssued _ => if moment then some none else none
    | .vecAccepted r => if moment then none else some (some (p, r))
    | .momAccepted r => if moment then some (some (p, r)) else none
    | _ => none).getD none

/-- The oldest accepted operation of a hart completes, or raises its precise trap (R130, R158, R171). -/
def State.completeOp (s : State) (c : CoreId) (h : HartId) (moment : Bool) : Out :=
  match s.nextDone c h moment with
  | none => s.idle
  | some (p, r) =>
    let x := s.hartAt c h
    if !p.precise then ((s.dropPend c h p.id).landOp c h p.seq r).occur
    else match opTrap moment x.arith r with
      | some (cause, info) => if s.unconfirmed c h then s.idle else ((s.dropPend c h p.id).trapAt c h false cause 0 info x.pc).occur
      | none => ((s.dropPend c h p.id).finishWait c h r).occur

end Sys2Proof.Machine
end

