-- ==== Sys2Proof/Machine/Done.lean ====
section
/-!
DEFINITION. Results that land later: integer divides (R117), FDIV and FSQRT (R125), local loads (R212), and the end of a WFI (R100).
-/

namespace Sys2Proof.Machine

/-- The operation of a number of hart `h` of core `c`. -/
def State.findPend (s : State) (c : CoreId) (h : HartId) (n : Nat) : Option Pend := (s.hartAt c h).pend.find? fun p => p.id == n

/-- DIVIDE_RESULT (R117). -/
def execDivideResult (c : BitVec 12) (h : BitVec 2) (n : Nat) (s : State) : Out :=
  match s.findPend c h n with
  | some { kind := .div d x, .. } => ((s.dropPend c h n).fill c h (.g d) (x.setWidth 1024)).occur
  | _ => s.idle

/-- FDIV_FSQRT_RESULT (R125): under a precise trap the hart takes it, or its instruction retires with the result. -/
def execFdivFsqrtResult (c : BitVec 12) (h : BitVec 2) (n : Nat) (s : State) : Out :=
  match s.findPend c h n with
  | some { kind := .fdiv d x fl, precise, seq, .. } =>
    let k := s.hartAt c h
    let r : OpResult := ⟨[⟨.g d, x.setWidth 1024⟩], fl, 0, false, false⟩
    if !precise then ((s.dropPend c h n).landOp c h seq r).occur
    else if fpTraps k.arith.fpstat fl then
      (if s.unconfirmed c h then s.idle
       else ((s.dropPend c h n).trapAt c h false (fpCause 0 k.arith.fpstat fl) 0 (fl.setWidth 64) k.pc).occur)
    else ((s.dropPend c h n).finishWait c h r).occur
  | _ => s.idle

/-- LOCAL_LOAD_COMPLETE (R212, R214): a vector load is converted with the codebook as it stands. -/
def execLocalLoadComplete (c : BitVec 12) (h : BitVec 2) (n : Nat) (s : State) : Out :=
  match s.findPend c h n with
  | some { kind := .localLoad r x conv, seq, .. } =>
    let t := s.dropPend c h n
    match conv with
    | none => (t.fill c h r (x.setWidth 1024)).occur
    | some (ff, tf, bc) =>
      let v := convertLoad (s.core c).cblo (s.core c).cbhi ff tf bc x.toNat
      (t.landOp c h (seq + 1) ⟨[⟨r, BitVec.ofNat 1024 v.1⟩], v.2, 0, false, false⟩).occur
  | _ => s.idle

/-- WFI_WAKE (R100): a source is pending and enabled, whether or not IE is set. -/
def execWfiWake (c : BitVec 12) (h : BitVec 2) (s : State) : Out :=
  if (s.hartAt c h).wait == .wfi && (s.firstSource c h).isSome then (s.finishWait c h noWrite).occur else s.idle

end Sys2Proof.Machine
end

