-- ==== Sys2Proof/Machine/Fpu.lean ====
section
/-!
DEFINITION. Scalar floating point (R123 to R128): values in the low bits of g registers, flags and traps by R40.
-/

namespace Sys2Proof.Machine

/-- The format of a PREC code (R123). -/
def precFmt (p : BitVec 2) : Fmt := if p == 0 then fp32 else if p == 1 then fp64 else if p == 2 then fp16 else bf16

/-- The low bits of a g register that a format reads (R24). -/
def State.gf (s : State) (k : Fmt) (r : BitVec 5) : Nat := (s.g r).toNat % 2 ^ k.width

/-- The rounding mode of an instruction's RM field (R34). -/
def State.rm (s : State) (m : BitVec 3) : BitVec 3 := rmOf s.hart.arith.fpstat m

/-- ORs flags into FPSTAT. -/
def State.orFlags (s : State) (fl : BitVec 5) : State :=
  s.onHart fun h => { h with arith := { h.arith with fpstat := fpOr h.arith.fpstat fl } }

/-- A scalar floating-point result (R40): an enabled flag traps with unit 0 and nothing is written; otherwise gD and FPSTAT are. -/
def State.fpG (s : State) (d : BitVec 5) (r : Nat × BitVec 5) : State :=
  if fpTraps s.hart.arith.fpstat r.2 then
    s.fault (fpCause 0 s.hart.arith.fpstat r.2) 0 (r.2.setWidth 64)
  else ((s.setG d (BitVec.ofNat 64 r.1)).orFlags r.2).complete

/-- FADD (R124). -/
def execFadd (p : BitVec 2) (m : BitVec 3) (b a d : BitVec 5) (w l : Bool) (s : State) : Out :=
  issue (.fadd p m b a d w l) s (s.fpG d ((precFmt p).add (s.rm m) (s.gf (precFmt p) a) (s.gf (precFmt p) b)))
/-- FSUB (R124). -/
def execFsub (p : BitVec 2) (m : BitVec 3) (b a d : BitVec 5) (w l : Bool) (s : State) : Out :=
  issue (.fsub p m b a d w l) s (s.fpG d ((precFmt p).sub (s.rm m) (s.gf (precFmt p) a) (s.gf (precFmt p) b)))
/-- FMUL (R124). -/
def execFmul (p : BitVec 2) (m : BitVec 3) (b a d : BitVec 5) (w l : Bool) (s : State) : Out :=
  issue (.fmul p m b a d w l) s (s.fpG d ((precFmt p).mul (s.rm m) (s.gf (precFmt p) a) (s.gf (precFmt p) b)))

/-- FDIV and FSQRT (R125): with every trap enable clear gD is marked empty and the result lands at an FDIV_FSQRT_RESULT; with one
set the hart waits for the result, and the trap is decided then. -/
def State.longFp (s : State) (i : Instr) (d : BitVec 5) (r : Nat × BitVec 5) : State :=
  let precise := fpEnables s.hart.arith.fpstat != 0
  let p : Pend := { id := s.fresh, seq := s.hart.nseq, op := i, kind := .fdiv d (BitVec.ofNat 64 r.1) r.2, dsts := [], precise := precise }
  let s' := (s.onHart fun h => { h with pend := h.pend ++ [p] }).bump
  if precise then s'.waitIn i .precise else (if d == 0 then s' else s'.markEmpty (.g d)).complete

/-- FDIV (R124, R125). -/
def execFdiv (p : BitVec 2) (m : BitVec 3) (b a d : BitVec 5) (w l : Bool) (s : State) : Out :=
  issue (.fdiv p m b a d w l) s (s.preciseOr (.fdiv p m b a d w l)
    (s.longFp (.fdiv p m b a d w l) d ((precFmt p).div (s.rm m) (s.gf (precFmt p) a) (s.gf (precFmt p) b))))
/-- FSQRT (R124, R125). -/
def execFsqrt (p : BitVec 2) (m : BitVec 3) (a d : BitVec 5) (w l : Bool) (s : State) : Out :=
  issue (.fsqrt p m a d w l) s (s.preciseOr (.fsqrt p m a d w l)
    (s.longFp (.fsqrt p m a d w l) d ((precFmt p).sqrt (s.rm m) (s.gf (precFmt p) a))))

/-- FMIN (R126). -/
def execFmin (p : BitVec 2) (b a d : BitVec 5) (w l : Bool) (s : State) : Out :=
  issue (.fmin p b a d w l) s (s.fpG d ((precFmt p).minMax false (s.gf (precFmt p) a) (s.gf (precFmt p) b)))
/-- FMAX (R126). -/
def execFmax (p : BitVec 2) (b a d : BitVec 5) (w l : Bool) (s : State) : Out :=
  issue (.fmax p b a d w l) s (s.fpG d ((precFmt p).minMax true (s.gf (precFmt p) a) (s.gf (precFmt p) b)))

/-- The sign bit of a value as a number, 0 or 1. -/
def Fmt.signBit (k : Fmt) (x : Nat) : Nat := x / 2 ^ (k.e + k.f) % 2

/-- The value with its sign bit replaced; no flag, and a NaN keeps its payload (R126). -/
def Fmt.withSign (k : Fmt) (x sign : Nat) : Nat := x % 2 ^ (k.e + k.f) + sign % 2 * 2 ^ (k.e + k.f)

/-- FSGNJ (R126). -/
def execFsgnj (p : BitVec 2) (b a d : BitVec 5) (w l : Bool) (s : State) : Out :=
  let k := precFmt p
  issue (.fsgnj p b a d w l) s (s.fpG d (k.withSign (s.gf k a) (k.signBit (s.gf k b)), 0))
/-- FSGNJN (R126). -/
def execFsgnjn (p : BitVec 2) (b a d : BitVec 5) (w l : Bool) (s : State) : Out :=
  let k := precFmt p
  issue (.fsgnjn p b a d w l) s (s.fpG d (k.withSign (s.gf k a) (k.signBit (s.gf k b) + 1), 0))
/-- FSGNJX (R126). -/
def execFsgnjx (p : BitVec 2) (b a d : BitVec 5) (w l : Bool) (s : State) : Out :=
  let k := precFmt p
  issue (.fsgnjx p b a d w l) s (s.fpG d (k.withSign (s.gf k a) (k.signBit (s.gf k a) + k.signBit (s.gf k b)), 0))

/-- A comparison's integer result. -/
def boolResult (r : Bool × BitVec 5) : Nat × BitVec 5 := (if r.1 then 1 else 0, r.2)

/-- FEQ (R126). -/
def execFeq (p : BitVec 2) (b a d : BitVec 5) (w l : Bool) (s : State) : Out :=
  issue (.feq p b a d w l) s (s.fpG d (boolResult ((precFmt p).compare 0 (s.gf (precFmt p) a) (s.gf (precFmt p) b))))
/-- FLT (R126). -/
def execFlt (p : BitVec 2) (b a d : BitVec 5) (w l : Bool) (s : State) : Out :=
  issue (.flt p b a d w l) s (s.fpG d (boolResult ((precFmt p).compare 1 (s.gf (precFmt p) a) (s.gf (precFmt p) b))))
/-- FLE (R126). -/
def execFle (p : BitVec 2) (b a d : BitVec 5) (w l : Bool) (s : State) : Out :=
  issue (.fle p b a d w l) s (s.fpG d (boolResult ((precFmt p).compare 2 (s.gf (precFmt p) a) (s.gf (precFmt p) b))))
/-- FCLASS (R126). -/
def execFclass (p : BitVec 2) (a d : BitVec 5) (w l : Bool) (s : State) : Out :=
  issue (.fclass p a d w l) s (s.fpG d ((precFmt p).class (s.gf (precFmt p) a), 0))

/-- Bits, signedness of an integer kind (R127). -/
def intKind (k : BitVec 5) : Nat × Bool :=
  match k.toNat with
  | 0 => (32, true)
  | 1 => (64, true)
  | 2 => (32, false)
  | 3 => (64, false)
  | 4 => (8, true)
  | _ => (16, true)

/-- Float to integer of a kind: saturating, as a 64-bit value (R37, R127). -/
def toIntKind (f : Fmt) (rm : BitVec 3) (kind : BitVec 5) (x : Nat) : Nat × BitVec 5 :=
  let n := (intKind kind).1
  let lo : Int := if (intKind kind).2 then -(2 ^ (n - 1) : Nat) else 0
  let hi : Int := if (intKind kind).2 then (2 ^ (n - 1) : Nat) - 1 else (2 ^ n : Nat) - 1
  let r := floatToInt rm lo hi (f.val x)
  ((r.1 % (2 ^ 64 : Nat)).toNat, r.2)

/-- The integer of a kind that a register holds (R127). -/
def ofIntKind (kind : BitVec 5) (x : W) : Int :=
  let n := (intKind kind).1
  if (intKind kind).2 then signed n x.toNat else (x.toNat % 2 ^ n : Nat)

/-- FCVTI (R127). -/
def execFcvti (p : BitVec 2) (m : BitVec 3) (k a d : BitVec 5) (w l : Bool) (s : State) : Out :=
  issue (.fcvti p m k a d w l) s (s.fpG d (toIntKind (precFmt p) (s.rm m) k (s.gf (precFmt p) a)))
/-- FCVTF (R127). -/
def execFcvtf (p : BitVec 2) (m : BitVec 3) (k a d : BitVec 5) (w l : Bool) (s : State) : Out :=
  issue (.fcvtf p m k a d w l) s (s.fpG d ((precFmt p).ofInt (s.rm m) (ofIntKind k (s.g a))))
/-- FCVTFF (R127). -/
def execFcvtff (p : BitVec 2) (m : BitVec 3) (src : BitVec 2) (a d : BitVec 5) (w l : Bool) (s : State) : Out :=
  issue (.fcvtff p m src a d w l) s (s.fpG d ((precFmt p).convert (precFmt src) (s.rm m) (s.gf (precFmt src) a)))
/-- FMAS: FP32, rounded by FPSTAT.RM (R128). -/
def execFmas (c b a d : BitVec 5) (w l : Bool) (s : State) : Out :=
  issue (.fmas c b a d w l) s (s.fpG d (fp32.fma (s.rm 7) (s.gf fp32 a) (s.gf fp32 b) (s.gf fp32 c)))
/-- FMAD: FP64 (R128). -/
def execFmad (c b a d : BitVec 5) (w l : Bool) (s : State) : Out :=
  issue (.fmad c b a d w l) s (s.fpG d (fp64.fma (s.rm 7) (s.gf fp64 a) (s.gf fp64 b) (s.gf fp64 c)))

end Sys2Proof.Machine
end

