-- ==== Sys2Proof/Machine/HostPort.lean ====
section
/-!
DEFINITION. What reaches the package from outside: host requests (R238), doorbells (R364, R372), registration of queues (R364), and stores to
device registers (R202).
-/

namespace Sys2Proof.Machine

/-- Bytes of a request of size code `z`. -/
def reqBytes (z : BitVec 2) : Nat := 2 ^ z.toNat

/-- A host write to a memory region, or nothing where a device hart's access would fault (R202, R238). -/
def State.hostStore (s : State) (a : BitVec 48) (n : Nat) (x : W) : State :=
  let pa := a.toNat
  if Config.deviceBase ≤ pa then
    (if (n == 4 || n == 8) && pa % n == 0 then
      match s.devReg (pa - pa % 8) with
      | some r => if n == 4 && r.wide then s else s.devWrite 1 r (pa % 8) n x
      | none => s
    else s)
  else match physCheck s.cap .store true 1 a n, physCheck s.cap .store true 1 (a + BitVec.ofNat 48 (n - 1)) 1 with
    | .ok, .ok => storeBytes s pa (natLe n x.toNat)
    | _, _ => s

/-- What a host read is answered with: none is the status Unsupported Request, where a device hart's load would fault (R202). -/
def State.hostRead (s : State) (a : BitVec 48) (n : Nat) : Option W :=
  let pa := a.toNat
  if Config.deviceBase ≤ pa then
    if (n == 4 || n == 8) && pa % n == 0 then
      (s.devReg (pa - pa % 8)).map fun r => BitVec.ofNat 64 ((s.devRead r).toNat / 2 ^ (8 * (pa % 8)) % 2 ^ (8 * n))
    else none
  else match physCheck s.cap .load true 1 a n, physCheck s.cap .load true 1 (a + BitVec.ofNat 48 (n - 1)) 1 with
    | .ok, .ok => some (if poisoned s pa n then s.free else BitVec.ofNat 64 (readNat s.mem pa n))
    | _, _ => none

/-- A host read of `n` bytes at `a` is performed, and its answer goes to the host. What it carries from a poisoned line is a free value (log 100). -/
def State.hostLoad (s : State) (a : BitVec 48) (n : Nat) : State :=
  { s with pkg := { s.pkg with hostGot := s.pkg.hostGot ++ [(a, s.hostRead a n)] } }.freed

/-- HOST_CXL_MEM_REQUEST (R238): the service core performs a read, or with `o` a write, of 1 to 8 bytes; it waits for a granule that is on
the move (R207). -/
def execHostCxlMemRequest (o : Bool) (a : BitVec 48) (z : BitVec 2) (x : BitVec 64) (s : State) : Out :=
  if migrationHolds s.cap a.toNat then s.idle
  else (if o then s.hostStore a (reqBytes z) x else s.hostLoad a (reqBytes z)).occur

/-- QUEUE_DOORBELL (R364): the value stored means nothing. -/
def execQueueDoorbell (q : BitVec 12) (_x : BitVec 64) (s : State) : Out := (s.ringQueue q).occur

/-- CORE_DOORBELL (R372). -/
def execCoreDoorbell (c : BitVec 12) (x : BitVec 64) (s : State) : Out := (s.ringCore c x).occur

/-- QREG (R364). -/
def execQreg (x : BitVec 64) (s : State) : Out := (s.registerQueue x).occur

/-- The register has a step of its own. -/
def DevReg.ownStep : DevReg → Bool
  | .queueDoorbell _ => true
  | .coreDoorbell _ => true
  | .qreg => true
  | _ => false

/-- DEVICE_REGISTER_WRITE (R202): a store by hart `h` of core `c`, in S or M, to a device register that has no step of its own. -/
def execDeviceRegisterWrite (c : BitVec 12) (h : BitVec 2) (a : BitVec 48) (z : BitVec 2) (x : BitVec 64) (s : State) : Out :=
  let n := reqBytes z
  let m := (s.hartAt c h).mode
  if m == 0 || !(n == 4 || n == 8) || a.toNat % n != 0 then s.idle
  else match s.devReg (a.toNat - a.toNat % 8) with
    | some r => if r.ownStep || (n == 4 && r.wide) then s.idle else ((s.devWrite m r (a.toNat % 8) n x).breaks c).occur
    | none => s.idle

end Sys2Proof.Machine
end

