-- ==== Sys2Proof/Machine/Launch.lean ====
section
/-!
DEFINITION. Launches (R363 to R371): descriptors taken from queues, launch records read and checked, cores bound and wired, harts started,
and completion.
-/

namespace Sys2Proof.Machine

/-! Where the next launch comes from (R365, R366). -/

/-- A source of launches: a registered queue, or the device descriptors of one context. -/
inductive Source where
  | queue (r : QueueRec)
  | device (ctx : BitVec 16)
deriving DecidableEq, Repr

/-- Sources by number: below 4096 the registered queue of that index, from 4096 on the device queue of a context. -/
def State.sourceOf (s : State) (q : Nat) : Option Source :=
  if q < 4096 then (s.front.queues.find? fun r => r.qidx.toNat == q).map .queue
  else if q < 4096 + 65536 then some (.device (BitVec.ofNat 16 (q - 4096))) else none

/-- A descriptor with what it is launched for. -/
structure Offer where
  desc : W
  ctx : BitVec 16
  agid : BitVec 16
  by_ : CoreId
  queue : Option (BitVec 12)
deriving DecidableEq, Repr

/-- A launch of this source has been taken and not yet bound: it holds its queue. -/
def Launch.holds (l : Launch) (o : Offer) : Bool := l.phase == 1 && l.queue == o.queue && (l.queue.isSome || l.ctx == o.ctx)

/-- The descriptor at the head of a source; none when there is none, or the queue has no slot. -/
def State.offer (s : State) (x : Source) : Option Offer :=
  match x with
  | .queue r =>
    let head := s.queueHead r.pa
    if r.slot.isNone || head == s.queueTail r.pa then none
    else some { desc := BitVec.ofNat 64 (readNat s.mem (s.queueRing r.pa + 8 * (head.toNat % s.queueLen r.pa)) 8),
                ctx := s.queueCtx r.pa, agid := s.queueAgid r.pa, by_ := 0, queue := some r.qidx }
  | .device c => (s.front.soft.find? fun d => d.2.2.1 == c).map fun d =>
      { desc := d.2.1, ctx := c, agid := d.2.2.2.1, by_ := d.2.2.2.2, queue := none }

/-- The descriptor is taken: HEAD steps, or the software FIFO gives it up. A queue that has nothing more may lose its slot (R365). -/
def State.taken (s : State) (x : Source) : State :=
  match x with
  | .queue r =>
    let head := s.queueHead r.pa + 1
    let s := storeBytes s (r.pa.toNat + 16) (natLe 8 head.toNat)
    let s := if head == s.queueTail r.pa then
        { s with front := { s.front with queues := s.front.queues.map fun (y : QueueRec) => if y.qidx == r.qidx then { y with stamp := s.nextId } else y } }.bump
      else s
    s.mapQueues
  | .device c => { s with front := { s.front with soft := removeFirst (fun d => d.2.2.1 == c) s.front.soft } }

/-! The launch record (R367). -/

/-- A field of a record held as one number: `n` bits from bit `lo` on. -/
def field (x lo n : Nat) : Nat := x / 2 ^ lo % 2 ^ n

/-- A stage entry. -/
def stageOf (x : Nat) : StageEntry where
  entry := BitVec.ofNat 64 (field x 0 64)
  image := BitVec.ofNat 64 (field x 160 64)
  len := field x 224 32
  height := field x 64 5 + 1
  width := field x 69 5 + 1
  harts := field x 74 2 + 1

/-- An edge entry. -/
def edgeOf (x : Nat) : EdgeEntry where
  src := field x 0 4
  dst := field x 4 4
  fep := field x 8 4
  tep := field x 12 4
  typ := field x 16 2
  policy := field x 18 2
  slots := field x 32 16

/-- The edge is a tagged port. -/
def EdgeEntry.isPort (e : EdgeEntry) : Bool := e.typ == 2

/-- Bytes of a message of a channel edge. -/
def EdgeEntry.msgSize (e : EdgeEntry) : Nat := if e.typ == 1 then 64 else 8

/-- Bytes of the ring of a channel edge. -/
def EdgeEntry.ringBytes (e : EdgeEntry) : Nat := e.slots * e.msgSize

/-- Numbers that occur twice in a list. -/
def hasRepeat : List (Nat × Nat) → Bool
  | [] => false
  | x :: t => t.contains x || hasRepeat t

/-- A stage entry that breaks R367. -/
def stageBad (x : Nat) : Bool := field x 76 84 != 0 || field x 0 2 != 0 || field x 160 6 != 0

/-- An edge entry that breaks R367, in a record of `n` stages. -/
def edgeBad (n x : Nat) : Bool :=
  let e := edgeOf x
  field x 20 12 != 0 || field x 48 80 != 0 || decide (n ≤ e.src) || decide (n ≤ e.dst) || e.typ == 3 ||
    (if e.isPort then e.slots != 0 || e.fep != 0 else e.slots == 0 || e.policy != 0)

/-- Two edges bind one endpoint or one port of one stage (R368). -/
def bindsTwice (l : List EdgeEntry) : Bool :=
  let ch := l.filter fun e => !e.isPort
  hasRepeat (ch.flatMap fun e => [(e.src, e.fep), (e.dst, e.tep)].eraseDups) || hasRepeat ((l.filter EdgeEntry.isPort).map fun e => (e.dst, e.tep))

/-- Stages that may start, given those that have started (R370): every stage that they send to has. -/
def releasable (l : List EdgeEntry) (n : Nat) (started : List Nat) : List Nat :=
  (List.range n).filter fun i => l.all fun e => e.src != i || started.contains e.dst

/-- The stages that can be released from sink to source, in at most `fuel` rounds. -/
def released (l : List EdgeEntry) (n : Nat) : Nat → List Nat → List Nat
  | 0, r => r
  | fuel + 1, r => released l n fuel (releasable l n r)

/-- The edges form a cycle (R368). -/
def cyclic (l : List EdgeEntry) (n : Nat) : Bool := (released l n (n + 1) []).length != n

/-- The rings of a stage: local address and edge, each at the lowest 64-aligned address above the image and the earlier rings (R369). -/
def ringsFrom (at' : Nat) : List EdgeEntry → List (Nat × EdgeEntry)
  | [] => []
  | e :: t =>
    let a := (at' + 63) / 64 * 64
    (a, e) :: ringsFrom (a + e.ringBytes) t

/-- The rings of stage `i`. -/
def ringsOf (l : List EdgeEntry) (i : Nat) (x : StageEntry) : List (Nat × EdgeEntry) := ringsFrom x.len (l.filter fun e => !e.isPort && e.dst == i)

/-- Image and rings of a stage lie below the spill reserve. -/
def ringsFit (l : List EdgeEntry) (i : Nat) (x : StageEntry) : Bool :=
  decide (x.len ≤ Config.spillBase) && (ringsOf l i x).all fun r => decide (r.1 + r.2.ringBytes ≤ Config.spillBase)

/-! Placement (R369). -/

/-- The cores of a rectangle with its top-left at `o`, row by row; none when it leaves the die. -/
def rectangle (o : CoreId) (h w : Nat) : Option (List CoreId) :=
  let row := (o.extractLsb' 5 5).toNat
  let col := (o.extractLsb' 0 5).toNat
  if 32 < row + h || 32 < col + w then none
  else some ((List.range h).flatMap fun i => (List.range w).map fun j => dieOf o ++ BitVec.ofNat 5 (row + i) ++ BitVec.ofNat 5 (col + j))

/-- Places stages in index order, each at the first origin that `free` allows whole; `cores` are the partition's, rising. -/
def placeStages (cores : List CoreId) : List StageEntry → List CoreId → Option (List (List CoreId))
  | [], _ => some []
  | x :: t, free =>
    match cores.findSome? fun o => (rectangle o x.height x.width).bind fun r => if r.all free.contains then some r else none with
    | none => none
    | some r => (placeStages cores t (free.filter fun c => !r.contains c)).map fun l => r :: l

/-- Cores of a partition that are bound to no running launch and whose harts are all stopped. -/
def State.freeCores (s : State) (x : BitVec 16) : List CoreId :=
  (s.partition x).filter fun c =>
    !(s.front.launches.any fun (l : Launch) => l.phase == 2 && l.cores.flatten.contains c) && !(s.core c).sys.fenced &&
      hartIds.all fun h => (s.hartAt c h).stopped

/-! Checking (R368). -/

/-- What the front end reads, at a global address of the context. -/
def recordRead (s : State) (p : Party) (va : W) (n : Nat) : EngRead :=
  if n == 0 then .bytes s []
  else if spaceOf va != .global || spaceOf (va + BitVec.ofNat 64 (n - 1)) != .global then .problem s 1
  else engineRead s p va n

/-- Reads ranges in turn: the bytes of each, and whether one of them faults or is poisoned; or the read waits. -/
def readAll (p : Party) : List (W × Nat) → State → Except State (State × Bool)
  | [], s => .ok (s, false)
  | x :: t, s =>
    match recordRead s p x.1 x.2 with
    | .wait s => .error s
    | .problem s _ => .ok (s, true)
    | .bytes s l => if anyPoison l then .ok (s, true) else readAll p t s

/-- A record as read: its header, stage entries and edge entries as numbers. -/
structure Record where
  head : Nat
  stages : List Nat
  edges : List Nat
deriving DecidableEq, Repr

/-- NSTG of a header. -/
def Record.nstg (r : Record) : Nat := field r.head 0 8
/-- NEDGE of a header. -/
def Record.nedge (r : Record) : Nat := field r.head 8 8

/-- The `i`-th entry of `n` bytes of a list of bytes. -/
def entries (n : Nat) (l : List (Byte × Bool)) (count : Nat) : List Nat :=
  (List.range count).map fun i => mixedNat ((l.drop (n * i)).take n)

/-- Status of a record whose memory could be read (R368), in the partition of context `x`. -/
def State.recordStatus (s : State) (x : BitVec 16) (r : Record) : Byte :=
  let n := r.nstg
  let edges := r.edges.map edgeOf
  let stages := r.stages.map stageOf
  if field r.head 17 7 != 0 || field r.head 32 96 != 0 || field r.head 256 256 != 0 || n == 0 || 16 < n || 32 < r.nedge ||
      r.stages.any stageBad || r.edges.any (edgeBad n) || bindsTwice edges then 1
  else if cyclic edges n then 2
  else if !(((List.range n).zip stages).all fun y => ringsFit edges y.1 y.2) || (placeStages (s.partition x) stages (s.partition x)).isNone then 3
  else 0

/-- The completion word can be written (R368). -/
def complOk (s : State) (p : Party) (va : W) : EngWrite :=
  if va == 0 then .ok s
  else if spaceOf va != .global || spaceOf (va + 7) != .global then .problem s 1
  else match engineCanWrite s p 3 va.toNat 8 with
    | .ok t => match recordRead t p va 8 with
      | .bytes t l => if anyPoison l then .problem t 5 else .ok t
      | .wait t => .wait t
      | .problem t c => .problem t c
    | r => r

/-- What the check of a record finds. -/
inductive Checked where
  | wait (s : State)
  | found (s : State) (status : Byte) (r : Record)

/-- No record. -/
def Record.none' : Record := { head := 0, stages := [], edges := [] }

/-- Reads and checks the record at `va` (R368): status 4 before all others. -/
def State.checkRecord (s : State) (p : Party) (va : W) : Checked :=
  match recordRead s p va 64 with
  | .wait s => .wait s
  | .problem s _ => .found s 4 Record.none'
  | .bytes s l =>
    let r : Record := { Record.none' with head := mixedNat l }
    let n := r.nstg
    let m := if 32 < r.nedge then 0 else r.nedge
    if anyPoison l then .found s 4 Record.none'
    else match complOk s p (BitVec.ofNat 64 (field r.head 128 64)) with
      | .wait s => .wait s
      | .problem s _ => .found s 4 r
      | .ok s =>
        if n == 0 || 16 < n then .found s 1 r
        else match recordRead s p (va + 64) (32 * n + 16 * m) with
          | .wait s => .wait s
          | .problem s _ => .found s 4 r
          | .bytes s l =>
            let r := { r with stages := entries 32 l n, edges := entries 16 (l.drop (32 * n)) m }
            if anyPoison l then .found s 4 r
            else match readAll p ((r.stages.map stageOf).map fun x => (x.image, min x.len Config.localSize)) s with
              | .error s => .wait s
              | .ok (s, true) => .found s 4 r
              | .ok (s, false) => .found s (s.recordStatus p.ctx r) r

/-- The launch of a descriptor and its record. -/
def launchOf (s : State) (o : Offer) (c : CoreId) (status : Byte) (r : Record) : Launch where
  id := s.fresh
  queue := o.queue
  ctx := o.ctx
  agid := o.agid
  by_ := o.by_
  desc := o.desc
  phase := 1
  kind := 0x41
  status := status
  rpl := field r.head 16 1 == 1
  lim := BitVec.ofNat 8 (field r.head 24 8)
  rcnt := 0
  param := BitVec.ofNat 64 (field r.head 192 64)
  compl := BitVec.ofNat 64 (field r.head 128 64)
  stages := r.stages.map stageOf
  edges := r.edges.map edgeOf
  cores := []
  root := BitVec.ofNat 64 (s.core c).mem.root
  replay := none

/-- A checked launch is kept until it is bound, and holds its queue's slot (R365); one that is refused is reported at once (R368, R371). -/
def State.admitLaunch (s : State) (x : Source) (o : Offer) (c : CoreId) (status : Byte) (r : Record) : State :=
  let l := launchOf s o c status r
  let s := s.bump
  if status == 0 then State.taken { s with front := { s.front with launches := s.front.launches ++ [l] } } x else (s.taken x).endLaunch l 0x42 status

/-- LAUNCH_CHECK (R363, R366, R368): the descriptor at the head of source `q` is taken, and its record read and checked. -/
def execLaunchCheck (q : Nat) (s : State) : Out :=
  match s.sourceOf q with
  | none => s.idle
  | some x => match s.offer x with
    | none => s.idle
    | some o =>
      match s.partition o.ctx with
      | [] => s.idle
      | c :: _ =>
        if s.front.launches.any fun (l : Launch) => l.holds o then s.idle
        else if o.desc.extractLsb' 2 4 != 0 || o.desc.extractLsb' 48 16 != 0 then (s.admitLaunch x o c 1 Record.none').occur
        else match s.checkRecord (frontParty c o.ctx o.agid) (o.desc &&& 0xFFFFFFFFFFC0#64) with
          | .wait t => s.waited t
          | .found t st r => (t.admitLaunch x o c st r).occur

/-! Choosing and binding (R365, R369, R370). -/

/-- What a launch was offered as. -/
def Launch.offer (l : Launch) : Offer := { desc := l.desc, ctx := l.ctx, agid := l.agid, by_ := l.by_, queue := l.queue }

/-- Place of an offer's queue in slot order; device queues come after the hardware slots. -/
def State.slotOrder (s : State) (l : Offer) : Nat :=
  match l.queue with
  | some q => ((s.front.queues.find? fun r => r.qidx == q).bind fun r => r.slot.map (·.toNat)).getD 64
  | none => 65 + l.ctx.toNat

/-- Passes of an offer's queue. -/
def State.passesOf (s : State) (l : Offer) : Nat :=
  match l.queue with
  | some q => ((s.front.queues.find? fun r => r.qidx == q).map fun r => r.passes).getD 0
  | none => ((s.front.passes.find? fun p => p.1 == l.ctx).map (·.2)).getD 0

/-- Effective priority of an offer (R363, R365): its queue's or its descriptor's, and one more for every 16 passes. -/
def State.priorityOf (s : State) (l : Offer) : Nat :=
  let own := (l.desc.extractLsb' 0 2).toNat
  let base := if own != 0 then own
    else match l.queue with
      | some q => ((s.front.queues.find? fun r => r.qidx == q).map fun r => ((s.queueWord r.pa).extractLsb' 2 2).toNat).getD 0
      | none => 1
  min 3 (base + s.passesOf l / 16)

/-- A launch would not run alone in its context where R352 asks it: it or one that runs there is replayable. -/
def State.mustWait (s : State) (l : Launch) : Bool := s.front.launches.any fun (y : Launch) => y.phase == 2 && y.ctx == l.ctx && (y.rpl || l.rpl)

/-- Where a launch would be placed now (R369); a replayable launch runs alone in its context (R352). -/
def State.placement (s : State) (l : Launch) : Option (List (List CoreId)) :=
  if s.mustWait l then none else placeStages (s.partition l.ctx) l.stages (s.freeCores l.ctx)

/-- How an offer ranks: by priority, then by turn in slot order after the queue served last. DESIGN CHOICE (log 160): before any has been served, slot 0
counts as the one served last, so the turns start at slot 1. -/
def State.rank (s : State) (l : Offer) : Nat × Nat := (s.priorityOf l, (s.slotOrder l + 131072 - s.front.last - 1) % 131072)

/-- Offer `x` is served before offer `y`. -/
def State.outranks (s : State) (x y : Offer) : Bool :=
  (s.rank y).1 < (s.rank x).1 || ((s.rank x).1 == (s.rank y).1 && decide ((s.rank x).2 < (s.rank y).2))

/-- Offers of mapped queues and of contexts that are still to be taken and checked, and that can be. -/
def State.unchecked (s : State) : List Offer :=
  let sources := s.front.queues.map .queue ++ (s.front.soft.map fun d => d.2.2.1).eraseDups.map .device
  (sources.filterMap s.offer).filter fun o => !(s.partition o.ctx).isEmpty && !s.front.launches.any fun (l : Launch) => l.holds o

/-- The accepted launch that is served next (R365). -/
def State.chosen (s : State) : Option Launch :=
  (s.front.launches.filter fun (l : Launch) => l.phase == 1 && (s.placement l).isSome).foldl (fun (b : Option Launch) l =>
    match b with
    | none => some l
    | some k => if s.outranks l.offer k.offer then some l else b) none

/-- Queues that held work are passed over, and the served one starts its count again (R365). -/
def State.countPasses (s : State) (l : Launch) : State :=
  let waiting (q : Option (BitVec 12)) (x : BitVec 16) : Bool := s.front.launches.any fun (y : Launch) => y.phase == 1 && y.queue == q && (q.isSome || y.ctx == x)
  let queues := s.front.queues.map fun (r : QueueRec) =>
    if l.queue == some r.qidx then { r with passes := 0 }
    else if r.slot.isSome && (waiting (some r.qidx) 0 || s.queueHead r.pa != s.queueTail r.pa) then { r with passes := r.passes + 1 }
    else r
  let ctxs := ((s.front.launches.filter fun (y : Launch) => y.phase == 1 && y.queue.isNone).map fun (y : Launch) => y.ctx) ++ s.front.soft.map fun d => d.2.2.1
  let passes := ctxs.eraseDups.filterMap fun x =>
    if l.queue.isNone && l.ctx == x then none
    else some (x, ((s.front.passes.find? fun p => p.1 == x).map (·.2)).getD 0 + 1)
  { s with front := { s.front with queues := queues, passes := passes, last := s.slotOrder l.offer } }

/-- LRSTAT of a bound launch (R351). -/
def Launch.lrstat (l : Launch) : W := BitVec.ofBool l.rpl ++ 0#47 ++ l.rcnt ++ l.lim

/-- CHIN of a ring at a local address (R306, R369). -/
def ringReg (at' : Nat) (e : EdgeEntry) : W :=
  1#1 ++ BitVec.ofBool (e.typ == 1) ++ 0#27 ++ BitVec.ofNat 16 (e.ringBytes / 8) ++ BitVec.ofNat 16 (at' / 8) ++ 0#3

/-- Registers of a core that a launch binds (R369): the core of rank `i` in stage `n`. -/
def wireCore (l : Launch) (n i : Nat) (x : StageEntry) (k : Core) : Core :=
  let rings := ringsOf l.edges n x
  let chin := rings.foldl (fun (v : Vector W 16) r => v.setIfInBounds r.2.tep (ringReg r.1 r.2)) (Vector.replicate 16 0#64)
  let chout := (l.edges.filter fun e => !e.isPort && e.src == n).foldl (fun (v : Vector W 16) e =>
    let t := l.cores[e.dst]?.getD []
    let c := t[i % max 1 t.length]?.getD 0
    v.setIfInBounds e.fep (1#1 ++ 0#47 ++ BitVec.ofNat 4 e.tep ++ c)) (Vector.replicate 16 0#64)
  let ports := (l.edges.filter fun e => e.isPort && e.dst == n).foldl (fun (v : Vector W 16) e =>
    v.setIfInBounds e.tep (0#60 ++ BitVec.ofNat 2 e.policy ++ 1#2)) (Vector.replicate 16 0#64)
  { k with
    tags := { k.tags with portcfg := ports }
    chan := { k.chan with chin := chin, chptr := Vector.replicate 16 0#64, chout := chout }
    sys := { k.sys with lrstat := l.lrstat, low := false } }

/-- A hart that a launch starts (R369): in U at the stage's entry, with g1 to g4 set and every other register zero and full. -/
def launchedHart (l : Launch) (n i : Nat) (x : StageEntry) (h : HartId) (k : Hart) : Hart :=
  let k := startedHart 0 x.entry k
  { k with
    agid := l.agid
    regs := (((Regs.reset.writeG 1 l.param).writeG 2 (BitVec.ofNat 64 n)).writeG 3 (BitVec.ofNat 64 i)).writeG 4 (h.setWidth 64) }

/-- Binds and starts one core. -/
def State.bindCore (s : State) (l : Launch) (n i : Nat) (x : StageEntry) (image : List Byte) (c : CoreId) : State :=
  let s := (storeBytes s (localKey c 0) image).onCore c (wireCore l n i x)
  (hartIds.filter fun h => decide (h.toNat < x.harts)).foldl (fun s h => s.onHartAt c h (launchedHart l n i x h)) s

/-- Binds the stages of a launch, with the images of each. -/
def State.bindStages (s : State) (l : Launch) (images : List (List Byte)) : State :=
  ((List.range l.stages.length).zip (l.stages.zip (images.zip l.cores))).foldl (fun s y =>
    ((List.range y.2.2.2.length).zip y.2.2.2).foldl (fun s z => s.bindCore l y.1 z.1 y.2.1 y.2.2.1 z.2) s) s

/-- The images of the stages, or a wait, or a fault. -/
def readImages (p : Party) : List StageEntry → State → Except (Option State) (State × List (List Byte))
  | [], s => .ok (s, [])
  | x :: t, s =>
    match recordRead s p x.image x.len with
    | .wait s => .error (some s)
    | .problem _ _ => .error none
    | .bytes s l =>
      if anyPoison l then .error none
      else match readImages p t s with
        | .ok (s, r) => .ok (s, l.map (·.1) :: r)
        | .error e => .error e

/-- LAUNCH_BIND (R365, R369, R370): launch `n`, if it is the one to be served, and no offer that goes before it is still to be checked, is placed, its
cores are bound and wired, and its harts start.
All of it is one step, so no stage runs before those that it sends to are bound. -/
def execLaunchBind (n : Nat) (s : State) : Out :=
  match s.chosen with
  | none => s.idle
  | some l =>
    if l.id != n || s.unchecked.any (fun o => s.outranks o l.offer) then s.idle
    else match s.placement l with
      | none => s.idle
      | some cs =>
        match readImages (frontParty ((s.partition l.ctx).head?.getD 0) l.ctx l.agid) l.stages s with
        | .error (some t) => s.waited t
        | .error none => (s.endLaunch l 0x42 4).mapQueues.occur
        | .ok (t, images) =>
          let b : Launch := { l with phase := 2, cores := cs }
          let t := (t.countPasses l).bindStages b images
          (State.mapQueues { t with front := { t.front with launches := t.front.launches.map fun (y : Launch) => if y.id == n then b else y } }).occur

/-! Completion (R371). -/

/-- The work of a hart has finished (R313): accesses, commands, held messages, batches and waves. -/
def State.workDone (s : State) (c : CoreId) (h : HartId) : Bool :=
  (s.hartAt c h).batch.unfinished == 0 && (s.hartAt c h).pend.isEmpty &&
    !(s.net.accs.any fun (a : Access) => a.core == c && a.hart == h && !a.confirmed) &&
    !(s.net.posts.any fun (m : PostMsg) => m.core == c && m.hart == h) &&
    !(s.net.chans.any fun (m : ChanMsg) => m.core == c && m.hart == h) &&
    !(s.net.cmds.any fun (k : Cmd) => k.core == c && k.hart == h) &&
    !(s.net.waves.any fun (w : Wave) => w.core == c && w.hart == h) &&
    !s.arrays.any fun a => (a.2.queue.any fun k => k.core == c && k.hart == h) || a.2.runs.any fun r => r.cmd.core == c && r.cmd.hart == h

/-- Every started hart of a launch has stopped, and its work has finished. -/
def State.launchDone (s : State) (l : Launch) : Bool :=
  (l.stages.zip l.cores).all fun y => y.2.all fun c =>
    !(s.core c).sys.fenced && (hartIds.filter fun h => decide (h.toNat < y.1.harts)).all fun h => (s.hartAt c h).stopped && s.workDone c h

/-- The shadows of a context become its pages: the original frames are free and uncharged, and old translations go (R352). -/
def State.commitShadows (s : State) (x : BitVec 16) : State :=
  let mine := s.books.shadows.filter fun y => y.1 == x
  if mine.isEmpty then s
  else
    let c := (s.partition x).head?.getD 0
    let s := (mine.foldl (fun s y => s.uncharge c y.2.2.1) s).purgePage x 0 3
    { s with books := { s.books with shadows := s.books.shadows.filter fun y => y.1 != x } }

/-- LAUNCH_COMPLETE (R371): the shadows are committed, the cores unbound, and the launch reports; or one that is over reports at last. -/
def execLaunchComplete (n : Nat) (s : State) : Out :=
  match s.front.launches.find? fun (l : Launch) => l.id == n with
  | none => s.idle
  | some l =>
    if l.phase == 2 && l.replay.isNone && s.launchDone l then
      (((s.commitShadows l.ctx).unbind l).endLaunch l 0x41 0).occur
    else if l.phase == 3 then
      match s.report l with
      | .ok t => t.occur
      | .error t => s.waited t
    else s.idle

end Sys2Proof.Machine
end

