-- ==== Sys2Proof/Machine/Link.lean ====
section
/-!
DEFINITION. What the fabric does besides carrying packets (R320 to R324): malformed packets, lost and resent packets, link frames; and the
links of the reach ports (R326, R327). A packet is named by the number of the access, message, command, wave, partial sums or record that
it carries: of several under one number, the first whose turn it is.
-/

namespace Sys2Proof.Machine

/-! Packets that fail. -/

/-- The first flight of a number that a test lets through. -/
def State.flightWhere (s : State) (n : Nat) (p : Flight → Bool) : Option Flight := s.net.flights.find? fun f => f.n == n && p f

/-- What a packet carries has failed (R323, R324): a hart's access is refused with `cause`, and an engine or a wave records the outcome that its
status has for it. -/
def State.failCarried (s : State) (x : Packet) (cause : BitVec 9) (wave : BitVec 4) : State :=
  match x with
  | .part a p _ => s.stageAt a.id p.n (.refused cause none)
  | .post m => (s.dropPost m.id).stageAt m.acc 0 (.refused cause none)
  | .chan m => s.chanDone m (.error cause)
  | .hart m => s.failHart m cause 0
  | .command c => (s.cmdProblem c (3, 0) 1 (c.kind.servedAt c.src c.dst)).onCmd c.id Cmd.dropRows
  | .piece c p => s.onCmd c.id fun k => { k with pieces := k.pieces.map fun q => if q.no == p.no then { q with bad := some true } else q }
  | .sums m _ => { s with net := { s.net with partials := s.net.partials.filter fun (y : PartialMsg) => y.id != m.id } }.failPart m 5
  | .wave w _ => { s with net := { s.net with waves := s.net.waves.filter fun (y : Wave) => y.id != w.id } }.answerWave w wave 1
  | .record e => { s with net := { s.net with events := s.net.events.filter fun (y : EvMsg) => y.id != e.id } }

/-- The packet of a flight is given up at its source, met or not; the link integrity event is logged at the source, as a trap at a hart is (R342). -/
def State.failFlight (s : State) (f : Flight) (action : Nat) (wave : BitVec 4) : State :=
  let x := s.packetAt f.n f.k
  let h : HartId := (x.map Packet.hartNo).getD 0
  let s := s.logError { core := f.src, hart := h, unit := 5, addr := 0, info := 0, ctx := x.map s.packetCtx } 5 action
  let s := { s with net := { s.net with flights := s.net.flights.filter fun g => !(g.n == f.n && g.k == f.k) } }
  match x with
  | some x => s.failCarried x (errCause 5 action) wave
  | none => s.stageAt f.n f.k (.refused (errCause 5 action) none)

/-- MALFORMED_PACKET (R324): the destination discards packet `n`, which is malformed, counts it, and answers with reason 3. -/
def execMalformedPacket (n : Nat) (s : State) : Out :=
  match s.flightWhere n fun f => !s.stopsAt f && (s.packetAt f.n f.k).any fun x => s.badFlight f x with
  | some f => ((s.countAt f 48).failFlight f 7 4).occur
  | none => s.idle

/-! The end-to-end timers (R320, R321, R323). -/

/-- FABCFG.TIMEOUT of core `c` (R325). -/
def State.timeoutAt (s : State) (c : CoreId) : W := ((s.core c).sys.fabcfg.extractLsb' 0 32).setWidth 64

/-- So many core cycles have passed since the last sending of a flight's packet, which does not lie in a spill reserve (R361). -/
def State.elapsed (s : State) (f : Flight) (t : W) : Bool := !s.spilled f.n && decide (t.toNat ≤ ((s.core f.src).cycles - f.since).toNat)

/-- FABCFG.RLIM of a flight's source. -/
def State.resendLimit (s : State) (f : Flight) : Nat := ((s.core f.src).sys.fabcfg.extractLsb' 32 8).toNat

/-- REASSEMBLY_TIMEOUT (R320): a copy of packet `n` has stayed partial in its reassembly buffer for FABCFG.TIMEOUT core cycles of its destination, and is
discarded without an answer. -/
def execReassemblyTimeout (n : Nat) (s : State) : Out :=
  let old (b : Reassembly) : Bool := b.n == n && decide ((s.timeoutAt b.dst).toNat ≤ ((s.core b.dst).cycles - b.since).toNat)
  match s.net.reasm.find? old with
  | some b => { s with net := { s.net with reasm := s.net.reasm.filter fun x => x != b } }.occur
  | none => s.idle

/-- RESEND_TIMEOUT (R321, R323): the timer of packet `n` has run out, and it is sent again with the same SEQ, which its source counts. -/
def execResendTimeout (n : Nat) (s : State) : Out :=
  match s.flightWhere n fun f => s.elapsed f (s.timeoutAt f.src) && (s.resendLimit f == 0 || decide (f.resends < s.resendLimit f)) with
  | some f =>
    let j := f.resends + 1
    ((s.fabCount f.src 0).putFlight { f with resends := j, since := (s.core f.src).cycles, copies := f.copies ++ [(j, Config.damaged f.n f.k j)] }).occur
  | none => s.idle

/-- RESEND_LIMIT (R323): after FABCFG.RLIM resends without an answer, packet `n` is given up. -/
def execResendLimit (n : Nat) (s : State) : Out :=
  match s.flightWhere n fun f => s.elapsed f (s.timeoutAt f.src) && s.resendLimit f != 0 && decide (s.resendLimit f ≤ f.resends) with
  | some f => (s.failFlight f 2 5).occur
  | none => s.idle

/-! Links (R322). Links 0 to 7 are those of the reach ports; the others lie between dies. -/

/-- The state of link `n`. -/
def State.link (s : State) (n : Nat) : Link := (s.pkg.links.find? fun l => l.id == n).getD { id := n, fails := [], retrain := false }

/-- Sets the state of a link; one as reset leaves it is not listed. -/
def State.setLink (s : State) (l : Link) : State :=
  let rest := s.pkg.links.filter fun x => x.id != l.id
  { s with pkg := { s.pkg with links := if l.fails.isEmpty && !l.retrain then rest else rest ++ [l] } }

/-- Core cycles so far, as the core that has had most of them counts (log 136). -/
def State.coreCycles (s : State) : W := s.cores.foldl (fun (m : W) k => if m.toNat < k.2.cycles.toNat then k.2.cycles else m) 0

/-- Failed frames of a link in the 4 096 core cycles up to `now`. -/
def Link.recent (l : Link) (now : W) : List W := l.fails.filter fun t => decide ((now - t).toNat < 4096)

/-- LINK_FRAME (R322, R326): a frame on link `n` is checked, and `k` tells whether it failed: it is replayed then, which RPSTAT counts on a
reach link. -/
def execLinkFrame (n : Nat) (k : Bool) (s : State) : Out :=
  let l := s.link n
  if l.retrain then s.idle
  else if !k then s.occur
  else
    let s := s.setLink { l with fails := s.coreCycles :: l.recent s.coreCycles }
    (if n < 8 then { s with pkg := { s.pkg with rpRepl := s.pkg.rpRepl.setIfInBounds n (satInc (s.pkg.rpRepl[n]?.getD 0)) } } else s).occur

/-- What a link that begins to retrain takes from a flight (R322), by three free bits: the copies that were on it, the answers that were, and whether of
a packet of several flits the destination has some. Those are put together with what a reassembly buffer has of it already (R320): a packet that is whole
so is not lost, and one that is not waits in the buffer, if one is free. -/
def State.loseFlight (s : State) (f : Flight) (copies answers part : Bool) (got : BitVec 16) : State :=
  let flits := (s.packetAt f.n f.k).elim 0 s.bodyFlits
  let b := ((s.net.reasm.find? fun x => x.n == f.n && x.k == f.k).getD
    { n := f.n, k := f.k, copy := f.resends, dst := f.dst, got := 0, since := (s.core f.dst).cycles }).takeAll ((List.range (flits + 1)).filter fun i => got.getLsbD i)
  let comes := part && !f.done && f.pkg == 0 && !s.noBuffer f && b.got != 0 && (f.copies.head?.any fun c => !c.2)
  let s := s.putFlight { f with copies := if copies && !(comes && b.whole flits) then [] else f.copies, answers := if answers then [] else f.answers }
  if copies && comes && !b.whole flits then
    { s with net := { s.net with reasm := (s.net.reasm.filter fun x => !(x.n == f.n && x.k == f.k)) ++ [b] } }
  else s

/-- Packets and answers that were on a link when it begins to retrain are lost (R322). Which they were is free, among those that may take it: over a reach
link those to its peer (log 97). -/
def State.loseOn (s : State) (n : Nat) : State :=
  let may (f : Flight) : Bool := if n < 8 then s.viaPort n f.pkg else true
  (s.net.flights.filter may).foldl (fun s f =>
    let w := s.free
    s.freed.loseFlight f (w.getLsbD 0) (w.getLsbD 1) (w.getLsbD 2) (w.extractLsb' 16 16)) s

/-- LINK_RETRAIN (R322): more than 16 frames have failed within 4 096 core cycles. -/
def execLinkRetrain (n : Nat) (s : State) : Out :=
  let l := s.link n
  if 16 < (l.recent s.coreCycles).length && !l.retrain then ((s.loseOn n).setLink { l with fails := [], retrain := true }).occur else s.idle

/-- LINK_RETRAIN_COMPLETE (R322): the link is in service again; a reach link that was down has come up, and its port with it. -/
def execLinkRetrainComplete (n : Nat) (s : State) : Out :=
  let l := s.link n
  let down := (s.pkg.rpDown[n]?.getD none).isSome
  if l.retrain || down then
    let s := s.setLink { l with fails := [], retrain := false }
    (if down then { s with pkg := { s.pkg with rpDown := s.pkg.rpDown.setIfInBounds n none, rpState := s.pkg.rpState.setIfInBounds n 2#2 } } else s).occur
  else s.idle

/-! Reach ports (R326, R327). -/

/-- STATE of a reach port: 0 down, 1 training, 2 up, 3 isolated. -/
def State.portState (s : State) (p : BitVec 3) : BitVec 2 := s.pkg.rpState[p.toNat]'(by have := p.isLt; omega)

/-- RPSTAT_TRAIN (R326). -/
def execRpstatTrain (p : BitVec 3) (s : State) : Out :=
  if s.portState p == 0 || s.portState p == 3 then (s.trainPort p.toNat).occur else s.idle

/-- RPSTAT_ISOLATE (R327). -/
def execRpstatIsolate (p : BitVec 3) (s : State) : Out := (s.isolate p.toNat).occur

/-- REACH_TRAINING_COMPLETE (R326): the port is up and has learnt its peer's number. -/
def execReachTrainingComplete (p : BitVec 3) (i : BitVec 4) (s : State) : Out :=
  if s.portState p == 1 then
    { s with pkg := { s.pkg with rpState := s.pkg.rpState.setIfInBounds p.toNat 2#2, rpPeer := s.pkg.rpPeer.setIfInBounds p.toNat i,
                                 rpDown := s.pkg.rpDown.setIfInBounds p.toNat none } }.occur
  else s.idle

/-- REACH_LINK_DOWN (R326, R327): the link of a port goes down, its STATE with it, and its 100 µs begin. -/
def execReachLinkDown (p : BitVec 3) (s : State) : Out :=
  if s.portState p == 2 then
    { s with pkg := { s.pkg with rpDown := s.pkg.rpDown.setIfInBounds p.toNat (some s.timeRef), rpState := s.pkg.rpState.setIfInBounds p.toNat 0#2 } }.occur
  else s.idle

/-- REACH_LINK_DOWN_TIMEOUT (R327): the link has stayed down for 100 µs. -/
def execReachLinkDownTimeout (p : BitVec 3) (s : State) : Out :=
  match s.pkg.rpDown[p.toNat]?.getD none with
  | some t => if t.toNat + 100000 ≤ s.timeRef.toNat then (s.isolate p.toNat).occur else s.idle
  | none => s.idle

/-- REACH_PEER_RESET (R327). -/
def execReachPeerReset (p : BitVec 3) (s : State) : Out := if s.portState p == 2 then (s.isolate p.toNat).occur else s.idle

end Sys2Proof.Machine
end

