-- ==== Sys2Proof/Machine/Mem.lean ====
section
/-!
DEFINITION. Loads and stores (R211, R212), vector memory access (R213, R214), atomics (R215 to R217), stores with a flag (R218) and the
ordered region (R236, R237).
-/

namespace Sys2Proof.Machine

/-- One scalar element. -/
def scalarAsk (op : AccOp) (k : AccKind) (va : W) (size : Nat) (data : W) (r : BitVec 2) : Ask where
  op := op
  els := [⟨va, size, data.setWidth 512, k⟩]
  vec := false
  plain := r == 0
  acq := r != 0 && k == .load

/-- Address of LD and ST: an offset in units of the size (R211). -/
def State.offsetAddr (s : State) (a : BitVec 5) (o : BitVec 8) (size : Nat) : W := s.g a + o.signExtend 64 * BitVec.ofNat 64 size

/-- A scalar load (R211, R212). -/
def State.loadG (s : State) (i : Instr) (o : BitVec 8) (r : BitVec 2) (a d : BitVec 5) (size : Nat) (sx : Bool) : State :=
  s.access i (scalarAsk (.load d sx) .load (s.offsetAddr a o size) size 0 r)

/-- A scalar store (R211, R212). -/
def State.storeG (s : State) (i : Instr) (o : BitVec 8) (r : BitVec 2) (a d : BitVec 5) (size : Nat) : State :=
  s.access i (scalarAsk .store .store (s.offsetAddr a o size) size (BitVec.ofNat 64 ((s.g d).toNat % 2 ^ (8 * size))) r)

/-- LDB (R211). -/
def execLdb (o : BitVec 8) (p r : BitVec 2) (a d : BitVec 5) (w l : Bool) (s : State) : Out :=
  issue (.ldb o p r a d w l) s (s.loadG (.ldb o p r a d w l) o r a d 1 true)
/-- LDH (R211). -/
def execLdh (o : BitVec 8) (p r : BitVec 2) (a d : BitVec 5) (w l : Bool) (s : State) : Out :=
  issue (.ldh o p r a d w l) s (s.loadG (.ldh o p r a d w l) o r a d 2 true)
/-- LDW (R211). -/
def execLdw (o : BitVec 8) (p r : BitVec 2) (a d : BitVec 5) (w l : Bool) (s : State) : Out :=
  issue (.ldw o p r a d w l) s (s.loadG (.ldw o p r a d w l) o r a d 4 true)
/-- LDD (R211). -/
def execLdd (o : BitVec 8) (p r : BitVec 2) (a d : BitVec 5) (w l : Bool) (s : State) : Out :=
  issue (.ldd o p r a d w l) s (s.loadG (.ldd o p r a d w l) o r a d 8 true)
/-- LDBU (R211). -/
def execLdbu (o : BitVec 8) (p r : BitVec 2) (a d : BitVec 5) (w l : Bool) (s : State) : Out :=
  issue (.ldbu o p r a d w l) s (s.loadG (.ldbu o p r a d w l) o r a d 1 false)
/-- LDHU (R211). -/
def execLdhu (o : BitVec 8) (p r : BitVec 2) (a d : BitVec 5) (w l : Bool) (s : State) : Out :=
  issue (.ldhu o p r a d w l) s (s.loadG (.ldhu o p r a d w l) o r a d 2 false)
/-- LDWU (R211). -/
def execLdwu (o : BitVec 8) (p r : BitVec 2) (a d : BitVec 5) (w l : Bool) (s : State) : Out :=
  issue (.ldwu o p r a d w l) s (s.loadG (.ldwu o p r a d w l) o r a d 4 false)
/-- STB (R211). -/
def execStb (o : BitVec 8) (p r : BitVec 2) (a d : BitVec 5) (w l : Bool) (s : State) : Out :=
  issue (.stb o p r a d w l) s (s.storeG (.stb o p r a d w l) o r a d 1)
/-- STH (R211). -/
def execSth (o : BitVec 8) (p r : BitVec 2) (a d : BitVec 5) (w l : Bool) (s : State) : Out :=
  issue (.sth o p r a d w l) s (s.storeG (.sth o p r a d w l) o r a d 2)
/-- STW (R211). -/
def execStw (o : BitVec 8) (p r : BitVec 2) (a d : BitVec 5) (w l : Bool) (s : State) : Out :=
  issue (.stw o p r a d w l) s (s.storeG (.stw o p r a d w l) o r a d 4)
/-- STD (R211). -/
def execStd (o : BitVec 8) (p r : BitVec 2) (a d : BitVec 5) (w l : Bool) (s : State) : Out :=
  issue (.std o p r a d w l) s (s.storeG (.std o p r a d w l) o r a d 8)

/-! Vector memory access (R213, R214). -/

/-- The formats of a vector access: the lane and the memory format, as its prefix gives them (R214). -/
structure VForm where
  lane : BitVec 4
  memf : BitVec 4
  sat : Bool
deriving DecidableEq, Repr

/-- Formats of a load: FA the memory side, FB the lanes. -/
def State.loadForm (s : State) : VForm := let p := s.prefixed.getD 0; ⟨pfFB p, pfFA p, pfSA p⟩

/-- Formats of a store: FA the lanes, FB the memory side. -/
def State.storeForm (s : State) : VForm := let p := s.prefixed.getD 0; ⟨pfFA p, pfFB p, pfSA p⟩

/-- Lane width. -/
def VForm.laneWidth (f : VForm) : Nat := if f.lane == 0 then 32 else tyWidth ((laneTy f.lane).getD 0)

/-- Number of lanes, n of R214. -/
def VForm.lanes (f : VForm) : Nat := 512 / f.laneWidth

/-- The memory format, with the default for a code of 0000. -/
def VForm.memCode (f : VForm) : BitVec 4 := if f.memf == 0 then tyCode ((laneTy f.lane).getD 0) else f.memf

/-- Bits of one element in memory (R31). -/
def VForm.memWidth (f : VForm) : Nat := if f.lane == 0 then 32 else codeWidth f.memCode

/-- Bytes that one element by itself occupies: a CB4 element lies in the low half of a byte (log 24). -/
def VForm.elBytes (f : VForm) : Nat := if f.memWidth < 8 then 1 else f.memWidth / 8

/-- Bytes of a block of n elements (R214). -/
def VForm.blockBytes (f : VForm) : Nat := f.lanes * f.memWidth / 8

/-- The operation of a vector load; a lane format without a memory format of its own is copied. -/
def VForm.loadOp (f : VForm) (d : BitVec 5) (bc : Bool) : AccOp := .vload d (if f.lane == 0 then 0 else f.memCode) f.lane bc

/-- A lane as it goes to memory (R214): bits and flags. Floats round by `rm`; integers keep their low bits, or saturate. No rule
gives the code that a value takes in CB4, but for the low bits of an integer: a free value stands for it (log 24). -/
def VForm.narrow (f : VForm) (rm : BitVec 3) (free : Nat) (x : Nat) : Nat × BitVec 5 :=
  match laneTy f.lane with
  | none => (x, 0)
  | some t =>
    let m := f.memCode
    let int (w : Nat) : Nat × BitVec 5 :=
      if t == 3 then
        let z := signed 32 x
        let hi : Int := 2 ^ (w - 1)
        let z := if f.sat then max (-hi) (min z (hi - 1)) else z
        ((z % (2 ^ w : Nat)).toNat, 0)
      else
        let hi : Int := 2 ^ (w - 1)
        let r := floatToInt rm (-hi) (hi - 1) ((tyFmt t).val x)
        ((r.1 % (2 ^ w : Nat)).toNat, r.2)
    if m == tyCode t then (x, 0)
    else if m == 7 then (if t == 3 && !f.sat then (x % 16, 0) else (free % 16, 0))
    else match codeFmt m with
      | some k => k.convert (tyFmt t) rm x
      | none => int (codeWidth m)

/-- The elements of a vector store and the flags that their conversion raises. -/
def State.storeEls (s : State) (f : VForm) (x : VReg) : List Nat × BitVec 5 :=
  let r := (List.range f.lanes).map fun i =>
    f.narrow (fpRm s.hart.arith.fpstat) ((s.free.toNat + i) % 16) (laneBits x.toNat f.laneWidth i)
  (r.map (·.1), r.foldl (fun a y => a ||| y.2) 0)

/-- The elements use free values (log 24). -/
def VForm.usesFree (f : VForm) : Bool := f.lane != 0 && f.memCode == 7 && (f.lane != 6 || f.sat)

/-- A vector load. With a trap enabled, one that converts writes when its instruction retires (R40, R130). -/
def State.vload (s : State) (i : Instr) (d : BitVec 5) (f : VForm) (bc : Bool) (els : List El) : State :=
  s.preciseOr i (s.access i { op := f.loadOp d bc, els := els, vec := true, plain := false, acq := false })

/-- A vector store: its checks, then the traps of its conversion, which come before any byte is written (R214); one performed before a rewind has
passed both (R252). Its flags go to FPSTAT when it retires (R40). -/
def State.vstore (s : State) (i : Instr) (f : VForm) (flags : BitVec 5) (els : List El) : State :=
  let q : Ask := { op := .vstore, els := els, vec := true, plain := false, acq := false }
  if fpTraps s.hart.arith.fpstat flags && !s.doneBefore then
    s.ownStops.getD ((s.gate i q).getD (s.fault (fpCause 1 s.hart.arith.fpstat flags) 0 (flags.setWidth 64)))
  else
    let s := if f.usesFree then s.freed else s
    let t := s.access i q
    if t.disp == .retired then t.onHart fun h => { h with arith := { h.arith with fpstat := fpOr h.arith.fpstat flags } } else t

/-- Address of VLD, VST and VLDBC: an offset in units of 64 (R213). -/
def State.blockAddr (s : State) (a : BitVec 5) (o : BitVec 8) : W := s.g a + o.signExtend 64 * 64

/-- Addresses of VLDS and VSTS (R213). -/
def State.strideAddr (s : State) (a g : BitVec 5) (i : Nat) : W := s.g a + BitVec.ofNat 64 i * s.g g

/-- Addresses of VLDX and VSTX (R213). -/
def State.indexAddr (s : State) (a x : BitVec 5) (i : Nat) : W :=
  s.g a + (BitVec.ofNat 32 (laneBits (s.v x).toNat 32 i)).signExtend 64

/-- Elements at a list of addresses, to be loaded. -/
def loadEls (f : VForm) (n : Nat) (at' : Nat → W) : List El := (List.range n).map fun i => ⟨at' i, f.elBytes, 0, .load⟩

/-- Elements at a list of addresses, to be stored. -/
def scatterEls (f : VForm) (xs : List Nat) (at' : Nat → W) : List El :=
  (xs.zip (List.range xs.length)).map fun x => ⟨at' x.2, f.elBytes, BitVec.ofNat 512 x.1, .store⟩

/-- VLD (R213, R214). -/
def execVld (o : BitVec 8) (a d : BitVec 5) (w l : Bool) (s : State) : Out :=
  issue (.vld o a d w l) s (s.vload (.vld o a d w l) d s.loadForm false [⟨s.blockAddr a o, s.loadForm.blockBytes, 0, .load⟩])
/-- VST (R213, R214). -/
def execVst (o : BitVec 8) (a d : BitVec 5) (w l : Bool) (s : State) : Out :=
  let f := s.storeForm
  let x := s.storeEls f (s.v d)
  issue (.vst o a d w l) s (s.vstore (.vst o a d w l) f x.2
    [⟨s.blockAddr a o, f.blockBytes, BitVec.ofNat 512 (joinEls f.memWidth (x.1.map fun y => BitVec.ofNat 512 y)), .store⟩])
/-- VLDS (R213, R214). -/
def execVlds (g a d : BitVec 5) (w l : Bool) (s : State) : Out :=
  let f := s.loadForm
  issue (.vlds g a d w l) s (s.vload (.vlds g a d w l) d f false (loadEls f f.lanes (s.strideAddr a g)))
/-- VSTS (R213, R214). -/
def execVsts (g a d : BitVec 5) (w l : Bool) (s : State) : Out :=
  let f := s.storeForm
  let x := s.storeEls f (s.v d)
  issue (.vsts g a d w l) s (s.vstore (.vsts g a d w l) f x.2 (scatterEls f x.1 (s.strideAddr a g)))
/-- VLDX: 16 elements (R213, R214). -/
def execVldx (x a d : BitVec 5) (w l : Bool) (s : State) : Out :=
  let f := s.loadForm
  issue (.vldx x a d w l) s (s.vload (.vldx x a d w l) d f false (loadEls f 16 (s.indexAddr a x)))
/-- VSTX: 16 elements (R213, R214). -/
def execVstx (x a d : BitVec 5) (w l : Bool) (s : State) : Out :=
  let f := s.storeForm
  let e := s.storeEls f (s.v d)
  issue (.vstx x a d w l) s (s.vstore (.vstx x a d w l) f e.2 (scatterEls f e.1 (s.indexAddr a x)))
/-- VLDBC: one element to every lane (R213, R214). -/
def execVldbc (o : BitVec 8) (a d : BitVec 5) (w l : Bool) (s : State) : Out :=
  let f := s.loadForm
  issue (.vldbc o a d w l) s (s.vload (.vldbc o a d w l) d f true [⟨s.blockAddr a o, f.elBytes, 0, .load⟩])

/-! Atomics (R215 to R217). -/

/-- Bytes of an atomic's size bit. -/
def amoSize (z : Bool) : Nat := if z then 8 else 4

/-- A scalar atomic (R216): the hart waits until the old value returns (R217). -/
def State.amo (s : State) (i : Instr) (fn : BitVec 5) (r : BitVec 2) (size : Nat) (b a d : BitVec 5) : State :=
  s.preciseOr i (s.access i
    { op := .atomic fn (.g d) ((s.g b).setWidth 512) (s.g d), els := [⟨s.g a, size, 0, .atomic⟩], vec := false,
      plain := false, acq := r.getLsbD 0 })

/-- A 64-byte atomic on a v register (R216). -/
def State.amoV (s : State) (i : Instr) (fn : BitVec 5) (r : BitVec 2) (b a d : BitVec 5) : State :=
  s.preciseOr i (s.access i
    { op := .atomic fn (.v d) (s.v b) 0, els := [⟨s.g a, 64, 0, .atomic⟩], vec := false, plain := false, acq := r.getLsbD 0 })

/-- AADD (R216). -/
def execAadd (p r : BitVec 2) (z : Bool) (b a d : BitVec 5) (w l : Bool) (s : State) : Out :=
  issue (.aadd p r z b a d w l) s (s.amo (.aadd p r z b a d w l) 0 r (amoSize z) b a d)
/-- AAND (R216). -/
def execAand (p r : BitVec 2) (z : Bool) (b a d : BitVec 5) (w l : Bool) (s : State) : Out :=
  issue (.aand p r z b a d w l) s (s.amo (.aand p r z b a d w l) 1 r (amoSize z) b a d)
/-- AOR (R216). -/
def execAor (p r : BitVec 2) (z : Bool) (b a d : BitVec 5) (w l : Bool) (s : State) : Out :=
  issue (.aor p r z b a d w l) s (s.amo (.aor p r z b a d w l) 2 r (amoSize z) b a d)
/-- AXOR (R216). -/
def execAxor (p r : BitVec 2) (z : Bool) (b a d : BitVec 5) (w l : Bool) (s : State) : Out :=
  issue (.axor p r z b a d w l) s (s.amo (.axor p r z b a d w l) 3 r (amoSize z) b a d)
/-- AMIN (R216). -/
def execAmin (p r : BitVec 2) (z : Bool) (b a d : BitVec 5) (w l : Bool) (s : State) : Out :=
  issue (.amin p r z b a d w l) s (s.amo (.amin p r z b a d w l) 4 r (amoSize z) b a d)
/-- AMAX (R216). -/
def execAmax (p r : BitVec 2) (z : Bool) (b a d : BitVec 5) (w l : Bool) (s : State) : Out :=
  issue (.amax p r z b a d w l) s (s.amo (.amax p r z b a d w l) 5 r (amoSize z) b a d)
/-- AMINU (R216). -/
def execAminu (p r : BitVec 2) (z : Bool) (b a d : BitVec 5) (w l : Bool) (s : State) : Out :=
  issue (.aminu p r z b a d w l) s (s.amo (.aminu p r z b a d w l) 6 r (amoSize z) b a d)
/-- AMAXU (R216). -/
def execAmaxu (p r : BitVec 2) (z : Bool) (b a d : BitVec 5) (w l : Bool) (s : State) : Out :=
  issue (.amaxu p r z b a d w l) s (s.amo (.amaxu p r z b a d w l) 7 r (amoSize z) b a d)
/-- ASWAP (R216). -/
def execAswap (p r : BitVec 2) (z : Bool) (b a d : BitVec 5) (w l : Bool) (s : State) : Out :=
  issue (.aswap p r z b a d w l) s (s.amo (.aswap p r z b a d w l) 8 r (amoSize z) b a d)
/-- ACAS (R216). -/
def execAcas (p r : BitVec 2) (z : Bool) (b a d : BitVec 5) (w l : Bool) (s : State) : Out :=
  issue (.acas p r z b a d w l) s (s.amo (.acas p r z b a d w l) 9 r (amoSize z) b a d)
/-- ACASF (R216). -/
def execAcasf (p r : BitVec 2) (z : Bool) (b a d : BitVec 5) (w l : Bool) (s : State) : Out :=
  issue (.acasf p r z b a d w l) s (s.amo (.acasf p r z b a d w l) 10 r (amoSize z) b a d)
/-- AINCW (R216). -/
def execAincw (p r : BitVec 2) (z : Bool) (b a d : BitVec 5) (w l : Bool) (s : State) : Out :=
  issue (.aincw p r z b a d w l) s (s.amo (.aincw p r z b a d w l) 16 r (amoSize z) b a d)
/-- AFADD: FP32 (R216). -/
def execAfadd (p r : BitVec 2) (b a d : BitVec 5) (w l : Bool) (s : State) : Out :=
  issue (.afadd p r b a d w l) s (s.amo (.afadd p r b a d w l) 11 r 4 b a d)
/-- AFMIN: FP32 (R216). -/
def execAfmin (p r : BitVec 2) (b a d : BitVec 5) (w l : Bool) (s : State) : Out :=
  issue (.afmin p r b a d w l) s (s.amo (.afmin p r b a d w l) 12 r 4 b a d)
/-- AFMAX: FP32 (R216). -/
def execAfmax (p r : BitVec 2) (b a d : BitVec 5) (w l : Bool) (s : State) : Out :=
  issue (.afmax p r b a d w l) s (s.amo (.afmax p r b a d w l) 13 r 4 b a d)
/-- AVADD: 16 lanes of FP32 (R216). -/
def execAvadd (p r : BitVec 2) (b a d : BitVec 5) (w l : Bool) (s : State) : Out :=
  issue (.avadd p r b a d w l) s (s.amoV (.avadd p r b a d w l) 14 r b a d)
/-- AVMAX: 16 lanes of FP32 (R216). -/
def execAvmax (p r : BitVec 2) (b a d : BitVec 5) (w l : Bool) (s : State) : Out :=
  issue (.avmax p r b a d w l) s (s.amoV (.avmax p r b a d w l) 15 r b a d)

/-! Stores with a flag (R218). -/

/-- An STF: both addresses are checked at issue, and the instruction retires without waiting. -/
def State.storeFlag (s : State) (i : Instr) (size : Nat) (data : BitVec 512) (a b : BitVec 5) : State :=
  s.access i { op := .stf, els := [⟨s.g a, size, data, .store⟩, ⟨s.g b, 8, 0, .atomic⟩], vec := false, plain := true, acq := false }

/-- STFW (R218). -/
def execStfw (c : Bool) (b a d : BitVec 5) (w l : Bool) (s : State) : Out :=
  issue (.stfw c b a d w l) s (s.storeFlag (.stfw c b a d w l) 4 (((s.g d).setWidth 32).setWidth 512) a b)
/-- STFD (R218). -/
def execStfd (c : Bool) (b a d : BitVec 5) (w l : Bool) (s : State) : Out :=
  issue (.stfd c b a d w l) s (s.storeFlag (.stfd c b a d w l) 8 ((s.g d).setWidth 512) a b)
/-- STFV (R218). -/
def execStfv (c : Bool) (b a d : BitVec 5) (w l : Bool) (s : State) : Out :=
  issue (.stfv c b a d w l) s (s.storeFlag (.stfv c b a d w l) 64 (s.v d) a b)

/-! The ordered region (R236, R237). -/

/-- The executing hart's reaction, as the key of its ordered accesses: its tag and its number. A reaction that an abort has reached has no number: one that
nothing has stands for it, and its accesses then have no effect. -/
def State.reactionTag (s : State) : Option (W × BitVec 32 × Nat) :=
  if s.hart.rx then some (s.self.tags.lft, s.self.tags.lftm, (s.self.tags.active.map fun r => r.id).getD s.fresh) else none

/-- Address of an ordered access (R237). -/
def State.orderedAddr (s : State) (a : BitVec 5) (o : BitVec 8) (size : Nat) : W := s.g a + o.signExtend 64 * BitVec.ofNat 64 size

/-- An ordered load. -/
def State.orderedLoad (s : State) (i : Instr) (o : BitVec 8) (a : BitVec 5) (r : RegRef) (size : Nat) : State :=
  s.access i { op := .tload r true s.reactionTag, els := [⟨s.orderedAddr a o size, size, 0, .atomic⟩], vec := false, plain := false, acq := false }

/-- An ordered store; outside a reaction it raises 0x079 (R237), DESIGN CHOICE (log 164) whatever its target, which is not looked at first. -/
def State.orderedStore (s : State) (i : Instr) (o : BitVec 8) (a : BitVec 5) (data : BitVec 512) (size : Nat) : State :=
  let va := s.orderedAddr a o size
  if va.toNat % size != 0 then s.fault (accCause .atomic (spaceOf va).code .misaligned) va 0
  else match s.reactionTag with
    | none => s.fault 0x079 va 0
    | some (t, m, rid) =>
      s.access i { op := .tstore t m rid (BitVec.ofNat 9 (0x120 + s.hart.react.curp.toNat / 2)), els := [⟨va, size, data, .atomic⟩],
                   vec := false, plain := false, acq := false }

/-- TLDW (R237). -/
def execTldw (o : BitVec 8) (a d : BitVec 5) (w l : Bool) (s : State) : Out :=
  issue (.tldw o a d w l) s (s.orderedLoad (.tldw o a d w l) o a (.g d) 4)
/-- TLDD (R237). -/
def execTldd (o : BitVec 8) (a d : BitVec 5) (w l : Bool) (s : State) : Out :=
  issue (.tldd o a d w l) s (s.orderedLoad (.tldd o a d w l) o a (.g d) 8)
/-- TSTW (R237). -/
def execTstw (o : BitVec 8) (a d : BitVec 5) (w l : Bool) (s : State) : Out :=
  issue (.tstw o a d w l) s (s.orderedStore (.tstw o a d w l) o a (((s.g d).setWidth 32).setWidth 512) 4)
/-- TSTD (R237). -/
def execTstd (o : BitVec 8) (a d : BitVec 5) (w l : Bool) (s : State) : Out :=
  issue (.tstd o a d w l) s (s.orderedStore (.tstd o a d w l) o a ((s.g d).setWidth 512) 8)
/-- TLDV (R237). -/
def execTldv (o : BitVec 8) (a d : BitVec 5) (w l : Bool) (s : State) : Out :=
  issue (.tldv o a d w l) s (s.orderedLoad (.tldv o a d w l) o a (.v d) 64)
/-- TSTV (R237). -/
def execTstv (o : BitVec 8) (a d : BitVec 5) (w l : Bool) (s : State) : Out :=
  issue (.tstv o a d w l) s (s.orderedStore (.tstv o a d w l) o a (s.v d) 64)

end Sys2Proof.Machine
end

