-- ==== Sys2Proof/Machine/MomOps.lean ====
section
/-!
DEFINITION. What moment operations compute (R154 to R171). Every step rounds to nearest but for the faithful results of R166.
-/

namespace Sys2Proof.Machine

/-- A mean and a variance as FP32 bits, with the flags raised on the way. -/
structure Mv where
  mu : Nat
  s : Nat
  fl : BitVec 5
deriving DecidableEq, Repr

/-- An FP32 value with flags: one step of a computation. -/
abbrev Fl := Nat × BitVec 5

/-- A value with no flag. -/
def fl0 (x : Nat) : Fl := (x, 0)

/-- Rne(x + y). -/
def Fl.add (x y : Fl) : Fl := let r := fp32.add 0 x.1 y.1; (r.1, x.2 ||| y.2 ||| r.2)
/-- Rne(x - y). -/
def Fl.sub (x y : Fl) : Fl := let r := fp32.sub 0 x.1 y.1; (r.1, x.2 ||| y.2 ||| r.2)
/-- Rne(x · y). -/
def Fl.mul (x y : Fl) : Fl := let r := fp32.mul 0 x.1 y.1; (r.1, x.2 ||| y.2 ||| r.2)
/-- Rne(Sqrt(x)). -/
def Fl.sqrt (x : Fl) : Fl := let r := fp32.sqrt 0 x.1; (r.1, x.2 ||| r.2)
/-- Rne(2 · x). -/
def Fl.twice (x : Fl) : Fl := Fl.mul (fl0 0x40000000) x
/-- Minus x: its sign bit changes. -/
def Fl.neg (x : Fl) : Fl := (if x.1 < 2 ^ 31 then x.1 + 2 ^ 31 else x.1 - 2 ^ 31, x.2)

/-- A mean and a variance from two steps. -/
def mv (mu s : Fl) : Mv := ⟨mu.1, s.1, mu.2 ||| s.2⟩

/-- MOMODE.COV of the operation. -/
def OpCtx.covMode (o : OpCtx) : BitVec 2 := o.momode.extractLsb' 0 2

/-- The covariance term of two variances, with lane `i` of v[CREG] in mode 11 (R163). -/
def OpCtx.covTerm (o : OpCtx) (sa sb i : Nat) : Option Fl :=
  match o.covMode.toNat with
  | 0 => none
  | 1 => some (Fl.mul (Fl.sqrt (fl0 sa)) (Fl.sqrt (fl0 sb)))
  | 2 => some (Fl.neg (Fl.mul (Fl.sqrt (fl0 sa)) (Fl.sqrt (fl0 sb))))
  | _ => some (fl0 (laneBits o.cov.toNat 32 i))

/-- The mean of lane `i` (R154). -/
def meanOf (m : MReg) (i : Nat) : Nat := laneBits m.toNat 32 i

/-- The variance of lane `i` (R154). -/
def varOf (m : MReg) (i : Nat) : Nat := laneBits m.toNat 32 (16 + i)

/-- MADD of a lane (R164). -/
def maddLane (o : OpCtx) (i : Nat) : Mv :=
  let s := Fl.add (fl0 (varOf o.ma i)) (fl0 (varOf o.mb i))
  mv (Fl.add (fl0 (meanOf o.ma i)) (fl0 (meanOf o.mb i))) (match o.covTerm (varOf o.ma i) (varOf o.mb i) i with
    | none => s
    | some c => Fl.add s (Fl.twice c))

/-- MSUB of a lane (R164). -/
def msubLane (o : OpCtx) (i : Nat) : Mv :=
  let s := Fl.add (fl0 (varOf o.ma i)) (fl0 (varOf o.mb i))
  mv (Fl.sub (fl0 (meanOf o.ma i)) (fl0 (meanOf o.mb i))) (match o.covTerm (varOf o.ma i) (varOf o.mb i) i with
    | none => s
    | some c => Fl.sub s (Fl.twice c))

/-- MMUL of a lane (R164). -/
def mmulLane (o : OpCtx) (i : Nat) : Mv :=
  let ma := fl0 (meanOf o.ma i)
  let mb := fl0 (meanOf o.mb i)
  let sa := fl0 (varOf o.ma i)
  let sb := fl0 (varOf o.mb i)
  let mu := Fl.mul ma mb
  let s := Fl.mul (Fl.mul ma ma) sb
  let s := Fl.add s (Fl.mul (Fl.mul mb mb) sa)
  let s := Fl.add s (Fl.mul sa sb)
  match o.covTerm sa.1 sb.1 i with
  | none => mv mu s
  | some c =>
    let s := Fl.add s (Fl.mul (Fl.mul (Fl.twice ma) mb) c)
    mv (Fl.add mu c) (Fl.add s (Fl.mul c c))

/-- MSCAL of a lane (R165). -/
def mscalLane (o : OpCtx) (i : Nat) : Mv :=
  let b := fl0 (laneBits o.b.toNat 32 i)
  mv (Fl.mul b (fl0 (meanOf o.ma i))) (Fl.mul (Fl.mul b b) (fl0 (varOf o.ma i)))

/-- MADDC of a lane (R165). -/
def maddcLane (o : OpCtx) (i : Nat) : Mv :=
  mv (Fl.add (fl0 (meanOf o.ma i)) (fl0 (laneBits o.b.toNat 32 i))) (fl0 (varOf o.ma i))

/-! Non-linear rules (R166 to R168). -/

/-- The canonical NaN pair. -/
def mvNan (fl : BitVec 5) : Mv := ⟨fp32.nan, fp32.nan, fl⟩

/-- A pair of infinities. -/
def mvInf : Mv := ⟨fp32.inf false, fp32.inf false, 0⟩

/-- Whether a lane receives the upper of the two bracketing values, for result `f` of its mean and variance (log 9). -/
def upFor (f mu s : Nat) : Bool := Config.faithfulUp f (BitVec.ofNat 32 mu) (BitVec.ofNat 32 s)

/-- The formula zone of MRELU (R167): mean `(-1)^n · m · 2^x`, variance `ms · 2^xs`. -/
def reluFormula (mu s : Nat) (n : Bool) (m : Nat) (x : Int) (ms : Nat) (xs : Int) : Mv :=
  let sh := 2 * x - xs + 2 * fixBits
  let z2 := if 0 ≤ sh then m * m * 2 ^ sh.toNat / ms else m * m / (ms * 2 ^ (-sh).toNat)
  let z : Int := if n then -(isqrt z2 : Int) else isqrt z2
  let cdf := fixCdf z
  let pdf := fixPdf z
  let one : Int := fixOne
  let g := z * cdf / one + pdf
  let w := (z * z / one + one) * cdf / one + z * pdf / one - g * g / one
  let r := sqrtParts ms xs
  let a := faithful (upFor 0 mu s) (r.1 * g.toNat, r.2 - fixBits)
  let b := faithful (upFor 1 mu s) (ms * w.toNat, xs - fixBits)
  ⟨a.1, b.1, a.2 ||| b.2⟩

/-- MRELU of a lane (R167). -/
def reluPair (mu s : Nat) : Mv :=
  match fp32.val mu, fp32.val s with
  | .nan q, v => mvNan (nvIf (q || v.snan))
  | v, .nan q => mvNan (nvIf (q || v.snan))
  | .inf true, .inf _ => mvNan flagNV
  | _, .inf _ => mvInf
  | .inf n, .fin _ ms _ => if ms == 0 then ⟨if n then 0 else mu, 0, 0⟩ else if n then ⟨0, 0, 0⟩ else ⟨mu, s, 0⟩
  | .fin n m x, .fin _ ms xs =>
    let far := !(Dy.mk (m * m : Nat) (2 * x)).lt ⟨(64 * ms : Nat), xs⟩
    if ms == 0 then ⟨if n then 0 else mu, 0, 0⟩
    else if far && !n then ⟨mu, s, 0⟩
    else if far then ⟨0, 0, 0⟩
    else reluFormula mu s n m x ms xs

/-- The exponential of an exact value, faithfully rounded (R168); it is exact at 0. -/
def faithfulExp (f mu s : Nat) (d : Dy) : Fl := if d.v == 0 then fl0 fp32.one else faithful (upFor f mu s) (expFix d.fix)

/-- The variance of MEXP as a number and an exponent, just below or above which the exact one lies: `e^(2μ+2s) (1 − e^(−s))`, or for a small variance
`s (1 + s/2 + s²/6 + …) e^(2μ+s)`. -/
def expVar (n : Bool) (m : Nat) (x : Int) (ms : Nat) (xs : Int) : Nat × Int :=
  let two := dyOf n m (x + 1)
  if xs + bitLen ms ≤ -64 then
    let s := (Dy.mk ms xs).fix.toNat
    let f := fixOne + s / 2 + s ^ 2 / (6 * fixOne) + s ^ 3 / (24 * fixOne ^ 2) + s ^ 4 / (120 * fixOne ^ 3)
    let e := expFix (two.add ⟨ms, xs⟩).fix
    (ms * f * e.1, xs + e.2 - fixBits)
  else
    let e := expFix (two.add ⟨ms, xs + 1⟩).fix
    let t := expFix (-(Dy.mk ms xs).fix)
    (e.1 * (fixOne - t.1 / 2 ^ (-(t.2 + fixBits)).toNat - 1), e.2 - fixBits)

/-- MEXP of a lane (R168). -/
def expPair (mu s : Nat) : Mv :=
  match fp32.val mu, fp32.val s with
  | .nan q, v => mvNan (nvIf (q || v.snan))
  | v, .nan q => mvNan (nvIf (q || v.snan))
  | .inf true, .inf _ => mvNan flagNV
  | .fin n m x, .fin _ ms xs =>
    if ms == 0 then
      let r := fp32.expLane 0 mu
      ⟨r.1, 0, r.2⟩
    else
      let a := faithfulExp 2 mu s ((dyOf n m x).add ⟨ms, xs - 1⟩)
      let b := faithful (upFor 3 mu s) (expVar n m x ms xs)
      ⟨a.1, b.1, a.2 ||| b.2⟩
  | .inf n, .fin _ ms _ =>
    if ms == 0 then
      let r := fp32.expLane 0 mu
      ⟨r.1, 0, r.2⟩
    else if n then ⟨0, 0, 0⟩ else mvInf
  | _, .inf _ => mvInf

/-- The formula of MSIG (R168). -/
def sigFormula (mu s : Nat) (d : Dy) (ms : Nat) (xs : Int) : Mv :=
  let half (x : Nat) : Nat := (fp32.round 0 false x (-1)).1
  let ps := fixOne + ((Dy.mk (fixPi * ms : Nat) (xs - 3 - fixBits)).fix).toNat
  let k := isqrt (ps * fixOne)
  let u : Int := max (-expLimit) (min (d.fix * fixOne / k) expLimit)
  let e := expAbs u
  let p := logistic u
  let a := if d.v == 0 then fl0 (half 1) else faithful (upFor 4 mu s) (fraction p.1 p.2)
  let b := faithful (upFor 5 mu s) (fraction (e * fixOne * (k - fixOne)) ((fixOne + e) * (fixOne + e) * k))
  ⟨a.1, b.1, a.2 ||| b.2⟩

/-- MSIG of a lane (R168). -/
def sigPair (mu s : Nat) : Mv :=
  let half (e : Int) : Nat := (fp32.round 0 false 1 e).1
  match fp32.val mu, fp32.val s with
  | .nan q, v => mvNan (nvIf (q || v.snan))
  | v, .nan q => mvNan (nvIf (q || v.snan))
  | .inf true, .inf _ => mvNan flagNV
  | .fin n m x, .fin _ ms xs =>
    if ms == 0 then
      let r := fp32.expLane 2 mu
      ⟨r.1, 0, r.2⟩
    else sigFormula mu s (dyOf n m x) ms xs
  | .inf n, .fin _ _ _ => ⟨if n then 0 else fp32.one, 0, 0⟩
  | _, .inf _ => ⟨half (-1), half (-2), 0⟩

/-! The check of R171. -/

/-- The variance would fail the check: its sign bit is 1, or it is a NaN. -/
def badVar (s : Nat) : Bool := decide (2 ^ 31 ≤ s) || (fp32.val s).isNan

/-- A moment result from its lanes, those that are written (R171): bad variances become zero, and the result tells of them. -/
def outM (d : BitVec 4) (old : MReg) (lanes : List (Nat × Mv)) : OpResult :=
  let put (r : Nat × Nat × BitVec 5 × BitVec 16 × Bool × Bool) (i : Nat) :=
    match lanes.find? fun x => x.1 == i with
    | none => (r.1 + meanOf old i * 2 ^ (32 * i), r.2.1 + varOf old i * 2 ^ (32 * i), r.2.2)
    | some (_, x) =>
      let bad := badVar x.s
      let nan := (fp32.val x.s).isNan
      (r.1 + x.mu * 2 ^ (32 * i), r.2.1 + (if bad then 0 else x.s) * 2 ^ (32 * i), r.2.2.1 ||| x.fl,
       r.2.2.2.1 ||| (if bad then 1#16 <<< i else 0), r.2.2.2.2.1 || nan, r.2.2.2.2.2 || (bad && !nan))
  let r := (List.range 16).foldl put (0, 0, 0, 0, false, false)
  ⟨[⟨.m d, BitVec.ofNat 1024 (r.1 + 2 ^ 512 * r.2.1)⟩], r.2.2.1, r.2.2.2.1, r.2.2.2.2.1, r.2.2.2.2.2⟩

/-- The lanes that a mask selects. -/
def chosenLanes (mask : W) : List Nat := (List.range 16).filter fun i => mask.getLsbD i

/-- A moment operation lane by lane, under its mask. -/
def OpCtx.moments (o : OpCtx) (d : BitVec 4) (f : Nat → Mv) : OpResult := outM d o.md ((chosenLanes o.mask).map fun i => (i, f i))

/-- A result without the check: MMOV and MZERO (R170). -/
def OpCtx.copied (o : OpCtx) (d : BitVec 4) (f : Nat → Nat × Nat) : OpResult :=
  let r := (List.range 16).foldl (fun (r : Nat × Nat) i =>
    let x := if o.mask.getLsbD i then f i else (meanOf o.md i, varOf o.md i)
    (r.1 + x.1 * 2 ^ (32 * i), r.2 + x.2 * 2 ^ (32 * i))) (0, 0)
  ⟨[⟨.m d, BitVec.ofNat 1024 (r.1 + 2 ^ 512 * r.2)⟩], 0, 0, false, false⟩

/-- MPACK of a lane (R170): NV for a signalling NaN among the means. -/
def mpackLane (o : OpCtx) (i : Nat) : Mv :=
  let mu := laneBits o.a.toNat 32 i
  ⟨mu, laneBits o.b.toNat 32 i, nvIf (fp32.val mu).snan⟩

/-- MCOLL of a lane (R170). -/
def mcollLane (o : OpCtx) (scale mode i : Nat) : Lanes :=
  match mode with
  | 0 => (meanOf o.ma i, 0)
  | 1 => (varOf o.ma i, 0)
  | 2 => Fl.sqrt (fl0 (varOf o.ma i))
  | _ =>
    let q := Fl.sqrt (fl0 (varOf o.ma i))
    let r := fp32.fmaV 0 (o.scaleVal scale) (fp32.val q.1) (fp32.val (meanOf o.ma i))
    (r.1, q.2 ||| r.2)

/-- A term of MRED. -/
structure Term where
  mu : Fl
  s : Fl
deriving DecidableEq, Repr

/-- The terms of MRED (R169): the selected lanes, or the pairs of lanes with a selected one. -/
def mredTerms (o : OpCtx) : List Term :=
  let one (i : Nat) : Term := ⟨fl0 (meanOf o.ma i), fl0 (varOf o.ma i)⟩
  if o.covMode == 0 || o.covMode == 1 then (chosenLanes o.mask).map one
  else (List.range 8).filterMap fun j =>
    let x := one (2 * j)
    let y := one (2 * j + 1)
    match o.mask.getLsbD (2 * j), o.mask.getLsbD (2 * j + 1) with
    | true, true =>
      let s := Fl.add x.s y.s
      some ⟨Fl.add x.mu y.mu, match o.covTerm x.s.1 y.s.1 (2 * j) with
        | some c => Fl.add s (Fl.twice c)
        | none => s⟩
    | true, false => some x
    | false, true => some y
    | false, false => none

/-- A sum in ascending order, which starts from its first term (R169). -/
def flSum : List Fl → Fl
  | [] => fl0 0
  | x :: t => t.foldl Fl.add x

/-- MRED (R169): lane 0; lanes 1 to 15 become zero. -/
def mredOut (d : BitVec 4) (o : OpCtx) : OpResult :=
  let ts := mredTerms o
  let mu := flSum (ts.map (·.mu))
  let s := if o.covMode == 1 then
      let t := flSum (ts.map fun x => Fl.sqrt x.s)
      Fl.mul t t
    else flSum (ts.map (·.s))
  outM d 0 ((0, mv mu s) :: ((List.range 15).map fun i => (i + 1, ⟨0, 0, 0⟩)))

/-- MCHK (R170). -/
def mchkOut (d : BitVec 3) (o : OpCtx) : OpResult :=
  outK d (mergeLanes 1 16 o.mask 0 fun i => (if badVar (laneBits o.a.toNat 32 i) then 1 else 0, 0)).1 0

/-- The result of a moment operation (R157 to R171). -/
def momOut (o : OpCtx) : OpResult :=
  match o.op with
  | .madd _ _ _ d _ _ => o.moments d (maddLane o)
  | .msub _ _ _ d _ _ => o.moments d (msubLane o)
  | .mmul _ _ _ d _ _ => o.moments d (mmulLane o)
  | .mscal _ _ _ d _ _ => o.moments d (mscalLane o)
  | .maddc _ _ _ d _ _ => o.moments d (maddcLane o)
  | .mrelu _ _ d _ _ => o.moments d fun i => reluPair (meanOf o.ma i) (varOf o.ma i)
  | .mexp _ _ d _ _ => o.moments d fun i => expPair (meanOf o.ma i) (varOf o.ma i)
  | .msig _ _ d _ _ => o.moments d fun i => sigPair (meanOf o.ma i) (varOf o.ma i)
  | .mpack _ _ _ d _ _ => o.moments d (mpackLane o)
  | .mcoll _ s m _ d _ _ => outV d (mergeLanes 32 16 o.mask o.d.toNat (mcollLane o s.toNat m.toNat))
  | .mred _ _ d _ _ => mredOut d o
  | .mmov _ _ d _ _ => o.copied d fun i => (meanOf o.ma i, varOf o.ma i)
  | .mzero _ d _ _ => o.copied d fun _ => (0, 0)
  | .mchk _ _ d _ _ => mchkOut d o
  | _ => ⟨[], 0, 0, false, false⟩

end Sys2Proof.Machine
end

