-- ==== Sys2Proof/Machine/Mom.lean ====
section
/-!
DEFINITION. The moment instructions (R162 to R171): each issues to its core's moment datapath with its operands, and its results are
those of the datapath. MOMENT_ACCEPT and MOMENT_COMPLETE (R157, R158).
-/

namespace Sys2Proof.Machine

/-- MADD (R164). -/
def execMadd (k : BitVec 3) (b a d : BitVec 4) (w l : Bool) (s : State) : Out :=
  issue (.madd k b a d w l) s (s.momOp (.madd k b a d w l) (a.setWidth 5) (b.setWidth 5) (d.setWidth 5) k)
/-- MSUB (R164). -/
def execMsub (k : BitVec 3) (b a d : BitVec 4) (w l : Bool) (s : State) : Out :=
  issue (.msub k b a d w l) s (s.momOp (.msub k b a d w l) (a.setWidth 5) (b.setWidth 5) (d.setWidth 5) k)
/-- MMUL (R164). -/
def execMmul (k : BitVec 3) (b a d : BitVec 4) (w l : Bool) (s : State) : Out :=
  issue (.mmul k b a d w l) s (s.momOp (.mmul k b a d w l) (a.setWidth 5) (b.setWidth 5) (d.setWidth 5) k)
/-- MSCAL (R165). -/
def execMscal (k : BitVec 3) (b : BitVec 5) (a d : BitVec 4) (w l : Bool) (s : State) : Out :=
  issue (.mscal k b a d w l) s (s.momOp (.mscal k b a d w l) (a.setWidth 5) b (d.setWidth 5) k)
/-- MADDC (R165). -/
def execMaddc (k : BitVec 3) (b : BitVec 5) (a d : BitVec 4) (w l : Bool) (s : State) : Out :=
  issue (.maddc k b a d w l) s (s.momOp (.maddc k b a d w l) (a.setWidth 5) b (d.setWidth 5) k)
/-- MRELU (R167). -/
def execMrelu (k : BitVec 3) (a d : BitVec 4) (w l : Bool) (s : State) : Out :=
  issue (.mrelu k a d w l) s (s.momOp (.mrelu k a d w l) (a.setWidth 5) 0 (d.setWidth 5) k)
/-- MEXP (R168). -/
def execMexp (k : BitVec 3) (a d : BitVec 4) (w l : Bool) (s : State) : Out :=
  issue (.mexp k a d w l) s (s.momOp (.mexp k a d w l) (a.setWidth 5) 0 (d.setWidth 5) k)
/-- MSIG (R168). -/
def execMsig (k : BitVec 3) (a d : BitVec 4) (w l : Bool) (s : State) : Out :=
  issue (.msig k a d w l) s (s.momOp (.msig k a d w l) (a.setWidth 5) 0 (d.setWidth 5) k)
/-- MPACK (R170). -/
def execMpack (k : BitVec 3) (b a : BitVec 5) (d : BitVec 4) (w l : Bool) (s : State) : Out :=
  issue (.mpack k b a d w l) s (s.momOp (.mpack k b a d w l) a b (d.setWidth 5) k)
/-- MCOLL (R170). -/
def execMcoll (k sf : BitVec 3) (m : BitVec 2) (a : BitVec 4) (d : BitVec 5) (w l : Bool) (s : State) : Out :=
  issue (.mcoll k sf m a d w l) s (s.momOp (.mcoll k sf m a d w l) (a.setWidth 5) 0 d k)
/-- MRED (R169). -/
def execMred (k : BitVec 3) (a d : BitVec 4) (w l : Bool) (s : State) : Out :=
  issue (.mred k a d w l) s (s.momOp (.mred k a d w l) (a.setWidth 5) 0 (d.setWidth 5) k)
/-- MMOV (R170). -/
def execMmov (k : BitVec 3) (a d : BitVec 4) (w l : Bool) (s : State) : Out :=
  issue (.mmov k a d w l) s (s.momOp (.mmov k a d w l) (a.setWidth 5) 0 (d.setWidth 5) k)
/-- MZERO (R170). -/
def execMzero (k : BitVec 3) (d : BitVec 4) (w l : Bool) (s : State) : Out :=
  issue (.mzero k d w l) s (s.momOp (.mzero k d w l) 0 0 (d.setWidth 5) k)
/-- MCHK (R170). -/
def execMchk (k : BitVec 3) (a : BitVec 5) (d : BitVec 3) (w l : Bool) (s : State) : Out :=
  issue (.mchk k a d w l) s (s.momOp (.mchk k a d w l) a 0 (d.setWidth 5) k)

/-- MOMENT_ACCEPT (R157): the datapath takes the earliest operation. -/
def execMomentAccept (c : BitVec 12) (s : State) : Out :=
  match s.earliestOp c true with
  | none => s.idle
  | some (h, p, o) => (s.setPend c h p.id (.momAccepted (momOut o))).occur

/-- MOMENT_COMPLETE (R158, R171). -/
def execMomentComplete (c : BitVec 12) (h : BitVec 2) (s : State) : Out := s.completeOp c h true

end Sys2Proof.Machine
end

