-- ==== Sys2Proof/Machine/Vec.lean ====
section
/-!
DEFINITION. The vector instructions (R133 to R153): each issues to its core's vector unit with its operands, and its results are those
of the unit. VECTOR_ACCEPT and VECTOR_COMPLETE (R129 to R132).
-/

namespace Sys2Proof.Machine

/-- VADD (R137). -/
def execVadd (t : BitVec 2) (k : BitVec 3) (b a d : BitVec 5) (w l : Bool) (s : State) : Out :=
  issue (.vadd t k b a d w l) s (s.vecOp (.vadd t k b a d w l) a b d k)
/-- VSUB (R137). -/
def execVsub (t : BitVec 2) (k : BitVec 3) (b a d : BitVec 5) (w l : Bool) (s : State) : Out :=
  issue (.vsub t k b a d w l) s (s.vecOp (.vsub t k b a d w l) a b d k)
/-- VMUL (R137). -/
def execVmul (t : BitVec 2) (k : BitVec 3) (b a d : BitVec 5) (w l : Bool) (s : State) : Out :=
  issue (.vmul t k b a d w l) s (s.vecOp (.vmul t k b a d w l) a b d k)
/-- VFMA (R137). -/
def execVfma (t : BitVec 2) (k : BitVec 3) (b a d : BitVec 5) (w l : Bool) (s : State) : Out :=
  issue (.vfma t k b a d w l) s (s.vecOp (.vfma t k b a d w l) a b d k)
/-- VMIN (R137). -/
def execVmin (t : BitVec 2) (k : BitVec 3) (b a d : BitVec 5) (w l : Bool) (s : State) : Out :=
  issue (.vmin t k b a d w l) s (s.vecOp (.vmin t k b a d w l) a b d k)
/-- VMAX (R137). -/
def execVmax (t : BitVec 2) (k : BitVec 3) (b a d : BitVec 5) (w l : Bool) (s : State) : Out :=
  issue (.vmax t k b a d w l) s (s.vecOp (.vmax t k b a d w l) a b d k)
/-- VABS (R137). -/
def execVabs (t : BitVec 2) (k : BitVec 3) (a d : BitVec 5) (w l : Bool) (s : State) : Out :=
  issue (.vabs t k a d w l) s (s.vecOp (.vabs t k a d w l) a 0 d k)
/-- VNEG (R137). -/
def execVneg (t : BitVec 2) (k : BitVec 3) (a d : BitVec 5) (w l : Bool) (s : State) : Out :=
  issue (.vneg t k a d w l) s (s.vecOp (.vneg t k a d w l) a 0 d k)
/-- VAND (R138). -/
def execVand (t : BitVec 2) (k : BitVec 3) (b a d : BitVec 5) (w l : Bool) (s : State) : Out :=
  issue (.vand t k b a d w l) s (s.vecOp (.vand t k b a d w l) a b d k)
/-- VOR (R138). -/
def execVor (t : BitVec 2) (k : BitVec 3) (b a d : BitVec 5) (w l : Bool) (s : State) : Out :=
  issue (.vor t k b a d w l) s (s.vecOp (.vor t k b a d w l) a b d k)
/-- VXOR (R138). -/
def execVxor (t : BitVec 2) (k : BitVec 3) (b a d : BitVec 5) (w l : Bool) (s : State) : Out :=
  issue (.vxor t k b a d w l) s (s.vecOp (.vxor t k b a d w l) a b d k)
/-- VSHL (R138). -/
def execVshl (k : BitVec 3) (b a d : BitVec 5) (w l : Bool) (s : State) : Out :=
  issue (.vshl k b a d w l) s (s.vecOp (.vshl k b a d w l) a b d k)
/-- VSHR (R138). -/
def execVshr (k : BitVec 3) (b a d : BitVec 5) (w l : Bool) (s : State) : Out :=
  issue (.vshr k b a d w l) s (s.vecOp (.vshr k b a d w l) a b d k)
/-- VSRA (R138). -/
def execVsra (k : BitVec 3) (b a d : BitVec 5) (w l : Bool) (s : State) : Out :=
  issue (.vsra k b a d w l) s (s.vecOp (.vsra k b a d w l) a b d k)
/-- VCEQ (R139). -/
def execVceq (t : BitVec 2) (k : BitVec 3) (b a : BitVec 5) (d : BitVec 3) (w l : Bool) (s : State) : Out :=
  issue (.vceq t k b a d w l) s (s.vecOp (.vceq t k b a d w l) a b (d.setWidth 5) k)
/-- VCLT (R139). -/
def execVclt (t : BitVec 2) (k : BitVec 3) (b a : BitVec 5) (d : BitVec 3) (w l : Bool) (s : State) : Out :=
  issue (.vclt t k b a d w l) s (s.vecOp (.vclt t k b a d w l) a b (d.setWidth 5) k)
/-- VCLE (R139). -/
def execVcle (t : BitVec 2) (k : BitVec 3) (b a : BitVec 5) (d : BitVec 3) (w l : Bool) (s : State) : Out :=
  issue (.vcle t k b a d w l) s (s.vecOp (.vcle t k b a d w l) a b (d.setWidth 5) k)
/-- VSEL (R140). -/
def execVsel (t : BitVec 2) (k : BitVec 3) (b a d : BitVec 5) (w l : Bool) (s : State) : Out :=
  issue (.vsel t k b a d w l) s (s.vecOp (.vsel t k b a d w l) a b d k)
/-- VCVT (R141). -/
def execVcvt (t : BitVec 2) (k : BitVec 3) (f : BitVec 4) (a d : BitVec 5) (w l : Bool) (s : State) : Out :=
  issue (.vcvt t k f a d w l) s (s.vecOp (.vcvt t k f a d w l) a 0 d k)
/-- VRED (R143). -/
def execVred (t : BitVec 2) (k : BitVec 3) (n a d : BitVec 5) (w l : Bool) (s : State) : Out :=
  issue (.vred t k n a d w l) s (s.vecOp (.vred t k n a d w l) a 0 d k)
/-- VSPLAT (R144). -/
def execVsplat (t : BitVec 2) (k : BitVec 3) (a d : BitVec 5) (w l : Bool) (s : State) : Out :=
  issue (.vsplat t k a d w l) s (s.vecOp (.vsplat t k a d w l) a 0 d k)
/-- VEXT (R144). -/
def execVext (t : BitVec 2) (b a d : BitVec 5) (w l : Bool) (s : State) : Out :=
  issue (.vext t b a d w l) s (s.vecOp (.vext t b a d w l) a 0 d 0)
/-- VINS (R144). -/
def execVins (t : BitVec 2) (b a d : BitVec 5) (w l : Bool) (s : State) : Out :=
  issue (.vins t b a d w l) s (s.vecOp (.vins t b a d w l) a 0 d 0)
/-- VPERM (R144). -/
def execVperm (t : BitVec 2) (k : BitVec 3) (b a d : BitVec 5) (w l : Bool) (s : State) : Out :=
  issue (.vperm t k b a d w l) s (s.vecOp (.vperm t k b a d w l) a b d k)
/-- VWFMA (R146). -/
def execVwfma (t : BitVec 2) (k : BitVec 3) (b a : BitVec 5) (d : BitVec 4) (w l : Bool) (s : State) : Out :=
  issue (.vwfma t k b a d w l) s (s.preciseOr (.vwfma t k b a d w l) (s.startOp (.vwfma t k b a d w l) false (s.opCtx (.vwfma t k b a d w l) a b (d ++ 0#1) (d ++ 1#1) k)))
/-- VDOT (R147). -/
def execVdot (t : BitVec 2) (k : BitVec 3) (b a d : BitVec 5) (w l : Bool) (s : State) : Out :=
  issue (.vdot t k b a d w l) s (s.vecOp (.vdot t k b a d w l) a b d k)
/-- VLUT (R149). -/
def execVlut (t : BitVec 2) (k : BitVec 3) (f : Bool) (a d : BitVec 5) (w l : Bool) (s : State) : Out :=
  issue (.vlut t k f a d w l) s (s.vecOp (.vlut t k f a d w l) a 0 d k)
/-- VPLN (R150). -/
def execVpln (p : BitVec 3) (a d : BitVec 5) (w l : Bool) (s : State) : Out :=
  issue (.vpln p a d w l) s (s.vecOp (.vpln p a d w l) a 0 d 0)
/-- VUPL (R150). -/
def execVupl (k p : BitVec 3) (a d : BitVec 5) (w l : Bool) (s : State) : Out :=
  issue (.vupl k p a d w l) s (s.vecOp (.vupl k p a d w l) a 0 d k)
/-- VRCP (R152). -/
def execVrcp (t : BitVec 2) (k : BitVec 3) (a d : BitVec 5) (w l : Bool) (s : State) : Out :=
  issue (.vrcp t k a d w l) s (s.vecOp (.vrcp t k a d w l) a 0 d k)
/-- VRSQ (R152). -/
def execVrsq (t : BitVec 2) (k : BitVec 3) (a d : BitVec 5) (w l : Bool) (s : State) : Out :=
  issue (.vrsq t k a d w l) s (s.vecOp (.vrsq t k a d w l) a 0 d k)
/-- VEXP (R152). -/
def execVexp (t : BitVec 2) (k : BitVec 3) (f a d : BitVec 5) (w l : Bool) (s : State) : Out :=
  issue (.vexp t k f a d w l) s (s.vecOp (.vexp t k f a d w l) a 0 d k)
/-- KAND (R145). -/
def execKand (b a d : BitVec 3) (w l : Bool) (s : State) : Out :=
  issue (.kand b a d w l) s (s.vecOp (.kand b a d w l) (a.setWidth 5) (b.setWidth 5) (d.setWidth 5) 0)
/-- KOR (R145). -/
def execKor (b a d : BitVec 3) (w l : Bool) (s : State) : Out :=
  issue (.kor b a d w l) s (s.vecOp (.kor b a d w l) (a.setWidth 5) (b.setWidth 5) (d.setWidth 5) 0)
/-- KXOR (R145). -/
def execKxor (b a d : BitVec 3) (w l : Bool) (s : State) : Out :=
  issue (.kxor b a d w l) s (s.vecOp (.kxor b a d w l) (a.setWidth 5) (b.setWidth 5) (d.setWidth 5) 0)
/-- KNOT (R145). -/
def execKnot (a d : BitVec 3) (w l : Bool) (s : State) : Out :=
  issue (.knot a d w l) s (s.vecOp (.knot a d w l) (a.setWidth 5) 0 (d.setWidth 5) 0)
/-- KPOPC (R145). -/
def execKpopc (a : BitVec 3) (d : BitVec 5) (w l : Bool) (s : State) : Out :=
  issue (.kpopc a d w l) s (s.vecOp (.kpopc a d w l) (a.setWidth 5) 0 d 0)
/-- KMOV_K_K (R145). -/
def execKmovKK (a d : BitVec 3) (w l : Bool) (s : State) : Out :=
  issue (.kmovKK a d w l) s (s.vecOp (.kmovKK a d w l) (a.setWidth 5) 0 (d.setWidth 5) 0)
/-- KMOV_K_G (R145). -/
def execKmovKG (a : BitVec 5) (d : BitVec 3) (w l : Bool) (s : State) : Out :=
  issue (.kmovKG a d w l) s (s.vecOp (.kmovKG a d w l) a 0 (d.setWidth 5) 0)
/-- KMOV_G_K (R145). -/
def execKmovGK (a : BitVec 3) (d : BitVec 5) (w l : Bool) (s : State) : Out :=
  issue (.kmovGK a d w l) s (s.vecOp (.kmovGK a d w l) (a.setWidth 5) 0 d 0)
/-- VIDX (R144). -/
def execVidx (t : BitVec 2) (k : BitVec 3) (d : BitVec 5) (w l : Bool) (s : State) : Out :=
  issue (.vidx t k d w l) s (s.vecOp (.vidx t k d w l) 0 0 d k)
/-- VSLIDE (R144). -/
def execVslide (t : BitVec 2) (k : BitVec 3) (b a d : BitVec 5) (w l : Bool) (s : State) : Out :=
  issue (.vslide t k b a d w l) s (s.vecOp (.vslide t k b a d w l) a b d k)
/-- VMOV (R144). -/
def execVmov (t : BitVec 2) (k : BitVec 3) (a d : BitVec 5) (w l : Bool) (s : State) : Out :=
  issue (.vmov t k a d w l) s (s.vecOp (.vmov t k a d w l) a 0 d k)
/-- VTANH (R152). -/
def execVtanh (t : BitVec 2) (k : BitVec 3) (a d : BitVec 5) (w l : Bool) (s : State) : Out :=
  issue (.vtanh t k a d w l) s (s.vecOp (.vtanh t k a d w l) a 0 d k)
/-- VRAND (R153). -/
def execVrand (k : BitVec 3) (b a d : BitVec 5) (w l : Bool) (s : State) : Out :=
  issue (.vrand k b a d w l) s (s.vecOp (.vrand k b a d w l) a b d k)
/-- VPOPC (R151). -/
def execVpopc (k : BitVec 3) (a d : BitVec 5) (w l : Bool) (s : State) : Out :=
  issue (.vpopc k a d w l) s (s.vecOp (.vpopc k a d w l) a 0 d k)
/-- VPDOT (R148). -/
def execVpdot (k : BitVec 3) (b a d : BitVec 5) (w l : Bool) (s : State) : Out :=
  issue (.vpdot k b a d w l) s (s.vecOp (.vpdot k b a d w l) a b d k)
/-- VCVTS (R142). -/
def execVcvts (t : BitVec 2) (k : BitVec 3) (a d : BitVec 5) (w l : Bool) (s : State) : Out :=
  issue (.vcvts t k a d w l) s (s.vecOp (.vcvts t k a d w l) a 0 d k)
/-- VMULH (R151). -/
def execVmulh (k : BitVec 3) (b a d : BitVec 5) (w l : Bool) (s : State) : Out :=
  issue (.vmulh k b a d w l) s (s.vecOp (.vmulh k b a d w l) a b d k)
/-- VSAT (R151). -/
def execVsat (k : BitVec 3) (n a d : BitVec 5) (w l : Bool) (s : State) : Out :=
  issue (.vsat k n a d w l) s (s.vecOp (.vsat k n a d w l) a 0 d k)

/-- VECTOR_ACCEPT (R30, R129, R132): the unit takes the earliest operation, with the codebook as it stands, and VOPS counts it unless it
will trap. DESIGN CHOICE (log 163): VOPS counts acceptances, and a rewind (R251) takes none back, so an operation executed again counts again. -/
def execVectorAccept (c : BitVec 12) (s : State) : Out :=
  match s.earliestOp c false with
  | none => s.idle
  | some (h, p, o) =>
    let r := vecOut o (s.core c).cblo (s.core c).cbhi
    let n : W := if p.precise && (opTrap false (s.hartAt c h).arith r).isSome then 0 else 1
    ((s.setPend c h p.id (.vecAccepted r)).onHartAt c h fun x => { x with arith := { x.arith with vops := x.arith.vops + n } }).occur

/-- VECTOR_COMPLETE (R130, R131). -/
def execVectorComplete (c : BitVec 12) (h : BitVec 2) (s : State) : Out := s.completeOp c h false

end Sys2Proof.Machine
end

