-- ==== Sys2Proof/Machine/Dispatch.lean ====
section
/-!
DEFINITION. The dispatch: one arm for each constructor of `Instr`, each a direct call of its meaning.
-/

namespace Sys2Proof.Machine

/-- The effect of one instruction or step of the package. -/
def exec (i : Instr) (s : State) : Host.Outcome State Fault Refusal :=
  match i with
  | .beq o b a w l => Sys2Proof.Machine.execBeq o b a w l s
  | .bne o b a w l => Sys2Proof.Machine.execBne o b a w l s
  | .blt o b a w l => Sys2Proof.Machine.execBlt o b a w l s
  | .bge o b a w l => Sys2Proof.Machine.execBge o b a w l s
  | .bltu o b a w l => Sys2Proof.Machine.execBltu o b a w l s
  | .bgeu o b a w l => Sys2Proof.Machine.execBgeu o b a w l s
  | .bbs o b a w l => Sys2Proof.Machine.execBbs o b a w l s
  | .bbc o b a w l => Sys2Proof.Machine.execBbc o b a w l s
  | .jal o d w l => Sys2Proof.Machine.execJal o d w l s
  | .jalr im a d w l => Sys2Proof.Machine.execJalr im a d w l s
  | .ldb o sf r a d w l => Sys2Proof.Machine.execLdb o sf r a d w l s
  | .ldh o sf r a d w l => Sys2Proof.Machine.execLdh o sf r a d w l s
  | .ldw o sf r a d w l => Sys2Proof.Machine.execLdw o sf r a d w l s
  | .ldd o sf r a d w l => Sys2Proof.Machine.execLdd o sf r a d w l s
  | .ldbu o sf r a d w l => Sys2Proof.Machine.execLdbu o sf r a d w l s
  | .ldhu o sf r a d w l => Sys2Proof.Machine.execLdhu o sf r a d w l s
  | .ldwu o sf r a d w l => Sys2Proof.Machine.execLdwu o sf r a d w l s
  | .stb o sf r a d w l => Sys2Proof.Machine.execStb o sf r a d w l s
  | .sth o sf r a d w l => Sys2Proof.Machine.execSth o sf r a d w l s
  | .stw o sf r a d w l => Sys2Proof.Machine.execStw o sf r a d w l s
  | .std o sf r a d w l => Sys2Proof.Machine.execStd o sf r a d w l s
  | .vld o a d w l => Sys2Proof.Machine.execVld o a d w l s
  | .vst o a d w l => Sys2Proof.Machine.execVst o a d w l s
  | .vlds sf a d w l => Sys2Proof.Machine.execVlds sf a d w l s
  | .vsts sf a d w l => Sys2Proof.Machine.execVsts sf a d w l s
  | .vldx x a d w l => Sys2Proof.Machine.execVldx x a d w l s
  | .vstx x a d w l => Sys2Proof.Machine.execVstx x a d w l s
  | .vldbc o a d w l => Sys2Proof.Machine.execVldbc o a d w l s
  | .aadd sf r z b a d w l => Sys2Proof.Machine.execAadd sf r z b a d w l s
  | .aand sf r z b a d w l => Sys2Proof.Machine.execAand sf r z b a d w l s
  | .aor sf r z b a d w l => Sys2Proof.Machine.execAor sf r z b a d w l s
  | .axor sf r z b a d w l => Sys2Proof.Machine.execAxor sf r z b a d w l s
  | .amin sf r z b a d w l => Sys2Proof.Machine.execAmin sf r z b a d w l s
  | .amax sf r z b a d w l => Sys2Proof.Machine.execAmax sf r z b a d w l s
  | .aminu sf r z b a d w l => Sys2Proof.Machine.execAminu sf r z b a d w l s
  | .amaxu sf r z b a d w l => Sys2Proof.Machine.execAmaxu sf r z b a d w l s
  | .aswap sf r z b a d w l => Sys2Proof.Machine.execAswap sf r z b a d w l s
  | .acas sf r z b a d w l => Sys2Proof.Machine.execAcas sf r z b a d w l s
  | .acasf sf r z b a d w l => Sys2Proof.Machine.execAcasf sf r z b a d w l s
  | .afadd sf r b a d w l => Sys2Proof.Machine.execAfadd sf r b a d w l s
  | .afmin sf r b a d w l => Sys2Proof.Machine.execAfmin sf r b a d w l s
  | .afmax sf r b a d w l => Sys2Proof.Machine.execAfmax sf r b a d w l s
  | .avadd sf r b a d w l => Sys2Proof.Machine.execAvadd sf r b a d w l s
  | .avmax sf r b a d w l => Sys2Proof.Machine.execAvmax sf r b a d w l s
  | .aincw sf r z b a d w l => Sys2Proof.Machine.execAincw sf r z b a d w l s
  | .tldw o a d w l => Sys2Proof.Machine.execTldw o a d w l s
  | .tldd o a d w l => Sys2Proof.Machine.execTldd o a d w l s
  | .tstw o a d w l => Sys2Proof.Machine.execTstw o a d w l s
  | .tstd o a d w l => Sys2Proof.Machine.execTstd o a d w l s
  | .tldv o a d w l => Sys2Proof.Machine.execTldv o a d w l s
  | .tstv o a d w l => Sys2Proof.Machine.execTstv o a d w l s
  | .fence e p q u v sf w l => Sys2Proof.Machine.execFence e p q u v sf w l s
  | .ifence w l => Sys2Proof.Machine.execIfence w l s
  | .waita sf z b a d w l => Sys2Proof.Machine.execWaita sf z b a d w l s
  | .gjoin a d w l => Sys2Proof.Machine.execGjoin a d w l s
  | .gleave a w l => Sys2Proof.Machine.execGleave a w l s
  | .gbar a w l => Sys2Proof.Machine.execGbar a w l s
  | .gqry a d w l => Sys2Proof.Machine.execGqry a d w l s
  | .yield w l => Sys2Proof.Machine.execYield w l s
  | .next d w l => Sys2Proof.Machine.execNext d w l s
  | .done w l => Sys2Proof.Machine.execDone w l s
  | .post c b a w l => Sys2Proof.Machine.execPost c b a w l s
  | .postp c b a w l => Sys2Proof.Machine.execPostp c b a w l s
  | .tnow d w l => Sys2Proof.Machine.execTnow d w l s
  | .lateq d w l => Sys2Proof.Machine.execLateq d w l s
  | .twait a w l => Sys2Proof.Machine.execTwait a w l s
  | .enq q d w l => Sys2Proof.Machine.execEnq q d w l s
  | .deq q d w l => Sys2Proof.Machine.execDeq q d w l s
  | .enqv q d w l => Sys2Proof.Machine.execEnqv q d w l s
  | .deqv q d w l => Sys2Proof.Machine.execDeqv q d w l s
  | .enqn b q d w l => Sys2Proof.Machine.execEnqn b q d w l s
  | .deqn b q d w l => Sys2Proof.Machine.execDeqn b q d w l s
  | .qlen q d w l => Sys2Proof.Machine.execQlen q d w l s
  | .xshape sf a w l => Sys2Proof.Machine.execXshape sf a w l s
  | .xcopy c b a w l => Sys2Proof.Machine.execXcopy c b a w l s
  | .xcopys sf b a w l => Sys2Proof.Machine.execXcopys sf b a w l s
  | .xgath c b a d w l => Sys2Proof.Machine.execXgath c b a d w l s
  | .xscat c b a d w l => Sys2Proof.Machine.execXscat c b a d w l s
  | .xfill c b a w l => Sys2Proof.Machine.execXfill c b a w l s
  | .bseal d w l => Sys2Proof.Machine.execBseal d w l s
  | .bwait n w l => Sys2Proof.Machine.execBwait n w l s
  | .bstat a d w l => Sys2Proof.Machine.execBstat a d w l s
  | .xmode c b a w l => Sys2Proof.Machine.execXmode c b a w l s
  | .leash a d w l => Sys2Proof.Machine.execLeash a d w l s
  | .leashn a d w l => Sys2Proof.Machine.execLeashn a d w l s
  | .unleash w l => Sys2Proof.Machine.execUnleash w l s
  | .mxcfg b a w l => Sys2Proof.Machine.execMxcfg b a w l s
  | .mxldb b a w l => Sys2Proof.Machine.execMxldb b a w l s
  | .mxrun c b a d w l => Sys2Proof.Machine.execMxrun c b a d w l s
  | .mxzero w l => Sys2Proof.Machine.execMxzero w l s
  | .mxwait a d w l => Sys2Proof.Machine.execMxwait a d w l s
  | .mxqry a d w l => Sys2Proof.Machine.execMxqry a d w l s
  | .warm c b a w l => Sys2Proof.Machine.execWarm c b a w l s
  | .wdisarm a w l => Sys2Proof.Machine.execWdisarm a w l s
  | .wcnt a d w l => Sys2Proof.Machine.execWcnt a d w l s
  | .wadd b a w l => Sys2Proof.Machine.execWadd b a w l s
  | .wwait b a d w l => Sys2Proof.Machine.execWwait b a d w l s
  | .wstart a w l => Sys2Proof.Machine.execWstart a w l s
  | .csrrw c a d w l => Sys2Proof.Machine.execCsrrw c a d w l s
  | .csrrs c a d w l => Sys2Proof.Machine.execCsrrs c a d w l s
  | .csrrc c a d w l => Sys2Proof.Machine.execCsrrc c a d w l s
  | .csrwi c z d w l => Sys2Proof.Machine.execCsrwi c z d w l s
  | .csrsi c z d w l => Sys2Proof.Machine.execCsrsi c z d w l s
  | .csrci c z d w l => Sys2Proof.Machine.execCsrci c z d w l s
  | .ecall w => Sys2Proof.Machine.execEcall w s
  | .ebreak w => Sys2Proof.Machine.execEbreak w s
  | .tret w => Sys2Proof.Machine.execTret w s
  | .wfi w => Sys2Proof.Machine.execWfi w s
  | .halt w => Sys2Proof.Machine.execHalt w s
  | .hstart b a w => Sys2Proof.Machine.execHstart b a w s
  | .hstop a w => Sys2Proof.Machine.execHstop a w s
  | .stfw sf b a d w l => Sys2Proof.Machine.execStfw sf b a d w l s
  | .stfd sf b a d w l => Sys2Proof.Machine.execStfd sf b a d w l s
  | .stfv sf b a d w l => Sys2Proof.Machine.execStfv sf b a d w l s
  | .loop o a w l => Sys2Proof.Machine.execLoop o a w l s
  | .loopi n e w l => Sys2Proof.Machine.execLoopi n e w l s
  | .lbrk w l => Sys2Proof.Machine.execLbrk w l s
  | .lpop w l => Sys2Proof.Machine.execLpop w l s
  | .pfx x c sf p q r f e w l => Sys2Proof.Machine.execPfx x c sf p q r f e w l s
  | .add b a d w l => Sys2Proof.Machine.execAdd b a d w l s
  | .sub b a d w l => Sys2Proof.Machine.execSub b a d w l s
  | .and b a d w l => Sys2Proof.Machine.execAnd b a d w l s
  | .or b a d w l => Sys2Proof.Machine.execOr b a d w l s
  | .xor b a d w l => Sys2Proof.Machine.execXor b a d w l s
  | .sll b a d w l => Sys2Proof.Machine.execSll b a d w l s
  | .srl b a d w l => Sys2Proof.Machine.execSrl b a d w l s
  | .sra b a d w l => Sys2Proof.Machine.execSra b a d w l s
  | .slt b a d w l => Sys2Proof.Machine.execSlt b a d w l s
  | .sltu b a d w l => Sys2Proof.Machine.execSltu b a d w l s
  | .mul b a d w l => Sys2Proof.Machine.execMul b a d w l s
  | .mulh b a d w l => Sys2Proof.Machine.execMulh b a d w l s
  | .mulhu b a d w l => Sys2Proof.Machine.execMulhu b a d w l s
  | .div b a d w l => Sys2Proof.Machine.execDiv b a d w l s
  | .divu b a d w l => Sys2Proof.Machine.execDivu b a d w l s
  | .rem b a d w l => Sys2Proof.Machine.execRem b a d w l s
  | .remu b a d w l => Sys2Proof.Machine.execRemu b a d w l s
  | .min b a d w l => Sys2Proof.Machine.execMin b a d w l s
  | .max b a d w l => Sys2Proof.Machine.execMax b a d w l s
  | .minu b a d w l => Sys2Proof.Machine.execMinu b a d w l s
  | .maxu b a d w l => Sys2Proof.Machine.execMaxu b a d w l s
  | .clz a d w l => Sys2Proof.Machine.execClz a d w l s
  | .ctz a d w l => Sys2Proof.Machine.execCtz a d w l s
  | .popc a d w l => Sys2Proof.Machine.execPopc a d w l s
  | .rol b a d w l => Sys2Proof.Machine.execRol b a d w l s
  | .ror b a d w l => Sys2Proof.Machine.execRor b a d w l s
  | .addw b a d w l => Sys2Proof.Machine.execAddw b a d w l s
  | .subw b a d w l => Sys2Proof.Machine.execSubw b a d w l s
  | .sel c b a d w l => Sys2Proof.Machine.execSel c b a d w l s
  | .addi im a d w l => Sys2Proof.Machine.execAddi im a d w l s
  | .andi im a d w l => Sys2Proof.Machine.execAndi im a d w l s
  | .ori im a d w l => Sys2Proof.Machine.execOri im a d w l s
  | .xori im a d w l => Sys2Proof.Machine.execXori im a d w l s
  | .slti im a d w l => Sys2Proof.Machine.execSlti im a d w l s
  | .sltiu im a d w l => Sys2Proof.Machine.execSltiu im a d w l s
  | .slli sf a d w l => Sys2Proof.Machine.execSlli sf a d w l s
  | .srli sf a d w l => Sys2Proof.Machine.execSrli sf a d w l s
  | .srai sf a d w l => Sys2Proof.Machine.execSrai sf a d w l s
  | .rori sf a d w l => Sys2Proof.Machine.execRori sf a d w l s
  | .addwi im a d w l => Sys2Proof.Machine.execAddwi im a d w l s
  | .lui im d w l => Sys2Proof.Machine.execLui im d w l s
  | .auipc im d w l => Sys2Proof.Machine.execAuipc im d w l s
  | .fadd p m b a d w l => Sys2Proof.Machine.execFadd p m b a d w l s
  | .fsub p m b a d w l => Sys2Proof.Machine.execFsub p m b a d w l s
  | .fmul p m b a d w l => Sys2Proof.Machine.execFmul p m b a d w l s
  | .fdiv p m b a d w l => Sys2Proof.Machine.execFdiv p m b a d w l s
  | .fsqrt p m a d w l => Sys2Proof.Machine.execFsqrt p m a d w l s
  | .fmin p b a d w l => Sys2Proof.Machine.execFmin p b a d w l s
  | .fmax p b a d w l => Sys2Proof.Machine.execFmax p b a d w l s
  | .fsgnj p b a d w l => Sys2Proof.Machine.execFsgnj p b a d w l s
  | .fsgnjn p b a d w l => Sys2Proof.Machine.execFsgnjn p b a d w l s
  | .fsgnjx p b a d w l => Sys2Proof.Machine.execFsgnjx p b a d w l s
  | .feq p b a d w l => Sys2Proof.Machine.execFeq p b a d w l s
  | .flt p b a d w l => Sys2Proof.Machine.execFlt p b a d w l s
  | .fle p b a d w l => Sys2Proof.Machine.execFle p b a d w l s
  | .fclass p a d w l => Sys2Proof.Machine.execFclass p a d w l s
  | .fcvti p m k a d w l => Sys2Proof.Machine.execFcvti p m k a d w l s
  | .fcvtf p m k a d w l => Sys2Proof.Machine.execFcvtf p m k a d w l s
  | .fcvtff p m sf a d w l => Sys2Proof.Machine.execFcvtff p m sf a d w l s
  | .fmas c b a d w l => Sys2Proof.Machine.execFmas c b a d w l s
  | .fmad c b a d w l => Sys2Proof.Machine.execFmad c b a d w l s
  | .vadd t k b a d w l => Sys2Proof.Machine.execVadd t k b a d w l s
  | .vsub t k b a d w l => Sys2Proof.Machine.execVsub t k b a d w l s
  | .vmul t k b a d w l => Sys2Proof.Machine.execVmul t k b a d w l s
  | .vfma t k b a d w l => Sys2Proof.Machine.execVfma t k b a d w l s
  | .vmin t k b a d w l => Sys2Proof.Machine.execVmin t k b a d w l s
  | .vmax t k b a d w l => Sys2Proof.Machine.execVmax t k b a d w l s
  | .vabs t k a d w l => Sys2Proof.Machine.execVabs t k a d w l s
  | .vneg t k a d w l => Sys2Proof.Machine.execVneg t k a d w l s
  | .vand t k b a d w l => Sys2Proof.Machine.execVand t k b a d w l s
  | .vor t k b a d w l => Sys2Proof.Machine.execVor t k b a d w l s
  | .vxor t k b a d w l => Sys2Proof.Machine.execVxor t k b a d w l s
  | .vshl k b a d w l => Sys2Proof.Machine.execVshl k b a d w l s
  | .vshr k b a d w l => Sys2Proof.Machine.execVshr k b a d w l s
  | .vsra k b a d w l => Sys2Proof.Machine.execVsra k b a d w l s
  | .vceq t k b a d w l => Sys2Proof.Machine.execVceq t k b a d w l s
  | .vclt t k b a d w l => Sys2Proof.Machine.execVclt t k b a d w l s
  | .vcle t k b a d w l => Sys2Proof.Machine.execVcle t k b a d w l s
  | .vsel t k b a d w l => Sys2Proof.Machine.execVsel t k b a d w l s
  | .vcvt t k f a d w l => Sys2Proof.Machine.execVcvt t k f a d w l s
  | .vred t k n a d w l => Sys2Proof.Machine.execVred t k n a d w l s
  | .vsplat t k a d w l => Sys2Proof.Machine.execVsplat t k a d w l s
  | .vext t b a d w l => Sys2Proof.Machine.execVext t b a d w l s
  | .vins t b a d w l => Sys2Proof.Machine.execVins t b a d w l s
  | .vperm t k b a d w l => Sys2Proof.Machine.execVperm t k b a d w l s
  | .vwfma t k b a d w l => Sys2Proof.Machine.execVwfma t k b a d w l s
  | .vdot t k b a d w l => Sys2Proof.Machine.execVdot t k b a d w l s
  | .vlut t k f a d w l => Sys2Proof.Machine.execVlut t k f a d w l s
  | .vpln p a d w l => Sys2Proof.Machine.execVpln p a d w l s
  | .vupl k p a d w l => Sys2Proof.Machine.execVupl k p a d w l s
  | .vrcp t k a d w l => Sys2Proof.Machine.execVrcp t k a d w l s
  | .vrsq t k a d w l => Sys2Proof.Machine.execVrsq t k a d w l s
  | .vexp t k f a d w l => Sys2Proof.Machine.execVexp t k f a d w l s
  | .kand b a d w l => Sys2Proof.Machine.execKand b a d w l s
  | .kor b a d w l => Sys2Proof.Machine.execKor b a d w l s
  | .kxor b a d w l => Sys2Proof.Machine.execKxor b a d w l s
  | .knot a d w l => Sys2Proof.Machine.execKnot a d w l s
  | .kpopc a d w l => Sys2Proof.Machine.execKpopc a d w l s
  | .kmovKK a d w l => Sys2Proof.Machine.execKmovKK a d w l s
  | .kmovKG a d w l => Sys2Proof.Machine.execKmovKG a d w l s
  | .kmovGK a d w l => Sys2Proof.Machine.execKmovGK a d w l s
  | .vidx t k d w l => Sys2Proof.Machine.execVidx t k d w l s
  | .vslide t k b a d w l => Sys2Proof.Machine.execVslide t k b a d w l s
  | .vmov t k a d w l => Sys2Proof.Machine.execVmov t k a d w l s
  | .vtanh t k a d w l => Sys2Proof.Machine.execVtanh t k a d w l s
  | .vrand k b a d w l => Sys2Proof.Machine.execVrand k b a d w l s
  | .vpopc k a d w l => Sys2Proof.Machine.execVpopc k a d w l s
  | .vpdot k b a d w l => Sys2Proof.Machine.execVpdot k b a d w l s
  | .vcvts t k a d w l => Sys2Proof.Machine.execVcvts t k a d w l s
  | .vmulh k b a d w l => Sys2Proof.Machine.execVmulh k b a d w l s
  | .vsat k n a d w l => Sys2Proof.Machine.execVsat k n a d w l s
  | .madd k b a d w l => Sys2Proof.Machine.execMadd k b a d w l s
  | .msub k b a d w l => Sys2Proof.Machine.execMsub k b a d w l s
  | .mmul k b a d w l => Sys2Proof.Machine.execMmul k b a d w l s
  | .mscal k b a d w l => Sys2Proof.Machine.execMscal k b a d w l s
  | .maddc k b a d w l => Sys2Proof.Machine.execMaddc k b a d w l s
  | .mrelu k a d w l => Sys2Proof.Machine.execMrelu k a d w l s
  | .mexp k a d w l => Sys2Proof.Machine.execMexp k a d w l s
  | .msig k a d w l => Sys2Proof.Machine.execMsig k a d w l s
  | .mpack k b a d w l => Sys2Proof.Machine.execMpack k b a d w l s
  | .mcoll k sf m a d w l => Sys2Proof.Machine.execMcoll k sf m a d w l s
  | .mred k a d w l => Sys2Proof.Machine.execMred k a d w l s
  | .mmov k a d w l => Sys2Proof.Machine.execMmov k a d w l s
  | .mzero k d w l => Sys2Proof.Machine.execMzero k d w l s
  | .mchk k a d w l => Sys2Proof.Machine.execMchk k a d w l s
  | .packageReset => Sys2Proof.Machine.execPackageReset s
  | .timeTreeReference t c k => Sys2Proof.Machine.execTimeTreeReference t c k s
  | .interruptEntry c h => Sys2Proof.Machine.execInterruptEntry c h s
  | .vectorAccept c => Sys2Proof.Machine.execVectorAccept c s
  | .vectorComplete c h => Sys2Proof.Machine.execVectorComplete c h s
  | .momentAccept c => Sys2Proof.Machine.execMomentAccept c s
  | .momentComplete c h => Sys2Proof.Machine.execMomentComplete c h s
  | .divideResult c h n => Sys2Proof.Machine.execDivideResult c h n s
  | .fdivFsqrtResult c h n => Sys2Proof.Machine.execFdivFsqrtResult c h n s
  | .localLoadComplete c h n => Sys2Proof.Machine.execLocalLoadComplete c h n s
  | .wfiWake c h => Sys2Proof.Machine.execWfiWake c h s
  | .yieldPauseEnd c h => Sys2Proof.Machine.execYieldPauseEnd c h s
  | .waitaPoll c h => Sys2Proof.Machine.execWaitaPoll c h s
  | .waitaLimitExpiry c h => Sys2Proof.Machine.execWaitaLimitExpiry c h s
  | .twaitExpiry c h => Sys2Proof.Machine.execTwaitExpiry c h s
  | .groupJoinConfirm c h => Sys2Proof.Machine.execGroupJoinConfirm c h s
  | .barrierEpisodeComplete g => Sys2Proof.Machine.execBarrierEpisodeComplete g s
  | .leaseGrant a => Sys2Proof.Machine.execLeaseGrant a s
  | .leaseExpiry a => Sys2Proof.Machine.execLeaseExpiry a s
  | .hartStartCommand n => Sys2Proof.Machine.execHartStartCommand n s
  | .hartStopCommand n => Sys2Proof.Machine.execHartStopCommand n s
  | .arrayLoadBTile a => Sys2Proof.Machine.execArrayLoadBTile a s
  | .runAccept a => Sys2Proof.Machine.execRunAccept a s
  | .arrayRowCompute a => Sys2Proof.Machine.execArrayRowCompute a s
  | .mxzeroAccept a => Sys2Proof.Machine.execMxzeroAccept a s
  | .partialSums n => Sys2Proof.Machine.execPartialSums n s
  | .runComplete a => Sys2Proof.Machine.execRunComplete a s
  | .loadRequest n k => Sys2Proof.Machine.execLoadRequest n k s
  | .storeRequest n k => Sys2Proof.Machine.execStoreRequest n k s
  | .atomicRequest n k => Sys2Proof.Machine.execAtomicRequest n k s
  | .dataResponse n k => Sys2Proof.Machine.execDataResponse n k s
  | .acknowledgement n k => Sys2Proof.Machine.execAcknowledgement n k s
  | .negativeAcknowledgement n k => Sys2Proof.Machine.execNegativeAcknowledgement n k s
  | .ticket n k => Sys2Proof.Machine.execTicket n k s
  | .ticketRewind c h => Sys2Proof.Machine.execTicketRewind c h s
  | .replayNotice sf k => Sys2Proof.Machine.execReplayNotice sf k s
  | .ticketFault sf k => Sys2Proof.Machine.execTicketFault sf k s
  | .ticketTimeout c h => Sys2Proof.Machine.execTicketTimeout c h s
  | .taggedMessage n => Sys2Proof.Machine.execTaggedMessage n s
  | .inboxResend n => Sys2Proof.Machine.execInboxResend n s
  | .nextDelivery c => Sys2Proof.Machine.execNextDelivery c s
  | .horizonPublish x => Sys2Proof.Machine.execHorizonPublish x s
  | .reactionAbort c n => Sys2Proof.Machine.execReactionAbort c n s
  | .reactionAbortRestart c h => Sys2Proof.Machine.execReactionAbortRestart c h s
  | .channelMessage n => Sys2Proof.Machine.execChannelMessage n s
  | .channelHeldResend n => Sys2Proof.Machine.execChannelHeldResend n s
  | .deqTake c q => Sys2Proof.Machine.execDeqTake c q s
  | .streamerCommand n => Sys2Proof.Machine.execStreamerCommand n s
  | .bulkPiece n k => Sys2Proof.Machine.execBulkPiece n k s
  | .binBump n => Sys2Proof.Machine.execBinBump n s
  | .streamerCommandComplete n => Sys2Proof.Machine.execStreamerCommandComplete n s
  | .batchFinish c h => Sys2Proof.Machine.execBatchFinish c h s
  | .stfFlagIncrement n => Sys2Proof.Machine.execStfFlagIncrement n s
  | .eventRecord n => Sys2Proof.Machine.execEventRecord n s
  | .collectiveWave n => Sys2Proof.Machine.execCollectiveWave n s
  | .generationComplete c sf => Sys2Proof.Machine.execGenerationComplete c sf s
  | .malformedPacket n => Sys2Proof.Machine.execMalformedPacket n s
  | .reassemblyTimeout n => Sys2Proof.Machine.execReassemblyTimeout n s
  | .resendTimeout n => Sys2Proof.Machine.execResendTimeout n s
  | .resendLimit n => Sys2Proof.Machine.execResendLimit n s
  | .linkFrame n k => Sys2Proof.Machine.execLinkFrame n k s
  | .linkRetrain n => Sys2Proof.Machine.execLinkRetrain n s
  | .linkRetrainComplete n => Sys2Proof.Machine.execLinkRetrainComplete n s
  | .rpstatTrain p => Sys2Proof.Machine.execRpstatTrain p s
  | .rpstatIsolate p => Sys2Proof.Machine.execRpstatIsolate p s
  | .reachTrainingComplete p im => Sys2Proof.Machine.execReachTrainingComplete p im s
  | .reachLinkDownTimeout p => Sys2Proof.Machine.execReachLinkDownTimeout p s
  | .reachPeerReset p => Sys2Proof.Machine.execReachPeerReset p s
  | .sliceWalk n k => Sys2Proof.Machine.execSliceWalk n k s
  | .atsCompletion n k o a r w z => Sys2Proof.Machine.execAtsCompletion n k o a r w z s
  | .priPageGroupResponse sf k o => Sys2Proof.Machine.execPriPageGroupResponse sf k o s
  | .atsInvalidationRequest p v z => Sys2Proof.Machine.execAtsInvalidationRequest p v z s
  | .invalidationCompletion p v z => Sys2Proof.Machine.execInvalidationCompletion p v z s
  | .tlbinv c h x => Sys2Proof.Machine.execTlbinv c h x s
  | .tlbinvDrainComplete c h => Sys2Proof.Machine.execTlbinvDrainComplete c h s
  | .memoryServiceTicket sf k f => Sys2Proof.Machine.execMemoryServiceTicket sf k f s
  | .stackRetirement k => Sys2Proof.Machine.execStackRetirement k s
  | .migrationBlockMove => Sys2Proof.Machine.execMigrationBlockMove s
  | .migrationBounce => Sys2Proof.Machine.execMigrationBounce s
  | .memcapWrite x => Sys2Proof.Machine.execMemcapWrite x s
  | .hostCxlMemRequest o a z x => Sys2Proof.Machine.execHostCxlMemRequest o a z x s
  | .queueDoorbell q x => Sys2Proof.Machine.execQueueDoorbell q x s
  | .coreDoorbell c x => Sys2Proof.Machine.execCoreDoorbell c x s
  | .qreg x => Sys2Proof.Machine.execQreg x s
  | .deviceRegisterWrite c h a z x => Sys2Proof.Machine.execDeviceRegisterWrite c h a z x s
  | .ltbaseWrite c x => Sys2Proof.Machine.execLtbaseWrite c x s
  | .elogbaseWrite d x => Sys2Proof.Machine.execElogbaseWrite d x s
  | .uncorrectableError d c h a k => Sys2Proof.Machine.execUncorrectableError d c h a k s
  | .correctedError d k c a => Sys2Proof.Machine.execCorrectedError d k c a s
  | .kennelRestart c => Sys2Proof.Machine.execKennelRestart c s
  | .launchReplay x => Sys2Proof.Machine.execLaunchReplay x s
  | .frameQuarantineScrub f o => Sys2Proof.Machine.execFrameQuarantineScrub f o s
  | .coreRetirement c => Sys2Proof.Machine.execCoreRetirement c s
  | .heelcfgGo x => Sys2Proof.Machine.execHeelcfgGo x s
  | .heelcfgRel x => Sys2Proof.Machine.execHeelcfgRel x s
  | .partitionStopped x => Sys2Proof.Machine.execPartitionStopped x s
  | .recallGo x => Sys2Proof.Machine.execRecallGo x s
  | .recallFloodArrival c => Sys2Proof.Machine.execRecallFloodArrival c s
  | .recallSweepEnd c => Sys2Proof.Machine.execRecallSweepEnd c s
  | .purgeConfirmed => Sys2Proof.Machine.execPurgeConfirmed s
  | .switchtWrite x t => Sys2Proof.Machine.execSwitchtWrite x t s
  | .switchTimeReached c => Sys2Proof.Machine.execSwitchTimeReached c s
  | .switchDrainDone x => Sys2Proof.Machine.execSwitchDrainDone x s
  | .spillSweepEnd x => Sys2Proof.Machine.execSpillSweepEnd x s
  | .resumeReinjectDone x => Sys2Proof.Machine.execResumeReinjectDone x s
  | .powerArbiterRecompute x q => Sys2Proof.Machine.execPowerArbiterRecompute x q s
  | .coldPlateLimit x => Sys2Proof.Machine.execColdPlateLimit x s
  | .launchCheck q => Sys2Proof.Machine.execLaunchCheck q s
  | .launchBind n => Sys2Proof.Machine.execLaunchBind n s
  | .launchComplete n => Sys2Proof.Machine.execLaunchComplete n s
  | .illegalInstruction c h => Sys2Proof.Machine.execIllegalInstruction c h s
  | .instructionFetchFault c h => Sys2Proof.Machine.execInstructionFetchFault c h s
  | .reachLinkDown p => Sys2Proof.Machine.execReachLinkDown p s

end Sys2Proof.Machine
end

