-- ==== Sys2Proof/Machine/Work.lean ====
section
/-!
DEFINITION. The steps of the package that the present state suggests, in the order in which a turn without agenda tries them
(log 7). Steps that come from outside, such as a host request or an error, and those that are a choice of firmware come from the agenda only.
The memory service answers tickets here too, with the frames that it takes chosen from the top of HBM down.
-/

namespace Sys2Proof.Machine

/-- Steps of one hart. -/
def hartWork (s : State) (c : CoreId) (h : HartId) : List (State → Out) :=
  [Sys2Proof.Machine.execVectorComplete c h, Sys2Proof.Machine.execMomentComplete c h] ++
  ((s.hartAt c h).pend.flatMap fun p =>
    [Sys2Proof.Machine.execDivideResult c h p.id, Sys2Proof.Machine.execFdivFsqrtResult c h p.id, Sys2Proof.Machine.execLocalLoadComplete c h p.id]) ++
  [Sys2Proof.Machine.execWfiWake c h, Sys2Proof.Machine.execTwaitExpiry c h, Sys2Proof.Machine.execGroupJoinConfirm c h,
   Sys2Proof.Machine.execTicketRewind c h, Sys2Proof.Machine.execReactionAbortRestart c h, Sys2Proof.Machine.execTlbinvDrainComplete c h,
   Sys2Proof.Machine.execBatchFinish c h, Sys2Proof.Machine.execWaitaPoll c h, Sys2Proof.Machine.execWaitaLimitExpiry c h]

/-- Steps of one core. -/
def coreWork (s : State) (c : CoreId) : List (State → Out) :=
  let k := s.core c
  [Sys2Proof.Machine.execVectorAccept c, Sys2Proof.Machine.execMomentAccept c] ++ (hartIds.flatMap fun h => hartWork s c h) ++
  (k.chan.takers.map fun q => Sys2Proof.Machine.execDeqTake c q.2) ++
  (match k.tags.doomed with
    | some d => [Sys2Proof.Machine.execReactionAbort c ((k.tags.indexOf d).getD 0)]
    | none => []) ++
  [Sys2Proof.Machine.execNextDelivery c, Sys2Proof.Machine.execSwitchTimeReached c, Sys2Proof.Machine.execKennelRestart c] ++
  (List.range 16).map fun i => Sys2Proof.Machine.execGenerationComplete c (BitVec.ofNat 4 i)

/-- Steps of one access. -/
def accWork (a : Access) : List (State → Out) :=
  a.parts.flatMap fun p =>
    [Sys2Proof.Machine.execSliceWalk a.id p.n, Sys2Proof.Machine.execLoadRequest a.id p.n, Sys2Proof.Machine.execStoreRequest a.id p.n,
     Sys2Proof.Machine.execAtomicRequest a.id p.n, Sys2Proof.Machine.execStfFlagIncrement a.id, Sys2Proof.Machine.execDataResponse a.id p.n,
     Sys2Proof.Machine.execAcknowledgement a.id p.n, Sys2Proof.Machine.execNegativeAcknowledgement a.id p.n, Sys2Proof.Machine.execTicket a.id p.n]

/-- Steps of the interfaces at the ends of a flight: a copy that comes to nothing, and the timers that have run out. -/
def flightWork (f : Flight) : List (State → Out) :=
  [fun s => s.turnedAway f.n f.k, Sys2Proof.Machine.execMalformedPacket f.n, Sys2Proof.Machine.execReassemblyTimeout f.n,
   Sys2Proof.Machine.execResendTimeout f.n, Sys2Proof.Machine.execResendLimit f.n]

/-- Steps of what is in flight. -/
def netWork (s : State) : List (State → Out) :=
  s.net.accs.flatMap accWork ++
  (s.net.hcmds.flatMap fun (m : HartCmd) => [Sys2Proof.Machine.execHartStartCommand m.id, Sys2Proof.Machine.execHartStopCommand m.id]) ++
  (s.net.posts.flatMap fun (m : PostMsg) => [Sys2Proof.Machine.execTaggedMessage m.id, Sys2Proof.Machine.execInboxResend m.id]) ++
  (s.net.chans.flatMap fun (m : ChanMsg) => [Sys2Proof.Machine.execChannelMessage m.id, Sys2Proof.Machine.execChannelHeldResend m.id]) ++
  (s.net.events.map fun (e : EvMsg) => Sys2Proof.Machine.execEventRecord e.id) ++
  (s.net.partials.map fun (m : PartialMsg) => Sys2Proof.Machine.execPartialSums m.id) ++
  (s.net.cmds.flatMap fun (c : Cmd) =>
    [Sys2Proof.Machine.execStreamerCommand c.id, Sys2Proof.Machine.execBulkPiece c.id (c.pieces.findIdx fun p => !p.here), Sys2Proof.Machine.execBinBump c.id,
     Sys2Proof.Machine.execStreamerCommandComplete c.id]) ++
  (s.net.waves.map fun (w : Wave) => Sys2Proof.Machine.execCollectiveWave w.id) ++ s.net.flights.flatMap flightWork

/-- Steps of one array. -/
def arrayWork (a : BitVec 7) : List (State → Out) :=
  [Sys2Proof.Machine.execLeaseGrant a, Sys2Proof.Machine.execLeaseExpiry a, Sys2Proof.Machine.execArrayLoadBTile a,
   Sys2Proof.Machine.execRunAccept a, Sys2Proof.Machine.execMxzeroAccept a, Sys2Proof.Machine.execArrayRowCompute a,
   Sys2Proof.Machine.execRunComplete a]

/-- The horizon of a context, when publishing it changes something. -/
def horizonWork (x : BitVec 16) (s : State) : Out :=
  match Sys2Proof.Machine.execHorizonPublish x s with
  | .next t => if (s.partition x).any fun c => (t.core c).tags != (s.core c).tags then .next t else s.idle
  | r => r

/-- Steps of one context. -/
def contextWork (x : BitVec 16) : List (State → Out) :=
  [Sys2Proof.Machine.execPartitionStopped x, Sys2Proof.Machine.execSwitchDrainDone x, Sys2Proof.Machine.execSpillSweepEnd x,
   Sys2Proof.Machine.execResumeReinjectDone x, Sys2Proof.Machine.execLaunchReplay x, horizonWork x,
   Sys2Proof.Machine.execLaunchCheck (4096 + x.toNat)]

/-- Four free frames, searched from `f` down. -/
def searchFrames (s : State) : Nat → BitVec 36 → BitVec 36
  | 0, f => f
  | n + 1, f => if s.frameTaken f 4 then searchFrames s n (f - 4) else f

/-- The frames that the memory service takes when the agenda does not say: free ones, from the top of what it may allocate down. -/
def State.nextFrames (s : State) : BitVec 36 := searchFrames s 4096 (BitVec.ofNat 36 (s.cap.allocBytes / 4096 - 4))

/-- Steps of the slices, of recalls and of the front end. -/
def packageWork (s : State) : List (State → Out) :=
  (s.books.tickets.flatMap fun t => [Sys2Proof.Machine.execReplayNotice t.slice t.num, Sys2Proof.Machine.execTicketFault t.slice t.num,
     Sys2Proof.Machine.execMemoryServiceTicket t.slice t.num s.nextFrames]) ++
  (s.books.drains.filterMap fun d => match d.waiter with
    | .host p v z => some (Sys2Proof.Machine.execInvalidationCompletion p v z)
    | _ => none) ++
  (s.pkg.floodDue.map fun c => Sys2Proof.Machine.execRecallFloodArrival c) ++
  (s.pkg.sweepDue.map fun c => Sys2Proof.Machine.execRecallSweepEnd c) ++ [Sys2Proof.Machine.execPurgeConfirmed] ++
  (s.front.queues.map fun (q : QueueRec) => Sys2Proof.Machine.execLaunchCheck q.qidx.toNat) ++
  (s.front.launches.flatMap fun (l : Launch) => [Sys2Proof.Machine.execLaunchBind l.id, Sys2Proof.Machine.execLaunchComplete l.id])

/-- Steps of a retirement of a stack that has been announced, and of a phase that is open (R206). They go on while time passes. -/
def stackWork (c : Capacity) : List (State → Out) :=
  (match c.target with
    | some k => [Sys2Proof.Machine.execStackRetirement k]
    | none => []) ++
  (if c.isOpen then [Sys2Proof.Machine.execMigrationBlockMove, Sys2Proof.Machine.execMigrationBounce, Sys2Proof.Machine.execStackRetirement c.rstk] else [])

/-- Candidate steps. -/
def workList (s : State) : List (State → Out) :=
  [execBoot] ++ (s.cores.flatMap fun k => coreWork s k.1) ++ netWork s ++ (s.arrays.flatMap fun a => arrayWork a.1) ++
  (s.groups.map fun (g : Group) => Sys2Proof.Machine.execBarrierEpisodeComplete g.id) ++ packageWork s ++
  (((s.cores.map fun k => k.2.mem.ctxid).filter fun x => x != 0).eraseDups.flatMap contextWork)

end Sys2Proof.Machine
end

