-- ==== Sys2Proof/Machine/Issue.lean ====
section
/-!
DEFINITION. The issue slot (R94, R95): what one hart does when it gets the slot, how the halves of a pair become one instruction
(R50, R51), which hart gets the slot, and one turn of the machine.
-/

namespace Sys2Proof.Machine

/-- A step that a `Disp` reports as a trap. -/
def Disp.trapStage : Disp → Option Nat
  | .trapped n => some n
  | _ => Option.none

/-- Registers after both halves: each register takes the value of the half that changed it (R49 rule 4: never both). -/
def mergeRegs (old c a : Regs) : Regs where
  g := Vector.ofFn fun i => if a.g[i] == old.g[i] then c.g[i] else a.g[i]
  v := Vector.ofFn fun i => if a.v[i] == old.v[i] then c.v[i] else a.v[i]
  m := Vector.ofFn fun i => if a.m[i] == old.m[i] then c.m[i] else a.m[i]
  k := Vector.ofFn fun i => if a.k[i] == old.k[i] then c.k[i] else a.k[i]
  gFull := c.gFull ^^^ a.gFull ^^^ old.gFull
  vFull := c.vFull ^^^ a.vFull ^^^ old.vFull
  mFull := c.mFull ^^^ a.mFull ^^^ old.mFull

/-- The log records of the A half (R249). When the C half is an access, a rewind to it restores what the A half wrote too. -/
def pairLog (old c a : Hart) (ws : List RegRef) : List LogRec :=
  if c.nseq == old.nseq then a.log.drop old.log.length
  else ws.map fun r => .reg (2 * old.nseq + 1) r (old.regs.read r) (old.regs.full r)

/-- The hart after both halves of a pair (R50). `a` is the A half's hart, begun with the flags of FPSTAT and MOFLAGS clear; `ws` are the registers
that the A half writes. An operation of the A half is younger than an access of the C half, so that a rewind to it undoes the pair whole (R263). -/
def mergeHart (old c a : Hart) (ws : List RegRef) : Hart :=
  { c with
    regs := mergeRegs old.regs c.regs a.regs
    arith := { c.arith with fpstat := fpOr c.arith.fpstat (fpFlags a.arith.fpstat), moflags := c.arith.moflags ||| a.arith.moflags }
    pend := c.pend ++ (a.pend.filter fun p => !old.pend.any fun q => q.id == p.id).map fun p => { p with seq := c.nseq }
    log := c.log ++ pairLog old c a ws }

/-- The state in which the A half of a pair executes. -/
def State.issuingA (s : State) (c : CoreId) (h : HartId) (ic : Instr) : State :=
  { s.issuing c h .aHalf with
    cPfx := match ic with
      | .pfx x ce sc p q r f e _ _ => some (pfxFields x ce sc p q r f e)
      | _ => none }

/-- The same with the flags of FPSTAT and MOFLAGS clear, to learn those of the A half. -/
def State.clearFlags (s : State) : State :=
  s.onHart fun h => { h with arith := { h.arith with fpstat := h.arith.fpstat &&& ~~~0xF8#13, moflags := 0 } }

/-- The state in which a pair that issues now would leave one half undone: a fault of execution, found after every check, waits while the other half
is not ready (R56, R62, R94). -/
def trapsNow (n : Nat) (other : State) : Bool := decide (n < 10) || other.disp != .held

/-- Joins the outcomes of the halves (R50, R51, R62): `x` the C half's, `y` the A half's, `z` the A half's with clear flags, all from
`s`. A trap of either half is the pair's, the earlier check first; then an operand that is waited for; then the A half's precise
operation; else both retire. -/
def joinPair (ws : List RegRef) (s x y z : State) : State :=
  match x.disp.trapStage, y.disp.trapStage with
  | some m, some n => if m ≤ n then x else y
  | some m, none => if trapsNow m y then x else y
  | none, some n => if trapsNow n x then y else x
  | none, none =>
    if x.disp == .held then x.onHart fun h => { h with emptyMet := h.emptyMet.orElse fun _ => y.hart.emptyMet }
    else if y.disp == .held then y
    else if y.disp == .waiting then y
    else if x.disp == .waiting then x
    else
      { (x.onHart fun h => mergeHart s.hart h z.hart ws) with nextId := max x.nextId y.nextId }.retire

/-- Issues a pair. -/
def issuePair (s : State) (c : CoreId) (h : HartId) (ic ia : Instr) : Out :=
  let sc := s.issuing c h .cHalf
  let sa := s.issuingA c h ic
  match exec ic sc, exec ia sa, exec ia sa.clearFlags with
  | .next x, .next y, .next z => .next (joinPair (info ia).writes sc x y z)
  | .next _, r, _ => r
  | r, _, _ => r

/-- A watch on instruction fetch (R345): an instruction that passes the checks of groups 0 to 2 and matches traps before it has any
effect, or clears SKIP. `n` bytes were fetched. -/
def watchFetch (s : State) (c : CoreId) (h : HartId) (n : Nat) (o : Out) : Out :=
  match o with
  | .next r =>
    let x := s.hartAt c h
    let early := match r.disp with
      | .held => true
      | .trapped st => st != 10 || (let g := ((r.hartAt c h).trap.trcause.extractLsb' 6 3).toNat; g == 1 || g == 2)
      | _ => false
    let on (w : Nat) := x.watchedBy w .fetch x.pc.toNat n
    if (x.watched .fetch x.pc.toNat n).isNone || early then .next r
    else match x.trapping on with
    | none => .next (r.onHartAt c h fun k => k.usingSkips on)
    | some (w, a) => .next ((s.issuing c h .lone).fault 0x1C4#9 (BitVec.ofNat 64 a) (BitVec.ofNat 64 w))
  | r => r

/-- The hart is not ready: what it fetches has still to come. -/
def waitsForFetch (s : State) (c : CoreId) (h : HartId) : Out := .next (s.issuing c h .lone).hold

/-- What hart `h` of core `c` does when it gets the slot: it takes an interrupt that is due, else it issues what stands at its pc, from its fetch block
(R239). DEDUCED (log 137): an interrupt or trap that it takes uses the slot, and counts for R95 as an issue. -/
def issueHart (s : State) (c : CoreId) (h : HartId) : Out :=
  let t := s.fetched c h
  if s.interruptDue c h then Sys2Proof.Machine.execInterruptEntry c h s
  else match atPc t c h with
    | .lone i => watchFetch t c h 4 (exec i (t.issuing c h .lone))
    | .pair ic ia => watchFetch t c h 8 (issuePair t c h ic ia)
    | .illegal _ _ => Sys2Proof.Machine.execIllegalInstruction c h t
    | .misplaced => Sys2Proof.Machine.execIllegalInstruction c h t
    | .noFetch va (.ticket r l) => waitsForFetch (t.waitFetch c h va (some (r, l))) c h
    | .noFetch va .wait => waitsForFetch (t.waitFetch c h va none) c h
    | .noFetch va (.translate e) => waitsForFetch (t.cacheEntry (sliceOf c va) c e) c h
    | .noFetch _ _ => Sys2Proof.Machine.execInstructionFetchFault c h t

/-- The hart takes part in the contest for the slot (R94, R360): its next instruction decides the rest. -/
def contends (s : State) (c : CoreId) (h : HartId) : Bool :=
  (s.hartAt c h).pause == 0 && (((s.core c).awake && !s.timeUp c && s.interruptDue c h) || s.mayIssue c h)

/-- Tries every hart of the core that contends. The answer is the state, with what a hart that is not ready leaves (an empty register met, a ticket
opened), and the harts that are ready. -/
def readyHarts (s : State) (c : CoreId) : State × List HartId :=
  hartIds.foldl (fun a h =>
    if contends a.1 c h then
      match issueHart a.1 c h with
      | .next t => if t.disp == .held then (t, a.2) else (a.1, a.2 ++ [h])
      | _ => (a.1, a.2 ++ [h])
    else a) (s, [])

/-- The harts that are ready. The pauses of YIELD end at the first cycle in which no hart is ready but those that pause (R112). -/
def readyOrPaused (s : State) (c : CoreId) : State × List HartId :=
  let a := readyHarts s c
  if a.2.isEmpty && (hartIds.any fun h => (s.hartAt c h).pause != 0) then readyHarts (a.1.onHarts c fun _ x => { x with pause := 0 }) c else a

/-- n of R95: the harts of the core whose priority is at least that of hart `h`. -/
def priorityRank (k : Core) (h : HartId) : Nat := (hartIds.filter fun i => (k.hart h).prio.toNat ≤ (k.hart i).prio.toNat).length

/-- The first of `l` after the hart that last issued, wrapping (R95). -/
def roundRobin (l : List HartId) (last : Option HartId) : Option HartId :=
  match last with
  | none => l.head?
  | some p => match l.find? fun h => decide (p.toNat < h.toNat) with
    | some h => some h
    | none => l.head?

/-- The hart that gets the slot (R95). -/
def winner (k : Core) (ready : List HartId) : Option HartId :=
  let due := ready.filter fun h => decide (2 * priorityRank k h ≤ (k.hart h).lost)
  match due with
  | h :: t => some (t.foldl (fun b i => if (k.hart b).lost < (k.hart i).lost then i else b) h)
  | [] =>
    let top := ready.foldl (fun m h => max m (k.hart h).prio.toNat) 0
    roundRobin (ready.filter fun h => (k.hart h).prio.toNat == top) (k.lastAt[top]?.getD none)

/-- The counts of R95 after a core cycle in which `w` issued, the pauses of R112, and the core's cycle count (R96). -/
def countCycle (c : CoreId) (ready : List HartId) (w : Option HartId) (s : State) : State :=
  s.onCore c fun k =>
    let k := hartIds.foldl (fun k h =>
      k.setHart h { k.hart h with
        lost := if some h == w then 0 else if ready.contains h then (k.hart h).lost + 1 else 0
        pause := if (k.hart h).pause == 0 then 0 else if some h == w then (k.hart h).pause else (k.hart h).pause - 1 }) k
    { k with cycles := k.cycles + 1 }

/-- One core cycle of core `c`: the issue slot goes to a ready hart, if there is one (R94, R95). -/
def coreCycle (s : State) (c : CoreId) : Out × Bool :=
  let b := readyOrPaused s c
  let s := b.1
  match winner (s.core c) b.2 with
  | none => (.next { countCycle c [] none s with disp := .idle }, false)
  | some h =>
    let p := (s.hartAt c h).prio
    match issueHart s c h with
    | .next t =>
      let t' := countCycle c b.2 (some h) t
      (.next (t'.onCore c fun k => { k with lastAt := k.lastAt.setIfInBounds p.toNat (some h) }), true)
    | r => (r, true)

/-- The first candidate step that takes place. -/
def tryWork (s : State) : List (State → Out) → Option Out
  | [] => none
  | e :: t =>
    match e s with
    | .next s' => if s'.disp == .occurred then some (.next s') else tryWork s t
    | _ => tryWork s t

/-- The next listed core after `c` with a running hart, wrapping; `c` itself if there is none (log 7). -/
def nextHome (s : State) (c : CoreId) : CoreId :=
  let run := (s.cores.filter fun p => hartIds.any fun h => !(p.2.hart h).stopped).map (·.1)
  match run.find? fun k => decide (c.toNat < k.toNat) with
  | some k => k
  | none => run.head?.getD c

/-- The first step of the package that can take place, if any. -/
def packageStep (s : State) : Option Out := tryWork s (workList s)

/-- Nothing can take place: the package reference time moves on by `n` ns (log 7). -/
def timePasses (s : State) (n : Nat) : Out :=
  Sys2Proof.Machine.execTimeTreeReference (s.timeRef + BitVec.ofNat 64 n) s.home (s.core s.home).tags.skew s

/-- Home passes on to the next core. -/
def passHome (s : State) : State := { s with home := nextHome s s.home }

/-- A core cycle of the home core. -/
def homeTurn (s : State) (idle : State → Out) : Out :=
  let r := coreCycle s s.home
  match r.1 with
  | .next s' => if r.2 then .next (passHome s') else idle s'
  | r => r

/-- The first step of the package that can take place; when there is none, `n` ns pass, in which the retirement of a stack goes on. -/
def packageTurn (n : Nat) (s : State) : Out :=
  match packageStep s with
  | some r => r
  | none => match tryWork s (stackWork s.cap) with
    | some (.next t) => timePasses t n
    | _ => timePasses s n

/-- A turn that the agenda does not give (log 7): a core cycle of the home core, and when none of its harts is ready a turn of the package. One
turn of 64 is the package's in any case, so that a spinning program keeps neither it nor time from moving. -/
def defaultTurn (s : State) : Out :=
  let s := { s with beat := s.beat + 1 }
  if s.beat == 0 then packageTurn 32 s else homeTurn s fun s' => packageTurn 1 (passHome s')

/-- Steps that a package without firmware takes (R377): a reset, and time that passes; the compute dies stay in reset. -/
def worksUnbooted : Instr → Bool
  | .packageReset => true
  | .timeTreeReference .. => true
  | _ => false

/-- One turn: the head of the agenda, or what the default order gives. -/
def turnOf (s : State) : Out :=
  match s.agenda with
  | .issue c :: t => if s.pkg.boot == .noFirmware then State.idle { s with agenda := t } else (coreCycle { s with agenda := t } c).1
  | .event e :: t => if s.pkg.boot == .noFirmware && !worksUnbooted e then State.idle { s with agenda := t } else exec e { s with agenda := t }
  | [] => if s.pkg.boot == .noFirmware then timePasses s 1 else defaultTurn s

/-- One turn, after which the network interfaces know what has been met, answered and sent (R323). -/
def turn (s : State) : Out :=
  match turnOf s with
  | .next t => .next t.noteFlights
  | r => r

/-- Stores the bytes of a word, little-endian. -/
def placeWord (s : State) (c : CoreId) (off : Nat) (w : Word32) : State :=
  { s with mem := writeBytes s.mem (localKey c off) (wordBytes w) }

/-- Places a word where hart 0 of the boot core of die 0 fetches its next instruction. A word whose L bit is 0 is the half of a pair:
a class C word gets a NOP in its A slot, and a class A word stands in the A slot beside a FENCE that orders nothing. -/
def placeForFetch (s : State) (w : Word32) : State :=
  let a := ((s.hartAt 31 0).pc).toNat
  let s := s.onHartAt 31 0 fun h => { h with block := none }
  if w.getLsbD 0 then placeWord s 31 a w
  else if aSlotMajor w then placeWord (placeWord s 31 a 0x00000024#32) 31 (a + 4) w
  else placeWord (placeWord s 31 a w) 31 (a + 4) 0x00000054#32

end Sys2Proof.Machine
end

