-- ==== Sys2Proof/Machine/Step.lean ====
section
/-!
DEFINITION. One step of the machine, and how a program's word comes to stand where the next step fetches.
-/

namespace Sys2Proof.Machine

/-- One step: one turn of the agenda or of the default order. -/
def step (s : State) : Host.Outcome State Fault Refusal := turn s

/-- The state with the word `w` of a row of the opcode table placed at the pc of the boot hart (log 1): the manual's boot ROM and
loaders put programs there. -/
def State.withFetchWord (s : State) (nbits w : Nat) : State :=
  let _ := nbits
  placeForFetch s (BitVec.ofNat 32 w)

end Sys2Proof.Machine
end

