-- ==== Sys2Proof/Safety.lean ====
section
/-!
DEFINITION. What statements are made of: invariants, the conditions under which an instruction issues, and, written out field by field,
what it means that an instruction retires, transfers control, waits, or traps.
-/

namespace Sys2Proof.Machine

/-- Memory is in canonical form. -/
def State.Canonical (s : State) : Prop := Memory.wf s.mem = true

/-- A step answers a next state: the machine neither faults nor refuses. -/
def State.Steps (s : State) : Prop := ∃ t, step s = .next t

/-! When an instruction executes: the checks of R56 pass, its registers are full (R62) and what it needs is ready (R94). -/

/-- The executing hart's next word is `i`, every check before execution passes and nothing is waited for. -/
def State.issues (s : State) (i : Instr) : Bool :=
  prefixOk i s && privOk i s && loopsOk i s && s.hart.emptyMet != some s.slot && (touched i s).all s.hart.regs.full &&
    !notReady i s && s.flow == .next && (s.readyFor i).isNone

/-- No access of the executing hart is without its answer, and the hart is not parked on a ticket: a trap is taken at once (R250, R253). -/
def State.settled (s : State) : Bool := !s.unconfirmed s.cur s.curHart && !s.hart.tkp

/-! Retirement (R50, R96, R108, R109). -/

/-- What every retired lone word leaves behind: it is counted, and nothing of it is waited for any more. -/
def Hart.counted (h : Hart) : Hart :=
  { h with instret := h.instret + 1, we := false, emptyMet := none, wait := .none, waitAt := none,
           pend := h.pend.filter fun p => !p.isReady }

/-- A lone word retires and control goes on to the next word, or to where a loop that ends here wraps (R108). -/
def Hart.onwards (h : Hart) : Hart :=
  let r := loopCount h.pc 4 h.loops
  { h.counted with pc := r.2.getD (h.pc + 4), loops := r.1, arrival := if r.2.isSome then .taken else .fall, pp := false }

/-- A lone word retires and control goes to `t`; loops that `t` lies outside of are left (R109). -/
def Hart.goesTo (t : W) (h : Hart) : Hart := { h.counted with pc := t, loops := loopUnwind t 4 h.loops, arrival := .taken, pp := false }

/-- The state after an instruction whose effect has been `s`: a lone word has retired, the half of a pair waits for the other. -/
def State.retires (s : State) : State :=
  if s.slot == .lone then { s.onHart Hart.onwards with flow := .next, disp := .retired } else { s with disp := .retired }

/-- The same for a taken transfer to `t`. -/
def State.transfers (s : State) (t : W) : State :=
  if s.slot == .lone then { s.onHart (Hart.goesTo t) with flow := .next, disp := .retired }
  else { s with flow := .taken t, disp := .retired }

/-- A register write by the executing hart: the register becomes full, and while an older access is unconfirmed its old value goes
into the replay log (R60, R249). -/
def State.wrote (s : State) (r : RegRef) (x : BitVec 1024) : State :=
  s.onHart fun h =>
    { h with regs := h.regs.write x r,
             log := if s.unconfirmed s.cur s.curHart then h.log ++ [.reg (2 * h.nseq) r (h.regs.read r) (h.regs.full r)] else h.log }

/-- The same for a g register. -/
def State.wroteG (s : State) (d : BitVec 5) (x : W) : State :=
  s.onHart fun h =>
    { h with regs := h.regs.writeG d x,
             log := if s.unconfirmed s.cur s.curHart then h.log ++ [.reg (2 * h.nseq) (.g d) (h.regs.read (.g d)) (h.regs.full (.g d))] else h.log }

/-- A register is marked empty by the executing hart (R60, R249). -/
def State.emptied (s : State) (r : RegRef) : State :=
  s.onHart fun h =>
    { h with regs := h.regs.empty r,
             log := if s.unconfirmed s.cur s.curHart then h.log ++ [.reg (2 * h.nseq) r (h.regs.read r) (h.regs.full r)] else h.log }

/-- The executing hart puts an operation under way, with the next number. -/
def State.underway (s : State) (i : Instr) (k : PendKind) (ds : List RegRef) (precise : Bool) : State :=
  { s.onHart (fun h => { h with pend := h.pend ++ [{ id := s.fresh, seq := h.nseq, op := i, kind := k, dsts := ds, precise := precise }] }) with
    nextId := s.nextId + 1 }

/-- The instruction has issued and its hart waits in it. -/
def State.awaits (s : State) (i : Instr) (w : Wait) : State :=
  { s.onHart (fun h => { h with wait := w, waitAt := some { slot := s.slot, op := i }, we := false, emptyMet := none }) with disp := .waiting }

/-- The executing hart has taken a trap of execution, with this cause, TRADDR and TRINFO (R104). -/
def State.trapped (s : State) (cause : BitVec 9) (addr info : W) : State :=
  { s.onHart (trapHart (s.firmware s.cur) false cause addr info s.hart.pc) with disp := .trapped 10 }

end Sys2Proof.Machine
end

