-- ==== Sys2Proof/Safety/Memory.lean ====
section
/-!
DEFINITION. What the memory instructions ask for, written from the tables of the memory chapter (R211, R213, R216, R218, R237), and what
an access in the hart's own store does there.
-/

namespace Sys2Proof.Machine

/-- gA plus an offset counted in units (R211, R213, R237). -/
def addressFrom (s : State) (a : BitVec 5) (o : BitVec 8) (unit : Nat) : W := BitVec.ofInt 64 ((s.g a).toInt + o.toInt * unit)

/-- A scalar load of `size` bytes (R211); an ordered one lets no younger access of its hart pass (R225). -/
def loadAsk (s : State) (o : BitVec 8) (r : BitVec 2) (a d : BitVec 5) (size : Nat) (sx : Bool) : Ask where
  op := .load d sx
  els := [⟨addressFrom s a o size, size, 0, .load⟩]
  vec := false
  plain := r == 0
  acq := r != 0

/-- A scalar store of the low `size` bytes of gD (R211). -/
def storeAsk (s : State) (o : BitVec 8) (r : BitVec 2) (a d : BitVec 5) (size : Nat) : Ask where
  op := .store
  els := [⟨addressFrom s a o size, size, BitVec.ofNat 512 ((s.g d).toNat % 2 ^ (8 * size)), .store⟩]
  vec := false
  plain := r == 0
  acq := false

/-- A vector load of elements at the given addresses, `n` of them of `size` bytes each, under a form (R213, R214). -/
def gatherAsk (f : VForm) (d : BitVec 5) (bc : Bool) (n size : Nat) (at' : Nat → W) : Ask where
  op := f.loadOp d bc
  els := (List.range n).map fun i => ⟨at' i, size, 0, .load⟩
  vec := true
  plain := false
  acq := false

/-- A vector store of elements to the given addresses (R213, R214). -/
def spreadAsk (f : VForm) (xs : List Nat) (at' : Nat → W) : Ask where
  op := .vstore
  els := (xs.zip (List.range xs.length)).map fun x => ⟨at' x.2, f.elBytes, BitVec.ofNat 512 x.1, .store⟩
  vec := true
  plain := false
  acq := false

/-- A vector store of elements side by side (R213, R214). -/
def blockStoreAsk (f : VForm) (xs : List Nat) (va : W) : Ask where
  op := .vstore
  els := [⟨va, f.blockBytes, BitVec.ofNat 512 (joinEls f.memWidth (xs.map fun y => BitVec.ofNat 512 y)), .store⟩]
  vec := true
  plain := false
  acq := false

/-- What a load instruction asks for, and its destination (R211, R213). -/
def loadOf (s : State) : Instr → Option (RegRef × Ask)
  | .ldb o _ r a d _ _ => some (.g d, loadAsk s o r a d 1 true)
  | .ldh o _ r a d _ _ => some (.g d, loadAsk s o r a d 2 true)
  | .ldw o _ r a d _ _ => some (.g d, loadAsk s o r a d 4 true)
  | .ldd o _ r a d _ _ => some (.g d, loadAsk s o r a d 8 true)
  | .ldbu o _ r a d _ _ => some (.g d, loadAsk s o r a d 1 false)
  | .ldhu o _ r a d _ _ => some (.g d, loadAsk s o r a d 2 false)
  | .ldwu o _ r a d _ _ => some (.g d, loadAsk s o r a d 4 false)
  | .vld o a d _ _ => some (.v d, gatherAsk s.loadForm d false 1 s.loadForm.blockBytes fun _ => addressFrom s a o 64)
  | .vlds g a d _ _ => some (.v d, gatherAsk s.loadForm d false s.loadForm.lanes s.loadForm.elBytes fun i => s.g a + BitVec.ofNat 64 i * s.g g)
  | .vldx x a d _ _ => some (.v d, gatherAsk s.loadForm d false 16 s.loadForm.elBytes fun i =>
      BitVec.ofInt 64 ((s.g a).toInt + ((s.v x).extractLsb' (32 * i) 32).toInt))
  | .vldbc o a d _ _ => some (.v d, gatherAsk s.loadForm d true 1 s.loadForm.elBytes fun _ => addressFrom s a o 64)
  | _ => none

/-- What a store instruction asks for, and the flags that its conversion raises (R211, R213, R214, R218). -/
def storeOf (s : State) : Instr → Option (Ask × BitVec 5)
  | .stb o _ r a d _ _ => some (storeAsk s o r a d 1, 0)
  | .sth o _ r a d _ _ => some (storeAsk s o r a d 2, 0)
  | .stw o _ r a d _ _ => some (storeAsk s o r a d 4, 0)
  | .std o _ r a d _ _ => some (storeAsk s o r a d 8, 0)
  | .vst o a d _ _ => some (blockStoreAsk s.storeForm (s.storeEls s.storeForm (s.v d)).1 (addressFrom s a o 64), (s.storeEls s.storeForm (s.v d)).2)
  | .vsts g a d _ _ => some (spreadAsk s.storeForm (s.storeEls s.storeForm (s.v d)).1 fun i => s.g a + BitVec.ofNat 64 i * s.g g,
      (s.storeEls s.storeForm (s.v d)).2)
  | .vstx x a d _ _ => some (spreadAsk s.storeForm (s.storeEls s.storeForm (s.v d)).1 fun i =>
      BitVec.ofInt 64 ((s.g a).toInt + ((s.v x).extractLsb' (32 * i) 32).toInt), (s.storeEls s.storeForm (s.v d)).2)
  | _ => none

/-- A store with a flag: its data at gA, and one added to the doubleword at gB (R218). -/
def flagStoreAsk (s : State) (a b : BitVec 5) (size : Nat) (x : BitVec 512) : Ask where
  op := .stf
  els := [⟨s.g a, size, x, .store⟩, ⟨s.g b, 8, 0, .atomic⟩]
  vec := false
  plain := true
  acq := false

/-- What a store with a flag asks for (R218). -/
def flagStoreOf (s : State) : Instr → Option Ask
  | .stfw _ b a d _ _ => some (flagStoreAsk s a b 4 (BitVec.ofNat 512 ((s.g d).toNat % 2 ^ 32)))
  | .stfd _ b a d _ _ => some (flagStoreAsk s a b 8 (BitVec.ofNat 512 (s.g d).toNat))
  | .stfv _ b a d _ _ => some (flagStoreAsk s a b 64 (s.v d))
  | _ => none

/-- A scalar atomic of function `fn` (R216). -/
def atomicAsk (s : State) (fn : BitVec 5) (r : BitVec 2) (size : Nat) (b a d : BitVec 5) : Ask where
  op := .atomic fn (.g d) (BitVec.ofNat 512 (s.g b).toNat) (s.g d)
  els := [⟨s.g a, size, 0, .atomic⟩]
  vec := false
  plain := false
  acq := r.getLsbD 0

/-- An atomic on the 16 lanes of a line (R216). -/
def laneAtomicAsk (s : State) (fn : BitVec 5) (r : BitVec 2) (b a d : BitVec 5) : Ask where
  op := .atomic fn (.v d) (s.v b) 0
  els := [⟨s.g a, 64, 0, .atomic⟩]
  vec := false
  plain := false
  acq := r.getLsbD 0

/-- Bytes by the size bit of an atomic. -/
def sizeBit (z : Bool) : Nat := if z then 8 else 4

/-- The value of `x` as two's complement of `w` bits. -/
def signedLow (w : Nat) (x : Nat) : Int := if 2 ^ (w - 1) ≤ x % 2 ^ w then (x % 2 ^ w : Nat) - (2 ^ w : Nat) else (x % 2 ^ w : Nat)

/-- The 16 lanes of a line, each by `f` from the lanes of two lines. -/
def eachLane (f : Nat → Nat → Nat) (x y : Nat) : Nat :=
  (List.range 16).foldr (fun i t => f (x / 2 ^ (32 * i) % 2 ^ 32) (y / 2 ^ (32 * i) % 2 ^ 32) % 2 ^ 32 * 2 ^ (32 * i) + t) 0

/-- What an atomic asks for, and the new value that it leaves for an old one, of `w` bits (R216). `m` is the old value. -/
def atomicOf (s : State) : Instr → Option (Ask × (Nat → Nat))
  | .aadd _ r z b a d _ _ => some (atomicAsk s 0 r (sizeBit z) b a d, fun m => m + (s.g b).toNat)
  | .aand _ r z b a d _ _ => some (atomicAsk s 1 r (sizeBit z) b a d, fun m => Nat.land m (s.g b).toNat)
  | .aor _ r z b a d _ _ => some (atomicAsk s 2 r (sizeBit z) b a d, fun m => Nat.lor m (s.g b).toNat)
  | .axor _ r z b a d _ _ => some (atomicAsk s 3 r (sizeBit z) b a d, fun m => Nat.xor m (s.g b).toNat)
  | .amin _ r z b a d _ _ => some (atomicAsk s 4 r (sizeBit z) b a d, fun m =>
      if signedLow (8 * sizeBit z) m ≤ signedLow (8 * sizeBit z) (s.g b).toNat then m else (s.g b).toNat)
  | .amax _ r z b a d _ _ => some (atomicAsk s 5 r (sizeBit z) b a d, fun m =>
      if signedLow (8 * sizeBit z) (s.g b).toNat ≤ signedLow (8 * sizeBit z) m then m else (s.g b).toNat)
  | .aminu _ r z b a d _ _ => some (atomicAsk s 6 r (sizeBit z) b a d, fun m => min m ((s.g b).toNat % 2 ^ (8 * sizeBit z)))
  | .amaxu _ r z b a d _ _ => some (atomicAsk s 7 r (sizeBit z) b a d, fun m => max m ((s.g b).toNat % 2 ^ (8 * sizeBit z)))
  | .aswap _ r z b a d _ _ => some (atomicAsk s 8 r (sizeBit z) b a d, fun _ => (s.g b).toNat)
  | .acas _ r z b a d _ _ => some (atomicAsk s 9 r (sizeBit z) b a d, fun m =>
      if m = (s.g d).toNat % 2 ^ (8 * sizeBit z) then (s.g b).toNat else m)
  | .acasf _ r z b a d _ _ => some (atomicAsk s 10 r (sizeBit z) b a d, fun m =>
      if m = (s.g d).toNat % 2 ^ (8 * sizeBit z) then (s.g b).toNat else m)
  | .afadd _ r b a d _ _ => some (atomicAsk s 11 r 4 b a d, fun m => (fp32.add 0 m ((s.g b).toNat % 2 ^ 32)).1)
  | .afmin _ r b a d _ _ => some (atomicAsk s 12 r 4 b a d, fun m => (fp32.minMax false m ((s.g b).toNat % 2 ^ 32)).1)
  | .afmax _ r b a d _ _ => some (atomicAsk s 13 r 4 b a d, fun m => (fp32.minMax true m ((s.g b).toNat % 2 ^ 32)).1)
  | .avadd _ r b a d _ _ => some (laneAtomicAsk s 14 r b a d, fun m => eachLane (fun x y => (fp32.add 0 x y).1) m (s.v b).toNat)
  | .avmax _ r b a d _ _ => some (laneAtomicAsk s 15 r b a d, fun m => eachLane (fun x y => (fp32.minMax true x y).1) m (s.v b).toNat)
  | .aincw _ r z b a d _ _ => some (atomicAsk s 16 r (sizeBit z) b a d, fun m =>
      if (s.g b).toNat % 2 ^ (8 * sizeBit z) ≤ m then 0 else m + 1)
  | _ => none

/-- What an ordered access asks for (R236, R237): a store only of a hart whose reaction is active. -/
def orderedOf (s : State) : Instr → Option Ask
  | .tldw o a d _ _ => some (ask (.tload (.g d) true s.reactionTag) (addressFrom s a o 4) 4 0)
  | .tldd o a d _ _ => some (ask (.tload (.g d) true s.reactionTag) (addressFrom s a o 8) 8 0)
  | .tldv o a d _ _ => some (ask (.tload (.v d) true s.reactionTag) (addressFrom s a o 64) 64 0)
  | .tstw o a d _ _ => s.reactionTag.map fun t => ask (store t) (addressFrom s a o 4) 4 (BitVec.ofNat 512 ((s.g d).toNat % 2 ^ 32))
  | .tstd o a d _ _ => s.reactionTag.map fun t => ask (store t) (addressFrom s a o 8) 8 (BitVec.ofNat 512 (s.g d).toNat)
  | .tstv o a d _ _ => s.reactionTag.map fun t => ask (store t) (addressFrom s a o 64) 64 (s.v d)
  | _ => none
where
  /-- One ordered element. -/
  ask (op : AccOp) (va : W) (size : Nat) (x : BitVec 512) : Ask :=
    { op := op, els := [⟨va, size, x, .atomic⟩], vec := false, plain := false, acq := false }
  /-- The operation of an ordered store, with the cause of a full buffer by the priority of the reaction (R236). -/
  store (t : W × BitVec 32 × Nat) : AccOp := .tstore t.1 t.2.1 t.2.2 (BitVec.ofNat 9 (0x120 + s.hart.react.curp.toNat / 2))

/-- Address and size of an ordered store (R237). -/
def orderedStoreAt (s : State) : Instr → Option (W × Nat)
  | .tstw o a _ _ _ => some (addressFrom s a o 4, 4)
  | .tstd o a _ _ _ => some (addressFrom s a o 8, 8)
  | .tstv o a _ _ _ => some (addressFrom s a o 64, 64)
  | _ => none

/-- What any memory instruction asks for. -/
def memoryOf (s : State) (i : Instr) : Option Ask :=
  ((loadOf s i).map (·.2)) <|> ((storeOf s i).map (·.1)) <|> flagStoreOf s i <|> ((atomicOf s i).map (·.1)) <|> orderedOf s i

/-- The access is a new one: the hart holds no entry and no record of it from before a rewind (R252). -/
def State.isNew (s : State) : Bool := s.ownEntry.isNone && s.ownRecord.isNone

/-- The checks at the requester let every element pass, no watch matches one, and no older access of the hart owes a part of its own store to a line
of one (R195 to R202, R211, R222, R345). -/
def State.allows (s : State) (q : Ask) : Bool :=
  (firstStop s q q.els 0).isNone && (watchOn s.hart q 0).isNone && (watchOn s.hart q 1).isNone && !s.ownOwed q

/-- Some trap of FPSTAT is enabled (R39). -/
def Hart.trapsEnabled (h : Hart) : Bool := h.arith.fpstat.extractLsb' 8 5 != 0

/-- The hart waits in the instruction for the answer: an atomic, or a converting load that may trap (R130, R217). -/
def AccOp.awaited (op : AccOp) (h : Hart) : Bool :=
  match op with
  | .atomic .. => true
  | .vload .. => h.trapsEnabled
  | _ => false

/-- A load that converts has to wait until no older access of its hart is unconfirmed when a trap is enabled (log 44). -/
def State.convertsNow (s : State) (q : Ask) : Bool :=
  match q.op with
  | .vload .. => !s.hart.trapsEnabled || !s.unconfirmed s.cur s.curHart
  | _ => true

/-- Every element lies in the hart's own store (R195). -/
def Ask.isLocal (q : Ask) : Bool := q.els.all fun e => spaceOf e.va == .loc

/-- No element lies in the hart's own store. -/
def Ask.isRemote (q : Ask) : Bool := q.els.all fun e => spaceOf e.va != .loc

/-- What byte `a` of memory holds after the elements have been stored in ascending order in core `c`'s store; none if none covers it. -/
def storedByte (c : CoreId) (els : List El) (a : Nat) : Option Byte :=
  els.foldl (fun r e => if localKey c e.va.toNat ≤ a ∧ a < localKey c e.va.toNat + e.size then
    some (BitVec.ofNat 8 (e.data.toNat / 2 ^ (8 * (a - localKey c e.va.toNat)))) else r) none

/-- The number that `n` bytes hold, the least significant first (R3). -/
def bytesValue (m : Memory) (key : Nat) : Nat → Nat
  | 0 => 0
  | n + 1 => (readByte m key).toNat + 256 * bytesValue m (key + 1) n

/-- The value that a scalar load leaves (R211). -/
def loadedValue (m : Memory) (key size : Nat) (sx : Bool) : W :=
  BitVec.ofInt 64 (if sx then signedLow (8 * size) (bytesValue m key size) else bytesValue m key size)

end Sys2Proof.Machine
end

