-- ==== Sys2Proof/Safety/Units.lean ====
section
/-!
DEFINITION. Operations of the vector unit and the moment datapath (R129 to R171): which unit an instruction goes to with which operands,
and what the integer lanes and the moment lanes hold afterwards, written from the tables of their chapters.
-/

namespace Sys2Proof.Machine

/-- The unit and the operand fields of an instruction: whether it is a moment operation, the fields A, B and D, the second destination
of a pair of registers, and the mask. -/
structure UnitForm where
  moment : Bool
  a : BitVec 5
  b : BitVec 5
  d : BitVec 5
  d1 : BitVec 5 := 0
  k : BitVec 3
deriving DecidableEq, Repr

/-- A vector form of two sources. -/
def vecForm (a b d : BitVec 5) (k : BitVec 3) : Option UnitForm := some { moment := false, a := a, b := b, d := d, k := k }

/-- A form of the moment datapath. -/
def momForm (a b d : BitVec 5) (k : BitVec 3) : Option UnitForm := some { moment := true, a := a, b := b, d := d, k := k }

/-- The unit and operands of every vector and moment instruction (R133 to R153, R161 to R170). -/
def unitFormOf : Instr → Option UnitForm
  | .vadd _ k b a d _ _ => vecForm a b d k
  | .vsub _ k b a d _ _ => vecForm a b d k
  | .vmul _ k b a d _ _ => vecForm a b d k
  | .vfma _ k b a d _ _ => vecForm a b d k
  | .vmin _ k b a d _ _ => vecForm a b d k
  | .vmax _ k b a d _ _ => vecForm a b d k
  | .vabs _ k a d _ _ => vecForm a 0 d k
  | .vneg _ k a d _ _ => vecForm a 0 d k
  | .vand _ k b a d _ _ => vecForm a b d k
  | .vor _ k b a d _ _ => vecForm a b d k
  | .vxor _ k b a d _ _ => vecForm a b d k
  | .vshl k b a d _ _ => vecForm a b d k
  | .vshr k b a d _ _ => vecForm a b d k
  | .vsra k b a d _ _ => vecForm a b d k
  | .vceq _ k b a d _ _ => vecForm a b (d.setWidth 5) k
  | .vclt _ k b a d _ _ => vecForm a b (d.setWidth 5) k
  | .vcle _ k b a d _ _ => vecForm a b (d.setWidth 5) k
  | .vsel _ k b a d _ _ => vecForm a b d k
  | .vcvt _ k _ a d _ _ => vecForm a 0 d k
  | .vred _ k _ a d _ _ => vecForm a 0 d k
  | .vsplat _ k a d _ _ => vecForm a 0 d k
  | .vext _ _ a d _ _ => vecForm a 0 d 0
  | .vins _ _ a d _ _ => vecForm a 0 d 0
  | .vperm _ k b a d _ _ => vecForm a b d k
  | .vwfma _ k b a d _ _ => some { moment := false, a := a, b := b, d := d ++ 0#1, d1 := d ++ 1#1, k := k }
  | .vdot _ k b a d _ _ => vecForm a b d k
  | .vlut _ k _ a d _ _ => vecForm a 0 d k
  | .vpln _ a d _ _ => vecForm a 0 d 0
  | .vupl k _ a d _ _ => vecForm a 0 d k
  | .vrcp _ k a d _ _ => vecForm a 0 d k
  | .vrsq _ k a d _ _ => vecForm a 0 d k
  | .vexp _ k _ a d _ _ => vecForm a 0 d k
  | .kand b a d _ _ => vecForm (a.setWidth 5) (b.setWidth 5) (d.setWidth 5) 0
  | .kor b a d _ _ => vecForm (a.setWidth 5) (b.setWidth 5) (d.setWidth 5) 0
  | .kxor b a d _ _ => vecForm (a.setWidth 5) (b.setWidth 5) (d.setWidth 5) 0
  | .knot a d _ _ => vecForm (a.setWidth 5) 0 (d.setWidth 5) 0
  | .kpopc a d _ _ => vecForm (a.setWidth 5) 0 d 0
  | .kmovKK a d _ _ => vecForm (a.setWidth 5) 0 (d.setWidth 5) 0
  | .kmovKG a d _ _ => vecForm a 0 (d.setWidth 5) 0
  | .kmovGK a d _ _ => vecForm (a.setWidth 5) 0 d 0
  | .vidx _ k d _ _ => vecForm 0 0 d k
  | .vslide _ k b a d _ _ => vecForm a b d k
  | .vmov _ k a d _ _ => vecForm a 0 d k
  | .vtanh _ k a d _ _ => vecForm a 0 d k
  | .vrand k b a d _ _ => vecForm a b d k
  | .vpopc k a d _ _ => vecForm a 0 d k
  | .vpdot k b a d _ _ => vecForm a b d k
  | .vcvts _ k a d _ _ => vecForm a 0 d k
  | .vmulh k b a d _ _ => vecForm a b d k
  | .vsat k _ a d _ _ => vecForm a 0 d k
  | .madd k b a d _ _ => momForm (a.setWidth 5) (b.setWidth 5) (d.setWidth 5) k
  | .msub k b a d _ _ => momForm (a.setWidth 5) (b.setWidth 5) (d.setWidth 5) k
  | .mmul k b a d _ _ => momForm (a.setWidth 5) (b.setWidth 5) (d.setWidth 5) k
  | .mscal k b a d _ _ => momForm (a.setWidth 5) b (d.setWidth 5) k
  | .maddc k b a d _ _ => momForm (a.setWidth 5) b (d.setWidth 5) k
  | .mrelu k a d _ _ => momForm (a.setWidth 5) 0 (d.setWidth 5) k
  | .mexp k a d _ _ => momForm (a.setWidth 5) 0 (d.setWidth 5) k
  | .msig k a d _ _ => momForm (a.setWidth 5) 0 (d.setWidth 5) k
  | .mpack k b a d _ _ => momForm a b (d.setWidth 5) k
  | .mcoll k _ _ a d _ _ => momForm (a.setWidth 5) 0 d k
  | .mred k a d _ _ => momForm (a.setWidth 5) 0 (d.setWidth 5) k
  | .mmov k a d _ _ => momForm (a.setWidth 5) 0 (d.setWidth 5) k
  | .mzero k d _ _ => momForm 0 0 (d.setWidth 5) k
  | .mchk k a d _ _ => momForm a 0 (d.setWidth 5) k
  | _ => none

/-- The kind of an operation that has issued and is not accepted. -/
def UnitForm.issued (f : UnitForm) (o : OpCtx) : PendKind := if f.moment then .momIssued o else .vecIssued o

/-- The operands of an instruction as they stand. -/
def State.operands (s : State) (i : Instr) (f : UnitForm) : OpCtx := s.opCtx i f.a f.b f.d f.d1 f.k

/-- Registers that an operation will write; g0 is none (R60). -/
def unitWrites (i : Instr) : List RegRef := (info i).writes.filter fun r => r != .g 0

/-- Old values of registers go into the replay log while an older access is unconfirmed (R249). -/
def State.noted (s : State) (rs : List RegRef) : State :=
  s.onHart fun h =>
    { h with log := if s.unconfirmed s.cur s.curHart then h.log ++ rs.map fun r => .reg (2 * h.nseq) r (h.regs.read r) (h.regs.full r)
                    else h.log }

/-- The operation that waits first for its unit on a hart, with its operands. -/
def State.firstWaiting (s : State) (c : CoreId) (h : HartId) (moment : Bool) : Option (Pend × OpCtx) :=
  (s.hartAt c h).pend.findSome? fun p => (p.waiting moment).map fun o => (p, o)

/-- The kind of an accepted operation. -/
def acceptedAs (moment : Bool) (r : OpResult) : PendKind := if moment then .momAccepted r else .vecAccepted r

/-- A result as its hart's registers and flags take it (R130, R171). -/
def Hart.takes (r : OpResult) (k : Hart) : Hart :=
  { k with regs := r.writes.foldl (fun g w => g.write w.x w.r) k.regs,
           arith := { k.arith with fpstat := k.arith.fpstat ||| (r.flags.setWidth 13 <<< 3),
                                   moflags := k.arith.moflags ||| (BitVec.ofBool r.badNan ++ BitVec.ofBool r.badNeg) } }

/-- A 32-bit lane. -/
def lane32 (x : VReg) (j : Nat) : BitVec 32 := x.extractLsb' (32 * j) 32

/-- The INT32 element-wise instructions without a format of their own (R137, R138, R144, R151): destination and, from the lanes of vA,
vB and vD, the lane written. -/
def intLane : Instr → Option (BitVec 5 × (BitVec 32 → BitVec 32 → BitVec 32 → BitVec 32))
  | .vadd 3 _ _ _ d _ _ => some (d, fun a b _ => a + b)
  | .vsub 3 _ _ _ d _ _ => some (d, fun a b _ => a - b)
  | .vmul 3 _ _ _ d _ _ => some (d, fun a b _ => a * b)
  | .vfma 3 _ _ _ d _ _ => some (d, fun a b c => c + a * b)
  | .vmin 3 _ _ _ d _ _ => some (d, fun a b _ => if a.toInt ≤ b.toInt then a else b)
  | .vmax 3 _ _ _ d _ _ => some (d, fun a b _ => if b.toInt ≤ a.toInt then a else b)
  | .vabs 3 _ _ d _ _ => some (d, fun a _ _ => if a.toInt < 0 then -a else a)
  | .vneg 3 _ _ d _ _ => some (d, fun a _ _ => -a)
  | .vand 3 _ _ _ d _ _ => some (d, fun a b _ => a &&& b)
  | .vor 3 _ _ _ d _ _ => some (d, fun a b _ => a ||| b)
  | .vxor 3 _ _ _ d _ _ => some (d, fun a b _ => a ^^^ b)
  | .vshl _ _ _ d _ _ => some (d, fun a b _ => a <<< (b.toNat % 32))
  | .vshr _ _ _ d _ _ => some (d, fun a b _ => a >>> (b.toNat % 32))
  | .vsra _ _ _ d _ _ => some (d, fun a b _ => a.sshiftRight (b.toNat % 32))
  | .vmov 3 _ _ d _ _ => some (d, fun a _ _ => a)
  | .vmulh _ _ _ d _ _ => some (d, fun a b _ => BitVec.ofInt 32 (a.toInt * b.toInt / 2 ^ 32))
  | .vpopc _ _ d _ _ => some (d, fun a _ _ => BitVec.ofNat 32 ((List.range 32).filter fun j => a.getLsbD j).length)
  | _ => none

/-- A mean of a moment register, as FP32 bits (R154). -/
def meanLane (m : MReg) (j : Nat) : BitVec 32 := m.extractLsb' (32 * j) 32

/-- A variance of a moment register (R154). -/
def varLane (m : MReg) (j : Nat) : BitVec 32 := m.extractLsb' (512 + 32 * j) 32

/-- Rne of an FP32 operation. -/
def rneAdd (a b : BitVec 32) : BitVec 32 := BitVec.ofNat 32 (fp32.add 0 a.toNat b.toNat).1
/-- Rne(a − b). -/
def rneSub (a b : BitVec 32) : BitVec 32 := BitVec.ofNat 32 (fp32.sub 0 a.toNat b.toNat).1
/-- Rne(a · b). -/
def rneMul (a b : BitVec 32) : BitVec 32 := BitVec.ofNat 32 (fp32.mul 0 a.toNat b.toNat).1

/-- A variance as the check of R171 leaves it: +0 when it is negative or a NaN. -/
def checkedVar (s : BitVec 32) : BitVec 32 :=
  if s.getLsbD 31 || (s.extractLsb' 23 8 == 255 && s.extractLsb' 0 23 != 0) then 0 else s

/-- Mean and variance that a moment operation of independent elements leaves in lane `j` (R164, R165, R170). -/
def momentLane (o : OpCtx) (j : Nat) : Instr → Option (BitVec 4 × BitVec 32 × BitVec 32)
  | .madd _ _ _ d _ _ => some (d, rneAdd (meanLane o.ma j) (meanLane o.mb j), checkedVar (rneAdd (varLane o.ma j) (varLane o.mb j)))
  | .msub _ _ _ d _ _ => some (d, rneSub (meanLane o.ma j) (meanLane o.mb j), checkedVar (rneAdd (varLane o.ma j) (varLane o.mb j)))
  | .mmul _ _ _ d _ _ => some (d, rneMul (meanLane o.ma j) (meanLane o.mb j), checkedVar (rneAdd (rneAdd
      (rneMul (rneMul (meanLane o.ma j) (meanLane o.ma j)) (varLane o.mb j))
      (rneMul (rneMul (meanLane o.mb j) (meanLane o.mb j)) (varLane o.ma j))) (rneMul (varLane o.ma j) (varLane o.mb j))))
  | .mscal _ _ _ d _ _ => some (d, rneMul (lane32 o.b j) (meanLane o.ma j),
      checkedVar (rneMul (rneMul (lane32 o.b j) (lane32 o.b j)) (varLane o.ma j)))
  | .maddc _ _ _ d _ _ => some (d, rneAdd (meanLane o.ma j) (lane32 o.b j), checkedVar (varLane o.ma j))
  | .mpack _ _ _ d _ _ => some (d, lane32 o.a j, checkedVar (lane32 o.b j))
  | .mmov _ _ d _ _ => some (d, meanLane o.ma j, varLane o.ma j)
  | .mzero _ d _ _ => some (d, 0, 0)
  | _ => none

end Sys2Proof.Machine
end

