-- ==== Sys2Proof/Safety/Transit.lean ====
section
/-!
DEFINITION. What statements about accesses on their way and about waits that end are made of.
-/

namespace Sys2Proof.Machine

/-- What byte `x` of memory holds after `size` bytes of `data` have been written at `key`; none if it is not among them. -/
def writtenAt (key size data x : Nat) : Option Byte :=
  if key ≤ x ∧ x < key + size then some (BitVec.ofNat 8 (data / 2 ^ (8 * (x - key)))) else none

/-- The memory of `t` is that of `s` but for `size` bytes of `data` at `key`. -/
def onlyWrote (s t : State) (key size data : Nat) : Prop := ∀ x, readByte t.mem x = (writtenAt key size data x).getD (readByte s.mem x)

/-- Part `k` of access `n` stands at a stage. -/
def State.partAt (s : State) (n k : Nat) (st : Stage) : Prop := ∃ a p, s.acc n = some a ∧ a.part k = some p ∧ p.stage = st

/-- The part is on its way to a place in the package's memory that serves it now: nothing older of its hart to its line is outstanding,
no migration holds it, and no line of it is poisoned (R202, R206, R212, R222). -/
def State.servedAt (s : State) (a : Access) (p : Part) (pa : BitVec 48) : Prop :=
  (∃ z, p.stage = .sent (.phys pa z)) ∧ a.op.isMessage = false ∧ s.heldBack a.id p.n = false ∧ s.before a p = [] ∧ migrationHolds s.cap pa.toNat = false ∧
    pa.toNat < Config.deviceBase ∧ poisoned s pa.toNat p.size = false

/-- No part of an access of hart `h` of core `c` holds a ticket, a refusal or a fault, and the hart is not parked. -/
def State.untroubled (s : State) (c : CoreId) (h : HartId) : Prop :=
  (s.hartAt c h).tkp = false ∧ ∀ b ∈ s.net.accs, b.core = c → b.hart = h → ∀ q ∈ b.parts, q.stage.stuck = false

/-- Access `n` is confirmed, or no longer listed. -/
def State.confirms (s : State) (n : Nat) : Prop := ∀ b ∈ s.net.accs, b.id = n → b.confirmed = true

/-- The instruction that hart `h` of core `c` waited in at `w` has its result `r`: a lone word has written it and retired, the half of a
pair finds it when the pair issues again (R50). -/
def State.concluded (s t : State) (c : CoreId) (h : HartId) (w : WaitAt) (r : OpResult) : Prop :=
  let x := s.hartAt c h
  let y := t.hartAt c h
  y.wait = .none ∧ y.waitAt = none ∧
    (w.slot = .lone → y.regs = r.writes.foldl (fun g e => g.write e.x e.r) x.regs ∧ y.arith = (Hart.takes r x).arith ∧
      y.instret = x.instret + 1 ∧ y.pc = (loopCount x.pc 4 x.loops).2.getD (x.pc + 4)) ∧
    (w.slot ≠ .lone → y.pc = x.pc ∧ y.instret = x.instret ∧ ∃ p ∈ y.pend, p.op = w.op ∧ p.kind = .ready r)

/-- Hart `h` of core `c` has taken a trap with this cause and address; TRPC is `pc` (R104). -/
def State.tookTrap (s t : State) (c : CoreId) (h : HartId) (cause : BitVec 9) (addr pc : W) : Prop :=
  let x := s.hartAt c h
  let y := t.hartAt c h
  y.trap.trpc = pc ∧ y.trap.trcause = cause.setWidth 64 ∧ y.trap.traddr = addr ∧ y.pc = x.trap.tvec &&& ~~~3#64 ∧ y.ie = false ∧
    y.mode = targetMode (s.firmware c) x.mode x.trap.deleg false cause ∧ y.pmode = x.mode

/-- An interrupt that the hart has taken since access `n` is undone, as a rewind to that access does (log 11). -/
def State.uninterrupted (s : State) (c : CoreId) (h : HartId) (n : Nat) : State := s.onHartAt c h (undoInt n)

/-- No other access of the hart of access `a` is listed. -/
def State.onlyAccess (s : State) (a : Access) : Prop := ∀ b ∈ s.net.accs, b.core = a.core → b.hart = a.hart → b = a

/-- No other access than `a` holds this ticket. -/
def State.holdsAlone (s : State) (a : Access) (slice : BitVec 6) (num : BitVec 16) : Prop :=
  ∀ b ∈ s.net.accs, b ≠ a → ∀ p ∈ b.parts, p.stage ≠ .parked slice num

/-- A group 2 cause with the kind of access in bits 5:4 replaced (R245, R253). -/
def ofKind (cause : BitVec 9) (k : AccKind) : BitVec 9 := cause.extractLsb' 6 3 ++ BitVec.ofNat 2 k.code ++ cause.extractLsb' 0 4

/-- No error log of a die is enabled (R343). -/
def State.logsNowhere (s : State) : Prop := ∀ (d : Nat) (r : W), s.pkg.elog[d]? = some r → r.getLsbD 0 = false

/-- The flights of number `n` are `f` alone. -/
def State.oneFlight (s : State) (n : Nat) (f : Flight) : Prop := (s.net.flights.filter fun g => g.n == n) = [f]

/-- No part of an access of core `c` holds a ticket, a refusal or a fault. -/
def State.smooth (s : State) (c : CoreId) : Prop := ∀ a ∈ s.net.accs, a.core = c → ∀ p ∈ a.parts, p.stage.stuck = false

end Sys2Proof.Machine
end

