-- ==== Sys2Proof/Safety/Sync.lean ====
section
/-!
DEFINITION. What statements about fences, groups, time and messages are made of.
-/

namespace Sys2Proof.Machine

/-- The hart is a member of the group (R111). -/
def Group.has (g : Group) (c : CoreId) (h : HartId) : Prop := ∃ r, (c, h, r) ∈ g.members

/-- No two members of a group are one hart, and none counts twice. -/
def Group.plain (g : Group) : Prop := ∀ c h r r', (c, h, r) ∈ g.members → (c, h, r') ∈ g.members → r = r'

/-- The read of a WAITA at `va` (R230). -/
def waitaReads (va : W) (z : Bool) : Ask where
  op := .waita
  els := [⟨va, sizeBit z, 0, .load⟩]
  vec := false
  plain := true
  acq := false

/-- A tag as a pair of time and microstep, in the order of R264. -/
abbrev tagBelow (t : W) (m : BitVec 32) (t' : W) (m' : BitVec 32) : Prop := t.toNat < t'.toNat ∨ (t = t' ∧ m.toNat < m'.toNat)

/-- The tag of a POST of delay `d` (R282): one microstep later for 0, else `d` ns later, from the reaction's tag, or from (0, 0). -/
def postedTag (s : State) (d : W) : Nat × Nat :=
  let b := if s.hart.rx then (s.self.tags.lft.toNat, s.self.tags.lftm.toNat) else (0, 0)
  if d = 0 then (b.1, b.2 + 1) else (b.1 + d.toNat, 0)

/-- What the endpoint register of a post names: core, port and package, and whether its other bits are zero (R269). -/
structure Endpoint where
  core : CoreId
  port : BitVec 4
  pkg : BitVec 4
  ok : Bool
deriving DecidableEq, Repr

/-- Reads an endpoint (R269). -/
def endpointOf (e : W) : Endpoint where
  core := e.extractLsb' 0 12
  port := e.extractLsb' 12 4
  pkg := e.extractLsb' 16 4
  ok := e.toNat / 2 ^ 20 == 0

/-- Nothing that the hart's entry or record at its next number holds stands in the way of an instruction that takes the number (R249, R252, R254). -/
def State.mayTakeNumber (s : State) : Prop := s.doneBefore = false ∧ s.ownStops = none ∧ s.entryReady = true

/-- The posting hart may send this tag to this endpoint now: the tag is in range and, under TPF, not tardy (R264, R266, R282). -/
def postAllowed (s : State) (e : Endpoint) (tag : Nat × Nat) : Prop :=
  e.ok = true ∧ (e.pkg = 0 ∨ s.routed e.pkg = true) ∧ tag.1 < 2 ^ 63 ∧ tag.2 < 2 ^ 32 - 1 ∧
    (s.self.tags.tpf = true → (s.ptc s.cur).toNat + s.self.tags.flb.toNat ≤ tag.1 + s.self.tags.safeofs.toNat) ∧ s.mayTakeNumber

/-- What a late record holds, by the table of R278: the lowest bit of each field, its width and its value, for a record of this kind and action. TIME and
MSTEP are those of the message's original tag (log 153). -/
def lateFields (x : InMsg) (kind act : Nat) : List (Nat × Nat × Nat) :=
  [(0, 64, x.ot.toNat), (64, 6, 0), (70, 8, x.pidx.toNat), (78, 4, x.port.toNat), (82, 2, x.shart.toNat), (84, 12, x.score.toNat), (96, 32, x.om.toNat),
   (128, 3, kind), (131, 1, 0), (132, 3, act), (135, 1, 0), (136, 24, 0), (160, 32, x.alftm.toNat), (192, 64, x.alft.toNat), (256, 64, x.ahzn.toNat),
   (320, 32, 0), (352, 32, x.ahznm.toNat % 2 ^ 32), (384, 64, x.aptc.toNat), (448, 64, x.sptc.toNat), (512, 512, x.payload.toNat)]

/-- The 128 bytes at a key hold the late record of a message. -/
def holdsLate (m : Memory) (key : Nat) (x : InMsg) (kind act : Nat) : Prop :=
  ∀ f ∈ lateFields x kind act, bytesValue m key 128 / 2 ^ f.1 % 2 ^ f.2.1 = f.2.2

end Sys2Proof.Machine
end

