-- ==== Sys2Proof/Safety/Queue.lean ====
section
/-!
DEFINITION. What statements about queues are made of.
-/

namespace Sys2Proof.Machine

/-- The sending instructions (R304): queue, whether the message is 64 bytes wide, whether a full ring refuses it, and the message. -/
def sendOf (s : State) : Instr → Option (BitVec 5 × Bool × Bool × VReg)
  | .enq q d _ _ => some (q, false, false, (s.g d).setWidth 512)
  | .enqv q d _ _ => some (q, true, false, s.v d)
  | .enqn _ q d _ _ => some (q, false, true, (s.g d).setWidth 512)
  | _ => none

/-- The receiving instructions that wait (R308): queue, destination, and whether it takes 64 bytes. -/
def receiveOf : Instr → Option (BitVec 5 × RegRef × Bool)
  | .deq q d _ _ => some (q, .g d, false)
  | .deqv q d _ _ => some (q, .v d, true)
  | _ => none

/-- The oldest message of channel `q`, read at CONS round the ring's end, or the oldest record of the FIFO (R306, R308, R310). -/
def State.oldest (s : State) (c : CoreId) (q : BitVec 5) : VReg :=
  let k := (s.core c).chan
  let r := (k.chin[q.toNat]?).getD 0
  if q.toNat < 16 then
    BitVec.ofNat 512 (leNat ((List.range (if r.getLsbD 62 then 64 else 8)).map fun j =>
      readByte s.mem (localKey c (8 * (r.extractLsb' 3 16).toNat +
        ((((k.chptr[q.toNat]?).getD 0).extractLsb' 0 32).toNat + j) % (8 * (r.extractLsb' 19 16).toNat)))))
  else (((k.fifos[q.toNat - 16]?).getD []).head?.getD 0).setWidth 512

/-- The queue has lost its oldest message or record, and no other queue of the core has changed. -/
def State.gaveUp (s t : State) (c : CoreId) (q : BitVec 5) : Prop :=
  let k := (s.core c).chan
  let k' := (t.core c).chan
  let r := (k.chin[q.toNat]?).getD 0
  let p := (k.chptr[q.toNat]?).getD 0
  if q.toNat < 16 then
    k'.fifos = k.fifos ∧ k'.chptr = k.chptr.setIfInBounds q.toNat
      (p.extractLsb' 32 32 ++ (p.extractLsb' 0 32 + BitVec.ofNat 32 (if r.getLsbD 62 then 64 else 8)))
  else k'.chptr = k.chptr ∧ k'.fifos = k.fifos.setIfInBounds (q.toNat - 16) (((k.fifos[q.toNat - 16]?).getD []).drop 1)

end Sys2Proof.Machine
end

