-- ==== Sys2Proof/Safety/Xfer.lean ====
section
/-!
DEFINITION. What statements about streamers and batches are made of.
-/

namespace Sys2Proof.Machine

/-- The shape that a slot of the executing hart holds (R296). -/
def State.shapeIn (s : State) (i : BitVec 3) : Option Shape := (s.hart.batch.slots[i.toNat]?).getD none

/-- The streamer commands (R298 to R301): what the command does, its destination and source, and its length. -/
def transferOf (s : State) : Instr → Option (CmdKind × W × W × Nat)
  | .xcopy c b a _ _ => some (.copy, s.g a, s.g b, (s.g c).toNat)
  | .xfill c b a _ _ => some (.fill (s.g c), s.g a, s.g a, (s.g b).toNat)
  | .xcopys i b a _ _ => (s.shapeIn i).map fun x => (.copys x, s.g a, s.g b, 0)
  | .xgath c b a d _ _ => (s.shapeIn ((s.g c).extractLsb' 32 3)).map fun x =>
      (.gath x (s.g b) ((s.g c).extractLsb' 0 32).toNat, s.g d, s.g a, 0)
  | .xscat c b a d _ _ => (s.shapeIn ((s.g c).extractLsb' 32 3)).map fun x =>
      (.scat x (s.g b) ((s.g c).extractLsb' 0 32).toNat, s.g d, s.g a, 0)
  | _ => none

/-- A control word with a row count from 1 to 65,536 and no other bits than the slot (R299). -/
def plainCtl (x : W) : Prop :=
  x.toNat / 2 ^ 35 = 0 ∧ 1 ≤ (x.extractLsb' 0 32).toNat ∧ (x.extractLsb' 0 32).toNat ≤ 65536

/-- No check of R297 traps: counts, alignment, and bases and local ranges that the hart may name (R195, R197, R289). -/
def transferFine (s : State) : Instr → Prop
  | .xcopy c b a _ _ => (s.g c).toNat ≤ 2 ^ 32 ∧ s.baseCheck .store (s.g a) [((s.g a).toNat, (s.g c).toNat)] = none ∧
      s.baseCheck .load (s.g b) [((s.g b).toNat, (s.g c).toNat)] = none
  | .xfill _ b a _ _ => (s.g b).toNat ≤ 2 ^ 32 ∧ s.baseCheck .store (s.g a) [((s.g a).toNat, (s.g b).toNat)] = none
  | .xcopys i b a _ _ => ∃ x, s.shapeIn i = some x ∧ (s.g a).toNat % 2 ^ x.aln.toNat = 0 ∧ (s.g b).toNat % 2 ^ x.aln.toNat = 0 ∧
      s.baseCheck .store (s.g a) ((boxRows (s.g a) x.n1.toNat x.n2.toNat x.ds1 x.ds2).map fun r => (r, x.rowBytes)) = none ∧
      s.baseCheck .load (s.g b) ((boxRows (s.g b) x.n1.toNat x.n2.toNat x.ss1 x.ss2).map fun r => (r, x.rowBytes)) = none
  | .xgath c b a d _ _ => plainCtl (s.g c) ∧ ∃ x, s.shapeIn ((s.g c).extractLsb' 32 3) = some x ∧
      (s.g d).toNat % 2 ^ x.aln.toNat = 0 ∧ (s.g a).toNat % 2 ^ x.aln.toNat = 0 ∧ (s.g b).toNat % 4 = 0 ∧
      s.baseCheck .store (s.g d) (rowRanges (s.g d) ((s.g c).extractLsb' 0 32).toNat x.ds1 x.rowBytes) = none ∧
      s.baseCheck .load (s.g a) [] = none ∧ s.baseCheck .load (s.g b) [((s.g b).toNat, 4 * ((s.g c).extractLsb' 0 32).toNat)] = none
  | .xscat c b a d _ _ => plainCtl (s.g c) ∧ ∃ x, s.shapeIn ((s.g c).extractLsb' 32 3) = some x ∧
      (s.g d).toNat % 64 = 0 ∧ (s.g a).toNat % 2 ^ x.aln.toNat = 0 ∧ (s.g b).toNat % 4 = 0 ∧
      s.baseCheck .load (s.g d) [] = none ∧
      s.baseCheck .load (s.g a) (rowRanges (s.g a) ((s.g c).extractLsb' 0 32).toNat x.ss1 x.rowBytes) = none ∧
      s.baseCheck .load (s.g b) [((s.g b).toNat, 4 * ((s.g c).extractLsb' 0 32).toNat)] = none
  | _ => False

/-- For XSCAT: the bin table lies in a page of the commons that the hart's TLB holds, and the hart may read it (R301). -/
def tableReady (s : State) : Instr → Prop
  | .xscat _ _ _ d _ _ => spaceOf (s.g d) ≠ .loc ∧ spaceOf (s.g d) ≠ .peer ∧ s.allows (tableAsk (s.g d)) ∧ s.isNew ∧
      ∃ e, s.self.mem.lookup (s.g d) = some e ∧ Config.commonsBase ≤ (e.phys (s.g d)).toNat ∧
        (e.phys (s.g d)).toNat < Config.commonsBase + 0x100000000
  | _ => True

/-- The cause and the register value of the first of R297's traps about counts, slots and alignment. -/
def transferTrap (s : State) : Instr → Option (W × BitVec 9)
  | .xcopy c _ _ _ _ => if 2 ^ 32 < (s.g c).toNat then some (s.g c, 0x144) else none
  | .xfill _ b _ _ _ => if 2 ^ 32 < (s.g b).toNat then some (s.g b, 0x144) else none
  | .xcopys i b a _ _ => match s.shapeIn i with
    | none => some (0, 0x143)
    | some x => if (s.g a).toNat % 2 ^ x.aln.toNat ≠ 0 then some (s.g a, 0x142)
      else if (s.g b).toNat % 2 ^ x.aln.toNat ≠ 0 then some (s.g b, 0x142) else none
  | .xgath c b a d _ _ =>
    if (s.g c).toNat / 2 ^ 35 ≠ 0 ∨ ((s.g c).extractLsb' 0 32).toNat = 0 ∨ 65536 < ((s.g c).extractLsb' 0 32).toNat then some (s.g c, 0x144)
    else match s.shapeIn ((s.g c).extractLsb' 32 3) with
      | none => some (s.g c, 0x143)
      | some x => if (s.g d).toNat % 2 ^ x.aln.toNat ≠ 0 then some (s.g d, 0x142)
        else if (s.g a).toNat % 2 ^ x.aln.toNat ≠ 0 then some (s.g a, 0x142)
        else if (s.g b).toNat % 4 ≠ 0 then some (s.g b, 0x142) else none
  | .xscat c b a d _ _ =>
    if (s.g c).toNat / 2 ^ 35 ≠ 0 ∨ ((s.g c).extractLsb' 0 32).toNat = 0 ∨ 65536 < ((s.g c).extractLsb' 0 32).toNat then some (s.g c, 0x144)
    else match s.shapeIn ((s.g c).extractLsb' 32 3) with
      | none => some (s.g c, 0x143)
      | some x => if (s.g d).toNat % 64 ≠ 0 then some (s.g d, 0x142)
        else if (s.g a).toNat % 2 ^ x.aln.toNat ≠ 0 then some (s.g a, 0x142)
        else if (s.g b).toNat % 4 ≠ 0 then some (s.g b, 0x142) else none
  | _ => none

/-- `n` bytes at `va` lie in one page and the engine reaches them at the memory key, the page being one that its slice holds already if the address is
global (R246). -/
def reachesAt (s : State) (p : Party) (k : AccKind) (va : W) (n key : Nat) : Prop :=
  va.toNat % 4096 + n ≤ 4096 ∧ engineReach s p k va n = .here s key

/-- None of the bytes is poisoned. -/
def unpoisoned (s : State) (key n : Nat) : Prop := ∀ j, j < n → poisoned s (key + j) 1 = false

end Sys2Proof.Machine
end

