-- ==== Sys2Proof/Safety/Coll.lean ====
section
/-!
DEFINITION. What statements about collectives are made of.
-/

namespace Sys2Proof.Machine

/-- The register that names a slot, and whether bit 4 may be set in it (R336, R337). -/
def slotOf (s : State) : Instr → Option (W × Bool)
  | .warm _ _ a _ _ => some (s.g a, true)
  | .wdisarm a _ _ => some (s.g a, false)
  | .wcnt a _ _ _ => some (s.g a, false)
  | .wadd _ a _ _ => some (s.g a, false)
  | .wwait _ a _ _ _ => some (s.g a, false)
  | .wstart a _ _ => some (s.g a, false)
  | _ => none

/-- No hart of core `c` waits in WSTART on slot `i` while that slot's generation is done. -/
def State.noStarter (s : State) (c : CoreId) (i : BitVec 4) : Prop := (s.cslot c i).done = true → ∀ h, (s.hartAt c h).wait ≠ .wstart i

/-- Slot `y` is slot `x` with one more problem, of outcome `o`: the worse outcome stands, but that of a malformed entry always does (R335, R337). -/
def CSlot.worsened (x y : CSlot) (o : Nat) : Prop :=
  y.outcome.toNat = (if x.err = true ∧ x.outcome = 3 then 3 else max x.outcome.toNat o) ∧ y.problems.toNat = min 15 (x.problems.toNat + 1)

/-- Wave `n` was answered at its sender, which awaited it, with one problem of outcome `o` (R335). -/
def State.answeredWave (s t : State) (w : Wave) (o : Nat) : Prop := w.id ∈ (s.cslot w.core w.slot).owed →
  (s.cslot w.core w.slot).worsened (t.cslot w.core w.slot) o ∧ w.id ∉ (t.cslot w.core w.slot).owed

/-- The last packet of the wave comes, and its interface lets it in (R320, R321, R323). -/
def State.lastPacket (s : State) (w : Wave) : Prop := s.heldBack w.id w.got = false ∧ w.packets ≤ w.got + 1

/-- The instructions that a slot must be armed for (R337). -/
def needsArm : Instr → Bool
  | .wdisarm _ _ _ => true
  | .wadd _ _ _ _ => true
  | .wwait _ _ _ _ _ => true
  | .wstart _ _ _ => true
  | _ => false

/-- The instructions that a slot in error turns away (R337). -/
def needsNoError : Instr → Bool
  | .wadd _ _ _ _ => true
  | .wwait _ _ _ _ _ => true
  | .wstart _ _ _ => true
  | _ => false

end Sys2Proof.Machine
end

