-- ==== Sys2Proof/Safety/Csr.lean ====
section
/-!
DEFINITION. What statements about control and status registers are made of.
-/

namespace Sys2Proof.Machine

/-- The CSR instructions (R92): form, register number, source and destination. -/
def csrOf (s : State) : Instr → Option (CsrForm × Nat × W × BitVec 5)
  | .csrrw c a d _ _ => some (.write, c.toNat, s.g a, d)
  | .csrrs c a d _ _ => some (.set, c.toNat, s.g a, d)
  | .csrrc c a d _ _ => some (.clear, c.toNat, s.g a, d)
  | .csrwi c z d _ _ => some (.write, c.toNat, z.setWidth 64, d)
  | .csrsi c z d _ _ => some (.set, c.toNat, z.setWidth 64, d)
  | .csrci c z d _ _ => some (.clear, c.toNat, z.setWidth 64, d)
  | _ => none

/-- The value that a form leaves in a register without side effects (R92). -/
def CsrForm.leaves (f : CsrForm) (old m : W) : W :=
  match f with
  | .write => m
  | .set => old ||| m
  | .clear => old &&& ~~~m

/-- Registers that a program may write and that read back what was written: TVEC to TSCRATCH, PFXSTATE, IEN, CYCLE, INSTRET, TERR, WAITLIM, SCALE,
CBLO, CBHI, VOPS, MOMODE, AGID, AGTAB, WINBASE, PTBASE, HPASID, TKLIM, SAFEOFS, the tag fault bounds, PORTCFG, XHANDLE, CHOUT, COLLDENS,
FABSTAT, SAVEBASE, KENTRY, CHKSTAT, WATCH, PWRCLS, PWRBUD and FWMASK. -/
def plainCsr (n : Nat) : Bool :=
  decide (0x008 ≤ n ∧ n ≤ 0x00F) || n == 0x011 || n == 0x012 || n == 0x014 || n == 0x030 || decide (0x108 ≤ n ∧ n ≤ 0x111 ∧ n ≠ 0x110 ∧ n ≠ 0x111) ||
    n == 0x110 || n == 0x111 || n == 0x120 || n == 0x140 || n == 0x1C0 || n == 0x1C2 || n == 0x1E0 || n == 0x200 || n == 0x201 ||
    n == 0x209 || n == 0x240 || n == 0x24A || decide (0x250 ≤ n ∧ n ≤ 0x25F) || n == 0x283 || decide (0x2B0 ≤ n ∧ n ≤ 0x2BF) ||
    n == 0x2C0 || n == 0x2C2 || n == 0x303 || n == 0x311 || n == 0x318 || n == 0x338 || n == 0x33A || n == 0x380 || n == 0x383 || n == 0x385

/-- Registers that read back what was written, of which some may hold certain values only: whether they may hold `x`. HPRIO, DELEG of a firmware core
and MOFLAGS hold any; FPSTAT only a rounding mode up to 4 (R39), MXPRIO a count of 1 to 64 (R179), LGUARD a limit below the spill reserve (R198), CHIN a ring
that lies below it, CHPTR any while its ring is not bound (R306), BOPEN and BDONE at most 15 unfinished batches (R291), XCOMP no mode 3 (R303),
FABCFG a timeout (R325), and WCTL a size of 3 to 47 (R344). -/
def mayHold (s : State) (n : Nat) (x : W) : Option Bool :=
  let f (lo w : Nat) : Nat := x.toNat / 2 ^ lo % 2 ^ w
  if n = 0x002 ∨ n = 0x141 ∨ (n = 0x018 ∧ s.firmware s.cur = true) then some true
  else if n = 0x100 then some (decide (f 0 3 ≤ 4))
  else if n = 0x180 then some (decide (1 ≤ f 0 7 ∧ f 0 7 ≤ 64))
  else if 0x1D0 ≤ n ∧ n ≤ 0x1D7 then some (decide (n % 2 = 0 ∨ f 6 14 ≤ Config.spillBase / 64))
  else if n = 0x280 then some (decide ((x.extractLsb' 0 16 - s.hart.batch.bdone - 1).toNat ≤ 15))
  else if n = 0x281 then some (decide ((s.hart.batch.bopen - x.extractLsb' 0 16 - 1).toNat ≤ 15))
  else if n = 0x282 then some (decide (f 0 2 ≠ 3))
  else if 0x290 ≤ n ∧ n ≤ 0x29F then some (decide (f 63 1 = 1 → f 19 16 ≠ 0 ∧ 8 * f 3 16 + 8 * f 19 16 ≤ Config.spillBase))
  else if 0x2A0 ≤ n ∧ n ≤ 0x2AF then some (!((s.self.chan.chin[n - 0x2A0]?).getD 0).getLsbD 63)
  else if n = 0x2C1 then some (decide (f 0 32 ≠ 0))
  else if n = 0x339 ∨ n = 0x33B then some (decide (3 ≤ f 10 6 ∧ f 10 6 ≤ 47))
  else none

/-- The executing hart has taken an illegal-instruction trap of this kind (R57). -/
def State.tookIllegal (s t : State) (kind : Nat) : Prop :=
  let x := s.hart
  let y := t.hart
  y.trap.trpc = x.pc ∧ y.trap.trcause.extractLsb' 3 6 = BitVec.ofNat 6 kind ∧ y.trap.trcause.toNat < 0x40 ∧ y.trap.traddr = 0 ∧
    y.pc = x.trap.tvec &&& ~~~3#64 ∧ y.ie = false ∧ y.pmode = x.mode ∧ y.regs = x.regs ∧ t.mem = s.mem

/-- What CSR `n` of hart `h` of core `c` reads at reset (R89): the values of the register maps, zero but for these; HSTAT and the number of the
hart follow the hart. -/
def csrAtReset (c : CoreId) (h : HartId) (n : Nat) : W :=
  if n = 0x000 then (if firmwareAtReset c then 3 else 1)
  else if n = 0x001 then (h ++ c).setWidth 64
  else if n = 0x014 then 3
  else if n = 0x030 then 0x00100000
  else if 0x108 ≤ n ∧ n ≤ 0x10F then 0x3F800000
  else if n = 0x140 then 0x004
  else if n = 0x180 then 16
  else if n = 0x1C8 then 0x0FFF018000000000
  else if n = 0x1CA then 0xFFFFFFFFFF
  else if n = 0x209 then 0x04000000
  else if n = 0x240 then 1000
  else if n = 0x24A then 0x000000FA00000000
  else if n = 0x280 then 1
  else if n = 0x2C0 then 256
  else if n = 0x2C1 then 0x0000000800001800
  else if n = 0x339 ∨ n = 0x33B then 0xC00
  else if n = 0x380 then 1
  else if n = 0x382 then 0x0000008000000000
  else if n = 0x383 then 4200
  else 0

end Sys2Proof.Machine
end

