-- ==== Sys2Proof/Safety/Mtx.lean ====
section
/-!
DEFINITION. What statements about the matrix arrays are made of.
-/

namespace Sys2Proof.Machine

/-- The array beside the executing hart's core, as a register value (R11). -/
def State.ownArray (s : State) : BitVec 7 := s.cur.extractLsb' 10 2 ++ s.cur.extractLsb' 7 3 ++ s.cur.extractLsb' 3 2

/-- The hart holds a lease, and its array takes another command of it now (R176, R177, R188). -/
def State.arrayTakes (s : State) : Prop :=
  let y := s.array s.hart.mx.array
  s.hart.mx.held = true ∧
    y.queue.length + (y.runs.filter fun r => r.next == 0 && r.outcome == 0).length < 4 ∧
    y.cmds < y.limit.toNat ∧ y.rows < 65536

/-- The hart has no lease and no request for one (R177). -/
def State.unleashed (s : State) : Prop := s.hart.mx.held = false ∧ s.hart.mx.queued = false

/-- A command of a hart without a lease traps with 0x150, or after a revocation with 0x151, which clears REV (R177, R178, R181). -/
def trapsUnleashed (i : Instr) (s : State) : Prop := s.unleashed → s.settled = true →
  (s.hart.mx.rev = false → exec i s = .next (s.trapped 0x150 0 0)) ∧
  (s.hart.mx.rev = true → exec i s = .next ((s.onHart fun h => { h with mx := { h.mx with rev := false } }).trapped 0x151 0 0))

/-- The operands of an MXLDB that R185 allows. -/
def loadFine (s : State) (x y : W) : Prop :=
  let fmt := pfFB (s.prefixed.getD 0)
  x.extractLsb' 0 17 = 0 ∧ x.extractLsb' 25 39 = 0 ∧ y.extractLsb' 1 63 = 0 ∧
    (y.getLsbD 0 = true → x.getLsbD 17 = false ∧ (fmt = 0 ∨ fmt = 2 ∨ fmt = 3))

/-- Format, row bytes, stride and bytes in all of the A rows that an MXRUN names (R188). -/
def runRows (s : State) (opt n : W) : BitVec 4 × Nat × W × Nat :=
  let p := s.prefixed.getD 0
  let fa : BitVec 4 := if pfFA p = 0 then 2 else pfFA p
  let size := rowSize fa (opt.extractLsb' 1 2).toNat ((pfPP p).toNat + 1)
  let stride : W := if opt.extractLsb' 8 24 = 0 then BitVec.ofNat 64 size else (opt.extractLsb' 8 24).setWidth 64
  (fa, size, stride, (n.toNat - 1) * stride.toNat + size)

/-- What the pseudocode of R188 raises for the registers of an MXRUN before it asks for the lease, in its order: cause and TRADDR. -/
def runProblem (s : State) (opt n : W) : Option (BitVec 9 × W) :=
  let m := s.hart.mx
  let r := rectOf m.desc m.lbase
  let fa := (runRows s opt n).1
  let float : Bool := fa == 2 || fa == 3
  let last := m.lastLoad.getD (false, 2, false)
  let lastFloat : Bool := last.2.1 == 0 || last.2.1 == 2 || last.2.1 == 3
  let mode := opt.extractLsb' 1 2
  if opt.extractLsb' 6 2 ≠ 0 ∨ opt.extractLsb' 48 16 ≠ 0 ∨ mode = 3 ∨ opt.extractLsb' 8 3 ≠ 0 then some (0x157, opt)
  else if float = true ∧ opt.extractLsb' 3 3 ≠ 0 then some (0x157, opt)
  else if m.valid = false then some (0x15B, 0)
  else if n = 0 ∨ 65536 < n.toNat ∨ r.h * r.rpc < (opt.extractLsb' 32 16).toNat + n.toNat then some (0x158, n)
  else if m.loaded = false ∨ float ≠ lastFloat ∨ (mode ≠ 0 ∧ float = false) then some (0x159, 0)
  else if (decide (mode ≠ 0)) ≠ r.pairs ∨ (decide (mode = 2)) ≠ last.2.2 then some (0x15A, 0)
  else if s.rectRefused then some (0x156, m.desc)
  else none

/-- The command counts in the lease of its hart as it enters the queue of the array (R176); `rows` are those of a run. -/
def countedAt (s t : State) (a : BitVec 7) (rows : Nat) : Prop := (s.array a).holder = some (s.cur, s.curHart) →
  (t.array a).cmds = (s.array a).cmds + 1 ∧ (t.array a).rows = (s.array a).rows + rows ∧ t.hart.mx.used = s.hart.mx.used + 1

/-- The command's place in the queue of array `a` of `t`: behind those of `s`. -/
def queuedAt (s t : State) (a : BitVec 7) (k : MxCmd) : Prop := (t.array a).queue = (s.array a).queue ++ [k]

/-- The command was sent by the executing hart, with its context, agent, mode and rectangle. -/
def MxCmd.sentBy (k : MxCmd) (s : State) : Prop :=
  k.core = s.cur ∧ k.hart = s.curHart ∧ k.ctx = s.self.mem.ctxid ∧ k.agid = s.hart.agid ∧ k.mode = s.hart.mode ∧
    k.desc = s.hart.mx.desc ∧ k.lbase = s.hart.mx.lbase

/-- Array `a` has taken the head of its queue, which was counted as it entered (R176, R188). -/
def tookHead (s t : State) (a : BitVec 7) : Prop :=
  let x := s.array a
  let y := t.array a
  y.queue = x.queue.drop 1 ∧ y.holder = x.holder ∧ y.fifo = x.fifo ∧ y.cmds = x.cmds ∧ y.rows = x.rows

end Sys2Proof.Machine
end

