-- ==== Sys2Proof/Safety/Scalar.lean ====
section
/-!
DEFINITION. What the scalar instructions compute, written from the tables of the scalar chapter with integers, numbers and lists of
bits (R116 to R128).
-/

namespace Sys2Proof.Machine

/-- One if the condition holds, else zero. -/
def oneIf (p : Prop) [Decidable p] : W := if p then 1 else 0

/-- Leading zero bits, counted from bit 63 down. -/
def leadZeros (a : W) : Nat := ((List.range 64).takeWhile fun j => !a.getLsbD (63 - j)).length

/-- Trailing zero bits, counted from bit 0 up. -/
def trailZeros (a : W) : Nat := ((List.range 64).takeWhile fun j => !a.getLsbD j).length

/-- One bits. -/
def oneBits (a : W) : Nat := ((List.range 64).filter fun j => a.getLsbD j).length

/-- A left shift by `n`, less than 64. -/
def shiftLeft (a : W) (n : Nat) : W := BitVec.ofNat 64 (a.toNat * 2 ^ n)
/-- An unsigned right shift. -/
def shiftRight (a : W) (n : Nat) : W := BitVec.ofNat 64 (a.toNat / 2 ^ n)
/-- A signed right shift: division rounding down. -/
def shiftRightSigned (a : W) (n : Nat) : W := BitVec.ofInt 64 (a.toInt / 2 ^ n)
/-- A rotation to the left by `n`, less than 64. -/
def turnLeft (a : W) (n : Nat) : W := if n = 0 then a else BitVec.ofNat 64 (a.toNat * 2 ^ n + a.toNat / 2 ^ (64 - n))
/-- A rotation to the right by `n`, less than 64. -/
def turnRight (a : W) (n : Nat) : W := if n = 0 then a else BitVec.ofNat 64 (a.toNat / 2 ^ n + a.toNat * 2 ^ (64 - n))
/-- A 32-bit result, sign-extended. -/
def low32 (z : Int) : W := BitVec.ofInt 64 (BitVec.ofInt 32 z).toInt

/-- Destination and result of the integer register operations but the divides (R116). -/
def registerResult (s : State) : Instr → Option (BitVec 5 × W)
  | .add b a d _ _ => some (d, BitVec.ofNat 64 ((s.g a).toNat + (s.g b).toNat))
  | .sub b a d _ _ => some (d, BitVec.ofInt 64 ((s.g a).toInt - (s.g b).toInt))
  | .and b a d _ _ => some (d, s.g a &&& s.g b)
  | .or b a d _ _ => some (d, s.g a ||| s.g b)
  | .xor b a d _ _ => some (d, s.g a ^^^ s.g b)
  | .sll b a d _ _ => some (d, shiftLeft (s.g a) ((s.g b).toNat % 64))
  | .srl b a d _ _ => some (d, shiftRight (s.g a) ((s.g b).toNat % 64))
  | .sra b a d _ _ => some (d, shiftRightSigned (s.g a) ((s.g b).toNat % 64))
  | .slt b a d _ _ => some (d, oneIf ((s.g a).toInt < (s.g b).toInt))
  | .sltu b a d _ _ => some (d, oneIf ((s.g a).toNat < (s.g b).toNat))
  | .mul b a d _ _ => some (d, BitVec.ofInt 64 ((s.g a).toInt * (s.g b).toInt))
  | .mulh b a d _ _ => some (d, BitVec.ofInt 64 ((s.g a).toInt * (s.g b).toInt / 2 ^ 64))
  | .mulhu b a d _ _ => some (d, BitVec.ofNat 64 ((s.g a).toNat * (s.g b).toNat / 2 ^ 64))
  | .min b a d _ _ => some (d, if (s.g a).toInt ≤ (s.g b).toInt then s.g a else s.g b)
  | .max b a d _ _ => some (d, if (s.g b).toInt ≤ (s.g a).toInt then s.g a else s.g b)
  | .minu b a d _ _ => some (d, if (s.g a).toNat ≤ (s.g b).toNat then s.g a else s.g b)
  | .maxu b a d _ _ => some (d, if (s.g b).toNat ≤ (s.g a).toNat then s.g a else s.g b)
  | .clz a d _ _ => some (d, BitVec.ofNat 64 (leadZeros (s.g a)))
  | .ctz a d _ _ => some (d, BitVec.ofNat 64 (trailZeros (s.g a)))
  | .popc a d _ _ => some (d, BitVec.ofNat 64 (oneBits (s.g a)))
  | .rol b a d _ _ => some (d, turnLeft (s.g a) ((s.g b).toNat % 64))
  | .ror b a d _ _ => some (d, turnRight (s.g a) ((s.g b).toNat % 64))
  | .addw b a d _ _ => some (d, low32 ((s.g a).toInt + (s.g b).toInt))
  | .subw b a d _ _ => some (d, low32 ((s.g a).toInt - (s.g b).toInt))
  | .sel c b a d _ _ => some (d, if s.g c = 0 then s.g b else s.g a)
  | _ => none

/-- Destination and result of the immediate operations and upper immediates (R118, R119). -/
def immediateResult (s : State) : Instr → Option (BitVec 5 × W)
  | .addi i a d _ _ => some (d, BitVec.ofInt 64 ((s.g a).toInt + i.toInt))
  | .andi i a d _ _ => some (d, s.g a &&& BitVec.ofInt 64 i.toInt)
  | .ori i a d _ _ => some (d, s.g a ||| BitVec.ofInt 64 i.toInt)
  | .xori i a d _ _ => some (d, s.g a ^^^ BitVec.ofInt 64 i.toInt)
  | .slti i a d _ _ => some (d, oneIf ((s.g a).toInt < i.toInt))
  | .sltiu i a d _ _ => some (d, oneIf ((s.g a).toNat < (BitVec.ofInt 64 i.toInt).toNat))
  | .slli n a d _ _ => some (d, shiftLeft (s.g a) n.toNat)
  | .srli n a d _ _ => some (d, shiftRight (s.g a) n.toNat)
  | .srai n a d _ _ => some (d, shiftRightSigned (s.g a) n.toNat)
  | .rori n a d _ _ => some (d, turnRight (s.g a) n.toNat)
  | .addwi i a d _ _ => some (d, low32 ((s.g a).toInt + i.toInt))
  | .lui i d _ _ => some (d, BitVec.ofInt 64 (i.toInt * 2 ^ 12))
  | .auipc i d _ _ => some (d, BitVec.ofInt 64 (s.wordPc.toInt + i.toInt * 2 ^ 12))
  | _ => none

/-- Destination, dividend and divisor of the divides as integers, and whether the remainder is asked for (R117). -/
def divideOf (s : State) : Instr → Option (BitVec 5 × Int × Int × Bool)
  | .div b a d _ _ => some (d, (s.g a).toInt, (s.g b).toInt, false)
  | .divu b a d _ _ => some (d, (s.g a).toNat, (s.g b).toNat, false)
  | .rem b a d _ _ => some (d, (s.g a).toInt, (s.g b).toInt, true)
  | .remu b a d _ _ => some (d, (s.g a).toNat, (s.g b).toNat, true)
  | _ => none

/-- The quotient rounded towards zero, or the remainder that it leaves (R117). -/
def quotient (x y : Int) (rem : Bool) : W :=
  let q := Int.sign x * Int.sign y * ((x.natAbs / y.natAbs : Nat) : Int)
  BitVec.ofInt 64 (if rem then x - q * y else q)

/-- Offset in words of a branch, and whether it is taken (R120). -/
def branchOf (s : State) : Instr → Option (BitVec 12 × Bool)
  | .beq o b a _ _ => some (o, decide (s.g a = s.g b))
  | .bne o b a _ _ => some (o, decide (s.g a ≠ s.g b))
  | .blt o b a _ _ => some (o, decide ((s.g a).toInt < (s.g b).toInt))
  | .bge o b a _ _ => some (o, decide ((s.g b).toInt ≤ (s.g a).toInt))
  | .bltu o b a _ _ => some (o, decide ((s.g a).toNat < (s.g b).toNat))
  | .bgeu o b a _ _ => some (o, decide ((s.g b).toNat ≤ (s.g a).toNat))
  | .bbs o b a _ _ => some (o, decide ((s.g a).toNat / 2 ^ ((s.g b).toNat % 64) % 2 = 1))
  | .bbc o b a _ _ => some (o, decide ((s.g a).toNat / 2 ^ ((s.g b).toNat % 64) % 2 = 0))
  | _ => none

/-- The address `o` words from the word at `a`. -/
def wordsFrom (a : W) (o : Int) : W := BitVec.ofInt 64 (a.toInt + 4 * o)

/-- The address of the instruction after the one that executes: 4 after a lone word, 8 after the start of a pair (R50). -/
def State.after (s : State) : W := BitVec.ofNat 64 (s.hart.pc.toNat + if s.slot = .lone then 4 else 8)

/-- Value and flags of the scalar floating-point operations that complete at once (R124, R126 to R128): destination, result, flags. -/
def floatResult (s : State) : Instr → Option (BitVec 5 × Nat × BitVec 5)
  | .fadd p m b a d _ _ => some (d, (precFmt p).add (s.rm m) (s.gf (precFmt p) a) (s.gf (precFmt p) b))
  | .fsub p m b a d _ _ => some (d, (precFmt p).sub (s.rm m) (s.gf (precFmt p) a) (s.gf (precFmt p) b))
  | .fmul p m b a d _ _ => some (d, (precFmt p).mul (s.rm m) (s.gf (precFmt p) a) (s.gf (precFmt p) b))
  | .fmin p b a d _ _ => some (d, (precFmt p).minMax false (s.gf (precFmt p) a) (s.gf (precFmt p) b))
  | .fmax p b a d _ _ => some (d, (precFmt p).minMax true (s.gf (precFmt p) a) (s.gf (precFmt p) b))
  | .feq p b a d _ _ => some (d, boolResult ((precFmt p).compare 0 (s.gf (precFmt p) a) (s.gf (precFmt p) b)))
  | .flt p b a d _ _ => some (d, boolResult ((precFmt p).compare 1 (s.gf (precFmt p) a) (s.gf (precFmt p) b)))
  | .fle p b a d _ _ => some (d, boolResult ((precFmt p).compare 2 (s.gf (precFmt p) a) (s.gf (precFmt p) b)))
  | .fclass p a d _ _ => some (d, (precFmt p).class (s.gf (precFmt p) a), 0)
  | .fcvti p m k a d _ _ => some (d, toIntKind (precFmt p) (s.rm m) k (s.gf (precFmt p) a))
  | .fcvtf p m k a d _ _ => some (d, (precFmt p).ofInt (s.rm m) (ofIntKind k (s.g a)))
  | .fcvtff p m src a d _ _ => some (d, (precFmt p).convert (precFmt src) (s.rm m) (s.gf (precFmt src) a))
  | .fmas c b a d _ _ => some (d, fp32.fma (s.rm 7) (s.gf fp32 a) (s.gf fp32 b) (s.gf fp32 c))
  | .fmad c b a d _ _ => some (d, fp64.fma (s.rm 7) (s.gf fp64 a) (s.gf fp64 b) (s.gf fp64 c))
  | _ => none

/-- The sign bit of a value `x` of a format. -/
def signOf (k : Fmt) (x : Nat) : Bool := x.testBit (k.e + k.f)

/-- `x` with the sign `n`. -/
def withSignOf (k : Fmt) (x : Nat) (n : Bool) : W := BitVec.ofNat 64 (x % 2 ^ (k.e + k.f) + if n then 2 ^ (k.e + k.f) else 0)

/-- Destination and result of the sign injections (R126). -/
def signResult (s : State) : Instr → Option (BitVec 5 × W)
  | .fsgnj p b a d _ _ => some (d, withSignOf (precFmt p) (s.gf (precFmt p) a) (signOf (precFmt p) (s.gf (precFmt p) b)))
  | .fsgnjn p b a d _ _ => some (d, withSignOf (precFmt p) (s.gf (precFmt p) a) (!signOf (precFmt p) (s.gf (precFmt p) b)))
  | .fsgnjx p b a d _ _ => some (d, withSignOf (precFmt p) (s.gf (precFmt p) a)
      (signOf (precFmt p) (s.gf (precFmt p) a) ^^ signOf (precFmt p) (s.gf (precFmt p) b)))
  | _ => none

/-- The executing hart's FPSTAT has taken up flags. -/
def State.flagged (s : State) (fl : BitVec 5) : State :=
  s.onHart fun h => { h with arith := { h.arith with fpstat := h.arith.fpstat ||| (fl.setWidth 13 <<< 3) } }

/-- Destination, value and flags of FDIV and FSQRT (R124, R125). -/
def longFloat (s : State) : Instr → Option (BitVec 5 × Nat × BitVec 5)
  | .fdiv p m b a d _ _ => some (d, (precFmt p).div (s.rm m) (s.gf (precFmt p) a) (s.gf (precFmt p) b))
  | .fsqrt p m a d _ _ => some (d, (precFmt p).sqrt (s.rm m) (s.gf (precFmt p) a))
  | _ => none

/-- Count and end word of a loop instruction (R107). -/
def loopOf (s : State) : Instr → Option (W × W)
  | .loop o a _ _ => some (s.g a, wordsFrom s.wordPc o.toInt)
  | .loopi n e _ _ => some (BitVec.ofNat 64 n.toNat, wordsFrom s.wordPc e.toNat)
  | _ => none

/-- The kind code of the first of the flags NV, DZ, OF, UF, NX among `e` (R40). -/
def trapKind (e : BitVec 5) : Nat := if 16 ≤ e.toNat then 2 else if 8 ≤ e.toNat then 3 else if 4 ≤ e.toNat then 4 else if 2 ≤ e.toNat then 5 else 6

/-- `t` lies in the range of the top level of the loop stack (R109). -/
def insideTop (t : W) (l : Loops) : Prop :=
  ∃ i, l.depth.toNat = i + 1 ∧ (l.lps[i]?.getD 0).toNat ≤ t.toNat ∧ t.toNat ≤ (l.lpe[i]?.getD 0).toNat

/-- A lone loop instruction of count 0 retires: control passes the body, whose end word `e` counts (R108). -/
def Hart.skipsBody (e : W) (h : Hart) : Hart :=
  let r := loopCount e 4 h.loops
  { h.counted with pc := r.2.getD (e + 4), loops := r.1, arrival := if r.2.isSome then .taken else .fall, pp := false }

end Sys2Proof.Machine
end

