-- ==== Sys2Proof/Safety/Step.lean ====
section
/-!
DEFINITION. What a step does around the instruction that it runs: the hart that gets the slot, and the counts of its core's cycle (R94 to R96).
-/

namespace Sys2Proof.Machine

/-- Hart `h` of core `c` stands at the lone word of `i`, which it reads from its fetch block: no interrupt is due, and no watch matches its
fetch. -/
def State.standsAtWord (s : State) (c : CoreId) (h : HartId) (i : Instr) : Prop :=
  s.interruptDue c h = false ∧ atPc (s.fetched c h) c h = .lone i ∧ (s.hartAt c h).watched .fetch (s.hartAt c h).pc.toNat 4 = none

/-- Hart `h` is the one hart of core `c` that may get the slot, and no YIELD makes it pause. -/
def State.soleHart (s : State) (c : CoreId) (h : HartId) : Prop :=
  contends s c h = true ∧ (∀ k, k ≠ h → contends s c k = false) ∧ (s.hartAt c h).pause = 0

/-- The state after the core cycle in which hart `h` of core `c`, alone ready, has issued and reached `t`: one cycle more on the core's
count, nothing lost in the contest, and the hart is noted as the last of its priority (R95, R96). -/
def State.cycleEnds (t : State) (c : CoreId) (h : HartId) (prio : BitVec 2) : State :=
  (countCycle c [h] (some h) t).onCore c fun k => { k with lastAt := k.lastAt.setIfInBounds prio.toNat (some h) }

end Sys2Proof.Machine
end

