-- ==== Sys2Proof/Certificates/Slice0/Obligations.lean ====
section
/-!
DEFINITION. The statements for the provers. Each says of the instructions and events that it names when they complete and what they leave, by
the rules of the spec that its text names; a name that stands for a choice of the model names its log entry.
-/

open Sys2Proof Sys2Proof.Machine

/-! Scalar instructions. -/

/-- The integer register operations but the divides write the result of their table row to gD and retire (R116). Their words, and those of the
divides, carry the function codes of the table. It says where these complete: add, sub, and, or, xor, sll, srl, sra, slt, sltu, mul, mulh, mulhu,
min, max, minu, maxu, clz, ctz, popc, rol, ror, addw, subw, sel. -/
def Obligations.IntegerRegisterResults : Prop :=
  (∀ (i : Instr) (s : State) (d : BitVec 5) (x : W), registerResult s i = some (d, x) → s.issues i = true →
     exec i s = .next (s.wroteG d x).retires) ∧
  (∀ (c b a d : BitVec 5) (w l : Bool),
    let word (n : Nat) (c b : BitVec 5) : Option Word32 :=
      some (BitVec.ofNat 5 n ++ c ++ b ++ a ++ d ++ 0x14#5 ++ BitVec.ofBool w ++ BitVec.ofBool l);
    [encode (.add b a d w l), encode (.sub b a d w l), encode (.and b a d w l), encode (.or b a d w l), encode (.xor b a d w l),
     encode (.sll b a d w l), encode (.srl b a d w l), encode (.sra b a d w l), encode (.slt b a d w l), encode (.sltu b a d w l),
     encode (.mul b a d w l), encode (.mulh b a d w l), encode (.mulhu b a d w l), encode (.div b a d w l), encode (.divu b a d w l),
     encode (.rem b a d w l), encode (.remu b a d w l), encode (.min b a d w l), encode (.max b a d w l), encode (.minu b a d w l),
     encode (.maxu b a d w l), encode (.rol b a d w l), encode (.ror b a d w l), encode (.addw b a d w l), encode (.subw b a d w l)] =
      ([0, 1, 2, 3, 4, 5, 6, 7, 8, 9, 10, 11, 12, 13, 14, 15, 16, 17, 18, 19, 20, 24, 25, 26, 27].map fun n => word n 0 b) ∧
    [encode (.clz a d w l), encode (.ctz a d w l), encode (.popc a d w l), encode (.sel c b a d w l)] =
      [word 21 0 0, word 22 0 0, word 23 0 0, word 28 c b])

/-- The immediate operations, LUI and AUIPC write the result of their table row to gD and retire (R118, R119). Their words have the formats of R118
and R119. It says where these complete: addi, andi, ori, xori, slti, sltiu, slli, srli, srai, rori, addwi, lui, auipc. -/
def Obligations.ImmediateResults : Prop :=
  (∀ (i : Instr) (s : State) (d : BitVec 5) (x : W), immediateResult s i = some (d, x) → s.issues i = true →
     exec i s = .next (s.wroteG d x).retires) ∧
  (∀ (i : BitVec 12) (a d : BitVec 5) (w l : Bool),
    [encode (.addi i a d w l), encode (.andi i a d w l), encode (.ori i a d w l), encode (.xori i a d w l), encode (.slti i a d w l),
     encode (.sltiu i a d w l), encode (.addwi i a d w l)] =
      [0, 1, 2, 3, 4, 5, 7].map fun n : Nat => some (i ++ BitVec.ofNat 3 n ++ a ++ d ++ 0x15#5 ++ BitVec.ofBool w ++ BitVec.ofBool l)) ∧
  (∀ (n : BitVec 6) (a d : BitVec 5) (w l : Bool),
    [encode (.slli n a d w l), encode (.srli n a d w l), encode (.srai n a d w l), encode (.rori n a d w l)] =
      [0, 1, 2, 3].map fun k : Nat =>
        some (BitVec.ofNat 2 k ++ 0#4 ++ n ++ 6#3 ++ a ++ d ++ 0x15#5 ++ BitVec.ofBool w ++ BitVec.ofBool l)) ∧
  (∀ (i : BitVec 20) (d : BitVec 5) (w l : Bool), encode (.lui i d w l) = some (i ++ d ++ 0x16#5 ++ BitVec.ofBool w ++ BitVec.ofBool l) ∧
    encode (.auipc i d w l) = some (i ++ d ++ 0x17#5 ++ BitVec.ofBool w ++ BitVec.ofBool l))

/-- A divide of a divisor that is not zero marks gD empty, leaves its quotient or remainder to arrive, and retires; the result then reaches gD and
makes it full. With D = g0 the result is discarded (R60, R117). A divide by zero traps at issue with cause 0x0C0, TRADDR and TRINFO zero, and
neither writes gD nor marks it empty (R117). The result of a divide reaches gD, which becomes full; nothing else of the machine changes (R117). It
says where these complete: div, divu, rem, remu, divideResult. -/
def Obligations.DividesCompleteOrTrap : Prop :=
  (∀ (i : Instr) (s : State) (d : BitVec 5) (x y : Int) (r : Bool), divideOf s i = some (d, x, y, r) → s.issues i = true → y ≠ 0 →
     (d = 0 → exec i s = .next s.retires) ∧
     (d ≠ 0 → exec i s = .next ((s.emptied (.g d)).underway i (.div d (quotient x y r)) [] false).retires)) ∧
  (∀ (i : Instr) (s : State) (d : BitVec 5) (x : Int) (r : Bool), divideOf s i = some (d, x, 0, r) → s.issues i = true → s.settled = true →
     exec i s = .next (s.trapped 0x0C0 0 0)) ∧
  (∀ (s : State) (c : CoreId) (h : HartId) (n : Nat) (p : Pend) (d : BitVec 5) (x : W),
     (s.hartAt c h).pend.find? (fun q => q.id == n) = some p → p.kind = .div d x →
     exec (.divideResult c h n) s = .next { (s.onHartAt c h fun k =>
       { k with regs := k.regs.writeG d x, pend := k.pend.filter fun q => q.id != n }) with disp := .occurred })

/-- A branch goes to its target when its condition holds and onwards when it does not; the offset counts words from the branch (R120). JAL links the
next instruction's address in gD and goes to its target; JALR does so with a target taken from gA as it stood before, and traps in the space of a
misaligned target without writing gD (R121). Their words have the formats of R120 and R121. It says where these complete: beq, bne, blt, bge, bltu,
bgeu, bbs, bbc, jal, jalr. -/
def Obligations.BranchesAndJumpsTransfer : Prop :=
  (∀ (i : Instr) (s : State) (o : BitVec 12) (taken : Bool), branchOf s i = some (o, taken) → s.issues i = true →
     exec i s = .next (if taken then s.transfers (wordsFrom s.wordPc o.toInt) else s.retires)) ∧
  (∀ (o : BitVec 20) (d : BitVec 5) (w l : Bool) (s : State), s.issues (.jal o d w l) = true →
    exec (.jal o d w l) s = .next ((s.wroteG d s.after).transfers (wordsFrom s.wordPc o.toInt))) ∧
  (∀ (m : BitVec 12) (a d : BitVec 5) (w l : Bool) (s : State), s.issues (.jalr m a d w l) = true →
    let t := BitVec.ofInt 64 ((s.g a).toInt + m.toInt)
    (t.toNat % 4 = 0 → exec (.jalr m a d w l) s = .next ((s.wroteG d s.after).transfers t)) ∧
    (t.toNat % 4 ≠ 0 → s.settled = true →
      exec (.jalr m a d w l) s = .next (s.trapped (accCause .fetch (spaceOf t).code .misaligned) t 0))) ∧
  (∀ (o : BitVec 12) (b a : BitVec 5) (w l : Bool),
    [encode (.beq o b a w l), encode (.bne o b a w l), encode (.blt o b a w l), encode (.bge o b a w l), encode (.bltu o b a w l),
     encode (.bgeu o b a w l), encode (.bbs o b a w l), encode (.bbc o b a w l)] =
      (List.range 8).map fun n => some (o ++ BitVec.ofNat 3 n ++ b ++ a ++ 1#5 ++ BitVec.ofBool w ++ BitVec.ofBool l)) ∧
  (∀ (o : BitVec 20) (i : BitVec 12) (a d : BitVec 5) (w l : Bool),
    encode (.jal o d w l) = some (o ++ d ++ 2#5 ++ BitVec.ofBool w ++ BitVec.ofBool l) ∧
    encode (.jalr i a d w l) = some (i ++ 0#3 ++ a ++ d ++ 3#5 ++ BitVec.ofBool w ++ BitVec.ofBool l))

/-- LOOP and LOOPI with a count that is not 0 push a level from the next instruction to the end word; with a count of 0 they skip the body, and
levels that end at its end word count as if the word there had retired (R107, R108). LBRK goes to the word past the end of the top level, which it
pops; LPOP pops it and goes on (R107, R109). A retirement at the end word of the top level counts it down: it wraps while its count stays above 0,
else it is popped and the level below is treated in the same way; at any other word nothing changes (R108). A taken transfer leaves levels until its
target lies in the range of the top one; a target in it changes nothing (R109). It says where these complete: loop, loopi, lbrk, lpop. -/
def Obligations.LoopsRunTheirLevels : Prop :=
  (∀ (i : Instr) (s : State) (n e : W), loopOf s i = some (n, e) → s.issues i = true →
     (n ≠ 0 → exec i s = .next (s.onHart fun h => { h with loops :=
       { h.loops with lps := h.loops.lps.setIfInBounds h.loops.depth.toNat s.after, lpe := h.loops.lpe.setIfInBounds h.loops.depth.toNat e,
                      lpc := h.loops.lpc.setIfInBounds h.loops.depth.toNat n, depth := h.loops.depth + 1 } }).retires) ∧
     (n = 0 → s.slot = .lone → exec i s = .next { s.onHart (Hart.skipsBody e) with flow := .next, disp := .retired }) ∧
     (n = 0 → s.slot ≠ .lone → exec i s = .next { s with flow := .skip e, disp := .retired })) ∧
  (∀ (w l : Bool) (s : State), s.issues (.lbrk w l) = true → ∃ e, s.hart.loops.topEnd = some e ∧
    exec (.lbrk w l) s = .next ((s.onHart fun h => { h with loops := { h.loops with depth := h.loops.depth - 1 } }).transfers (e + 4))) ∧
  (∀ (w l : Bool) (s : State), s.issues (.lpop w l) = true →
    exec (.lpop w l) s = .next (s.onHart fun h => { h with loops := { h.loops with depth := h.loops.depth - 1 } }).retires) ∧
  (∀ (a : W) (n : Nat) (l : Loops), l.topEnd ≠ some a → loopCount a n l = (l, none)) ∧
  (∀ (a : W) (n : Nat) (l : Loops) (t : Nat), l.depth.toNat = t + 1 → t < 4 → l.topEnd = some a →
    let c := l.lpc[t]?.getD 0 - 1
    let k : Loops := { l with lpc := l.lpc.setIfInBounds t c }
    (c ≠ 0 → loopCount a (n + 1) l = (k, some (l.lps[t]?.getD 0))) ∧
    (c = 0 → loopCount a (n + 1) l = loopCount a n { k with depth := BitVec.ofNat 3 t })) ∧
  (∀ (a : W) (l : Loops), l.depth.toNat ≤ 4 → (loopCount a 4 l).1.depth.toNat ≤ l.depth.toNat ∧
    ((loopCount a 4 l).2 = none → (loopCount a 4 l).1.topEnd ≠ some a)) ∧
  (∀ (t : W) (n : Nat) (l : Loops), (l.depth = 0 ∨ insideTop t l) → loopUnwind t n l = l) ∧
  (∀ (t : W) (l : Loops), l.depth.toNat ≤ 4 → ∃ d : BitVec 3, loopUnwind t 4 l = { l with depth := d } ∧ d.toNat ≤ l.depth.toNat ∧
    (d = 0 ∨ insideTop t (loopUnwind t 4 l)))

/-- A lone PFX leaves its fields as the pending prefix, which lasts past its own retirement; one in a C slot serves its pair only and leaves no
field of the hart changed (R64, R65, R68). It says where these complete: pfx. -/
def Obligations.PrefixStaysPending : Prop :=
  ∀ (x c : Bool) (sc p q r : BitVec 3) (f e : BitVec 4) (w l : Bool) (s : State), s.issues (.pfx x c sc p q r f e w l) = true →
    (s.slot ≠ .lone → exec (.pfx x c sc p q r f e w l) s = .next { s with disp := .retired }) ∧
    (s.slot = .lone → ∃ t, exec (.pfx x c sc p q r f e w l) s = .next t ∧ t.disp = .retired ∧ t.hart.pp = true ∧
      t.hart.fields = BitVec.ofBool x ++ BitVec.ofBool c ++ sc ++ p ++ q ++ r ++ f ++ e ∧ t.prefixed = some t.hart.fields ∧
      t.hart.regs = s.hart.regs ∧ t.hart.instret = s.hart.instret + 1 ∧ t.mem = s.mem)

/-- A scalar floating-point operation without an enabled flag writes its value to gD and ORs its flags into FPSTAT; with one it traps with the cause
of the highest enabled flag and all its flags in TRINFO, and changes nothing else (R40, R124, R126 to R128). The sign injections write gA with a
sign made from the two operands, keep every other bit, and raise no flag (R126). It says where these complete: fadd, fsub, fmul, fmin, fmax, fsgnj,
fsgnjn, fsgnjx, feq, flt, fle, fclass, fcvti, fcvtf, fcvtff, fmas, fmad. -/
def Obligations.ScalarFloatResults : Prop :=
  (∀ (i : Instr) (s : State) (d : BitVec 5) (x : Nat) (fl : BitVec 5), floatResult s i = some (d, x, fl) → s.issues i = true →
     (s.hart.arith.fpstat.extractLsb' 8 5 &&& fl = 0 → exec i s = .next ((s.wroteG d (BitVec.ofNat 64 x)).flagged fl).retires) ∧
     (s.hart.arith.fpstat.extractLsb' 8 5 &&& fl ≠ 0 → s.settled = true →
       exec i s = .next (s.trapped (BitVec.ofNat 9 (0xC0 + 8 * trapKind (s.hart.arith.fpstat.extractLsb' 8 5 &&& fl))) 0 (fl.setWidth 64)))) ∧
  (∀ (i : Instr) (s : State) (d : BitVec 5) (x : W), signResult s i = some (d, x) → s.issues i = true →
     exec i s = .next ((s.wroteG d x).flagged 0).retires)

/-- FDIV and FSQRT with every trap enable clear mark gD empty, leave their value and flags to arrive, and retire; with an enable set the hart waits
for the result in the instruction (R125). The result of an FDIV or FSQRT that its hart does not wait for reaches gD, which becomes full, and its
flags FPSTAT. For one that the hart waits for, a lone word: an enabled flag traps at the pc, and otherwise the result is written and the word
retires (R125). It says where these complete: fdiv, fsqrt, fdivFsqrtResult. -/
def Obligations.FloatDividesArrive : Prop :=
  (∀ (i : Instr) (s : State) (d : BitVec 5) (x : Nat) (fl : BitVec 5), longFloat s i = some (d, x, fl) → s.issues i = true →
     (s.hart.arith.fpstat.extractLsb' 8 5 = 0 → d ≠ 0 →
       exec i s = .next ((s.underway i (.fdiv d (BitVec.ofNat 64 x) fl) [] false).emptied (.g d)).retires) ∧
     (s.hart.arith.fpstat.extractLsb' 8 5 = 0 → d = 0 →
       exec i s = .next (s.underway i (.fdiv d (BitVec.ofNat 64 x) fl) [] false).retires) ∧
     (s.hart.arith.fpstat.extractLsb' 8 5 ≠ 0 →
       exec i s = .next ((s.underway i (.fdiv d (BitVec.ofNat 64 x) fl) [] true).awaits i .precise))) ∧
  (∀ (s : State) (c : CoreId) (h : HartId) (n : Nat) (p : Pend) (d : BitVec 5) (x : W) (fl : BitVec 5),
     (s.hartAt c h).pend.find? (fun q => q.id == n) = some p → p.kind = .fdiv d x fl →
     let k := s.hartAt c h
     let u := s.onHartAt c h fun k => { k with pend := k.pend.filter fun q => q.id != n }
     (p.precise = false → exec (.fdivFsqrtResult c h n) s = .next { (u.onHartAt c h fun k =>
       { k with regs := k.regs.writeG d x, arith := { k.arith with fpstat := k.arith.fpstat ||| (fl.setWidth 13 <<< 3) } }) with
       disp := .occurred }) ∧
     (p.precise = true → k.arith.fpstat.extractLsb' 8 5 &&& fl ≠ 0 → s.unconfirmed c h = false → k.tkp = false →
       exec (.fdivFsqrtResult c h n) s = .next { (u.onHartAt c h (trapHart (s.firmware c) false
         (BitVec.ofNat 9 (0xC0 + 8 * trapKind (k.arith.fpstat.extractLsb' 8 5 &&& fl))) 0 (fl.setWidth 64) k.pc)) with disp := .occurred }) ∧
     (p.precise = true → k.arith.fpstat.extractLsb' 8 5 &&& fl = 0 → k.waitAt = some { slot := .lone, op := p.op } →
       exec (.fdivFsqrtResult c h n) s = .next { (((u.issuing c h .lone).wroteG d x).flagged fl).retires with disp := .occurred }))

/-! Loads, stores and atomics. -/

/-- A load from the hart's own store reads its bytes at once, leaves them to arrive in its destination, and retires; no register and no byte of
memory changes until they do. A load to g0 leaves nothing. A vector load of a hart with a trap enabled converts at once: an enabled flag traps with
unit 1, and otherwise its value and flags are written (R40, R130, R211 to R214). The bytes of a local load reach its register, which becomes full;
those of a vector load are converted on the way, with the codebook as it stands, and NV goes to FPSTAT (R212, R214). That the bytes are read when
the load issues, and that a converting load with a trap enabled is precise, and waited for, are the model's choice and reading (logs 7, 44). It says
where these complete: ldb, ldh, ldw, ldd, ldbu, ldhu, ldwu, vld, vlds, vldx, vldbc, localLoadComplete. -/
def Obligations.LocalLoadsRead : Prop :=
  (∀ (i : Instr) (s : State) (r : RegRef) (q : Ask), loadOf s i = some (r, q) → s.issues i = true → s.isNew = true → s.allows q = true →
     q.isLocal = true →
     (q.vec = false ∨ s.hart.trapsEnabled = false → ∃ t, exec i s = .next t ∧ t.disp = .retired ∧ t.mem = s.mem ∧ t.hart.regs = s.hart.regs ∧
       t.hart.arith = s.hart.arith ∧ t.hart.trap = s.hart.trap ∧ t.hart.nseq = s.hart.nseq + 1 ∧
       (r = .g 0 → t.hart.pend.length ≤ s.hart.pend.length) ∧
       (r ≠ .g 0 → ∃ p ∈ t.hart.pend, p.op = i ∧ p.id = s.fresh ∧ p.dsts = [r] ∧ p.precise = false ∧
         (∀ d sx va size k, q.op = .load d sx → q.els = [⟨va, size, 0, k⟩] →
           p.kind = .localLoad r ((loadedValue s.mem (localKey s.cur va.toNat) size sx).setWidth 512) none) ∧
         (∀ d ff tf bc va size k, q.op = .vload d ff tf bc → q.els = [⟨va, size, 0, k⟩] →
           p.kind = .localLoad r (BitVec.ofNat 512 (bytesValue s.mem (localKey s.cur va.toNat) size)) (some (ff, tf, bc))) ∧
         (∀ d tf bc, q.op = .vload d 0 tf bc → q.els.length = 16 → ∃ x, p.kind = .localLoad r x (some (0, tf, bc)) ∧
           ∀ j e, q.els[j]? = some e → x.toNat / 2 ^ (32 * j) % 2 ^ 32 = bytesValue s.mem (localKey s.cur e.va.toNat) e.size))) ∧
     (s.hart.trapsEnabled = true → ∀ d ff tf bc va size k, q.op = .vload d ff tf bc → q.els = [⟨va, size, 0, k⟩] →
       let v := convertLoad s.self.cblo s.self.cbhi ff tf bc (BitVec.ofNat 512 (bytesValue s.mem (localKey s.cur va.toNat) size)).toNat
       let e := s.hart.arith.fpstat.extractLsb' 8 5 &&& v.2
       (e = 0 → ∃ t, exec i s = .next t ∧ t.disp = .retired ∧ t.mem = s.mem ∧ t.hart.regs = s.hart.regs.write (BitVec.ofNat 1024 v.1) r ∧
         t.hart.arith = { s.hart.arith with fpstat := s.hart.arith.fpstat ||| (v.2.setWidth 13 <<< 3) } ∧ t.hart.nseq = s.hart.nseq + 1) ∧
       (e ≠ 0 → s.settled = true → ∃ t, exec i s = .next t ∧ t.mem = s.mem ∧ t.hart.regs = s.hart.regs ∧ t.hart.arith = s.hart.arith ∧
         s.tookTrap t s.cur s.curHart (BitVec.ofNat 9 (0xC1 + 8 * trapKind e)) 0 s.hart.pc ∧ t.hart.trap.trinfo = v.2.setWidth 64))) ∧
  (∀ (s : State) (c : CoreId) (h : HartId) (n : Nat) (p : Pend) (r : RegRef) (x : BitVec 512) (f : Option (BitVec 4 × BitVec 4 × Bool)),
     (s.hartAt c h).pend.find? (fun q => q.id == n) = some p → p.kind = .localLoad r x f →
     (f = none → exec (.localLoadComplete c h n) s = .next { (s.onHartAt c h fun k =>
       { k with regs := k.regs.write (x.setWidth 1024) r, pend := k.pend.filter fun q => q.id != n }) with disp := .occurred }) ∧
     (∀ ff tf bc, f = some (ff, tf, bc) → exec (.localLoadComplete c h n) s = .next { (s.onHartAt c h fun k =>
       { k with regs := k.regs.write (BitVec.ofNat 1024 (convertLoad (s.core c).cblo (s.core c).cbhi ff tf bc x.toNat).1) r,
                pend := k.pend.filter fun q => q.id != n,
                arith := { k.arith with fpstat := k.arith.fpstat |||
                  ((convertLoad (s.core c).cblo (s.core c).cbhi ff tf bc x.toNat).2.setWidth 13 <<< 3) } }) with disp := .occurred }))

/-- A store to the hart's own store writes its elements at once, at the addresses that the instruction gives, and retires: every other byte of
memory and every register keep its value, and FPSTAT takes only the flags of a conversion (R211 to R214). A vector store whose conversion raises an
enabled flag traps with unit 1 and stores nothing (R40, R214). That the bytes are written when the store issues, and that a conversion traps after
every address check, are the model's choices (logs 7, 45). It says where these complete: stb, sth, stw, std, vst, vsts, vstx. -/
def Obligations.LocalStoresWriteTheirBytes : Prop :=
  (∀ (i : Instr) (s : State) (q : Ask) (fl : BitVec 5), storeOf s i = some (q, fl) → s.Canonical → s.issues i = true → s.isNew = true →
     s.allows q = true → q.isLocal = true → s.hart.arith.fpstat.extractLsb' 8 5 &&& fl = 0 →
     ∃ t, exec i s = .next t ∧ t.disp = .retired ∧ (∀ a, readByte t.mem a = (storedByte s.cur q.els a).getD (readByte s.mem a)) ∧
       t.hart.regs = s.hart.regs ∧ t.hart.arith = { s.hart.arith with fpstat := s.hart.arith.fpstat ||| (fl.setWidth 13 <<< 3) } ∧
       t.hart.trap = s.hart.trap ∧ t.hart.nseq = s.hart.nseq + 1) ∧
  (∀ (i : Instr) (s : State) (q : Ask) (fl : BitVec 5), storeOf s i = some (q, fl) → s.issues i = true → s.allows q = true →
     s.settled = true → s.hart.arith.fpstat.extractLsb' 8 5 &&& fl ≠ 0 →
     exec i s = .next (s.trapped (BitVec.ofNat 9 (0xC1 + 8 * trapKind (s.hart.arith.fpstat.extractLsb' 8 5 &&& fl))) 0 (fl.setWidth 64)))

/-- A store with a flag, both in the hart's own store, writes its data and then adds one to the doubleword at its flag address (R218). An atomic on
the hart's own store returns the old value, a 32-bit one sign-extended, writes the new one, and retires (R216, R217). That they act when they issue
is the model's choice (log 7). It says where these complete: aadd, aand, aor, axor, amin, amax, aminu, amaxu, aswap, acas, acasf, afadd, afmin,
afmax, avadd, avmax, aincw, stfw, stfd, stfv. -/
def Obligations.LocalFlagStoresAndAtomics : Prop :=
  (∀ (i : Instr) (s : State) (q : Ask) (e f : El), flagStoreOf s i = some q → q.els = [e, f] → s.Canonical → s.issues i = true → s.isNew = true →
     s.allows q = true → q.isLocal = true →
     ∃ t, exec i s = .next t ∧ t.disp = .retired ∧ t.hart.regs = s.hart.regs ∧ t.hart.arith = s.hart.arith ∧
       (∀ m : Memory, (∀ a, readByte m a = (storedByte s.cur [e] a).getD (readByte s.mem a)) →
         ∀ a, readByte t.mem a = (storedByte s.cur
           [{ f with data := BitVec.ofNat 512 (bytesValue m (localKey s.cur f.va.toNat) 8 + 1) }] a).getD (readByte m a))) ∧
  (∀ (i : Instr) (s : State) (q : Ask) (new : Nat → Nat) (fn : BitVec 5) (r : RegRef) (b : BitVec 512) (cmp : W) (e : El),
     atomicOf s i = some (q, new) → q.op = .atomic fn r b cmp → q.els = [e] → s.Canonical → s.issues i = true → s.isNew = true →
     s.allows q = true → q.isLocal = true →
     let old := bytesValue s.mem (localKey s.cur e.va.toNat) e.size
     ∃ t, exec i s = .next t ∧ t.disp = .retired ∧
       (∀ a, readByte t.mem a = (storedByte s.cur [{ e with data := BitVec.ofNat 512 (new old) }] a).getD (readByte s.mem a)) ∧
       t.hart.regs = s.hart.regs.write (if e.size = 4 then (BitVec.ofInt 64 (signedLow 32 old)).setWidth 1024 else BitVec.ofNat 1024 old) r ∧
       t.hart.arith = s.hart.arith ∧ t.hart.nseq = s.hart.nseq + 1)

/-- An access with no element in the hart's own store sets out with the parts that its instruction asks for: no byte of memory changes and a load's
destination becomes empty. The hart of an atomic, and of a vector load that may trap, waits for the answer; every other instruction retires. Of an
access with some elements in the hart's own store, those are read or written at once, but for the flag of an STF whose data go elsewhere, and the
others set out (R60, R130, R212, R213, R217, R218, R236, R249). That local elements are served when the access issues is the model's choice (log 7).
It says where these complete: ldb, ldh, ldw, ldd, ldbu, ldhu, ldwu, stb, sth, stw, std, vld, vst, vlds, vsts, vldx, vstx, vldbc, aadd, aand, aor,
axor, amin, amax, aminu, amaxu, aswap, acas, acasf, afadd, afmin, afmax, avadd, avmax, aincw, tldw, tldd, tstw, tstd, tldv, tstv, stfw, stfd, stfv.
-/
def Obligations.OtherAccessesSetOut : Prop :=
  (∀ (i : Instr) (s : State) (q : Ask), memoryOf s i = some q → s.issues i = true → s.isNew = true → s.allows q = true → q.isRemote = true →
    s.entryFree = true → s.convertsNow q = true → (∀ fl, storeOf s i = some (q, fl) → s.hart.arith.fpstat.extractLsb' 8 5 &&& fl = 0) →
    ∃ t a, exec i s = .next t ∧ t.net.accs = s.net.accs ++ [a] ∧ t.mem = s.mem ∧ t.hart.nseq = s.hart.nseq + 1 ∧
      a.id = s.fresh ∧ a.core = s.cur ∧ a.hart = s.curHart ∧ a.seq = s.hart.nseq ∧ a.mark.pc = s.hart.pc ∧ a.op = q.op ∧
      a.parts = makeParts s q q.els 0 ∧ a.frozen = 0 ∧ a.orphan = false ∧
      (q.op.awaited s.hart = true → t.disp = .waiting ∧ t.hart.wait = .access a.id ∧ t.hart.pc = s.hart.pc) ∧
      (q.op.awaited s.hart = false → t.disp = .retired) ∧
      (∀ fn r b cmp, q.op = .atomic fn r b cmp → t.hart.regs = s.hart.regs) ∧
      (∀ r, q.op.dst = some r → (∀ fn r b cmp, q.op ≠ .atomic fn r b cmp) → t.hart.regs = s.hart.regs.empty r) ∧
      (q.op.dst = none → t.hart.regs = s.hart.regs)) ∧
  (∀ (i : Instr) (s : State) (q : Ask), memoryOf s i = some q → s.issues i = true → s.isNew = true → s.allows q = true → q.isLocal = false →
    q.isRemote = false → s.entryFree = true → s.convertsNow q = true →
    (∀ fl, storeOf s i = some (q, fl) → s.hart.arith.fpstat.extractLsb' 8 5 &&& fl = 0) →
    ∃ (t : State) (a : Access), exec i s = .next t ∧ t.net.accs = s.net.accs ++ [a] ∧ t.hart.nseq = s.hart.nseq + 1 ∧
      a.id = s.fresh ∧ a.core = s.cur ∧ a.hart = s.curHart ∧ a.seq = s.hart.nseq ∧ a.mark.pc = s.hart.pc ∧ a.op = q.op ∧ a.orphan = false ∧
      a.parts.length = q.els.length ∧ (q.op.awaited s.hart = true → t.disp = .waiting) ∧ (q.op.awaited s.hart = false → t.disp = .retired) ∧
      (∀ (j : Nat) (e : El) (p : Part), q.els[j]? = some e → a.parts[j]? = some p → p.n = j ∧ p.va = e.va ∧ p.size = e.size ∧ p.data = e.data ∧
        (spaceOf e.va ≠ .loc → s.reach q.op q.plain e = .go p.stage) ∧
        (spaceOf e.va = .loc → q.op.dst ≠ none →
          p.stage = .done (BitVec.ofNat 512 (bytesValue s.mem (localKey s.cur e.va.toNat) e.size)))) ∧
      (∀ r, q.op.dst = some r → t.mem = s.mem ∧ t.hart.regs = s.hart.regs.empty r) ∧
      (q.op.dst = none → s.Canonical → t.hart.regs = s.hart.regs ∧ ∀ b, readByte t.mem b =
        (storedByte s.cur (q.els.filter fun e => spaceOf e.va == .loc && e.kind == .store) b).getD (readByte s.mem b)))

/-- An access whose address is not a multiple of its size traps with the group 1 cause of its kind and its space, problem 00, before any
translation; TRADDR holds the address, and nothing is read or written (R196, R211, R213, R216, R237). An ordered store outside a reaction traps with
cause 0x079 when its address is aligned, and any other ordered access to the hart's own store or a peer's with 0x071 or 0x075 (R237). -/
def Obligations.BadAccessesTrap : Prop :=
  (∀ (i : Instr) (s : State) (q : Ask) (e : El), memoryOf s i = some q → q.els = [e] → s.issues i = true → s.settled = true →
     e.va.toNat % e.size ≠ 0 →
     exec i s = .next (s.trapped (BitVec.ofNat 9 (0x40 + 16 * e.kind.code + 4 * (spaceOf e.va).code)) e.va 0)) ∧
  (∀ (i : Instr) (s : State) (va : W) (size : Nat), orderedStoreAt s i = some (va, size) → s.issues i = true → s.settled = true →
    s.hart.rx = false → va.toNat % size = 0 → exec i s = .next (s.trapped 0x079 va 0)) ∧
  (∀ (i : Instr) (s : State) (q : Ask) (e : El), orderedOf s i = some q → q.els = [e] → s.issues i = true → s.settled = true →
    e.va.toNat % e.size = 0 → (spaceOf e.va = .loc → exec i s = .next (s.trapped 0x071 e.va 0)) ∧
      (spaceOf e.va = .peer → exec i s = .next (s.trapped 0x075 e.va 0)))

/-! Vector, moment and integer units. -/

/-- A vector or moment operation issues with its operands as they stand. With every trap enable clear it retires and its destinations are held for
its results; with one set, or NVF for a moment operation, its hart waits for the result in it (R129, R130, R157, R158). A unit accepts the operation
of its core that issued first; the vector unit computes with the codebook as it stands, and VOPS counts the operation unless it will trap (R30,
R129, R132, R157). That VOPS counts at acceptance is the model's reading (log 40). It says where these complete: vadd, vsub, vmul, vfma, vmin, vmax,
vabs, vneg, vand, vor, vxor, vshl, vshr, vsra, vceq, vclt, vcle, vsel, vcvt, vred, vsplat, vext, vins, vperm, vwfma, vdot, vlut, vpln, vupl, vrcp,
vrsq, vexp, kand, kor, kxor, knot, kpopc, kmovKK, kmovKG, kmovGK, vidx, vslide, vmov, vtanh, vrand, vpopc, vpdot, vcvts, vmulh, vsat, madd, msub,
mmul, mscal, maddc, mrelu, mexp, msig, mpack, mcoll, mred, mmov, mzero, mchk, vectorAccept, momentAccept. -/
def Obligations.UnitOperationsIssue : Prop :=
  (∀ (i : Instr) (s : State) (f : UnitForm), unitFormOf i = some f → s.issues i = true →
     let precise := s.hart.arith.fpstat.extractLsb' 8 5 ≠ 0 ∨ (f.moment = true ∧ s.hart.arith.momode.getLsbD 2 = true)
     (¬ precise → exec i s = .next (((s.noted (unitWrites i)).underway i (f.issued (s.operands i f)) (unitWrites i) false).retires)) ∧
     (precise → exec i s = .next ((s.underway i (f.issued (s.operands i f)) [] true).awaits i .precise))) ∧
  (∀ (s : State) (c : CoreId) (h : HartId) (moment : Bool) (p : Pend) (o : OpCtx), s.firstWaiting c h moment = some (p, o) →
     (∀ h' q o', s.firstWaiting c h' moment = some (q, o') → h' = h ∨ p.id < q.id) →
     let r := if moment then momOut o else vecOut o (s.core c).cblo (s.core c).cbhi
     let n : W := if moment then 0 else if p.precise ∧ (opTrap false (s.hartAt c h).arith r).isSome then 0 else 1
     exec (if moment then .momentAccept c else .vectorAccept c) s = .next { (s.onHartAt c h fun k =>
       { k with pend := k.pend.map (fun q => if q.id = p.id then { q with kind := acceptedAs moment r } else q),
                arith := { k.arith with vops := k.arith.vops + n } }) with disp := .occurred })

/-- The result of an accepted operation that its hart does not wait for reaches its registers, and its flags FPSTAT and MOFLAGS (R130, R158, R171).
The result of an operation that its hart waits for: a flag whose trap is enabled traps with unit 1 or 2 and nothing is written; else, for a moment
operation under NVF with a bad variance, the trap is 0x0FA with the lanes in TRINFO; else, for a lone word, the result is written and the word
retires (R40, R130, R158, R171). It says where these complete: vectorComplete, momentComplete. -/
def Obligations.UnitResultsLand : Prop :=
  (∀ (s : State) (c : CoreId) (h : HartId) (moment : Bool) (p : Pend) (r : OpResult), s.nextDone c h moment = some (p, r) → p.precise = false →
     exec (if moment then .momentComplete c h else .vectorComplete c h) s = .next { (s.onHartAt c h fun k =>
       Hart.takes r { k with pend := k.pend.filter fun q => q.id != p.id }) with disp := .occurred }) ∧
  (∀ (s : State) (c : CoreId) (h : HartId) (moment : Bool) (p : Pend) (r : OpResult), s.nextDone c h moment = some (p, r) → p.precise = true →
     s.unconfirmed c h = false → (s.hartAt c h).tkp = false →
     let k := s.hartAt c h
     let e := k.arith.fpstat.extractLsb' 8 5 &&& r.flags
     let bad : Prop := moment = true ∧ k.arith.momode.getLsbD 2 = true ∧ r.bad ≠ 0
     let u := s.onHartAt c h fun k => { k with pend := k.pend.filter fun q => q.id != p.id }
     let ev : Instr := if moment then .momentComplete c h else .vectorComplete c h
     let trap (cause : BitVec 9) (info : W) : Out :=
       .next { (u.onHartAt c h (trapHart (s.firmware c) false cause 0 info k.pc)) with disp := .occurred }
     (e ≠ 0 → exec ev s = trap (BitVec.ofNat 9 ((if moment then 0xC2 else 0xC1) + 8 * trapKind e)) (r.flags.setWidth 64)) ∧
     (e = 0 → bad → exec ev s = trap 0x0FA (r.bad.setWidth 64)) ∧
     (e = 0 → ¬ bad → k.waitAt = some { slot := .lone, op := p.op } →
       ∃ t, exec ev s = .next t ∧ t.disp = .occurred ∧
         (t.hartAt c h).regs = r.writes.foldl (fun g w => g.write w.x w.r) k.regs ∧
         (t.hartAt c h).arith = (Hart.takes r k).arith ∧ (t.hartAt c h).instret = k.instret + 1 ∧ (t.hartAt c h).wait = .none))

/-- The INT32 element-wise operations without a prefix write the lane of their table row where the mask selects it, keep the lane of vD elsewhere,
and raise no flag (R25, R133, R137, R138, R144, R151). -/
def Obligations.IntegerLanesByMask : Prop :=
  ∀ (o : OpCtx) (lo hi : W) (d : BitVec 5) (f : BitVec 32 → BitVec 32 → BitVec 32 → BitVec 32), intLane o.op = some (d, f) → o.pfx = 0 →
    ∃ x : VReg, vecOut o lo hi = { writes := [⟨.v d, x.setWidth 1024⟩], flags := 0, bad := 0, badNan := false, badNeg := false } ∧
      ∀ j, j < 16 → lane32 x j = if o.mask.getLsbD j then f (lane32 o.a j) (lane32 o.b j) (lane32 o.d j) else lane32 o.d j

/-- The moment operations on independent elements write the mean and the checked variance of their rule where the mask selects the lane, and keep
both elsewhere (R164, R165, R170, R171). -/
def Obligations.MomentLanesByMask : Prop :=
  ∀ (o : OpCtx), o.momode.extractLsb' 0 2 = 0 → (momentLane o 0 o.op).isSome = true →
    ∃ d x, (momOut o).writes = [⟨.m d, x⟩] ∧ ∀ j, j < 16 → ∃ mu v, momentLane o j o.op = some (d, mu, v) ∧
      meanLane x j = (if o.mask.getLsbD j then mu else meanLane o.md j) ∧ varLane x j = (if o.mask.getLsbD j then v else varLane o.md j)

/-! Accesses in flight, tickets and translation. -/

/-- A request at the package's memory acts once: a load answers the bytes there, a store writes its bytes and no other, an atomic answers the old
value and writes the new one, and the flag of an STF counts up after its data (R212, R216 to R218). It says where these complete: loadRequest,
storeRequest, atomicRequest, stfFlagIncrement. -/
def Obligations.RequestsActOnMemory : Prop :=
  ∀ (s : State) (n k : Nat) (a : Access) (p : Part) (pa : BitVec 48), s.Canonical → s.acc n = some a → a.part k = some p →
    s.servedAt a p pa →
    (∀ d sx, a.op = .load d sx → ∃ t, exec (.loadRequest n k) s = .next t ∧ t.disp = .occurred ∧ t.mem = s.mem ∧
      t.partAt n k (.answered (BitVec.ofNat 512 (bytesValue s.mem pa.toNat p.size)))) ∧
    (∀ d ff tf bc, a.op = .vload d ff tf bc → ∃ t, exec (.loadRequest n k) s = .next t ∧ t.disp = .occurred ∧ t.mem = s.mem ∧
      t.partAt n k (.answered (BitVec.ofNat 512 (bytesValue s.mem pa.toNat p.size)))) ∧
    (a.op = .store ∨ a.op = .vstore → ∃ t, exec (.storeRequest n k) s = .next t ∧ t.disp = .occurred ∧
      onlyWrote s t pa.toNat p.size p.data.toNat ∧ t.partAt n k (.answered 0)) ∧
    (∀ fn r b cmp, a.op = .atomic fn r b cmp → ∃ t, exec (.atomicRequest n k) s = .next t ∧ t.disp = .occurred ∧
      onlyWrote s t pa.toNat p.size
        (atomicNew fn p.size (BitVec.ofNat 512 (bytesValue s.mem pa.toNat p.size)) b cmp).toNat ∧
      t.partAt n k (.answered (BitVec.ofNat 512 (bytesValue s.mem pa.toNat p.size)))) ∧
    (a.op = .stf → k = 1 → ∀ q, a.part 0 = some q → q.stage.performed = true → ∃ t, exec (.stfFlagIncrement n) s = .next t ∧
      t.disp = .occurred ∧ onlyWrote s t pa.toNat p.size (bytesValue s.mem pa.toNat p.size + 1))

/-- The answer to the last part of an access reaches its hart: a load's value its destination, which becomes full; an atomic's old value the hart
that waits for it, whose instruction ends; a store or a message is confirmed (R60, R217, R249). It says where these complete: dataResponse,
acknowledgement. -/
def Obligations.AnswersReachTheirHart : Prop :=
  ∀ (s : State) (n k : Nat) (a : Access) (p : Part) (x : BitVec 512), s.acc n = some a → a.parts = [p] → p.n = k → p.stage = .answered x →
    a.orphan = false → a.mute = false → s.answerReady n k = true → s.untroubled a.core a.hart → (∀ b ∈ s.net.accs, b.id = n → b = a) →
    (∀ d sx, a.op = .load d sx → ∃ t, exec (.dataResponse n k) s = .next t ∧ t.disp = .occurred ∧ t.mem = s.mem ∧
      (t.hartAt a.core a.hart).regs = (s.hartAt a.core a.hart).regs.writeG d
        (BitVec.ofInt 64 (if sx then signedLow (8 * p.size) x.toNat else x.toNat)) ∧ t.confirms n) ∧
    (∀ fn r b cmp w, a.op = .atomic fn r b cmp → s.waitsFor a = true → (s.hartAt a.core a.hart).waitAt = some w →
      ∃ t, exec (.dataResponse n k) s = .next t ∧ t.disp = .occurred ∧ s.concluded t a.core a.hart w (atomicResult r p.size x)) ∧
    (a.op = .store ∨ a.op = .vstore ∨ a.op = .message none → ∃ t, exec (.acknowledgement n k) s = .next t ∧ t.disp = .occurred ∧
      t.mem = s.mem ∧ (t.hartAt a.core a.hart).regs = (s.hartAt a.core a.hart).regs ∧ t.confirms n)

/-- A refusal of the only outstanding access of a hart is a precise trap at its instruction: the hart goes back to where it was, with TRADDR the
address of the access (R201, R250, R251, R253). A ticket on which a rewound hart has been parked for TKLIM core cycles traps with cause 0x1C5,
TRADDR 0, and frees its entry (R254). That the trap is taken over undone younger work, and that INSTRET is restored, are the model's readings (logs
11, 32). It says where these complete: negativeAcknowledgement, ticketTimeout. -/
def Obligations.RefusalsTrapPrecisely : Prop :=
  (∀ (s : State) (n k : Nat) (a : Access) (p : Part) (cause : BitVec 9), s.acc n = some a → a.parts = [p] → p.n = k →
     p.stage = .refused cause none → cause.extractLsb' 6 3 = 1 → s.answerReady n k = true → a.orphan = false → a.frozen = 0 → a.op.isMessage = false →
     (s.hartAt a.core a.hart).stopped = false → a.seq < (s.hartAt a.core a.hart).nseq →
     (s.hartAt a.core a.hart).pend.all Pend.isReady = true → s.onlyAccess a →
     ∃ t, exec (.negativeAcknowledgement n k) s = .next t ∧ t.disp = .occurred ∧ t.mem = s.mem ∧
       (s.uninterrupted a.core a.hart a.seq).tookTrap t a.core a.hart cause p.va a.mark.pc ∧ (t.hartAt a.core a.hart).instret = a.mark.instret) ∧
  (∀ (s : State) (c : CoreId) (h : HartId) (a : Access), (s.live c h).find? (fun b => b.seq == (s.hartAt c h).nseq) = some a →
     (s.hartAt c h).tkp = true → s.rewound c h = true → s.unconfirmed c h = false → a.parked = true → (s.hartAt c h).tklim ≠ 0 →
     (s.hartAt c h).tklim.toNat ≤ (s.cycleOf c h - a.since).toNat →
     ∃ t, exec (.ticketTimeout c h) s = .next t ∧ t.disp = .occurred ∧ s.tookTrap t c h 0x1C5 0 (s.hartAt c h).pc ∧
       (t.hartAt c h).trap.trinfo = 1 ∧ ∀ b ∈ t.net.accs, b.id ≠ a.id)

/-- A ticket parks its hart on the access. Its notice leaves the parts that hold it to be sent afresh. Its fault leaves a part with the ticket's
cause recoded to the access's own kind, as long as the hart cannot rewind yet; a hart that stands at the access takes the trap of that cause, TRADDR
the address of the access and TRINFO the slice and number of the ticket, with the element of a vector access (R245, R251 to R253). Once the younger
accesses of a parked hart are answered, it stands again at the instruction of its ticketed access, with the registers that its log holds (R251,
R263), the flags of R51, and, by the model's readings, the loop stack, the count of instructions and NSEQ that it had there (logs 32, 37). That the
loop stack, INSTRET and the flags come back, that NSEQ returns, and the four bits of an element's number are the model's readings (logs 32, 37, 42).
It says where these complete: ticket, ticketRewind, replayNotice, ticketFault. -/
def Obligations.TicketsParkAndRewind : Prop :=
  (∀ (s : State) (n k : Nat) (a : Access) (p : Part) (slice : BitVec 6) (num : BitVec 16), s.acc n = some a → a.part k = some p →
    p.stage = .ticket slice num → a.orphan = false → a.frozen = 0 → (s.hartAt a.core a.hart).stopped = false →
    a.seq < (s.hartAt a.core a.hart).nseq → (s.hartAt a.core a.hart).tkEv = false → s.onlyAccess a →
    ∃ t, exec (.ticket n k) s = .next t ∧ t.disp = .occurred ∧ (t.hartAt a.core a.hart).tkp = true ∧ t.partAt n k (.parked slice num) ∧
      t.mem = s.mem) ∧
  (∀ (s : State) (n k : Nat) (a : Access) (p : Part) (slice : BitVec 6) (num : BitVec 16) (e : Ticket), s.acc n = some a → a.part k = some p →
    p.stage = .parked slice num → s.onlyAccess a → s.holdsAlone a slice num → s.findTicket slice num = some e → e.kind ≠ 0 → e.engine = false →
    e.ctx = a.ctx → s.ticketTravels slice num = false → s.isSwitchedOut a.ctx = false → a.orphan = false → a.frozen = 0 → a.op.isMessage = false →
    let x := s.hartAt a.core a.hart
    let kind := a.op.partKind k
    (e.answer = some none → ∃ t, exec (.replayNotice slice num) s = .next t ∧ t.disp = .occurred ∧ t.findTicket slice num = none ∧ t.mem = s.mem ∧
      t.partAt n k .undone) ∧
    (∀ cause, e.answer = some (some cause) → a.seq < x.nseq → x.pend.all (fun q => q.isReady || q.precise) = false →
      ∃ t, exec (.ticketFault slice num) s = .next t ∧ t.disp = .occurred ∧ t.findTicket slice num = none ∧ t.mem = s.mem ∧
        t.partAt n k (.fault (ofKind cause kind) (slice ++ num) none)) ∧
    (∀ cause, e.answer = some (some cause) → cause.extractLsb' 6 3 = 2 → a.seq = x.nseq → x.tkp = true → a.parts = [p] →
      ∃ t, exec (.ticketFault slice num) s = .next t ∧ t.disp = .occurred ∧ t.findTicket slice num = none ∧ t.mem = s.mem ∧
        s.tookTrap t a.core a.hart (ofKind cause kind) p.va x.pc ∧ t.partAt n k .undone ∧
        (t.hartAt a.core a.hart).trap.trinfo = (slice ++ num).setWidth 64 ||| (if a.vec then BitVec.ofNat 64 (k % 16) <<< 24 else 0))) ∧
  (∀ (s : State) (c : CoreId) (h : HartId) (a : Access) (slice : BitVec 6) (num : BitVec 16), a ∈ s.net.accs →
     s.onlyAccess a → a.core = c → a.hart = h → a.frozen = 0 → a.orphan = false →
     (∃ p, a.parts = [p] ∧ p.stage = .parked slice num) → a.seq < (s.hartAt c h).nseq → (s.hartAt c h).pend.all Pend.isReady = true →
     (s.hartAt c h).tkp = true →
     ∃ t, exec (.ticketRewind c h) s = .next t ∧ t.disp = .occurred ∧ t.mem = s.mem ∧ (t.hartAt c h).pc = a.mark.pc ∧
       (t.hartAt c h).arith.fpstat = a.mark.fpstat ∧ (t.hartAt c h).arith.moflags = a.mark.moflags ∧
       (t.hartAt c h).nseq = a.seq ∧ (t.hartAt c h).loops = a.mark.loops ∧ (t.hartAt c h).instret = a.mark.instret ∧
       (t.hartAt c h).tkp = true ∧
       ((s.hartAt c h).log = [] → (t.hartAt c h).regs = (s.hartAt c h).regs))

/-- A slice sends a part on to the physical address that the page's entry gives, one that its TLB holds or the leaf of its walk, when the entry
permits the access, and answers one that asks for a translation alone; an entry that does not permit it refuses the part with outcome "permission";
a page that is not there gets a ticket; and a malformed table refuses the part with outcome "not mapped" at its level (R245, R246). The host's
answer to a translation request: a grant that suffices and that the leaf permits sends the part to host memory at the address granted; one that the
leaf does not permit is refused, but stays in the slice's TLB; an address of 2^44 or more is refused as not mapped; one that does not suffice gives
the part a ticket of reason "host refused" (R245, R259). That the hart meets a refusal as one of its page, what the record of a malformed entry
holds, and that a request which an invalidation meets is asked again, are the model's choices (logs 43, 123, 124). It says where these complete:
sliceWalk, atsCompletion. -/
def Obligations.SlicesTranslate : Prop :=
  (∀ (s : State) (n k : Nat) (a : Access) (p : Part), s.acc n = some a → a.part k = some p → p.stage = .slice → a.orphan = false →
     let slice := sliceOf a.core p.va
     let kind := a.op.partKind k
     s.pageTicket slice a.ctx p.va = none → (s.openAt slice).length < 1024 →
     (∀ e, (s.sliceHit slice a.ctx p.va = some e ∨
         (s.sliceHit slice a.ctx p.va = none ∧ ∃ size pte l, s.walkOf a p.va = .leaf size pte l ∧ e = leafEntry a.ctx p.va size pte)) →
       (∀ pa z, e.permits kind a.mode = true → s.needsShadow kind e (e.phys p.va) = false →
         s.reachPhys a.op kind a.plain a.mode (e.phys p.va) e.size p.size = .go (.sent (.phys pa z)) →
         ∃ t, exec (.sliceWalk n k) s = .next t ∧ t.disp = .occurred ∧ t.mem = s.mem ∧ pa = e.phys p.va ∧
           t.partAt n k (if a.op.isXlat then .answered 0 else .sent (.phys pa z))) ∧
       (e.permits kind a.mode = false → ∃ t, exec (.sliceWalk n k) s = .next t ∧ t.disp = .occurred ∧ t.mem = s.mem ∧
         t.partAt n k (.refused (BitVec.ofNat 9 (0x84 + 16 * kind.code)) none))) ∧
     (s.sliceHit slice a.ctx p.va = none →
       (∀ r l ad, s.walkOf a p.va = .ticket r l ad → ∃ t num, exec (.sliceWalk n k) s = .next t ∧ t.disp = .occurred ∧ t.mem = s.mem ∧
         t.partAt n k (.ticket slice num) ∧ (t.findTicket slice num).isSome = true) ∧
       (∀ o l ad, s.walkOf a p.va = .fault o l ad → ∃ t, exec (.sliceWalk n k) s = .next t ∧ t.disp = .occurred ∧
         t.partAt n k (.refused (BitVec.ofNat 9 (0x80 + 16 * kind.code + l)) none)))) ∧
  (∀ (s : State) (n k : Nat) (a : Access) (p : Part) (o r w : Bool) (ha : W) (z : BitVec 2) (v pte l : _),
     s.acc n = some a → a.part k = some p → p.stage = .ats → a.orphan = false → s.walkOf a p.va = .host v pte l →
     let slice := sliceOf a.core p.va
     let kind := a.op.partKind k
     let e := hostEntry a.ctx p.va pte ha r w z
     (s.openAt slice).length < 1024 →
     ((o && atsEnough kind r w) = false → ∃ t num, exec (.atsCompletion n k o ha r w z) s = .next t ∧ t.disp = .occurred ∧
       t.partAt n k (.ticket slice num) ∧ ∃ e ∈ t.books.tickets, e.slice = slice ∧ e.num = num ∧ e.ctx = a.ctx ∧
         e.vpn = p.va.extractLsb' 12 36 ∧ e.reason = TicketReason.host.code) ∧
     ((o && atsEnough kind r w) = true → 2 ^ 44 ≤ ha.toNat → ∃ t, exec (.atsCompletion n k o ha r w z) s = .next t ∧ t.disp = .occurred ∧ t.mem = s.mem ∧
       t.partAt n k (.refused (BitVec.ofNat 9 (0x80 + 16 * kind.code)) none)) ∧
     ((o && atsEnough kind r w) = true → ha.toNat < 2 ^ 44 →
       (∀ pa y, e.permits kind a.mode = true → s.needsShadow kind e (e.phys p.va) = false →
         s.reachPhys a.op kind a.plain a.mode (e.phys p.va) e.size p.size = .go (.sent (.phys pa y)) →
         ∃ t, exec (.atsCompletion n k o ha r w z) s = .next t ∧ t.disp = .occurred ∧
           t.partAt n k (if a.op.isXlat then .answered 0 else .sent (.phys pa y))) ∧
       (e.permits kind a.mode = false → ∃ t, exec (.atsCompletion n k o ha r w z) s = .next t ∧ t.disp = .occurred ∧ t.mem = s.mem ∧
         (slice, e) ∈ t.books.sliceTlb ∧ t.partAt n k (.refused (BitVec.ofNat 9 (0x84 + 16 * kind.code)) none))))

/-! Fences, waits, groups and barriers. -/

/-- A FENCE without the engine set, or while the hart has no engine command outstanding, retires; with one outstanding it does not issue. IFENCE
retires, and its hart fetches its next block afresh. YIELD retires and its hart pauses, until no other hart of its core may issue at the latest
(R112, R228, R229, R232, R239). WAITA of a location in the hart's own store returns its value at once when it differs from gB or WAITLIM is 0, and
otherwise waits; a location elsewhere is read by an access on its way. A later read, by a poll or when the limit has passed, ends the wait on a
difference or once WAITLIM core cycles have passed, and else lets it go on (R230). That WAITA of the own store reads at issue, that a hart keeps one
fetch block, and what holds FENCE.e back are the model's choices (logs 7, 10, 15). It says where these complete: fence, ifence, waita, yield,
yieldPauseEnd, waitaPoll, waitaLimitExpiry. -/
def Obligations.FencesYieldAndWaita : Prop :=
  (∀ (e p q u v : Bool) (sc : BitVec 2) (w l : Bool) (s : State), s.issues (.fence e p q u v sc w l) = true →
    ((e = false ∨ s.engineBusy s.cur s.curHart = false) → exec (.fence e p q u v sc w l) s = .next s.retires) ∧
    (e = true → s.engineBusy s.cur s.curHart = true → exec (.fence e p q u v sc w l) s = .next { s with disp := .held })) ∧
  (∀ (w l : Bool) (s : State), s.issues (.ifence w l) = true → exec (.ifence w l) s = .next (s.onHart fun h => { h with block := none }).retires) ∧
  (∀ (w l : Bool) (s : State), s.issues (.yield w l) = true →
    exec (.yield w l) s = .next (s.onHart fun h => { h with pause := 4 }).retires) ∧
  (∀ (c : CoreId) (h : HartId) (s : State), (s.hartAt c h).pause ≠ 0 →
    (∀ k, k ≠ h → (s.hartAt c k).pause = 0 → s.mayIssue c k = false) →
    exec (.yieldPauseEnd c h) s = .next { (s.onHartAt c h fun x => { x with pause := 0 }) with disp := .occurred }) ∧
  (∀ (sc : BitVec 2) (z : Bool) (b a d : BitVec 5) (w l : Bool) (s : State), s.issues (.waita sc z b a d w l) = true →
    s.isNew = true → s.allows (waitaReads (s.g a) z) = true →
    let i : Instr := .waita sc z b a d w l
    let x := bytesValue s.mem (localKey s.cur (s.g a).toNat) (sizeBit z)
    let now := s.cycleOf s.cur s.curHart
    (spaceOf (s.g a) = .loc → x ≠ (s.g b).toNat % 2 ^ (8 * sizeBit z) ∨ s.hart.waitlim = 0 → ∃ t, exec i s = .next t ∧ t.disp = .retired ∧ t.mem = s.mem ∧
      t.hart.regs = s.hart.regs.writeG d (BitVec.ofInt 64 (signedLow (8 * sizeBit z) x))) ∧
    (spaceOf (s.g a) = .loc → x = (s.g b).toNat % 2 ^ (8 * sizeBit z) → s.hart.waitlim ≠ 0 → ∃ t, exec i s = .next t ∧ t.disp = .waiting ∧
      t.mem = s.mem ∧ t.hart.wait = .waita d (s.g a) (sizeBit z) (s.g b) now now false ∧ t.hart.regs = s.hart.regs.empty (.g d) ∧
      t.hart.pc = s.hart.pc) ∧
    (spaceOf (s.g a) ≠ .loc → s.entryFree = true → ∃ t r, exec i s = .next t ∧ t.disp = .waiting ∧ t.mem = s.mem ∧
      t.hart.wait = .waita d (s.g a) (sizeBit z) (s.g b) now now true ∧ t.net.accs = s.net.accs ++ [r] ∧ r.op = .waita)) ∧
  (∀ (s : State) (c : CoreId) (h : HartId) (d : BitVec 5) (va : W) (z : Bool) (cmp start last : W) (w : WaitAt) (limit : Bool),
    (s.hartAt c h).wait = .waita d va (sizeBit z) cmp start last false → (s.hartAt c h).waitAt = some w →
    spaceOf va = .loc → s.atRest c = false → { s with cur := c, curHart := h, slot := w.slot }.allows (waitaReads va z) = true →
    16 ≤ (s.cycleOf c h - last).toNat →
    let x := bytesValue s.mem (localKey c va.toNat) (sizeBit z)
    let limitPassed := (s.hartAt c h).waitlim.toNat ≤ (s.cycleOf c h - start).toNat
    let ev : Instr := if limit then .waitaLimitExpiry c h else .waitaPoll c h
    (limit = true → limitPassed) →
    ∃ t, exec ev s = .next t ∧ t.disp = .occurred ∧ t.mem = s.mem ∧
      (x ≠ cmp.toNat % 2 ^ (8 * sizeBit z) ∨ limitPassed →
        s.concluded t c h w (oneWrite (.g d) ((BitVec.ofInt 64 (signedLow (8 * sizeBit z) x)).setWidth 1024))) ∧
      (¬ (x ≠ cmp.toNat % 2 ^ (8 * sizeBit z) ∨ limitPassed) → (t.hartAt c h).wait = .waita d va (sizeBit z) cmp start (s.cycleOf c h) false))

/-- GJOIN waits until the barrier tree confirms, and then holds its rank: the lowest that no other member has, or its own if it was a member. GLEAVE
ends the membership, and GQRY counts the members (R111 to R113). GBAR of a member waits for its group's episode: it opens one when none is open. An
episode of which every awaited member has arrived completes: the waiting members go on, and the episode number counts up (R112, R114). That the next
GBAR of an interrupted member is the interrupted one is the model's choice (log 139). It says where these complete: gjoin, gleave, gbar, gqry,
groupJoinConfirm, barrierEpisodeComplete. -/
def Obligations.GroupsAndBarriers : Prop :=
  (∀ (a d : BitVec 5) (w l : Bool) (s : State), s.issues (.gjoin a d w l) = true → s.joinRefused s.cur s.curHart (s.g a) = false →
    exec (.gjoin a d w l) s = .next (s.awaits (.gjoin a d w l) (.gjoin d (s.g a)))) ∧
  (∀ (s : State) (c : CoreId) (h : HartId) (d : BitVec 5) (x : W) (w : WaitAt), (s.hartAt c h).wait = .gjoin d x →
    (s.hartAt c h).waitAt = some w → s.joinRefused c h x = false → ∃ t g r, exec (.groupJoinConfirm c h) s = .next t ∧ t.disp = .occurred ∧
      t.group (x.extractLsb' 0 12) = some g ∧ (c, h, r) ∈ g.members ∧ s.concluded t c h w (oneWrite (.g d) (BitVec.ofNat 1024 r)) ∧
      (∀ old, s.group (x.extractLsb' 0 12) = some old → (∀ i j k, (i, j, k) ∈ old.members → ¬ (i = c ∧ j = h)) → old.members.length < 16384 →
        (∀ i j k, (i, j, k) ∈ old.members → k ≠ r) ∧ ∀ q, q < r → ∃ i j, (i, j, q) ∈ old.members)) ∧
  (∀ (a : BitVec 5) (w l : Bool) (s : State), s.issues (.gleave a w l) = true → (s.g a).toNat < 4096 → ∃ t, exec (.gleave a w l) s = .next t ∧
    t.disp = .retired ∧ t.hart.regs = s.hart.regs ∧ ((∀ i j, i ∈ s.groups → j ∈ s.groups → i.id = j.id → i = j) →
      ∀ g, t.group ((s.g a).extractLsb' 0 12) = some g → ¬ g.has s.cur s.curHart)) ∧
  (∀ (a d : BitVec 5) (w l : Bool) (s : State), s.issues (.gqry a d w l) = true → (s.g a).toNat < 4096 →
    exec (.gqry a d w l) s = .next (s.wroteG d (BitVec.ofNat 64 (match s.group ((s.g a).extractLsb' 0 12) with
      | some g => g.members.length
      | none => 0))).retires) ∧
  (∀ (a : BitVec 5) (w l : Bool) (s : State) (g : Group), s.issues (.gbar a w l) = true → (s.g a).toNat < 4096 →
    s.group ((s.g a).extractLsb' 0 12) = some g → g.has s.cur s.curHart → (s.cur, s.curHart) ∉ g.owed →
    ∃ t k, exec (.gbar a w l) s = .next t ∧ t.disp = .waiting ∧ t.hart.pc = s.hart.pc ∧ t.group g.id = some k ∧
      (g.isOpen = false → t.hart.wait = .gbar g.id false ∧ k.isOpen = true ∧ k.awaited = g.members.map (fun m => (m.1, m.2.1)) ∧
        k.arrived = [(s.cur, s.curHart)]) ∧
      (g.isOpen = true → (s.cur, s.curHart) ∈ g.awaited → t.hart.wait = .gbar g.id false ∧ (s.cur, s.curHart) ∈ k.arrived) ∧
      (g.isOpen = true → (s.cur, s.curHart) ∉ g.awaited → t.hart.wait = .gbar g.id true ∧ k = g)) ∧
  (∀ (s : State) (g : Group) (i : BitVec 12), s.group i = some g → g.isOpen = true → (∀ m ∈ g.awaited, m ∈ g.arrived) →
    ∃ t k, exec (.barrierEpisodeComplete i) s = .next t ∧ t.disp = .occurred ∧ t.group i = some k ∧ k.episode = g.episode + 1 ∧
      ∀ c h r w, (c, h, r) ∈ g.members → (s.hartAt c h).wait = .gbar i false → (s.hartAt c h).waitAt = some w → (t.hartAt c h).wait ≠ .gbar i false)

/-! Time and reactions. -/

/-- NEXT marks vD empty, joins the waiting NEXTs of its core and waits; DONE ends the reaction, which enters the window of finished ones; NEXT in a
reaction and DONE outside one trap. The head of an inbox that is safe fires a reaction on the earliest waiting hart: its payload arrives in vD, RXPC
is the address of that NEXT, and CURT, CURM, CURP and CURS describe the message (R268 to R271, R281). It says where these complete: next, done,
nextDelivery. -/
def Obligations.ReactionsRunFromNextToDone : Prop :=
  (∀ (d : BitVec 5) (w l : Bool) (s : State), s.issues (.next d w l) = true →
    (s.hart.rx = false → s.self.ltp s.curHart = false → exec (.next d w l) s = .next (((s.emptied (.v d)).onSelf fun k =>
      { k with tags := { k.tags with nexters := k.tags.nexters ++ [s.curHart] } }).awaits (.next d w l) (.next d))) ∧
    (s.hart.rx = true → s.settled = true →
      exec (.next d w l) s = .next (s.trapped (BitVec.ofNat 9 (0x128 + s.hart.react.curp.toNat / 2)) 0 0))) ∧
  (∀ (w l : Bool) (s : State), s.issues (.done w l) = true →
    (s.hart.rx = true → s.self.ltp s.curHart = false → exec (.done w l) s = .next ((s.onSelf fun k =>
      { k with tags := { k.tags with window := k.tags.window ++ k.tags.active.toList, active := none } }).onHart fun h =>
      { h with rx := false, react := { h.react with posts := 0 } }).retires) ∧
    (s.hart.rx = false → s.settled = true →
      exec (.done w l) s = .next (s.trapped (BitVec.ofNat 9 (0x130 + s.hart.react.curp.toNat / 2)) 0 0))) ∧
  (∀ (s : State) (c : CoreId) (h : HartId) (m : InMsg) (ms : List InMsg) (hs : List HartId) (d : BitVec 5) (w : WaitAt),
    let k := s.core c
    k.tags.inbox = m :: ms → k.tags.nexters = h :: hs → s.headSafe c = true → k.anyRx = false → k.tags.window.length < 8 →
    k.ltp h = false → s.atRest c = false → k.sys.fenced = false → s.reinjecting k.mem.ctxid = false →
    (s.hartAt c h).wait = .next d → (s.hartAt c h).waitAt = some w →
    ∃ t, exec (.nextDelivery c) s = .next t ∧ t.disp = .occurred ∧ t.mem = s.mem ∧
      s.concluded t c h w (oneWrite (.v d) (m.payload.setWidth 1024)) ∧
      (t.core c).tags.inbox = ms ∧ (t.core c).tags.nexters = hs.filter (fun x => x != h) ∧
      (t.core c).tags.lft = m.t ∧ (t.core c).tags.lftm = m.m ∧
      (t.core c).tags.active = some { id := s.fresh, t := m.t, m := m.m, hart := h, msg := m, escaped := false } ∧
      (t.hartAt c h).rx = true ∧ (t.hartAt c h).react.rxpc = (s.hartAt c h).pc ∧ (t.hartAt c h).react.curt = m.ot ∧ (t.hartAt c h).react.curm = m.om ∧
      (t.hartAt c h).react.curp = m.port ∧
      (t.hartAt c h).react.curs = BitVec.ofBool m.late ++ 0#41 ++ m.pidx ++ m.shart ++ m.score)

/-- POST and POSTP send one message with the tag of their rule, the post's index and the core's PTC, and retire; registers and memory keep their
values. An endpoint that names reserved bits or a package without a link, and a tag out of range, trap instead (R264, R266, R269, R282). It says
where these complete: post, postp. -/
def Obligations.PostsSendTaggedMessages : Prop :=
  ∀ (p w l : Bool) (c b a : BitVec 5) (s : State),
    let i : Instr := if p then .postp c b a w l else .post c b a w l
    let e := endpointOf (s.g a)
    let tag := if p then ((s.ptc s.cur).toNat + (s.g c).toNat, 0) else postedTag s (s.g c)
    s.issues i = true →
    (postAllowed s e tag → ∃ t m, exec i s = .next t ∧ t.disp = .retired ∧ t.mem = s.mem ∧ t.hart.regs = s.hart.regs ∧
      t.hart.nseq = s.hart.nseq + 1 ∧ t.hart.react.posts = s.hart.react.posts + 1 ∧ t.net.posts = s.net.posts ++ [m] ∧
      m.core = s.cur ∧ m.hart = s.curHart ∧ m.ctx = s.self.mem.ctxid ∧ m.pkg = e.pkg ∧ m.dst = e.core ∧ m.port = e.port ∧
      m.t = BitVec.ofNat 64 tag.1 ∧ m.m = BitVec.ofNat 32 tag.2 ∧ m.pidx = s.hart.react.posts ∧ m.sptc = s.ptc s.cur ∧
      m.payload = s.v b ∧ m.full = false ∧ m.fromReaction = (if s.hart.rx then s.self.tags.active.map fun r => r.id else none)) ∧
    (e.ok = false ∨ (e.pkg ≠ 0 ∧ s.routed e.pkg = false) → s.settled = true →
      exec i s = .next (s.trapped (BitVec.ofNat 9 (0x138 + e.port.toNat / 2)) 0 0)) ∧
    (e.ok = true → (e.pkg = 0 ∨ s.routed e.pkg = true) → (2 ^ 63 ≤ tag.1 ∨ 2 ^ 32 - 1 ≤ tag.2) → s.settled = true →
      ∃ t, exec i s = .next t ∧ s.tookTrap t s.cur s.curHart (BitVec.ofNat 9 (0x118 + e.port.toNat / 2)) 0 s.hart.pc ∧
        t.hart.trap.trinfo = 1 ∧ t.net = s.net)

/-- TNOW returns the core's PTC. TWAIT goes on once PTC has reached gA, with the post count at 0 outside a reaction, and waits until then. A new
reference time and a new offset of one core's clock never take the PTC of any core back, and that core's PTC holds its value until its clock has
caught up (R15, R265, R282, R283). LATEQ returns the address of the oldest late record that it has not returned, and sets the bit of that record
that says so, or returns 0 when there is none; the record that it returned before is given up (R278, R283). That a clock holds its value until it is
caught up is the model's reading (log 119). It says where these complete: tnow, lateq, twait, timeTreeReference, twaitExpiry. -/
def Obligations.ClocksAndLateRecordsAreRead : Prop :=
  (∀ (d : BitVec 5) (w l : Bool) (s : State), s.issues (.tnow d w l) = true → exec (.tnow d w l) s = .next (s.wroteG d (s.ptc s.cur)).retires) ∧
  (∀ (a : BitVec 5) (w l : Bool) (s : State), s.issues (.twait a w l) = true →
    ((s.g a).toNat ≤ (s.ptc s.cur).toNat →
      exec (.twait a w l) s = .next (s.onHart fun h => if h.rx then h else { h with react := { h.react with posts := 0 } }).retires) ∧
    ((s.ptc s.cur).toNat < (s.g a).toNat → exec (.twait a w l) s = .next (s.awaits (.twait a w l) (.twait (s.g a))))) ∧
  (∀ (s : State) (c : CoreId) (h : HartId) (x : W) (w : WaitAt), (s.hartAt c h).wait = .twait x → (s.hartAt c h).waitAt = some w →
    x.toNat ≤ (s.ptc c).toNat → s.atRest c = false → ∃ t, exec (.twaitExpiry c h) s = .next t ∧ t.disp = .occurred ∧ t.mem = s.mem ∧
      s.concluded t c h w noWrite ∧ (t.hartAt c h).react.posts = (if (s.hartAt c h).rx then (s.hartAt c h).react.posts else 0)) ∧
  (∀ (s : State) (x : W) (c : CoreId) (k : BitVec 16), s.timeRef.toNat ≤ x.toNat → k.toInt.natAbs ≤ (s.core c).tags.terr.toNat →
    ∃ t, exec (.timeTreeReference x c k) s = .next t ∧ t.disp = .occurred ∧ t.timeRef = x ∧ (t.core c).tags.skew = k ∧
      (∀ e, (s.ptc e).toNat ≤ (t.ptc e).toNat) ∧ (t.ptc c).toNat = max (s.ptc c).toNat (clockAt x k)) ∧
  (∀ (s : State) (c : CoreId), (s.core c).tags.held.toNat ≤ (s.ptc c).toNat) ∧
  (∀ (d : BitVec 5) (w l : Bool) (s : State), s.Canonical → s.issues (.lateq d w l) = true →
     let r := s.self.tags
     let head := if r.ltPend then r.ltHead + 1 else r.ltHead
     ∃ t, exec (.lateq d w l) s = .next t ∧ t.disp = .retired ∧ t.self.tags.ltHead = head ∧ t.self.tags.ltTail = r.ltTail ∧
       (head = r.ltTail → t.hart.regs = s.hart.regs.writeG d 0 ∧ t.mem = s.mem ∧ t.self.tags.ltPend = false) ∧
       (head ≠ r.ltTail → t.hart.regs = s.hart.regs.writeG d (BitVec.ofNat 64 (r.recordAt head)) ∧ t.self.tags.ltPend = true ∧
         ∀ x, readByte t.mem x =
           if x = localKey s.cur (r.recordAt head + 16) then readByte s.mem x ||| 0x80#8 else readByte s.mem x))

/-- A tagged message whose target takes it enters the inbox in the order of its key, behind one delivered flagged that stands at the head (log 152),
unless its tag lies below the last fired one or the horizon, and answers its sender; a full inbox keeps it, and it comes again; a target that does
not take it refuses it, cause 0x138 to 0x13F by its port group (R267, R269, R275). A late message meets the policy of its port: it is held back as a
record, which holds what R278's table says, dropped, or delivered at once with a later tag; or it rewinds the core, whose reactions from the first
above its tag on are aborted, where R276 allows, and is held back where not. The port counts it in each case (R275, R276, R278). It says where these
complete: taggedMessage, inboxResend. -/
def Obligations.TaggedMessagesArrive : Prop :=
  (∀ (s : State) (n : Nat) (m : PostMsg), s.findPost n = some m → m.pkg = 0 → s.heldBack n 0 = false →
     let k := s.core m.dst
     let takes : Prop := m.dst ∉ s.pkg.absent ∧ k.sys.fenced = false ∧ s.admits m.dst m.ctx 8 = true ∧ k.mem.ctxid = m.ctx ∧
       ((k.tags.portcfg[m.port.toNat]?).getD 0).getLsbD 0 = true
     let ev : Instr := if m.full then .inboxResend n else .taggedMessage n
     (takes → k.tags.inbox.length < 256 → ¬ tagBelow m.t m.m k.tags.lft k.tags.lftm →
       ¬ tagBelow m.t m.m k.tags.hzn (k.tags.hznm.extractLsb' 0 32) → ∃ t x front back, exec ev s = .next t ∧ t.disp = .occurred ∧ t.mem = s.mem ∧
         (t.core m.dst).tags.inbox = front ++ x :: back ∧ k.tags.inbox = front ++ back ∧
         (∀ y ∈ front, y.late = true ∨ lexLt x.key y.key = false) ∧ (∀ y, back.head? = some y → y.late = false ∧ lexLt x.key y.key = true) ∧
         x.t = m.t ∧ x.m = m.m ∧ x.port = m.port ∧ x.score = m.core ∧ x.shart = m.hart ∧ x.pidx = m.pidx ∧ x.sptc = m.sptc ∧
         x.payload = m.payload ∧ x.ot = m.t ∧ x.om = m.m ∧ x.late = false ∧ x.arr = s.fresh ∧
         x.aptc = s.ptc m.dst ∧ x.ahzn = k.tags.hzn ∧ x.ahznm = k.tags.hznm ∧ x.alft = k.tags.lft ∧ x.alftm = k.tags.lftm ∧ t.findPost n = none ∧
         (∀ a p, s.acc m.acc = some a → a.part 0 = some p → t.partAt m.acc 0 (.answered 0))) ∧
     (takes → 256 ≤ k.tags.inbox.length → m.full = false → ∃ t y, exec ev s = .next t ∧ t.disp = .occurred ∧ t.findPost n = some y ∧
       y = { m with full := true } ∧ t.cores = s.cores ∧ t.mem = s.mem) ∧
     (¬ takes → ∃ t, exec ev s = .next t ∧ t.disp = .occurred ∧ t.findPost n = none ∧ t.cores = s.cores ∧ t.mem = s.mem ∧
       (∀ a p, s.acc m.acc = some a → a.part 0 = some p →
         t.partAt m.acc 0 (.refused (BitVec.ofNat 9 (0x138 + m.port.toNat / 2)) none)))) ∧
  (∀ (s : State) (c : CoreId) (x : InMsg) (kind : Nat),
     let cfg := ((s.core c).tags.portcfg[x.port.toNat]?).getD 0
     let t := s.latePolicy c x kind
     (((t.core c).tags.portcfg[x.port.toNat]?).getD 0).extractLsb' 0 32 = cfg.extractLsb' 0 32 ∧
     (((t.core c).tags.portcfg[x.port.toNat]?).getD 0).extractLsb' 32 32 =
       (if cfg.extractLsb' 32 32 = BitVec.allOnes 32 then cfg.extractLsb' 32 32 else cfg.extractLsb' 32 32 + 1) ∧
     let old := (s.core c).tags
     let heldBack : Prop := (t.core c).tags.inbox = old.inbox ∧ (t.core c).tags.window = old.window ∧ (t.core c).tags.active = old.active ∧
       ((old.ltTail - old.ltHead).toNat = old.ringSize → (t.core c).tags.ltOvf = true ∧ t.mem = s.mem) ∧
       ((old.ltTail - old.ltHead).toNat ≠ old.ringSize → (t.core c).tags.ltTail = old.ltTail + 1 ∧
         (kind < 8 → s.Canonical → holdsLate t.mem (localKey c (old.recordAt old.ltTail)) x kind 0))
     (cfg.extractLsb' 2 2 = 1 → (t.core c).tags.inbox = (s.core c).tags.inbox ∧ t.mem = s.mem) ∧
     (cfg.extractLsb' 2 2 = 0 → heldBack) ∧
     (cfg.extractLsb' 2 2 = 3 →
       let n := (old.reactions.takeWhile fun r => decide (tagBelow r.t r.m x.t x.m)).length
       let gone := old.reactions.drop n
       let may : Prop := kind = 0 ∧ ¬ tagBelow x.t x.m old.hzn (old.hznm.extractLsb' 0 32) ∧ ∀ r ∈ gone, r.escaped = false
       (may → t.mem = s.mem ∧ x ∈ (t.core c).tags.inbox ∧ (∀ r ∈ gone, postedBy gone r.msg.selfKey = false → r.msg ∈ (t.core c).tags.inbox) ∧
         (t.core c).tags.reactions = old.reactions.take n ∧ (t.core c).tags.ltTail = old.ltTail) ∧
       (¬ may → heldBack)) ∧
     (cfg.extractLsb' 2 2 = 2 → t.mem = s.mem ∧ ∃ y, (t.core c).tags.inbox = y :: (s.core c).tags.inbox ∧ y.late = true ∧
       y.ot = x.ot ∧ y.om = x.om ∧ y.payload = x.payload ∧ ¬ tagBelow y.t y.m (s.core c).tags.hzn ((s.core c).tags.hznm.extractLsb' 0 32)))

/-- A published horizon is one value for all cores of the partition, and none of them sees it go back (R272, R273). The commit of a reaction writes
the bytes that its entries of the ordered buffer hold, and no other, and takes it from the window (R236, R272). That a horizon above the least key
stays is the model's choice (log 129). It says where these complete: horizonPublish. -/
def Obligations.HorizonAndCommits : Prop :=
  (∀ (s : State) (x : BitVec 16), s.partition x ≠ [] → (∀ c ∈ s.partition x, (s.core c).tags.doomed = none) →
     ∃ t, exec (.horizonPublish x) s = .next t ∧ t.disp = .occurred ∧
       ∀ c ∈ s.partition x, lexLt (t.core c).tags.horizon (s.core c).tags.horizon = false ∧
         ∀ e ∈ s.partition x, (t.core e).tags.hzn = (t.core c).tags.hzn ∧ (t.core e).tags.hznm = (t.core c).tags.hznm) ∧
  (∀ (s : State) (c : CoreId) (r : Reaction), s.Canonical →
     let own (e : OrdEntry) : Prop := e.rid = r.id
     let es := (s.core c).tags.obuf
     (es.filter fun e => decide (own e)).Pairwise (fun e f => e.line ≠ f.line) →
     let t := s.commit c r
     (t.core c).tags.window = (s.core c).tags.window.drop 1 ∧ (t.core c).tags.cft = r.t ∧ (t.core c).tags.cftm = r.m ∧
     (∀ e ∈ (t.core c).tags.obuf, e ∈ es ∧ ¬ own e) ∧
     (∀ e ∈ es, own e → ∀ j, j < 64 →
       readByte t.mem (64 * e.line + j) =
         if e.mask.getLsbD j then e.data.extractLsb' (8 * j) 8 else readByte s.mem (64 * e.line + j)) ∧
     (∀ a, (∀ e ∈ es, own e → a / 64 ≠ e.line) → readByte t.mem a = readByte s.mem a))

/-- An abort takes the reactions of a core back from the one that it names: their messages stand in the inbox again, but for those that one of them
has posted to the core itself, their ordered stores are gone, LFT and LFTM are those of the last that stays, and the hart of an active one restarts
at its NEXT (R236, R274). That an aborted reaction's messages in flight to its own core are discarded is the model's reading (log 46). It says where
these complete: reactionAbort, reactionAbortRestart. -/
def Obligations.AbortsTakeReactionsBack : Prop :=
  (∀ (s : State) (c : CoreId) (n : Nat) (k : ReadRec), (s.core c).tags.doomed = some k →
    (s.core c).tags.indexOf k = some n → let old := (s.core c).tags
    ∃ t, exec (.reactionAbort c n) s = .next t ∧ t.disp = .occurred ∧ (t.core c).tags.doomed = none ∧
      (t.core c).tags.window = old.reactions.take n ∧ (t.core c).tags.active = none ∧
      (∀ r ∈ old.reactions.drop n, postedBy (old.reactions.drop n) r.msg.selfKey = false → r.msg ∈ (t.core c).tags.inbox) ∧
      (∀ x ∈ (t.core c).tags.inbox, postedBy (old.reactions.drop n) x.selfKey = false) ∧
      (match (old.reactions.take n).getLast? with
        | some r => (t.core c).tags.lft = r.t ∧ (t.core c).tags.lftm = r.m
        | none => (t.core c).tags.lft = old.cft ∧ (t.core c).tags.lftm = old.cftm) ∧
      (∀ e ∈ (t.core c).tags.obuf, e ∈ old.obuf ∧ ∀ r ∈ old.reactions.drop n, e.rid ≠ r.id) ∧
      (∀ r, old.active = some r → (t.hartAt c r.hart).react.abort = true)) ∧
  (∀ (s : State) (c : CoreId) (h : HartId), (s.hartAt c h).react.abort = true → s.unconfirmed c h = false →
    (s.hartAt c h).wait.interruptible = true → (∀ p ∈ (s.hartAt c h).pend, p.precise = false ∧ p.isReady = false) →
    ∃ t, exec (.reactionAbortRestart c h) s = .next t ∧ t.disp = .occurred ∧ t.mem = s.mem ∧ (t.hartAt c h).rx = false ∧
      (t.hartAt c h).pc = (s.hartAt c h).react.rxpc ∧ (t.hartAt c h).react.abort = false ∧ (t.hartAt c h).wait = .none)

/-! Queues. -/

/-- ENQ, ENQV and ENQN on a channel that is open for sending, and ENQ and ENQN on queue 23, send one message to the endpoint of CHOUT, or the front
end; ENQ and ENQV retire and ENQN waits for the answer. A closed channel traps with 0x171 and CHOUT in TRINFO, another queue with 0x170 (R304, R306,
R307, R366). It says where these complete: enq, enqv, enqn. -/
def Obligations.MessagesAreSent : Prop :=
  ∀ (i : Instr) (s : State) (q : BitVec 5) (wide once : Bool) (x : VReg), sendOf s i = some (q, wide, once, x) → s.issues i = true →
    let chout := (s.self.chan.chout[q.toNat]?).getD 0
    let sends : Prop := (q.toNat < 16 ∧ chout.getLsbD 63 = true) ∨ (q = 23 ∧ wide = false)
    (sends → s.mayTakeNumber → ∃ t m a, exec i s = .next t ∧ t.mem = s.mem ∧ t.hart.nseq = s.hart.nseq + 1 ∧
      t.hart.regs = s.hart.regs ∧ t.net.chans = s.net.chans ++ [m] ∧ m.core = s.cur ∧ m.hart = s.curHart ∧
      m.ctx = s.self.mem.ctxid ∧ m.wide = wide ∧ m.once = once ∧ m.data = x ∧ m.held = false ∧ m.batch = none ∧ m.acc = some a ∧
      (q.toNat < 16 → m.dst = chout.extractLsb' 0 12 ∧ m.chan = (chout.extractLsb' 12 4).setWidth 5) ∧
      (q = 23 → m.dst = s.cur ∧ m.chan = 16) ∧
      (once = false → t.disp = .retired) ∧ (once = true → t.disp = .waiting ∧ t.hart.wait = .access a ∧ t.hart.pc = s.hart.pc)) ∧
    (q.toNat < 16 → chout.getLsbD 63 = false → s.settled = true → exec i s = .next (s.trapped 0x171 (q.setWidth 64) chout)) ∧
    (¬ (q.toNat < 16 ∨ (q = 23 ∧ wide = false)) → s.settled = true → exec i s = .next (s.trapped 0x170 (q.setWidth 64) 0))

/-- A message whose ring has room is written at PROD, byte by byte round the ring's end, PROD counts its bytes, and its sender has its answer; a
full ring holds it, or refuses an ENQN with 1; a ring that is closed, of the other kind or too small refuses it with 0x171, 0x173 or 0x172 (R306,
R307). An event record enters its FIFO behind the others, or is dropped and noted in EVSTAT when 64 are held; records of one producer arrive in
order; an absent core, one of a fenced kennel, and one of the firmware that does not admit the record's context take none (R10, R310, R350, R374).
It says where these complete: channelMessage, channelHeldResend, eventRecord. -/
def Obligations.MessagesAndRecordsArrive : Prop :=
  (∀ (s : State) (n : Nat) (m : ChanMsg), s.findChan n = some m → s.sentBefore m = false → s.Canonical →
     (if m.held then s.spilled n else s.heldBack n 0) = false →
     m.chan.toNat < 16 → m.dst ∉ s.pkg.absent → (s.core m.dst).sys.fenced = false → (s.core m.dst).mem.ctxid = m.ctx →
     s.admits m.dst m.ctx 9 = true → m.batch = none →
     let k := (s.core m.dst).chan
     let q := m.chan.toNat
     let r := (k.chin[q]?).getD 0
     let bytes := if m.wide then 64 else 8
     let ring := 8 * (r.extractLsb' 19 16).toNat
     let prod := ((k.chptr[q]?).getD 0).extractLsb' 32 32
     let cons := ((k.chptr[q]?).getD 0).extractLsb' 0 32
     let ev : Instr := if m.held then .channelHeldResend n else .channelMessage n
     let answered (t : State) (st : Stage) : Prop :=
       t.findChan n = none ∧ ∀ i a p, m.acc = some i → s.acc i = some a → a.part 0 = some p → t.partAt i 0 st
     (r.getLsbD 63 = true → r.getLsbD 62 = m.wide → bytes ≤ ring → (prod - cons).toNat + bytes ≤ ring → ∃ t, exec ev s = .next t ∧
       t.disp = .occurred ∧ answered t (.answered 0) ∧
       ((t.core m.dst).chan.chptr[q]?).getD 0 = (prod + BitVec.ofNat 32 bytes) ++ cons ∧
       (∀ j, j < bytes → readByte t.mem (localKey m.dst (8 * (r.extractLsb' 3 16).toNat + (prod.toNat + j) % ring)) =
         m.data.extractLsb' (8 * j) 8) ∧
       (∀ a, (∀ j, j < bytes → a ≠ localKey m.dst (8 * (r.extractLsb' 3 16).toNat + (prod.toNat + j) % ring)) →
         readByte t.mem a = readByte s.mem a)) ∧
     (r.getLsbD 63 = true → r.getLsbD 62 = m.wide → bytes ≤ ring → ring < (prod - cons).toNat + bytes → m.held = false →
       ∃ t, exec ev s = .next t ∧ t.disp = .occurred ∧ t.mem = s.mem ∧ t.cores = s.cores ∧
         (m.once = true → answered t (.answered 1)) ∧ (m.once = false → t.findChan n = some { m with held := true })) ∧
     (∀ cause, (r.getLsbD 63 = false ∧ cause = 0x171 ∨ r.getLsbD 63 = true ∧ r.getLsbD 62 ≠ m.wide ∧ cause = 0x173 ∨
         r.getLsbD 63 = true ∧ r.getLsbD 62 = m.wide ∧ ring < bytes ∧ cause = 0x172) →
       ∃ t, exec ev s = .next t ∧ t.disp = .occurred ∧ t.mem = s.mem ∧ t.cores = s.cores ∧ answered t (.refused cause none))) ∧
  (∀ (s : State) (n : Nat) (e : EvMsg), s.net.events.find? (fun e => e.id == n) = some e → s.heldBack n 0 = false →
     (∀ x ∈ s.net.events.takeWhile (fun e => e.id != n), ¬ (x.src = e.src ∧ x.core = e.core ∧ x.fifo = e.fifo)) →
     16 ≤ e.fifo.toNat → e.fifo.toNat < 24 →
     let old := (s.core e.core).chan
     ∃ t, exec (.eventRecord n) s = .next t ∧ t.disp = .occurred ∧ t.mem = s.mem ∧
       t.net.events = s.net.events.filter (fun x => x.id != n) ∧
       let admitted := s.admits e.core (s.packetCtx (.record e)) 15
       (e.core ∈ s.pkg.absent ∨ (s.core e.core).sys.fenced = true ∨ admitted = false → t.cores = s.cores) ∧
       (let new := (t.core e.core).chan
       e.core ∉ s.pkg.absent → (s.core e.core).sys.fenced = false → admitted = true → ((old.fifos[e.fifo.toNat - 16]?).getD []).length < 64 →
         new.evstat = old.evstat ∧ (new.fifos[e.fifo.toNat - 16]?).getD [] = (old.fifos[e.fifo.toNat - 16]?).getD [] ++ [e.record]) ∧
       (let new := (t.core e.core).chan
       e.core ∉ s.pkg.absent → (s.core e.core).sys.fenced = false → admitted = true → 64 ≤ ((old.fifos[e.fifo.toNat - 16]?).getD []).length →
         new.fifos = old.fifos ∧ new.evstat = old.evstat ||| (1#8 <<< (e.fifo.toNat - 16))))

/-- DEQ and DEQV mark their destination empty and wait for their queue in issue order; the first of them takes the oldest message or record when the
queue holds one, and the queue loses it. DEQN takes one at once, or says that there is none, and QLEN counts them (R308, R310). It says where these
complete: deq, deqv, deqn, qlen, deqTake. -/
def Obligations.ReceivesTakeTheOldest : Prop :=
  (∀ (i : Instr) (s : State) (q : BitVec 5) (r : RegRef) (wide : Bool), receiveOf i = some (q, r, wide) → s.issues i = true →
    let c := (s.self.chan.chin[q.toNat]?).getD 0
    ((q.toNat < 16 ∧ c.getLsbD 63 = true ∧ c.getLsbD 62 = wide) ∨ (16 ≤ q.toNat ∧ wide = false) →
      exec i s = .next (((s.emptied r).onSelf fun k =>
        { k with chan := { k.chan with takers := k.chan.takers ++ [(s.curHart, q)] } }).awaits i (.deq r q))) ∧
    (16 ≤ q.toNat → wide = true → s.settled = true → exec i s = .next (s.trapped 0x170 (q.setWidth 64) 0)) ∧
    (q.toNat < 16 → c.getLsbD 63 = false → s.settled = true → exec i s = .next (s.trapped 0x171 (q.setWidth 64) 0)) ∧
    (q.toNat < 16 → c.getLsbD 63 = true → c.getLsbD 62 ≠ wide → s.settled = true → exec i s = .next (s.trapped 0x173 (q.setWidth 64) 0))) ∧
  (∀ (s : State) (c : CoreId) (q : BitVec 5) (h : HartId) (r : RegRef) (w : WaitAt), (s.core c).chan.takers.find? (fun p => p.2 == q) = some (h, q) →
    s.queueHeld c q ≠ 0 → s.atRest c = false → (s.core c).sys.fenced = false → (s.hartAt c h).wait = .deq r q →
    (s.hartAt c h).waitAt = some w → ∃ t, exec (.deqTake c q) s = .next t ∧ t.disp = .occurred ∧ t.mem = s.mem ∧
      s.concluded t c h w (oneWrite r ((s.oldest c q).setWidth 1024)) ∧ s.gaveUp t c q ∧
      (t.core c).chan.takers = (s.core c).chan.takers.filter (fun p => p != (h, q))) ∧
  (∀ (b q d : BitVec 5) (w l : Bool) (s : State), s.issues (.deqn b q d w l) = true →
    (let c := (s.self.chan.chin[q.toNat]?).getD 0; q.toNat < 16 → c.getLsbD 63 = true → c.getLsbD 62 = false) →
    ((s.queueHeld s.cur q ≠ 0 ∧ s.self.chan.takers.find? (fun p => p.2 == q) = none → ∃ t, exec (.deqn b q d w l) s = .next t ∧
        t.disp = .retired ∧ t.mem = s.mem ∧ s.gaveUp t s.cur q ∧
        t.hart.regs = (s.hart.regs.writeG d ((s.oldest s.cur q).setWidth 64)).writeG b 0) ∧
     (s.queueHeld s.cur q = 0 ∨ s.self.chan.takers.find? (fun p => p.2 == q) ≠ none →
        exec (.deqn b q d w l) s = .next (s.wroteG b 1).retires))) ∧
  (∀ (q d : BitVec 5) (w l : Bool) (s : State), s.issues (.qlen q d w l) = true →
    exec (.qlen q d w l) s = .next (s.wroteG d (BitVec.ofNat 64 (s.queueHeld s.cur q))).retires)

/-! Transfers. -/

/-- A streamer instruction whose operands pass R297 sends one command, which belongs to the open batch, and retires: no register and no byte of
memory changes. A count, slot or alignment that R297 refuses traps with that rule's cause and register, and a hart with 64 unfinished commands waits
(R289, R292, R297 to R301). XSCAT whose table the TLB does not hold sends the access of its translation and waits for it (R301). TRADDR 0 for an
empty slot of XCOPYS, and the order of the checks, are the model's readings (logs 54, 55). It says where these complete: xcopy, xcopys, xgath,
xscat, xfill. -/
def Obligations.TransferCommandsSetOut : Prop :=
  (∀ (i : Instr) (s : State), s.issues i = true →
     (∀ k dst src len, transferOf s i = some (k, dst, src, len) → transferFine s i → tableReady s i →
       (s.commands s.cur s.curHart).length < 64 → ∃ t c, exec i s = .next t ∧ t.disp = .retired ∧ t.mem = s.mem ∧
         t.hart.regs = s.hart.regs ∧ t.net.cmds = s.net.cmds ++ [c] ∧ c.core = s.cur ∧ c.hart = s.curHart ∧
         c.ctx = s.self.mem.ctxid ∧ c.agid = s.hart.agid ∧ c.mode = s.hart.mode ∧ c.batch = s.hart.batch.bopen ∧ c.kind = k ∧
         c.dst = dst ∧ c.src = src ∧ c.len = len ∧ c.cut = false ∧ c.pieces = [] ∧ c.made = [] ∧ c.row = 0) ∧
     (∀ x cause, transferTrap s i = some (x, cause) → s.settled = true → (s.commands s.cur s.curHart).length < 64 →
       exec i s = .next (s.trapped cause x 0)) ∧
     (∀ k dst src len, transferOf s i = some (k, dst, src, len) → 64 ≤ (s.commands s.cur s.curHart).length →
       exec i s = .next { s with disp := .held })) ∧
  (∀ (c b a d : BitVec 5) (w l : Bool) (s : State), let i : Instr := .xscat c b a d w l
     s.issues i = true → transferFine s i → (s.commands s.cur s.curHart).length < 64 → spaceOf (s.g d) ≠ .loc → spaceOf (s.g d) ≠ .peer →
     s.allows (tableAsk (s.g d)) → s.isNew → s.self.mem.lookup (s.g d) = none → s.entryFree = true →
     ∃ t r, exec i s = .next t ∧ t.disp = .waiting ∧ t.hart.wait = .access r.id ∧ t.net.accs = s.net.accs ++ [r] ∧ r.op = (tableAsk (s.g d)).op ∧
       t.mem = s.mem ∧ t.hart.pc = s.hart.pc)

/-- XSHAPE of a record in the hart's own store puts the shape that it describes into its slot, or traps with the cause of a record that the rules do
not allow, and TRADDR the record's address; from elsewhere it reads the record by an access that it waits for (R295, R296). A shape record that is
taken keeps its limits: sizes and strides aligned, counts within their ranges, no bit of a reserved field, and a dimension that is not used with
count 1 and strides 0 (R295). That a local shape is read when XSHAPE issues is the model's choice (log 7). It says where these complete: xshape. -/
def Obligations.ShapesAreReadAndChecked : Prop :=
  (∀ (n : BitVec 3) (a : BitVec 5) (w l : Bool) (s : State), let i : Instr := .xshape n a w l
     let q : Ask := { op := .shape n, els := [⟨s.g a, 64, 0, .load⟩], vec := true, plain := false, acq := false }
     s.issues i = true → s.isNew = true → s.allows q = true →
     let r := BitVec.ofNat 512 (bytesValue s.mem (localKey s.cur (s.g a).toNat) 64)
     (q.isLocal = true → (∀ x, readShape r = .ok x → ∃ t, exec i s = .next t ∧ t.disp = .retired ∧ t.mem = s.mem ∧
       t.hart.regs = s.hart.regs ∧ t.hart.batch.slots = s.hart.batch.slots.setIfInBounds n.toNat (some x)) ∧
       (∀ cause, readShape r = .error cause → s.settled = true → ∃ t, exec i s = .next t ∧
         s.tookTrap t s.cur s.curHart cause (s.g a) s.hart.pc ∧ t.mem = s.mem ∧ t.hart.batch.slots = s.hart.batch.slots)) ∧
     (q.isRemote = true → s.entryFree = true → ∃ t e, exec i s = .next t ∧ t.disp = .waiting ∧ t.hart.wait = .access e.id ∧
       t.net.accs = s.net.accs ++ [e] ∧ e.op = q.op ∧ t.mem = s.mem ∧ t.hart.pc = s.hart.pc)) ∧
  (∀ (r : BitVec 512) (x : Shape), readShape r = .ok x →
     x.esz ≠ 7 ∧ x.esz.toNat ≤ x.aln.toNat ∧ x.aln.toNat ≤ 12 ∧ x.dims ≠ 3 ∧
     1 ≤ x.n0.toNat ∧ x.n0.toNat ≤ 2 ^ 24 ∧ 1 ≤ x.n1.toNat ∧ x.n1.toNat ≤ 65536 ∧ 1 ≤ x.n2.toNat ∧ x.n2.toNat ≤ 65536 ∧
     x.n0.toNat * x.n1.toNat * x.n2.toNat * 2 ^ x.esz.toNat ≤ 2 ^ 32 ∧
     (x.n0.toNat * 2 ^ x.esz.toNat) % 2 ^ x.aln.toNat = 0 ∧
     (∀ y ∈ [x.ss1, x.ss2, x.ds1, x.ds2], y.toNat % 2 ^ x.aln.toNat = 0) ∧
     r.toNat / 2 ^ 384 = 0 ∧ r.toNat / 2 ^ 10 % 2 ^ 22 = 0 ∧ r.getLsbD 3 = false ∧
     (x.dims.toNat < 2 → x.n2 = 1 ∧ x.ss2 = 0 ∧ x.ds2 = 0) ∧ (x.dims = 0 → x.n1 = 1 ∧ x.ss1 = 0 ∧ x.ds1 = 0) ∧
     x.esz = r.extractLsb' 0 3 ∧ x.aln = r.extractLsb' 4 4 ∧ x.dims = r.extractLsb' 8 2 ∧ x.n0 = r.extractLsb' 32 32 ∧ x.n1 = r.extractLsb' 64 32 ∧ x.n2 = r.extractLsb' 96 32 ∧
     x.ss1 = r.extractLsb' 128 64 ∧ x.ss2 = r.extractLsb' 192 64 ∧ x.ds1 = r.extractLsb' 256 64 ∧ x.ds2 = r.extractLsb' 320 64)

/-- BSEAL returns the open batch's number, opens the next with no status yet, and keeps the reporting of the one sealed; BWAIT goes on while at most
n batches are unfinished; BSTAT tells whether a recent batch is sealed and finished, and its status; XMODE sets how batches report (R291 to R293,
R303). The oldest sealed batch without unfinished commands finishes: at once when it does not report, with a record on FIFO 16 when it reports so,
or, when it reports to an endpoint, once a message with its handle, number, status and hart has been accepted (R292, R303). That a batch newly
opened has no status, and that XMODE keeps endpoint and handle in its other modes, are the model's readings (logs 56, 145). It says where these
complete: bseal, bwait, bstat, xmode, batchFinish. -/
def Obligations.BatchesAreSealedAndFinish : Prop :=
  (∀ (d : BitVec 5) (w l : Bool) (s : State), s.issues (.bseal d w l) = true → let b := s.hart.batch
    ((b.bopen - b.bdone - 1).toNat < 15 → exec (.bseal d w l) s = .next ((s.wroteG d (b.bopen.setWidth 64)).onHart fun h =>
      { h with batch := { h.batch with bopen := b.bopen + 1, status := b.status.filter (fun p => p.1 != b.bopen + 1), sealed := h.batch.sealed ++ [(b.bopen, h.batch.xcomp, h.batch.xhandle)] } }).retires) ∧
    (15 ≤ (b.bopen - b.bdone - 1).toNat → exec (.bseal d w l) s = .next { s with disp := .held })) ∧
  (∀ (n : BitVec 4) (w l : Bool) (s : State), s.issues (.bwait n w l) = true → let u := (s.hart.batch.bopen - s.hart.batch.bdone - 1).toNat
    (u ≤ n.toNat → exec (.bwait n w l) s = .next s.retires) ∧ (n.toNat < u → exec (.bwait n w l) s = .next { s with disp := .held })) ∧
  (∀ (a d : BitVec 5) (w l : Bool) (s : State), s.issues (.bstat a d w l) = true → let x := s.hart.batch
    let b := (s.g a).extractLsb' 0 16
    let back := (x.bopen - b).toNat
    exec (.bstat a d w l) s = .next ((s.wroteG d (if 15 < back then 0x40000 else
      (BitVec.ofBool (decide ((x.bopen - x.bdone - 1).toNat < back)) ++ BitVec.ofBool (decide (1 ≤ back)) ++ 0#8 ++
        x.statusOf b).setWidth 64)).retires)) ∧
  (∀ (c b a : BitVec 5) (w l : Bool) (s : State), s.issues (.xmode c b a w l) = true → let m := s.g a
    (m = 2 → (s.g b).toNat < 2 ^ 16 → exec (.xmode c b a w l) s = .next (s.onHart fun h => { h with batch := { h.batch with
      xcomp := ((s.g b).extractLsb' 0 16).setWidth 64 <<< 32 ||| 2, xhandle := s.g c } }).retires) ∧
    (m.toNat < 2 → exec (.xmode c b a w l) s = .next (s.onHart fun h =>
      { h with batch := { h.batch with xcomp := (h.batch.xcomp &&& ~~~3#64) ||| m } }).retires) ∧
    (3 ≤ m.toNat → s.settled = true → exec (.xmode c b a w l) s = .next (s.trapped 0x146 m 0)) ∧
    (m = 2 → 2 ^ 16 ≤ (s.g b).toNat → s.settled = true → exec (.xmode c b a w l) s = .next (s.trapped 0x146 (s.g b) 0))) ∧
  (∀ (s : State) (c : CoreId) (h : HartId), let x := (s.hartAt c h).batch
     let b := x.bdone + 1
     x.bopen ≠ b → (∀ k ∈ s.net.cmds, k.core = c → k.hart = h → k.batch ≠ b) →
     (∀ m ∈ s.net.chans, m.core = c → m.hart = h → m.batch ≠ some b) →
     ∃ t, exec (.batchFinish c h) s = .next t ∧ t.disp = .occurred ∧ t.mem = s.mem ∧
       ((x.report b).1.extractLsb' 0 2 = 0 → (t.hartAt c h).batch.bdone = b ∧ t.net = s.net) ∧
       ((x.report b).1.extractLsb' 0 2 = 1 → (t.hartAt c h).batch.bdone = b ∧ ∃ e, t.net.events = s.net.events ++ [e] ∧ e.core = c ∧
         e.fifo = 16 ∧ e.record = 0x01#8 ++ x.statusOf b ++ (0#30 ++ h ++ b)) ∧
       ((x.report b).1.extractLsb' 0 2 = 2 →
         (t.hartAt c h).batch = x ∧ ∃ m, t.net.chans = s.net.chans ++ [m] ∧ m.core = c ∧ m.hart = h ∧ m.wide = true ∧ m.acc = none ∧
           m.batch = some b ∧ m.dst = (x.report b).1.extractLsb' 32 12 ∧ m.chan = ((x.report b).1.extractLsb' 44 4).setWidth 5 ∧
           m.data = 0#422 ++ h ++ x.statusOf b ++ b ++ (x.report b).2))

/-- A streamer cuts a copy or fill into pieces that cover its bytes once, in order, none of which crosses a 4 KiB boundary of either address or
exceeds one packet; a piece that comes to its destination as the last between its two segments is moved with no other byte of memory changed, and an
earlier one waits there; where the first piece of a row of XGATH or XSCAT has left its space, no byte of that row is written; and the command is
complete when no piece is left (R288, R289, R298, R302, R319). A row of XSCAT whose bin has room takes the bin's next slot: the bin's count goes up
by one, the row's bytes are to be copied to that slot, and the next row is due (R300, R301). That a row is read and written together is the model's
reading (log 58). It says where these complete: streamerCommand, bulkPiece, binBump, streamerCommandComplete. -/
def Obligations.StreamersAndBins : Prop :=
  (∀ (s : State) (n : Nat) (c : Cmd), s.findCmd n = some c → c.cut = false → s.heldBack n 0 = false → c.pieces = [] → (c.kind = .copy ∨ ∃ x, c.kind = .fill x) →
    let src := if c.kind = .copy then c.src else c.dst
    src.toNat + c.len ≤ 2 ^ 64 → c.dst.toNat + c.len ≤ 2 ^ 64 → ∃ t c', exec (.streamerCommand n) s = .next t ∧ t.disp = .occurred ∧
      t.mem = s.mem ∧ t.findCmd n = some c' ∧ c'.cut = true ∧ (c'.pieces.map fun p => p.len).sum = c.len ∧
      ∀ k p, c'.pieces[k]? = some p → let before := ((c'.pieces.take k).map fun p => p.len).sum
        p.src.toNat = src.toNat + before ∧ p.dst.toNat = c.dst.toNat + before ∧ 0 < p.len ∧ p.len ≤ 480 ∧
        p.src.toNat % 4096 + p.len ≤ 4096 ∧ p.dst.toNat % 4096 + p.len ≤ 4096) ∧
  (∀ (s : State) (n k : Nat) (c : Cmd) (p : Piece) (from_ to_ : Nat), s.findCmd n = some c → c.pieces[k]? = some p → p.bad = none →
    (p.here = true ∨ s.heldBack n (p.no + 1) = false) → c.together p = [p] →
    s.Canonical → reachesAt s c.party .store p.dst p.len to_ →
    (∀ q ∈ c.pieces, q.seg true = p.seg true → q.bad = none ∧ ∃ x, reachesAt s c.party .store q.dst q.len x) →
    ((∃ x, c.kind = .fill x) ∨ (reachesAt s c.party .load p.src p.len from_ ∧ unpoisoned s from_ p.len)) →
    (∀ q ∈ c.pieces, q.seg false = p.seg false → q.bad = none ∧ ((∃ x, c.kind = .fill x) ∨ ∃ x, reachesAt s c.party .load q.src q.len x)) →
    ∃ t c', exec (.bulkPiece n k) s = .next t ∧ t.disp = .occurred ∧ t.findCmd n = some c' ∧ c'.pieces = c.pieces.filter (fun q => q != p) ∧
      onlyWrote s t to_ p.len (match c.kind with
        | .fill x => leNat ((List.range p.len).map fun j => x.extractLsb' (8 * ((p.dst.toNat + j) % 8)) 8)
        | _ => bytesValue s.mem from_ p.len)) ∧
  (∀ (s : State) (n k : Nat) (c : Cmd) (p : Piece), s.findCmd n = some c → c.pieces[k]? = some p → p.here = false → s.heldBack n (p.no + 1) = false →
    (∀ q ∈ c.together p, q.bad = none) → (∃ q ∈ c.together p, q.here = false ∧ q.no ≠ p.no) →
    ∃ t c', exec (.bulkPiece n k) s = .next t ∧ t.disp = .occurred ∧ t.mem = s.mem ∧ t.findCmd n = some c' ∧
      c'.pieces = c.pieces.map (fun q => if q.no == p.no then { q with here := true } else q)) ∧
  (∀ (s : State) (n k : Nat) (c : Cmd) (p q : Piece) (d : Bool), s.findCmd n = some c → c.pieces[k]? = some p → p.row ≠ none →
    c.pieces.find? (fun q => q.row == p.row) = some q → q.bad = some d →
    ∃ t c', exec (.bulkPiece n k) s = .next t ∧ t.disp = .occurred ∧ t.mem = s.mem ∧ t.findCmd n = some c' ∧
      c'.pieces = c.pieces.filter (fun q => q.row != p.row)) ∧
  (∀ (s : State) (n : Nat) (c : Cmd), s.findCmd n = some c → c.cut = true → c.pieces = [] →
    (∀ x list rows, c.kind = .scat x list rows → rows ≤ c.row) → ∃ t, exec (.streamerCommandComplete n) s = .next t ∧ t.disp = .occurred ∧
      t.mem = s.mem ∧ t.findCmd n = none) ∧
  (∀ (s : State) (n : Nat) (c : Cmd) (x : Shape) (list : W) (rows kl kt : Nat), s.findCmd n = some c → c.kind = .scat x list rows →
     c.cut = true → c.row < rows → s.Canonical → list.toNat + 4 * c.row < 2 ^ 64 →
     spaceOf (BitVec.ofNat 64 (list.toNat + 4 * c.row)) = spaceOf list →
     reachesAt s c.party .load (BitVec.ofNat 64 (list.toNat + 4 * c.row)) 4 kl → unpoisoned s kl 4 →
     engineReach s c.party .atomic c.dst 16 = .here s kt → Config.commonsBase ≤ kt → kt < Config.commonsBase + 0x100000000 →
     let bins := bytesValue s.mem kt 2
     let bin := bytesValue s.mem kl 4
     let e := kt + 16 + 16 * bin
     let count := bytesValue s.mem (e + 12) 4
     kt % 0x400000 + 16 + 16 * (bins + 1) ≤ 0x400000 → bin < bins → poisoned s kt 16 = false → poisoned s e 16 = false →
     poisoned s (kt + 16 + 16 * bins) 16 = false → count < bytesValue s.mem (e + 8) 4 →
     ∃ t c', exec (.binBump n) s = .next t ∧ t.disp = .occurred ∧ t.findCmd n = some c' ∧ c'.row = c.row + 1 ∧
       onlyWrote s t (e + 12) 4 (count + 1) ∧
       ∃ new, c'.pieces = c.pieces ++ new ∧ new.map (fun p => { p with no := 0 }) =
         piecesOf c.src (BitVec.ofNat 64 (bytesValue s.mem e 8)) (some c.row)
           ((c.src.toNat : Int) + c.row * x.ss1.toInt) ((bytesValue s.mem e 8 : Int) + count * x.ds1.toInt) x.rowBytes)

/-! Arrays. -/

/-- LEASH joins the FIFO of its array and leaves gD empty until the grant; LEASHN takes a free array at once or returns all ones; UNLEASH gives a
lease or a request back. Another array, reserved bits, or a second request trap (R175, R178, R182). An array without a holder grants its lease to
the head of its FIFO, whose LEASH destination gets the array's number; a lease whose counter has reached its limit passes on when others wait, and
its counters start again when none does (R175, R176, R179, R182). That UNLEASH withdraws a request, and the step at which a lease ends, are the
model's readings (logs 41, 72). It says where these complete: leash, leashn, unleash, leaseGrant, leaseExpiry. -/
def Obligations.LeasesPassOn : Prop :=
  (∀ (a d : BitVec 5) (w l : Bool) (s : State), let n := s.ownArray
    s.issues (.leash a d w l) = true → s.g a = n.setWidth 64 → s.hart.mx.held = false → s.hart.mx.queued = false →
      exec (.leash a d w l) s = .next ((((s.emptied (.g d)).onArray n fun y => { y with fifo := y.fifo ++ [(s.cur, s.curHart)] }).onHart
        fun h => { h with mx := { h.mx with queued := true, array := n, leashD := if d = 0 then none else some d } }).retires)) ∧
  (∀ (a d : BitVec 5) (w l : Bool) (s : State), let n := s.ownArray
    s.issues (.leashn a d w l) = true → s.g a = n.setWidth 64 → s.hart.mx.held = false → s.hart.mx.queued = false →
      ((s.array n).holder = none → (s.array n).fifo = [] → exec (.leashn a d w l) s = .next ((((s.onArray n fun y =>
        { y with holder := some (s.cur, s.curHart), cmds := 0, rows := 0, limit := y.count }).onHart fun h =>
        { h with mx := { h.mx with held := true, queued := false, rev := false, array := n, used := 0 } }).wroteG d
          (n.setWidth 64)).retires)) ∧
      ((s.array n).holder ≠ none ∨ (s.array n).fifo ≠ [] →
        exec (.leashn a d w l) s = .next (s.wroteG d (BitVec.allOnes 64)).retires)) ∧
  (∀ (try_ : Bool) (a d : BitVec 5) (w l : Bool) (s : State), let i : Instr := if try_ then .leashn a d w l else .leash a d w l
    s.issues i = true → s.settled = true →
      (2 ^ 7 ≤ (s.g a).toNat → exec i s = .next (s.trapped 0x153 (s.g a) 0)) ∧
      ((s.g a).toNat < 2 ^ 7 → s.g a ≠ s.ownArray.setWidth 64 → exec i s = .next (s.trapped 0x152 (s.g a) 0)) ∧
      (s.g a = s.ownArray.setWidth 64 → (s.hart.mx.held = true ∨ s.hart.mx.queued = true) →
        exec i s = .next (s.trapped 0x154 (s.g a) 0))) ∧
  (∀ (w l : Bool) (s : State), s.issues (.unleash w l) = true → let m := s.hart.mx
    (m.held = true → exec (.unleash w l) s = .next ((s.onArray m.array fun y => { y with holder := none }).onHart fun h =>
      { h with mx := { h.mx with held := false } }).retires) ∧
    (m.held = false → m.queued = true → ∃ t, exec (.unleash w l) s = .next t ∧ t.disp = .retired ∧ t.hart.mx.queued = false ∧
      (t.array m.array).fifo = (s.array m.array).fifo.filter (fun p => p != (s.cur, s.curHart)) ∧
      t.hart.regs = match m.leashD with
        | some d => s.hart.regs.writeG d (BitVec.allOnes 64)
        | none => s.hart.regs) ∧
    (m.held = false → m.queued = false → exec (.unleash w l) s = .next s.retires)) ∧
  (∀ (s : State) (a : BitVec 7) (c : CoreId) (h : HartId) (t : List (CoreId × HartId)), (s.array a).holder = none →
    (s.array a).fifo = (c, h) :: t → ∃ u, exec (.leaseGrant a) s = .next u ∧ u.disp = .occurred ∧ u.mem = s.mem ∧
      u.array a = { s.array a with holder := some (c, h), fifo := t, cmds := 0, rows := 0, limit := (s.array a).count } ∧
      (u.hartAt c h).mx.held = true ∧ (u.hartAt c h).mx.queued = false ∧ (u.hartAt c h).mx.array = a ∧ (u.hartAt c h).mx.used = 0 ∧
      (u.hartAt c h).regs = match (s.hartAt c h).mx.leashD with
        | some d => (s.hartAt c h).regs.writeG d (a.setWidth 64)
        | none => (s.hartAt c h).regs) ∧
  (∀ (s : State) (a : BitVec 7) (c : CoreId) (h : HartId), (s.array a).holder = some (c, h) →
    ((s.array a).limit.toNat ≤ (s.array a).cmds ∨ 65536 ≤ (s.array a).rows) →
    ((s.array a).fifo = [] → ∃ u, exec (.leaseExpiry a) s = .next u ∧ u.disp = .occurred ∧ u.mem = s.mem ∧
      u.array a = { s.array a with cmds := 0, rows := 0 } ∧ (u.hartAt c h).mx = { (s.hartAt c h).mx with used := 0 }) ∧
    (∀ c' h' t, (s.array a).fifo = (c', h') :: t → (c', h') ≠ (c, h) → ∃ u, exec (.leaseExpiry a) s = .next u ∧ u.disp = .occurred ∧
      u.array a = { s.array a with holder := some (c', h'), fifo := t ++ [(c, h)], cmds := 0, rows := 0, limit := (s.array a).count } ∧
      (u.hartAt c h).mx.held = false ∧ (u.hartAt c h).mx.queued = true ∧ (u.hartAt c' h').mx.held = true ∧
      (u.hartAt c' h').mx.queued = false))

/-- MXCFG takes a rectangle that R186 allows, and traps with 0x155, 0x156 or 0x15D for another; MXQRY returns the state of an array; MXWAIT returns
the rows and status of a run that is complete, waits for one that is not, traps with 0x1B2 for one that a checksum ended, and returns 0 for one that
is not among the 64 most recent numbers or of another context (R183, R186, R191, R193). The rows of an MXZERO, MXQRY without a lease, and which
records are kept are the model's readings (logs 38, 39, 132). It says where these complete: mxcfg, mxwait, mxqry. -/
def Obligations.ArraysAreDescribedAndWatched : Prop :=
  (∀ (b a : BitVec 5) (w l : Bool) (s : State), s.issues (.mxcfg b a w l) = true → let x := s.g a
    let y := s.g b
    let r := rectOf x y
    (rectBad x y = false → s.rectOutside s.cur r = false → r.base + r.rpc * (256 / r.w) * (if r.pairs then 8 else 4) ≤ Config.spillBase →
      exec (.mxcfg b a w l) s = .next (s.onHart fun h => { h with mx := { h.mx with desc := x, lbase := y, valid := true } }).retires) ∧
    (rectBad x y = true → s.settled = true → exec (.mxcfg b a w l) s = .next (s.trapped 0x155 x 0)) ∧
    (rectBad x y = false → s.rectOutside s.cur r = true → s.settled = true → exec (.mxcfg b a w l) s = .next (s.trapped 0x156 x 0)) ∧
    (rectBad x y = false → s.rectOutside s.cur r = false → Config.spillBase < r.base + r.rpc * (256 / r.w) * (if r.pairs then 8 else 4) →
      s.settled = true → exec (.mxcfg b a w l) s = .next (s.trapped 0x15D x 0))) ∧
  (∀ (a d : BitVec 5) (w l : Bool) (s : State), s.issues (.mxqry a d w l) = true →
    ((s.g a).toNat < 2 ^ 7 → let y := s.array ((s.g a).extractLsb' 0 7)
      (y.holder = none → exec (.mxqry a d w l) s = .next (s.wroteG d (0#8 ++ y.count ++ 0#49)).retires) ∧
      (∀ c h, y.holder = some (c, h) → exec (.mxqry a d w l) s = .next (s.wroteG d (0#8 ++ y.count ++ BitVec.ofNat 17 y.rows ++ 0#2 ++
        BitVec.ofNat 7 y.cmds ++ BitVec.ofNat 8 y.fifo.length ++ c ++ h ++ 1#1)).retires)) ∧
    (2 ^ 7 ≤ (s.g a).toNat → s.settled = true → exec (.mxqry a d w l) s = .next (s.trapped 0x153 (s.g a) 0))) ∧
  (∀ (a d : BitVec 5) (w l : Bool) (s : State), s.issues (.mxwait a d w l) = true →
    let y := s.array ((s.g a).extractLsb' 32 7)
    let n := (s.g a).extractLsb' 0 32
    let rec_ := y.recs.find? fun r => r.seq == n && r.ctx == s.self.mem.ctxid && decide ((y.seq - n).toNat ≤ 64)
    (2 ^ 31 ≤ (y.lastDone - n).toNat → exec (.mxwait a d w l) s = .next { s with disp := .held }) ∧
    ((y.lastDone - n).toNat < 2 ^ 31 →
      (rec_ = none → exec (.mxwait a d w l) s = .next (s.wroteG d 0).retires) ∧
      (∀ r, rec_ = some r → r.status.extractLsb' 4 4 ≠ 3 → r.rows ≤ 65536 →
        exec (.mxwait a d w l) s = .next (s.wroteG d (BitVec.ofNat 56 r.rows ++ r.status)).retires) ∧
      (∀ r, rec_ = some r → r.status.extractLsb' 4 4 = 3 → s.settled = true → exec (.mxwait a d w l) s = .next (s.trapped 0x1B2 0 0))))

/-- MXLDB, MXRUN and MXZERO of a hart whose array takes commands put one command on the array's queue, where it counts in the lease, and retire;
MXRUN's destination is empty until the array accepts it. Operands that R185, R188 and R192 do not allow trap with the cause and the register of
R181, in the order of R188; then, without a lease, they trap with 0x150, after a revocation with 0x151 (R176 to R178). An array takes the head of
its queue: a load fills the buffer with the tile's bytes in the format that it came with, and names the hart that sent it as its loader, unless a
revocation has met it; a run gets the next sequence number, which its hart's gD and MXLAST show, and a zero command the next number (R176, R185,
R188, R192). When commands are accepted, that a revocation reaches a load still queued, and that the buffer is chosen at issue are the model's
readings (logs 71, 73, 131). It says where these complete: mxldb, mxrun, mxzero, arrayLoadBTile, runAccept, mxzeroAccept. -/
def Obligations.ArrayCommandsQueueAndAreAccepted : Prop :=
  (∀ (b a : BitVec 5) (w l : Bool) (s : State), s.issues (.mxldb b a w l) = true → let m := s.hart.mx
    let p := s.prefixed.getD 0
    let tileBad : Prop := (s.g a).extractLsb' 0 17 ≠ 0 ∨ (s.g a).extractLsb' 25 39 ≠ 0 ∨ ((s.g b).getLsbD 0 = true ∧ (s.g a).getLsbD 17 = true)
    (loadFine s (s.g a) (s.g b) → s.arrayTakes → ∃ t k, exec (.mxldb b a w l) s = .next t ∧ t.disp = .retired ∧ t.mem = s.mem ∧ t.hart.regs = s.hart.regs ∧
      queuedAt s t m.array k ∧ k.sentBy s ∧ k.kind = 0 ∧ k.tile = (s.g a).extractLsb' 17 8 ∧ k.pair = (s.g b).getLsbD 0 ∧
      k.fmt = (if pfFB p = 0 then 2 else pfFB p) ∧ k.q = (pfQB p).toNat + 1 ∧ k.p = (pfPP p).toNat + 1 ∧ k.ce = pfCE p ∧
      k.cblo = s.self.cblo ∧ k.cbhi = s.self.cbhi ∧ k.buf = !(s.array m.array).lastBuf ∧ (t.array m.array).lastBuf = k.buf ∧
      t.hart.mx.lastLoad = some (k.buf, k.fmt, k.pair) ∧ t.hart.mx.loaded = true ∧ k.lost = false ∧ countedAt s t m.array 0) ∧
    (loadFine s (s.g a) (s.g b) → trapsUnleashed (.mxldb b a w l) s) ∧
    (tileBad → s.settled = true → exec (.mxldb b a w l) s = .next (s.trapped 0x15C (s.g a) 0)) ∧
    (¬ tileBad → ¬ loadFine s (s.g a) (s.g b) → s.settled = true → exec (.mxldb b a w l) s = .next (s.trapped 0x157 (s.g b) 0))) ∧
  (∀ (c b a d : BitVec 5) (w l : Bool) (s : State), s.issues (.mxrun c b a d w l) = true →
    let r := runRows s (s.g b) (s.g c)
    (∀ cause x, runProblem s (s.g b) (s.g c) = some (cause, x) → s.settled = true → exec (.mxrun c b a d w l) s = .next (s.trapped cause x 0)) ∧
    (runProblem s (s.g b) (s.g c) = none → trapsUnleashed (.mxrun c b a d w l) s) ∧
    (runProblem s (s.g b) (s.g c) = none → s.arrayTakes → (s.g a).toNat % 8 ≠ 0 → s.settled = true →
      exec (.mxrun c b a d w l) s = .next (s.trapped (accCause .load (spaceOf (s.g a)).code .misaligned) (s.g a) 0)) ∧
    (runProblem s (s.g b) (s.g c) = none → s.arrayTakes → (s.g a).toNat % 8 = 0 → s.doneBefore = false → s.ownStops = none →
    ∀ u, s.rowRange (r.2.2.2 / 4096 + 2) (s.g a).toNat r.2.2.2 = .ok u →
    ∃ t k, exec (.mxrun c b a d w l) s = .next t ∧ t.disp = .retired ∧ t.mem = s.mem ∧ t.hart.regs = s.hart.regs.empty (.g d) ∧
      queuedAt s t s.hart.mx.array k ∧ k.sentBy s ∧ k.kind = 1 ∧ k.fmt = r.1 ∧ k.addr = s.g a ∧ k.stride = r.2.2.1 ∧
      k.rows = (s.g c).toNat ∧ k.orow = ((s.g b).extractLsb' 32 16).toNat ∧ k.acc = (s.g b).getLsbD 0 ∧
      k.mmode = (s.g b).extractLsb' 1 2 ∧ k.d = d ∧ (∀ x, s.hart.mx.lastLoad = some x → k.buf = x.1) ∧
      countedAt s t s.hart.mx.array (s.g c).toNat ∧ t.hart.nseq = s.hart.nseq + 1)) ∧
  (∀ (w l : Bool) (s : State), s.issues (.mxzero w l) = true →
    (s.hart.mx.valid = true → s.rectRefused = false → s.arrayTakes → ∃ t k, exec (.mxzero w l) s = .next t ∧ t.disp = .retired ∧
      t.mem = s.mem ∧ t.hart.regs = s.hart.regs ∧ queuedAt s t s.hart.mx.array k ∧ k.sentBy s ∧ k.kind = 2 ∧
      k.rows = (rectOf s.hart.mx.desc s.hart.mx.lbase).h * (rectOf s.hart.mx.desc s.hart.mx.lbase).rpc ∧ countedAt s t s.hart.mx.array 0) ∧
    (s.hart.mx.valid = true → s.rectRefused = false → trapsUnleashed (.mxzero w l) s) ∧
    (s.hart.mx.valid = true → s.rectRefused = true → s.settled = true → exec (.mxzero w l) s = .next (s.trapped 0x156 s.hart.mx.desc 0)) ∧
    (s.hart.mx.valid = false → s.settled = true → exec (.mxzero w l) s = .next (s.trapped 0x15B 0 0))) ∧
  (∀ (s : State) (a : BitVec 7) (k : MxCmd) (qs : List MxCmd), (s.array a).queue = k :: qs → k.kind = 0 →
    (s.array a).usesBuf k.buf = false → s.Canonical → ∃ t, exec (.arrayLoadBTile a) s = .next t ∧ t.disp = .occurred ∧
      tookHead s t a ∧ let b := if k.buf then (t.array a).buf1 else (t.array a).buf0
      (if k.buf then (t.array a).buf0 = (s.array a).buf0 else (t.array a).buf1 = (s.array a).buf1) ∧
      b.fmt = k.fmt ∧ b.q = k.q ∧ b.p = k.p ∧ b.ce = k.ce ∧ b.cblo = k.cblo ∧ b.cbhi = k.cbhi ∧ b.pair = k.pair ∧
      b.loader = (if k.lost then none else some (k.core, k.hart)) ∧
      (s.poison = [] → t.mem = s.mem ∧ b.bad = 0) ∧
      ∀ j, j < 0x20000 →
        readByte b.tile j = readByte s.mem (Config.weightBase + a.toNat * 0x2000000 + k.tile.toNat * 0x20000 + j)) ∧
  (∀ (s : State) (a : BitVec 7) (k : MxCmd) (qs : List MxCmd), (s.array a).queue = k :: qs → k.kind = 1 →
    (s.core k.core).mem.ctxid = k.ctx → (s.core k.core).sys.fenced = false → let y := s.array a
    ∃ t r, exec (.runAccept a) s = .next t ∧ t.disp = .occurred ∧ t.mem = s.mem ∧ tookHead s t a ∧ (t.array a).seq = y.seq + 1 ∧
      (t.array a).runs = y.runs ++ [r] ∧ r.cmd = k ∧ r.seq = y.seq ∧ r.next = 0 ∧ r.owed = 0 ∧ r.applied = 0 ∧
      ((y.bufOf k.buf).loader ≠ some (k.core, k.hart) → r.outcome = 1) ∧
      (t.hartAt k.core k.hart).regs = (s.hartAt k.core k.hart).regs.writeG k.d ((a ++ y.seq).setWidth 64) ∧
      (t.hartAt k.core k.hart).mx.lastArr = a ∧ (t.hartAt k.core k.hart).mx.lastSeq = y.seq) ∧
  (∀ (s : State) (a : BitVec 7) (k : MxCmd) (qs : List MxCmd), (s.array a).queue = k :: qs → k.kind = 2 → let y := s.array a
    ∃ t r, exec (.mxzeroAccept a) s = .next t ∧ t.disp = .occurred ∧ t.mem = s.mem ∧ tookHead s t a ∧ (t.array a).seq = y.seq + 1 ∧
      (t.array a).runs = y.runs ++ [r] ∧ r.cmd = k ∧ r.seq = y.seq ∧ r.outcome = 0)

/-- A row's sums set out to the owners of its columns, and an owner writes them, or adds them to what its elements hold, and changes no other byte;
a zero command's sums are zero (R187, R189, R192). The oldest accepted command of an array, once it has ended and nothing of it is under way, leaves
its record: the rows applied and its status, which a run's hart shows in MXSTAT too (R191, R192, R194). How rows are counted and which commands show
in MXSTAT are the model's readings (logs 39, 76, 77). It says where these complete: arrayRowCompute, partialSums, runComplete. -/
def Obligations.RowsAreAppliedAndRecorded : Prop :=
  (∀ (s : State) (a : BitVec 7) (r : Run) (row : Nat), (s.array a).active = some r → s.net.partials = [] →
    (let g := rowGroups r.cmd.fmt r.cmd.mmode.toNat r.cmd.q r.cmd.p
     r.cmd.kind = 2 ∧ row = 0 ∨ r.cmd.kind = 1 ∧ ∃ x, engineReadGroups s r.cmd.party (r.cmd.addr + BitVec.ofNat 64 r.next * r.cmd.stride)
      g.2.1 g.2.2 g.1 = .bytes s x ∧ anyPoison x = false ∧ row = mixedNat x) →
    let sums := (List.range 256).map (rowSums r.cmd ((s.array a).bufOf r.cmd.buf) row)
    ∃ t, exec (.arrayRowCompute a) s = .next t ∧ t.disp = .occurred ∧ t.mem = s.mem ∧
      (t.net.partials.flatMap fun m => m.means) = (sums.take ((rectOf r.cmd.desc r.cmd.lbase).w * (256 / (rectOf r.cmd.desc r.cmd.lbase).w))).map
        (fun x => BitVec.ofNat 32 x.1) ∧
      (∀ m ∈ t.net.partials, m.array = a ∧ m.seq = r.seq ∧ m.acc = r.cmd.acc) ∧
      (r.cmd.kind = 2 → ∀ m ∈ t.net.partials, ∀ x ∈ m.means ++ m.vars, x = 0)) ∧
  (∀ (s : State) (n : Nat) (m : PartialMsg), s.net.partials.find? (fun m => m.id == n) = some m → s.Canonical →
    (∀ x ∈ s.net.partials.takeWhile (fun m => m.id != n), ¬ (x.array = m.array ∧ x.core = m.core)) →
    (∀ x ∈ s.net.partials, ¬ (x.array = m.array ∧ x.seq = m.seq ∧ x.row < m.row)) → s.heldAny n = none → s.recalledAt m = false →
    s.closedTo m.core = false →
    let key := localKey m.core m.addr
    let vals := m.means ++ m.vars
    (m.acc = true → poisoned s key (4 * (m.means.length + m.vars.length)) = false) →
    ∃ t, exec (.partialSums n) s = .next t ∧ t.disp = .occurred ∧ t.net.partials = s.net.partials.filter (fun x => x.id != n) ∧
      (∀ j x, vals[j]? = some x → bytesValue t.mem (key + 4 * j) 4 =
        if m.acc then (fp32.add 0 (bytesValue s.mem (key + 4 * j) 4) x.toNat).1 % 2 ^ 32 else x.toNat) ∧
      (∀ b, (b < key ∨ key + 4 * vals.length ≤ b) → readByte t.mem b = readByte s.mem b)) ∧
  (∀ (s : State) (a : BitVec 7) (r : Run) (rs : List Run), (s.array a).runs = r :: rs → r.owed = 0 →
     (r.outcome ≠ 0 ∨ r.cmd.rows ≤ r.next) → ((s.array a).seq - r.seq).toNat ≤ 64 →
     ∃ t e, exec (.runComplete a) s = .next t ∧ t.disp = .occurred ∧ t.mem = s.mem ∧ (t.array a).runs = rs ∧
       (t.array a).lastDone = r.seq ∧ (t.array a).recs.find? (fun x => x.seq == r.seq) = some e ∧ e.ctx = r.cmd.ctx ∧
       e.rows = r.applied / (rectOf r.cmd.desc r.cmd.lbase).w ∧ e.status = r.outcome ++ r.flags ∧
       (r.cmd.kind = 1 → (s.core r.cmd.core).mem.ctxid = r.cmd.ctx →
         (t.hartAt r.cmd.core r.cmd.hart).mx.lastst = r.outcome ++ r.flags))

/-! Collectives. -/

/-- WARM arms a slot that is free, for the armer's context, with its chain; WDISARM frees it; WCNT shows it; WADD counts it up; WWAIT waits for its
count; WSTART begins its next generation, at once or by waiting until the present one is done. Register bits, states and errors that R336 and R337
refuse trap with 0x160 to 0x165 (R329, R336, R337). It says where these complete: warm, wdisarm, wcnt, wadd, wwait, wstart. -/
def Obligations.SlotsAreArmedAndCounted : Prop :=
  (∀ (c b a : BitVec 5) (w l : Bool) (s : State), s.issues (.warm c b a w l) = true → let x := s.g a
    let i := x.extractLsb' 0 4
    x.toNat < 32 → warmBad (s.g b) (s.g c) = false →
    ((s.cslot s.cur i).arm = false → ∃ t, exec (.warm c b a w l) s = .next t ∧ t.disp = .retired ∧ let y := t.cslot s.cur i
      y.arm = true ∧ y.pers = x.getLsbD 4 ∧ y.done = false ∧ y.gen = 0 ∧ y.count = 0 ∧ y.ctx = s.self.mem.ctxid ∧ y.hart = s.curHart ∧
      y.agid = s.hart.agid ∧ y.mode = s.hart.mode ∧ y.chain = s.g b ∧ y.staged = []) ∧
    ((s.cslot s.cur i).arm = true → s.settled = true → exec (.warm c b a w l) s = .next (s.trapped 0x160 x 0))) ∧
  (∀ (a : BitVec 5) (w l : Bool) (s : State), s.issues (.wdisarm a w l) = true → (s.g a).toNat < 16 →
    (s.cslot s.cur ((s.g a).extractLsb' 0 4)).arm = true →
    exec (.wdisarm a w l) s = .next (s.onSlot s.cur ((s.g a).extractLsb' 0 4) fun _ => CSlot.reset).retires) ∧
  (∀ (a d : BitVec 5) (w l : Bool) (s : State), s.issues (.wcnt a d w l) = true → (s.g a).toNat < 16 →
    let x := s.cslot s.cur ((s.g a).extractLsb' 0 4)
    exec (.wcnt a d w l) s = .next (s.wroteG d (if x.arm = true then 1#1 ++ BitVec.ofBool x.pers ++ BitVec.ofBool x.err ++
      BitVec.ofBool x.done ++ 0#12 ++ x.gen ++ x.count else 0)).retires) ∧
  (∀ (b a : BitVec 5) (w l : Bool) (s : State), s.issues (.wadd b a w l) = true → (s.g a).toNat < 16 →
    let i := (s.g a).extractLsb' 0 4
    (s.cslot s.cur i).arm = true → (s.cslot s.cur i).err = false → s.noStarter s.cur i → ∃ t, exec (.wadd b a w l) s = .next t ∧ t.disp = .retired ∧
      (t.cslot s.cur i).count = (s.cslot s.cur i).count + (s.g b).extractLsb' 0 32) ∧
  (∀ (b a d : BitVec 5) (w l : Bool) (s : State), s.issues (.wwait b a d w l) = true → (s.g a).toNat < 16 →
    let i := (s.g a).extractLsb' 0 4
    let n := (s.g b).extractLsb' 0 32
    let x := s.cslot s.cur i
    x.arm = true → x.err = false →
      (n.toNat ≤ x.count.toNat ∨ x.done = true → exec (.wwait b a d w l) s = .next (s.wroteG d x.word).retires) ∧
      (x.count.toNat < n.toNat → x.done = false →
        exec (.wwait b a d w l) s = .next ((s.emptied (.g d)).awaits (.wwait b a d w l) (.wwait d i n)))) ∧
  (∀ (a : BitVec 5) (w l : Bool) (s : State), s.issues (.wstart a w l) = true → (s.g a).toNat < 16 →
    let i := (s.g a).extractLsb' 0 4
    let x := s.cslot s.cur i
    x.arm = true → (x.pers = false → s.settled = true → exec (.wstart a w l) s = .next (s.trapped 0x163 (s.g a) 0)) ∧
      (x.pers = true → x.err = false → x.done = false → exec (.wstart a w l) s = .next (s.awaits (.wstart a w l) (.wstart i))) ∧
      (x.pers = true → x.err = false → x.done = true → x.staged = [] → ∃ t, exec (.wstart a w l) s = .next t ∧ t.disp = .retired ∧
        let y := t.cslot s.cur i
        y.arm = true ∧ y.gen = x.gen + 1 ∧ y.done = false ∧ y.count = 0 ∧ y.chain = x.chain)) ∧
  (∀ (i : Instr) (s : State) (x : W) (warm : Bool), slotOf s i = some (x, warm) → s.issues i = true → s.settled = true →
    ((if warm then 32 else 16) ≤ x.toNat → exec i s = .next (s.trapped 0x162 x 0)) ∧
    (x.toNat < 16 → needsArm i = true → (s.cslot s.cur (x.extractLsb' 0 4)).arm = false → exec i s = .next (s.trapped 0x161 x 0)) ∧
    (x.toNat < 16 → needsNoError i = true → (s.cslot s.cur (x.extractLsb' 0 4)).arm = true →
      (s.cslot s.cur (x.extractLsb' 0 4)).pers = true → (s.cslot s.cur (x.extractLsb' 0 4)).err = true →
      exec i s = .next (s.trapped 0x165 x 0)))

/-- The next entry of an armed slot waits until COUNT reaches its threshold, and then fires once: its wave sets out, with the slot's generation and
context, to be answered, and the chain goes on. A malformed entry ends the chain in error (R330, R332, R335). A wave that its slot expects is
applied, counted at its slot and answered: a write wave stores its bytes, a reduce wave combines each element with what the buffer holds; an earlier
packet of several waits. A slot that is not armed for it, or is past it, answers with outcome 1, one that it overruns with outcome 2, and a mask, an
absent core or a dead reach port with outcome 4 (R328, R332, R334, R335, R374). A generation of which every entry has fired and every wave is
answered is done, and says so with a record on FIFO 18: outcome, problems, flags, slot and generation; a hart that waits in WSTART begins the next
one (R335, R337). The outcomes of a wave that a window, a mask, a dead port or an unarmed slot turns away, that an entry fires once, and that a
malformed one ends the chain are the model's readings (logs 83, 87). It says where these complete: collectiveWave, generationComplete. -/
def Obligations.CollectivesFireAndComplete : Prop :=
  (∀ (s : State) (c : CoreId) (i : BitVec 4) (n : Nat) (a : W), let x := s.cslot c i
     let e := wentry (BitVec.ofNat 256 (bytesValue s.mem (localKey c a.toNat) 32))
     let dens := (s.core c).colldens.toNat
     x.arm = true → x.cursor = some a → a.toNat + 32 ≤ Config.spillBase → poisoned s (localKey c a.toNat) 32 = false →
     (x.count.toNat < e.thresh.toNat → State.fire c i (n + 1) s = s) ∧
     (e.thresh.toNat ≤ x.count.toNat → e.malformed dens = true → ((State.fire c i (n + 1) s).cslot c i).err = true ∧
       ((State.fire c i (n + 1) s).cslot c i).outcome = 3 ∧ ((State.fire c i (n + 1) s).cslot c i).cursor = none ∧
       (State.fire c i (n + 1) s).net = s.net) ∧
     (e.thresh.toNat ≤ x.count.toNat → e.malformed dens = false → s.buffersOk c x e dens = true → ∃ t w,
       State.fire c i (n + 1) s = State.fire c i n t ∧ t.net.waves = s.net.waves ++ [w] ∧ (t.cslot c i).owed = x.owed ++ [w.id] ∧
       (t.cslot c i).fired = x.fired ++ [a] ∧ (∀ b, (t.cslot c i).cursor = some b → e.next = some b ∧ b ∉ x.fired ++ [a]) ∧
       w.core = c ∧ w.slot = i ∧ w.gen = x.gen ∧ w.ctx = x.ctx ∧ w.dst = e.dst ∧ w.dslot = e.dslot ∧ w.nel = e.nel ∧
       w.reduce = decide (e.kind ≠ 0) ∧
       (e.kind = 0 → e.sl = false → w.raw.map (fun b => b.1) =
         (List.range ((if e.typ = 1 then 2 else 4) * e.nel)).map fun j => readByte s.mem (localKey c (e.src + j))))) ∧
  (∀ (s : State) (n : Nat) (w : Wave), s.findWave n = some w → s.heldBack n w.got = false → w.dead = false → w.got + 1 < w.packets →
    (spaceOf w.dst = .peer → s.retraining (w.dst.extractLsb' 52 4) = false) → ∃ t, exec (.collectiveWave n) s = .next t ∧ t.disp = .occurred ∧
      t.mem = s.mem ∧ t.cores = s.cores ∧ t.findWave n = some { w with got := w.got + 1 }) ∧
  (∀ (s : State) (n : Nat) (w : Wave) (a : Nat), s.findWave n = some w → s.lastPacket w → w.dead = false → spaceOf w.dst = .peer →
    w.dst.extractLsb' 52 4 = 0 → let c := w.dst.extractLsb' 40 12
    let x := s.cslot c w.dslot
    c ∉ s.pkg.absent → (s.core c).sys.fenced = false → s.admits c w.ctx 14 = true → x.arm = true → x.ctx = w.ctx → w.gen = x.gen →
    s.wavePlace w c = .ok a → x.cursor = none → s.noStarter c w.dslot → s.Canonical → ∃ t, exec (.collectiveWave n) s = .next t ∧ t.disp = .occurred ∧
      t.findWave n = none ∧ (t.cslot c w.dslot).count = x.count + 1 ∧ n ∉ (t.cslot w.core w.slot).owed ∧
      (w.reduce = false → (∀ b ∈ w.raw, b.2 = false) → onlyWrote s t (localKey c a) w.raw.length (leNat (w.raw.map fun b => b.1))) ∧
      (w.reduce = true → w.dl = false → w.list = false → w.elems.length = w.nel → (∀ y ∈ w.elems, y.2 = false) →
        poisoned s (localKey c a) ((if w.typ = 1 then 2 else 4) * w.nel) = false → ∀ j y, w.elems[j]? = some y →
          let k := if w.typ = 1 then 2 else 4
          bytesValue t.mem (localKey c a + k * j) k =
            (combine w.typ w.op (BitVec.ofNat 32 (bytesValue s.mem (localKey c a + k * j) k)) y.1).1.toNat % 2 ^ (8 * k))) ∧
  (∀ (s : State) (n : Nat) (w : Wave), s.findWave n = some w → s.lastPacket w → w.dead = false → spaceOf w.dst = .peer →
    w.dst.extractLsb' 52 4 = 0 → let c := w.dst.extractLsb' 40 12
    let x := s.cslot c w.dslot
    let meets : Prop := c ∉ s.pkg.absent ∧ (s.core c).sys.fenced = false ∧ s.admits c w.ctx 14 = true
    let armed : Prop := x.arm = true ∧ x.ctx = w.ctx
    let d := (w.gen - x.gen).toNat
    let answers (o : Nat) : Prop := ∃ t, exec (.collectiveWave n) s = .next t ∧ t.disp = .occurred ∧ t.mem = s.mem ∧ t.findWave n = none ∧ s.answeredWave t w o
    (c ∈ s.pkg.absent → answers 4) ∧ (c ∉ s.pkg.absent → (s.core c).sys.fenced = true → answers 1) ∧
    (c ∉ s.pkg.absent → (s.core c).sys.fenced = false → s.admits c w.ctx 14 = false → answers 4) ∧ (meets → ¬ armed → answers 1) ∧
    (meets → armed → (∃ e, s.wavePlace w c = .error e) → answers 4) ∧
    (meets → armed → (∃ a, s.wavePlace w c = .ok a) → 0x8000 ≤ d → answers 1) ∧
    (meets → armed → (∃ a, s.wavePlace w c = .ok a) → d ≠ 0 → d < 0x8000 → (d = 1 → x.pers = false) → (w.core ≠ c ∨ w.slot ≠ w.dslot) → answers 2)) ∧
  (∀ (s : State) (n : Nat) (w : Wave), s.findWave n = some w → w.dead = true →
    ∃ t, exec (.collectiveWave n) s = .next t ∧ t.disp = .occurred ∧ t.mem = s.mem ∧ t.findWave n = none ∧ s.answeredWave t w 4) ∧
  (∀ (s : State) (n : Nat) (w : Wave) (k : Nat), s.findWave n = some w → s.lastPacket w → w.dead = false → spaceOf w.dst = .global → s.Canonical →
    reachesAt s w.party .store w.dst w.raw.length k → (∀ b ∈ w.raw, b.2 = false) →
    ∃ t, exec (.collectiveWave n) s = .next t ∧ t.disp = .occurred ∧ t.findWave n = none ∧
      onlyWrote s t k w.raw.length (leNat (w.raw.map fun b => b.1)) ∧ n ∉ (t.cslot w.core w.slot).owed) ∧
  (∀ (s : State) (c : CoreId) (i : BitVec 4), let x := s.cslot c i
     x.arm = true → x.done = false → x.cursor = none → x.owed = [] → ∃ t e, exec (.generationComplete c i) s = .next t ∧ t.disp = .occurred ∧
       ((∀ h, (s.hartAt c h).wait ≠ .wstart i) → (t.cslot c i).done = true ∧ (t.cslot c i).gen = x.gen) ∧
       (∀ h, (s.hartAt c h).wait = .wstart i → (t.cslot c i).done = false ∧ (t.cslot c i).gen = x.gen + 1) ∧
       e ∈ t.net.events ∧ (∀ y ∈ s.net.events, y ∈ t.net.events) ∧ e.core = c ∧ e.fifo = 18 ∧
       e.record = 0x30#8 ++ (x.outcome ++ x.problems) ++ (0#3 ++ x.flags ++ 0#4 ++ i ++ 0#16 ++ x.gen))

/-! System. -/

/-- A CSR instruction returns the register's old value in gD and retires; with a mask of zero it writes nothing, and a plain register reads back the
value, old value with bits set, or old value with bits cleared that its form gives. A reserved bit that is to be set, or a mode that may not read or
write the register, is an illegal instruction of kind 2 or 4 (R5, R91, R92). HSTAT takes PMODE, PIE and IE; a loop register, LPD too, takes its
value once the instruction itself has been counted at a loop end; a write of TLBINV starts the invalidation and waits for its end; a register that
may hold certain values only reads back one that it may hold and refuses another with kind 2; a bit of IPEND.EDGE or EVSTAT that is written with 1
by a form other than CSRRS and CSRSI is cleared, IPEND.SOFT and TKSTAT.EV take their value (R39, R91, R92, R105, R110, R255, R258, R291, R306,
R310). The order of refusals, that a loop register is written after the loop-end count, that TLBINV waits, and that INSTRET reads back what is
written are the model's readings (logs 17, 18, 22, 25, 28). It says where these complete: csrrw, csrrs, csrrc, csrwi, csrsi, csrci. -/
def Obligations.CsrInstructionsExchange : Prop :=
  (∀ (i : Instr) (s : State) (f : CsrForm) (n : Nat) (m : W) (d : BitVec 5), csrOf s i = some (f, n, m, d) →
     (s.issues i = true → f ≠ .write → m = 0 → s.csrBusy n none = false →
       exec i s = .next (s.wroteG d (s.csrRead n)).retires) ∧
     (s.issues i = true → plainCsr n = true → f.reservedSet n m = false → s.csrBusy n none = false → (f = .write ∨ m ≠ 0) →
       ∃ t, exec i s = .next t ∧ t.disp = .retired ∧ t.mem = s.mem ∧ t.net = s.net ∧ t.hart.regs = s.hart.regs.writeG d (s.csrRead n) ∧
         (s.slot = .lone → t.csrRead n = f.leaves (s.csrRead n) m)) ∧
     (s.issues i = true → s.settled = true → f.reservedSet n m = true → ∃ t, exec i s = .next t ∧ s.tookIllegal t 2) ∧
     (s.settled = true → prefixOk i s = true → privOk i s = false → ∃ t, exec i s = .next t ∧ s.tookIllegal t 4)) ∧
  (∀ (a d : BitVec 5) (w l : Bool) (s : State), s.issues (.csrrw 0x000 a d w l) = true → CsrForm.write.reservedSet 0 (s.g a) = false →
    (s.g a).extractLsb' 4 2 ≠ 2 → ((s.g a).extractLsb' 4 2 = 3 → s.hart.mode = 3) → ∃ t, exec (.csrrw 0x000 a d w l) s = .next t ∧
      t.disp = .retired ∧ t.hart.pmode = (s.g a).extractLsb' 4 2 ∧ t.hart.pie = (s.g a).getLsbD 3 ∧ t.hart.ie = (s.g a).getLsbD 2 ∧
      t.hart.mode = s.hart.mode ∧ t.hart.regs = s.hart.regs.writeG d (s.csrRead 0)) ∧
  (∀ (c : BitVec 12) (a d : BitVec 5) (w l : Bool) (s : State), s.issues (.csrrw c a d w l) = true → s.slot = .lone →
    CsrForm.write.reservedSet c.toNat (s.g a) = false → 0x020 ≤ c.toNat → c.toNat ≤ 0x02B →
    let k := (loopCount s.hart.pc 4 s.hart.loops).1
    ∃ t, exec (.csrrw c a d w l) s = .next t ∧ t.disp = .retired ∧ t.hart.regs = s.hart.regs.writeG d (s.csrRead c.toNat) ∧
      t.hart.loops.depth = k.depth ∧
      (c.toNat ≤ 0x023 → t.hart.loops.lps = k.lps.setIfInBounds (c.toNat - 0x020) (s.g a) ∧ t.hart.loops.lpe = k.lpe ∧ t.hart.loops.lpc = k.lpc) ∧
      (0x024 ≤ c.toNat → c.toNat ≤ 0x027 → t.hart.loops.lpe = k.lpe.setIfInBounds (c.toNat - 0x024) (s.g a) ∧ t.hart.loops.lps = k.lps) ∧
      (0x028 ≤ c.toNat → t.hart.loops.lpc = k.lpc.setIfInBounds (c.toNat - 0x028) (s.g a) ∧ t.hart.loops.lpe = k.lpe)) ∧
  (∀ (a d : BitVec 5) (w l : Bool) (s : State), s.issues (.csrrw 0x02C a d w l) = true → CsrForm.write.reservedSet 0x02C (s.g a) = false →
    let ok : Prop := ((s.g a).extractLsb' 0 3).toNat ≤ 4 ∧ ((s.g a).extractLsb' 4 3).toNat ≤ 4
    (ok → s.slot = .lone → ∃ t, exec (.csrrw 0x02C a d w l) s = .next t ∧ t.disp = .retired ∧ t.hart.regs = s.hart.regs.writeG d (s.csrRead 0x02C) ∧
      t.hart.loops.depth = (s.g a).extractLsb' 0 3 ∧ t.hart.loops.sdepth = (s.g a).extractLsb' 4 3) ∧
    (¬ ok → s.settled = true → ∃ t, exec (.csrrw 0x02C a d w l) s = .next t ∧ s.tookIllegal t 2)) ∧
  (∀ (i : Instr) (s : State) (f : CsrForm) (n : Nat) (m : W) (d : BitVec 5), csrOf s i = some (f, n, m, d) → s.issues i = true →
    f.reservedSet n m = false → s.csrBusy n none = false → (f = .write ∨ m ≠ 0) → let x := f.leaves (s.csrRead n) m
    (mayHold s n x = some true → ∃ t, exec i s = .next t ∧ t.disp = .retired ∧ t.mem = s.mem ∧ t.hart.regs = s.hart.regs.writeG d (s.csrRead n) ∧
      (s.slot = .lone → t.csrRead n = x)) ∧
    (mayHold s n x = some false → s.settled = true → ∃ t, exec i s = .next t ∧ s.tookIllegal t 2) ∧
    (n = 0x010 → ∃ t, exec i s = .next t ∧ t.disp = .retired ∧ t.hart.trap.soft = x.getLsbD 0 ∧
      t.hart.trap.edge = s.hart.trap.edge &&& ~~~(if f = .set then 0 else m.extractLsb' 12 4)) ∧
    (n = 0x284 → ∃ t, exec i s = .next t ∧ t.disp = .retired ∧
      t.self.chan.evstat = s.self.chan.evstat &&& ~~~(if f = .set then 0 else m.extractLsb' 0 8)) ∧
    (n = 0x208 → ∃ t, exec i s = .next t ∧ t.disp = .retired ∧ t.hart.tkEv = x.getLsbD 32)) ∧
  (∀ (a d : BitVec 5) (w l : Bool) (s : State), s.issues (.csrrw 0x210 a d w l) = true → CsrForm.write.reservedSet 0x210 (s.g a) = false →
    ∃ t, exec (.csrrw 0x210 a d w l) s = .next t ∧ t.disp = .waiting ∧ t.hart.wait = .tlbinv ∧ t.mem = s.mem ∧ t.hart.pc = s.hart.pc ∧
      t.hart.regs = s.hart.regs)

/-- Trap entry: TRPC, TRCAUSE, TRADDR and TRINFO take their values; PMODE and PIE the mode and IE; IE becomes 0 and the mode the handler's; the
pending prefix and the loop depth are set aside; and the pc is TVEC's address. Every general register keeps its value (R104). ECALL and EBREAK trap
with their causes, by the mode of the caller; TRET returns: the mode and IE come back from PMODE and PIE, the pc from TRPC, and the prefix and the
loop depth are pending again (R98, R104). It says where these complete: ecall, ebreak, tret. -/
def Obligations.TrapsEnterAndReturn : Prop :=
  (∀ (s : State) (cause : BitVec 9) (addr info : W), let x := s.hart
     let y := (s.trapped cause addr info).hart
     y.trap = { x.trap with trpc := x.pc, trcause := cause.setWidth 64, traddr := addr, trinfo := info } ∧
     y.pmode = x.mode ∧ y.pie = x.ie ∧ y.ie = false ∧ y.pc = x.trap.tvec &&& ~~~3#64 ∧ y.spp = x.pp ∧ y.pp = false ∧
     y.loops.sdepth = x.loops.depth ∧ y.loops.depth = 0 ∧ y.loops.lps = x.loops.lps ∧ y.loops.lpe = x.loops.lpe ∧ y.loops.lpc = x.loops.lpc ∧
     y.mode = (if s.firmware s.cur = false then 1 else if x.mode = 3 then 3
       else if x.trap.deleg.getLsbD (cause.extractLsb' 6 3).toNat then 1 else 3) ∧
     y.regs = x.regs ∧ y.arith = x.arith ∧ (s.trapped cause addr info).mem = s.mem ∧ (s.trapped cause addr info).net = s.net) ∧
  (∀ (w : Bool) (s : State), s.issues (.ecall w) = true → s.settled = true → exec (.ecall w) s =
    .next (s.trapped (if s.hart.mode = 3 then 0x1C2 else if s.hart.mode = 2 then 0x1C2 else if s.hart.mode = 1 then 0x1C1 else 0x1C0) 0 0)) ∧
  (∀ (w : Bool) (s : State), s.issues (.ebreak w) = true → s.settled = true → exec (.ebreak w) s = .next (s.trapped 0x1C3 0 0)) ∧
  (∀ (w : Bool) (s : State), s.issues (.tret w) = true → s.slot = .lone → s.hart.frozen = [] → let x := s.hart
    ∃ t, exec (.tret w) s = .next t ∧ t.disp = .retired ∧ t.mem = s.mem ∧ t.net = s.net ∧ let y := t.hart
      y.mode = x.pmode ∧ y.ie = x.pie ∧ y.pie = false ∧ y.pmode = 0 ∧ y.pc = x.trap.trpc ∧ y.pp = x.spp ∧ y.spp = false ∧
      y.loops = loopUnwind x.trap.trpc 4 { x.loops with depth := x.loops.sdepth, sdepth := 0 } ∧ y.regs = x.regs ∧
      y.trap.trpc = x.trap.trpc ∧ y.trap.trcause = x.trap.trcause ∧ y.instret = x.instret + 1)

/-- An enabled pending interrupt is taken at an instruction boundary: the trap names the lowest source, TRADDR and TRINFO are 0, and TRPC is the
instruction that would have come next, a waiting one included; a WFI that it ends has retired (R100, R104, R105). What is no instruction traps: a
word or pair that a check of R47 or R49 refuses, with its kind; and a word whose fetch the memory system refuses, with the cause and TRADDR that the
fetch found, and TRINFO of a ticket that was answered with a fault or lost (R56, R57, R122, R196, R245, R253, R254). That an interrupt is taken over
unconfirmed accesses, and uses the issue slot, are the model's readings (logs 11, 137). It says where these complete: interruptEntry,
illegalInstruction, instructionFetchFault. -/
def Obligations.InterruptsAndBadWordsAreTaken : Prop :=
  (∀ (s : State) (c : CoreId) (h : HartId) (n : Nat), s.firstSource c h = some n → s.interruptDue c h = true → (s.core c).awake = true → s.timeUp c = false →
     ∃ t, exec (.interruptEntry c h) s = .next t ∧ t.disp = .occurred ∧ t.mem = s.mem ∧ let x := s.hartAt c h
       let y := t.hartAt c h
       y.trap.trpc = (if x.wait = .wfi then (loopCount x.pc 4 x.loops).2.getD (x.pc + 4) else x.pc) ∧
       y.trap.trcause = BitVec.ofNat 64 (2 ^ 63 + 0x1E0 + n) ∧ y.trap.traddr = 0 ∧ y.trap.trinfo = 0 ∧
       y.pc = x.trap.tvec &&& ~~~3#64 ∧ y.ie = false ∧ y.pie = true ∧ y.pmode = x.mode ∧ y.wait = .none ∧
       n < 32 ∧ (s.ipend c h).getLsbD n = true ∧ x.trap.ien.getLsbD n = true ∧
       ∀ k, k < n → ¬ ((s.ipend c h).getLsbD k = true ∧ x.trap.ien.getLsbD k = true)) ∧
  (∀ (s : State) (c : CoreId) (h : HartId) (slot : Slot) (kind : Nat), s.mayIssue c h = true → atPc s c h = .illegal slot kind →
    s.unconfirmed c h = false → kind < 8 → ∃ t, exec (.illegalInstruction c h) s = .next t ∧
      { s with cur := c, curHart := h }.tookIllegal t kind) ∧
  (∀ (s : State) (c : CoreId) (h : HartId) (va : W) (cause : BitVec 9) (info : W), s.mayIssue c h = true → s.unconfirmed c h = false →
    (atPc s c h = .noFetch va (.fault cause) ∨ atPc s c h = .noFetch va (.malformed cause) → ∃ t, exec (.instructionFetchFault c h) s = .next t ∧
      s.tookTrap t c h cause va (s.hartAt c h).pc ∧ (t.hartAt c h).trap.trinfo = 0) ∧
    (atPc s c h = .noFetch va (.failed cause info) → ∃ t, exec (.instructionFetchFault c h) s = .next t ∧
      s.tookTrap t c h cause (if cause = 0x1C5 then 0 else va) (s.hartAt c h).pc ∧ (t.hartAt c h).trap.trinfo = info))

/-- WFI retires when an enabled source is pending and waits otherwise; a source ends the wait. HALT retires, stops every hart of the core and puts
it into its low-power state (R100). HSTART and HSTOP send a command to a hart of their own context, which M mode may name freely, and wait for its
acknowledgement; another target traps with 0x1C7. A start sets a stopped hart's pc, mode and status and wakes its core; a stop stops a hart at a
boundary, the issuer itself too; each lets its issuer go on; a core that takes no command, or a firmware core that does not admit the issuer's
context, turns it away, and the issuer traps with 0x1C7, as the model has it (R10, R99, R374, log 79). It says where these complete: wfi, halt,
hstart, hstop, wfiWake, hartStartCommand, hartStopCommand. -/
def Obligations.HartsWaitStopAndStart : Prop :=
  (∀ (w : Bool) (s : State), s.issues (.wfi w) = true →
    (s.firstSource s.cur s.curHart ≠ none → exec (.wfi w) s = .next s.retires) ∧
    (s.firstSource s.cur s.curHart = none → exec (.wfi w) s = .next (s.awaits (.wfi w) .wfi))) ∧
  (∀ (s : State) (c : CoreId) (h : HartId) (w : WaitAt), (s.hartAt c h).wait = .wfi → (s.hartAt c h).waitAt = some w →
    s.firstSource c h ≠ none → ∃ t, exec (.wfiWake c h) s = .next t ∧ t.disp = .occurred ∧ t.mem = s.mem ∧ s.concluded t c h w noWrite) ∧
  (∀ (w : Bool) (s : State), s.issues (.halt w) = true → s.slot = .lone → s.hart.rx = false →
    (∀ h, h ≠ s.curHart → s.stoppable s.cur h = true) → ∃ t, exec (.halt w) s = .next t ∧ t.disp = .retired ∧
      (t.core s.cur).sys.low = true ∧ (∀ h, (t.hartAt s.cur h).stopped = true) ∧
      t.hart.pc = (loopCount s.hart.pc 4 s.hart.loops).2.getD (s.hart.pc + 4)) ∧
  (∀ (start w : Bool) (b a : BitVec 5) (s : State), let i : Instr := if start then .hstart b a w else .hstop a w
    s.issues i = true → let x := s.g a
    let own : Prop := x.toNat < 2 ^ 14 ∧ (s.hart.mode = 3 ∨ (s.core (x.extractLsb' 0 12)).mem.ctxid = s.self.mem.ctxid)
    (own → (start = true → (s.g b).toNat % 4 = 0) → ∃ t m, exec i s = .next t ∧ t.disp = .waiting ∧ t.mem = s.mem ∧ t.hart.wait = .hart m.id ∧
      t.hart.pc = s.hart.pc ∧ t.hart.regs = s.hart.regs ∧ t.net.hcmds = s.net.hcmds ++ [m] ∧ m.start = start ∧ m.dst = x.extractLsb' 0 12 ∧
      m.target = x.extractLsb' 12 2 ∧ (start = true → m.pc = s.g b) ∧ m.core = s.cur ∧ m.hart = s.curHart ∧ m.mode = s.hart.mode) ∧
    (¬ own → s.settled = true → exec i s = .next (s.trapped 0x1C7 x 0)) ∧
    (own → start = true → (s.g b).toNat % 4 ≠ 0 → s.settled = true →
      exec i s = .next (s.trapped (accCause .fetch (spaceOf (s.g b)).code .misaligned) (s.g b) 0))) ∧
  (∀ (s : State) (n : Nat) (m : HartCmd) (w : WaitAt), s.net.hcmds.find? (fun m => m.id == n) = some m → s.heldBack n 0 = false →
    (s.hartAt m.core m.hart).wait = .hart n → (s.hartAt m.core m.hart).waitAt = some w →
    (s.refusesHart m = true → ∃ t, exec (if m.start then .hartStartCommand n else .hartStopCommand n) s = .next t ∧ t.disp = .occurred ∧
      s.tookTrap t m.core m.hart 0x1C7 ((m.target ++ m.dst).setWidth 64) (s.hartAt m.core m.hart).pc) ∧
    (s.refusesHart m = false → m.start = false → (m.core, m.hart) = (m.dst, m.target) → ∃ t, exec (.hartStopCommand n) s = .next t ∧
      t.disp = .occurred ∧ (t.hartAt m.dst m.target).stopped = true) ∧
    (s.refusesHart m = false → (m.core, m.hart) ≠ (m.dst, m.target) →
         (m.start = true → (s.hartAt m.dst m.target).stopped = true → ∃ t, exec (.hartStartCommand n) s = .next t ∧ t.disp = .occurred ∧
      t.mem = s.mem ∧ s.concluded t m.core m.hart w noWrite ∧ (t.core m.dst).sys.low = false ∧ let y := t.hartAt m.dst m.target
      y.stopped = false ∧ y.pc = m.pc ∧ y.mode = (if m.mode = 3 then 1 else 0) ∧ y.ie = false ∧ y.pie = false ∧ y.pmode = 0 ∧ y.pp = false ∧
        y.loops.depth = 0 ∧ y.regs = (s.hartAt m.dst m.target).regs) ∧
    (m.start = false → s.stoppable m.dst m.target = true → ∃ t, exec (.hartStopCommand n) s = .next t ∧ t.disp = .occurred ∧
      (t.hartAt m.dst m.target).stopped = true ∧ (t.hartAt m.core m.hart).wait ≠ .hart n)))

/-! The package. -/

/-- An invalidation takes the named translations from every core and slice at once, and ends, for the hart or the host that asked for it, once no
access that went through one is still to be performed (R258, R260). The memory service answers the oldest ticket of a page: with a notice when the
page is mapped; with a fault when no range declares it, which a free value tells where the books hold none (log 125), when its agent's quota is used
up, or when no frame lies in the capacity; for a first touch of a declared page by writing its leaf over a frame of zeros; and for a walk node in
host memory by copying it to a frame, to which its pointer then leads with zero permission bits. The host's answer to a page request is a notice or
a fault (R210, R257, R259). That a first touch takes one frame of 4 KiB, and charges no table, is the model's choice (log 128). It says where these
complete: priPageGroupResponse, atsInvalidationRequest, invalidationCompletion, tlbinv, tlbinvDrainComplete, memoryServiceTicket. -/
def Obligations.TranslationsAreWithdrawnAndServed : Prop :=
  (∀ (c : CoreId) (h : HartId) (x : W) (s : State), (s.hartAt c h).mode = 3 → (s.hartAt c h).stopped = false → (s.hartAt c h).wait = .none →
    ∃ t, exec (.tlbinv c h x) s = .next t ∧ t.disp = .occurred ∧ t.mem = s.mem ∧ (t.hartAt c h).wait = .tlbinv ∧
      t.books.drains = s.books.drains ++ [{ waiter := .hart c h, parts := s.throughPage (x.extractLsb' 48 16) (x.extractLsb' 12 36) (x.extractLsb' 10 2) }] ∧
      (∀ k, ∀ e ∈ (t.core k).mem.tlb, e.overlaps (x.extractLsb' 48 16) (x.extractLsb' 12 36) (x.extractLsb' 10 2) = false) ∧
      ∀ e ∈ t.books.sliceTlb, e.2.overlaps (x.extractLsb' 48 16) (x.extractLsb' 12 36) (x.extractLsb' 10 2) = false) ∧
  (∀ (c : CoreId) (h : HartId) (d : Drain) (s : State), s.books.drains.find? (fun d => d.waiter == DrainFor.hart c h) = some d →
    (∀ p ∈ d.parts, s.partOpen p = false) → (s.hartAt c h).wait = .tlbinv → ∃ t, exec (.tlbinvDrainComplete c h) s = .next t ∧
      t.disp = .occurred ∧ t.mem = s.mem ∧ (t.hartAt c h).wait = .none ∧
      t.books.drains = s.books.drains.filter (fun e => !(e.waiter == DrainFor.hart c h)) ∧
      (∀ w m a d v l, (s.hartAt c h).waitAt = some w → w.op = .csrrw m a d v l →
        s.concluded t c h w (oneWrite (.g d) 0))) ∧
  (∀ (p : BitVec 20) (v : BitVec 36) (z : BitVec 2) (s : State), ∃ t, exec (.atsInvalidationRequest p v z) s = .next t ∧ t.disp = .occurred ∧
    t.mem = s.mem ∧ ∀ x ∈ s.contextsOf p, (∀ k, ∀ e ∈ (t.core k).mem.tlb, e.overlaps x v z = false) ∧
      ∀ e ∈ t.books.sliceTlb, e.2.overlaps x v z = false) ∧
  (∀ (p : BitVec 20) (v : BitVec 36) (z : BitVec 2) (d : Drain) (s : State), s.books.drains.find? (fun d => d.pasid == some p) = some d →
    d.waiter = .host p v z → (∀ q ∈ d.parts, s.partOpen q = false) → ∃ t, exec (.invalidationCompletion p v z) s = .next t ∧
      t.disp = .occurred ∧ t.mem = s.mem ∧ t.books.drains.length + 1 = s.books.drains.length) ∧
  (∀ (s : State) (slice : BitVec 6) (num : BitVec 16) (f : BitVec 36) (k : Ticket), s.findTicket slice num = some k →
    s.books.tickets.find? (fun u => u.ctx == k.ctx && u.vpn == k.vpn && u.answer.isNone) = some k → k.reason ≠ TicketReason.host.code →
    s.frameTaken f 4 = false → s.Canonical → let va : W := k.vpn.setWidth 64 <<< 12
    let root := (s.memOf k.core k.ctx).root
    let walk_ := walk s.mem va 4 root
    let answered (t : State) (x : Option (BitVec 9)) : Prop := ∃ u, t.findTicket slice num = some u ∧ u.answer = some x
    (∀ z e p, walk_ = .leaf z e p → k.reason ≠ TicketReason.firstWrite.code → ∃ t, exec (.memoryServiceTicket slice num f) s = .next t ∧
      t.disp = .occurred ∧ t.mem = s.mem ∧ answered t none) ∧
    (∀ l p, walk_ = .ticket .absent l p → s.declaredAt k.ctx k.vpn = none → ∃ t, exec (.memoryServiceTicket slice num f) s = .next t ∧
      t.disp = .occurred ∧ (s.free.getLsbD 0 = false → t.mem = s.mem ∧ answered t (some (xlatCause k.access 0 k.level.toNat)))) ∧
    (∀ l p d u, walk_ = .ticket .absent l p → s.declaredAt k.ctx k.vpn = some d → levelOf s.mem va 4 root = 0 →
      4096 * (f.toNat + 1) ≤ s.cap.allocBytes → s.charge k.core k.ctx k.agid f 1 = some u →
      ∃ t, exec (.memoryServiceTicket slice num f) s = .next t ∧ t.disp = .occurred ∧ answered t none ∧
        bytesValue t.mem p 8 = (leafWord d f).toNat ∧ (f, k.ctx, k.agid, 1) ∈ t.books.charged ∧
        ((k.ctx, k.vpn) ∉ s.books.touched → ∀ a, a / 4096 = f.toNat → a < p ∨ p + 8 ≤ a → readByte t.mem a = 0)) ∧
    (∀ l p d, walk_ = .ticket .absent l p → s.declaredAt k.ctx k.vpn = some d → let n := levelOf s.mem va 4 root
      (s.cap.allocBytes < 4096 * (f.toNat + n + 1) → ∃ t, exec (.memoryServiceTicket slice num f) s = .next t ∧ t.disp = .occurred ∧
        t.mem = s.mem ∧ answered t (some (xlatCause k.access 3 0))) ∧
      (4096 * (f.toNat + n + 1) ≤ s.cap.allocBytes → s.charge k.core k.ctx k.agid f 1 = none → ∃ t,
        exec (.memoryServiceTicket slice num f) s = .next t ∧ t.disp = .occurred ∧ t.mem = s.mem ∧ answered t (some (xlatCause k.access 2 0)))) ∧
    (∀ l p, walk_ = .ticket .walkNode l p → let e : W := BitVec.ofNat 64 (bytesValue s.mem p 8)
      e.getLsbD 8 = false → 4096 * (f.toNat + 1) ≤ s.cap.allocBytes → ∃ t, exec (.memoryServiceTicket slice num f) s = .next t ∧
        t.disp = .occurred ∧ answered t none ∧ (f, k.ctx) ∈ t.books.tables ∧
        bytesValue t.mem p 8 = (0#16 ++ f ++ 3#12).toNat ∧ ∀ a, a < p ∨ p + 8 ≤ a → readByte t.mem a =
          readByte s.mem (if a / 4096 = f.toNat then 4096 * (e.extractLsb' 12 36).toNat + a % 4096 else a))) ∧
  (∀ (s : State) (slice : BitVec 6) (num : BitVec 16) (o : BitVec 2) (k : Ticket), s.findTicket slice num = some k →
    k.reason = TicketReason.host.code → k.answer = none → ∃ t u x, exec (.priPageGroupResponse slice num o) s = .next t ∧ t.disp = .occurred ∧
      t.mem = s.mem ∧ t.findTicket slice num = some u ∧ u.answer = some x ∧ (x = none ↔ o = 0))

/-- MEMCAP takes its fields, and a change makes source 12 pending on every core. A stack's retirement is announced; what lies above the new capacity
moves, its entry marked while the accesses through it drain; the phase opens once nothing is left there or in flight; its granules move a block at a
time and the last through the bounce buffer, with the contents of every address as they were but for lines of the retiring stack that show an error,
which are poisoned; and the phase closes (R105, R205 to R207, R257). Which frame an evacuation takes, and that root tables stay, are the model's
choices; that source 12 follows a change only is its reading (logs 19, 143). It says where these complete: stackRetirement, migrationBlockMove,
migrationBounce, memcapWrite. -/
def Obligations.CapacityShrinksByAStack : Prop :=
  (∀ (x : W) (s : State), x.extractLsb' 60 3 = 0 → ∃ t, exec (.memcapWrite x) s = .next t ∧ t.disp = .occurred ∧ t.mem = s.mem ∧
    t.cap.pend = x.getLsbD 63 ∧ t.cap.active = x.extractLsb' 48 12 ∧ t.cap.bytes = x.extractLsb' 0 48 ∧ t.cap.isOpen = s.cap.isOpen ∧
    t.cap.cursor = s.cap.cursor ∧ (t.cap = s.cap ∨ ∀ c h, (t.ipend c h).getLsbD 12 = true)) ∧
  (∀ (k : BitVec 4) (s : State), let n := (activeStacks s.cap.active).length - 1
    (s.cap.isOpen = false → s.cap.pend = false → s.cap.active.getLsbD k.toNat = true → 0 < n →
      ∃ t, exec (.stackRetirement k) s = .next t ∧ t.disp = .occurred ∧ t.mem = s.mem ∧
        t.cap = { s.cap with pend := true, target := some k, changed := true } ∧ ∀ c h, (t.ipend c h).getLsbD 12 = true) ∧
    (s.cap.isOpen = false → s.cap.pend = true → s.cap.target = some k → s.Canonical → (∀ d ∈ s.books.drains, ∀ x v l, d.waiter ≠ DrainFor.move x v l) →
      ∀ x, (s.highEntries (n * 2 ^ 37)).find? (fun x => !x.2.migrates) = some x → ∃ t, exec (.stackRetirement k) s = .next t ∧ t.disp = .occurred ∧
        onlyWrote s t x.2.place 8 (x.2.pte ||| 0x100#64).toNat ∧ ∃ d ∈ t.books.drains, d.waiter = .move x.1 (BitVec.ofNat 36 x.2.vpn) x.2.level ∧
          d.parts = s.throughPage x.1 (BitVec.ofNat 36 x.2.vpn) (levelSize x.2.level)) ∧
    (∀ d ctx v l x, s.cap.isOpen = false → s.cap.pend = true → s.cap.target = some k → s.Canonical → s.books.drains = [d] → d.waiter = .move ctx v l →
      s.drained d = true → (s.highEntries (n * 2 ^ 37)).find? (fun x => x.1 == ctx && x.2.vpn == v.toNat && x.2.level == l && x.2.migrates) = some x →
      let f := s.free.extractLsb' 0 36
      ∃ t, exec (.stackRetirement k) s = .next t ∧ t.disp = .occurred ∧ (s.frameFits f x.2.frames (n * 2 ^ 37) = true → t.books.drains = [] ∧
        let w : W := BitVec.ofNat 64 (bytesValue t.mem x.2.place 8)
        w.extractLsb' 12 36 = f ∧ w.getLsbD 8 = false ∧ w.getLsbD 0 = true)) ∧
    (s.cap.isOpen = false → s.cap.pend = true → s.cap.target = some k → s.usedAbove (n * 2 ^ 37) = false → s.hbmInFlight = false →
      ∃ t, exec (.stackRetirement k) s = .next t ∧ t.disp = .occurred ∧ t.mem = s.mem ∧
        t.cap = { pend := false, active := s.cap.active &&& ~~~(1#12 <<< k.toNat), bytes := BitVec.ofNat 48 (n * 2 ^ 37), isOpen := true,
                  rstk := k, phase := s.cap.phase + 1, cursor := BitVec.ofNat 40 (n * 2 ^ 29 - 1), target := none, bounced := false, changed := true }) ∧
    (s.cap.isOpen = true → s.cap.rstk = k → s.cap.bounced = true → exec (.stackRetirement k) s =
      .next { s with cap := { s.cap with isOpen := false, bounced := false, cursor := BitVec.allOnes 40 }, disp := .occurred })) ∧
  (∀ (s : State), let n := (activeStacks s.cap.active).length + 1
    let bad (i lo : Nat) : Prop := s.cap.oldStack (lo + i) = s.cap.rstk.toNat ∧ s.free.getLsbD i = true
    s.cap.isOpen = true → s.cap.bounced = false →
    (n * (n - 1) ≤ s.cap.cursor.toNat → s.cap.cursor ≠ BitVec.allOnes 40 → let lo := s.cap.cursor.toNat - 63
      ∃ t, exec .migrationBlockMove s = .next t ∧ t.disp = .occurred ∧ t.cap = { s.cap with cursor := s.cap.cursor - 64 } ∧
        (s.logsNowhere ∨ (∀ i, i < 64 → ¬bad i lo) → t.mem = s.mem) ∧ (∀ i, i < 64 → bad i lo → poisoned t (256 * (lo + i)) 256 = true) ∧
        ((∀ i, i < 64 → ¬bad i lo) → t.poison = s.poison)) ∧
    (s.cap.cursor.toNat < n * (n - 1) ∨ s.cap.cursor = BitVec.allOnes 40 → ∃ t, exec .migrationBounce s = .next t ∧ t.disp = .occurred ∧ t.cap = { s.cap with bounced := true } ∧
      (s.logsNowhere → t.mem = s.mem)))

/-- A malformed packet of a hart's access, and one that its source has resent RLIM times, are refused with 0x1AF and 0x1AA; a resend and a malformed
packet count in FABSTAT; a packet whose timer has run out is sent again, below RLIM; a copy that stays partial is given up, and the packet still
waits for its answer. A copy that arrives with wrong bits is discarded, and one whose SEQ was accepted before is a duplicate; each counts, and
neither is performed (R320, R321, R323 to R325, R342). A failed frame counts at its link, which retrains after more than 16 within 4 096 core cycles
and is in service again afterwards; a reach port trains, comes up with its peer's number, goes down with its link and comes up with it, and isolates
on firmware's word, after 100 µs without a link, or when its peer has reset, with every request towards its peer answered with reason 6 (R322, R326,
R327). The causes of failed packets, what a resend finds, the clocks, the link of a port, what a retrain loses and how partial copies are kept are
the model's choices (logs 94, 95, 97, 99, 127, 136). It says where these complete: taggedMessage, malformedPacket, reassemblyTimeout, resendTimeout,
resendLimit, linkFrame, linkRetrain, linkRetrainComplete, rpstatTrain, rpstatIsolate, reachTrainingComplete, reachLinkDownTimeout, reachPeerReset,
reachLinkDown. -/
def Obligations.FabricLosesAndRecovers : Prop :=
  (∀ (s : State) (n : Nat) (f : Flight) (x : Packet), s.oneFlight n f → s.packetAt n f.k = some x →
     let refused (t : State) (cause : BitVec 9) : Prop := ∀ a p g, x = .part a p g → s.acc n = some a → a.part p.n = some p →
       t.partAt n p.n (.refused cause none)
     let count (y : State) (c : CoreId) (i : Nat) : BitVec 16 := (y.core c).sys.fabstat.extractLsb' i 16
     let stepped (w : BitVec 16) : BitVec 16 := if w = BitVec.allOnes 16 then w else w + 1
     (s.stopsAt f = false → s.badFlight f x = true → ∃ t, exec (.malformedPacket n) s = .next t ∧ t.disp = .occurred ∧ (s.logsNowhere → t.mem = s.mem) ∧
       refused t 0x1AF ∧ t.flight n f.k = none ∧ (f.pkg = 0 → count t f.dst 48 = stepped (count s f.dst 48))) ∧
     (s.elapsed f (s.timeoutAt f.src) = true → s.resendLimit f = 0 ∨ f.resends < s.resendLimit f → ∃ t g, exec (.resendTimeout n) s = .next t ∧
       t.disp = .occurred ∧ t.mem = s.mem ∧ t.flight n f.k = some g ∧ g.seq = f.seq ∧ g.resends = f.resends + 1 ∧ g.since = (s.core f.src).cycles ∧
       g.copies = f.copies ++ [(g.resends, Config.damaged n f.k g.resends)] ∧
       count t f.src 0 = stepped (count s f.src 0)) ∧
     (s.elapsed f (s.timeoutAt f.src) = true → s.resendLimit f ≠ 0 → s.resendLimit f ≤ f.resends → ∃ t, exec (.resendLimit n) s = .next t ∧
       t.disp = .occurred ∧ (s.logsNowhere → t.mem = s.mem) ∧ refused t 0x1AA ∧ t.flight n f.k = none) ∧
     (∀ b, (s.net.reasm.filter fun b => b.n == n) = [b] → (s.timeoutAt b.dst).toNat ≤ ((s.core b.dst).cycles - b.since).toNat → ∃ t,
       exec (.reassemblyTimeout n) s = .next t ∧ t.disp = .occurred ∧ t.mem = s.mem ∧ t.net.accs = s.net.accs ∧
       t.net.flights = s.net.flights ∧ (∀ y ∈ t.net.reasm, y.n ≠ n) ∧ ∀ y, y.n ≠ n → (y ∈ t.net.reasm ↔ y ∈ s.net.reasm)) ∧
     (∀ m j bad l, s.findPost n = some m → m.full = false → s.retraining m.pkg = false → f.k = 0 → s.noBuffer f = false → f.copies = (j, bad) :: l →
       bad = true ∨ (s.lane f.src f.pkg f.dst).duplicate f.seq = true → ∃ t g, exec (.taggedMessage n) s = .next t ∧ t.disp = .occurred ∧
         t.mem = s.mem ∧ t.net.posts = s.net.posts ∧ t.flight n 0 = some g ∧ g.copies = l ∧ g.seq = f.seq ∧ g.done = f.done ∧
         (f.pkg = 0 → let i := if bad then 16 else 32; count t f.dst i = stepped (count s f.dst i)))) ∧
  (∀ (n : Nat) (s : State), (s.link n).retrain = false → exec (.linkFrame n false) s = .next { s with disp := .occurred } ∧
    ∃ t, exec (.linkFrame n true) s = .next t ∧ t.disp = .occurred ∧ t.mem = s.mem ∧
      (t.link n).fails = s.coreCycles :: (s.link n).recent s.coreCycles ∧ (t.link n).retrain = false ∧
      ∀ w, s.pkg.rpRepl[n]? = some w → t.pkg.rpRepl[n]? = some (if w = BitVec.allOnes 16 then w else w + 1)) ∧
  (∀ (n : Nat) (s : State), (s.link n).retrain = false → 16 < ((s.link n).recent s.coreCycles).length → ∃ t, exec (.linkRetrain n) s = .next t ∧
    t.disp = .occurred ∧ t.link n = { id := (s.link n).id, fails := [], retrain := true }) ∧
  (∀ (n : Nat) (s : State), (s.link n).retrain = true → ∃ t, exec (.linkRetrainComplete n) s = .next t ∧ t.disp = .occurred ∧
    (t.link n).retrain = false ∧ (t.link n).fails = []) ∧
  (∀ (n : Nat) (x : W) (s : State), s.pkg.rpDown[n]? = some (some x) → ∃ t, exec (.linkRetrainComplete n) s = .next t ∧ t.disp = .occurred ∧
    t.pkg.rpState[n]? = some 2 ∧ t.pkg.rpDown[n]? = some none) ∧
  (∀ (p : BitVec 3) (s : State), let out (k : BitVec 4) : Bool := s.viaPort p.toNat k
    let isolated (t : State) : Prop := t.disp = .occurred ∧ t.mem = s.mem ∧ t.portState p = 3 ∧
      (∀ m ∈ t.net.posts, out m.pkg = false) ∧ (∀ f ∈ t.net.flights, out f.pkg = false) ∧
      (∀ a ∈ s.net.accs, ∀ q ∈ a.parts, s.acc a.id = some a → a.part q.n = some q → (∀ m ∈ s.net.posts, out m.pkg = true → m.acc ≠ a.id) →
        s.owedBy p.toNat a.id q.n = true → t.partAt a.id q.n (.refused (accCause (a.op.partKind q.n) 1 .bounds) none)) ∧
      (∀ m ∈ s.net.posts, out m.pkg = true → (∀ y ∈ s.net.posts, y.acc = m.acc → y = m) → ∀ a q, s.acc m.acc = some a → a.part 0 = some q →
        t.partAt m.acc 0 (.refused (BitVec.ofNat 9 (0x138 + m.port.toNat / 2)) none)) ∧
      (∀ c ∈ t.net.cmds, ∀ x ∈ c.pieces, s.owedBy p.toNat c.id (x.no + 1) = true → x.bad = some true) ∧
      ∀ w ∈ t.net.waves, s.owedAny p.toNat w.id = true → w.dead = true
    (s.portState p = 0 ∨ s.portState p = 3 → ∃ t, exec (.rpstatTrain p) s = .next t ∧ t.disp = .occurred ∧ t.mem = s.mem ∧ t.portState p = 1 ∧
      ∀ l ∈ t.net.lanes, out l.pkg = false) ∧
    (∃ t, exec (.rpstatIsolate p) s = .next t ∧ isolated t) ∧
    (∀ i, s.portState p = 1 → ∃ t, exec (.reachTrainingComplete p i) s = .next t ∧ t.disp = .occurred ∧ t.portState p = 2 ∧
      t.pkg.rpPeer[p.toNat]? = some i ∧ t.pkg.rpDown[p.toNat]? = some none) ∧
    (s.portState p = 2 → ∃ t, exec (.reachLinkDown p) s = .next t ∧ t.disp = .occurred ∧ t.portState p = 0 ∧
      t.pkg.rpDown[p.toNat]? = some (some s.timeRef)) ∧
    (∀ x, s.pkg.rpDown[p.toNat]? = some (some x) → x.toNat + 100000 ≤ s.timeRef.toNat →
      ∃ t, exec (.reachLinkDownTimeout p) s = .next t ∧ isolated t) ∧
    (s.portState p = 2 → ∃ t, exec (.reachPeerReset p) s = .next t ∧ isolated t))

/-- A host request that reaches memory writes it, or reads it and is answered with what stands there, and one that does not is answered with
Unsupported Request; doorbells ring queues and cores; QREG registers the queue of a placed context under an index of its own and 0xFFF otherwise;
device registers take what M may store to them; LTBASE and ELOGBASE take a ring (R202, R238, R277, R326, R343, R364, R372). After a package reset
every register is as at reset and nothing is in flight (R89); the slot booted is one that verifies, that of the valid marker copy with the higher
SEQ first, and slot A first without a valid copy, and its table gives the width of the firmware column, whose harts are in M; when neither verifies
every hart stays stopped (R12, R373, R376, R377). That memory keeps its contents is the model's choice (log 21). The sizes and mode of a host
request, the index of a queue and the table in flash are too (logs 49, 100, 121). It says where these complete: packageReset, hostCxlMemRequest,
queueDoorbell, coreDoorbell, qreg, deviceRegisterWrite, ltbaseWrite, elogbaseWrite. -/
def Obligations.RequestsFromOutside : Prop :=
  (∀ (a : BitVec 48) (z : BitVec 2) (x : W) (s : State), migrationHolds s.cap a.toNat = false →
    (∃ t v, exec (.hostCxlMemRequest false a z x) s = .next t ∧ t.disp = .occurred ∧ t.mem = s.mem ∧ t.pkg.hostGot = s.pkg.hostGot ++ [(a, v)] ∧
      (a.toNat < Config.deviceBase → let ok (b : BitVec 48) (n : Nat) : Prop := physCheck s.cap .load true 1 b n = .ok
        let last := a + BitVec.ofNat 48 (2 ^ z.toNat - 1)
        (ok a (2 ^ z.toNat) → ok last 1 → poisoned s a.toNat (2 ^ z.toNat) = false → v = some (BitVec.ofNat 64 (bytesValue s.mem a.toNat (2 ^ z.toNat)))) ∧
        (¬ok a (2 ^ z.toNat) ∨ ¬ok last 1 → v = none))) ∧
    (s.Canonical → a.toNat < Config.deviceBase → physCheck s.cap .store true 1 a (2 ^ z.toNat) = .ok →
      physCheck s.cap .store true 1 (a + BitVec.ofNat 48 (2 ^ z.toNat - 1)) 1 = .ok →
      ∃ t, exec (.hostCxlMemRequest true a z x) s = .next t ∧ t.disp = .occurred ∧ onlyWrote s t a.toNat (2 ^ z.toNat) x.toNat)) ∧
  (∀ (q : BitVec 12) (x : W) (s : State), (∃ r ∈ s.front.queues, r.qidx = q) → s.front.queues.length ≤ 64 →
    ∃ t, exec (.queueDoorbell q x) s = .next t ∧ t.disp = .occurred ∧ t.mem = s.mem ∧
      ∃ r ∈ t.front.queues, r.qidx = q ∧ r.rung = true ∧ r.slot ≠ none) ∧
  (∀ (c : CoreId) (x : W) (s : State), ∃ t e, exec (.coreDoorbell c x) s = .next t ∧ t.disp = .occurred ∧ t.mem = s.mem ∧
    t.net.events = s.net.events ++ [e] ∧ e.core = c ∧ e.fifo = 21 ∧ e.record = 0x50#8 ++ 0#8 ++ x.extractLsb' 0 48) ∧
  (∀ (x : W) (s : State), s.Canonical → let pa := (x.extractLsb' 0 48).toNat
    let ctx := BitVec.ofNat 16 (bytesValue s.mem (pa + 52) 2)
    let prio := bytesValue s.mem (pa + 48) 2 % 16
    (ctx ≠ 0 → s.partition ctx ≠ [] → s.front.queues.length < 4096 → ∃ t r, exec (.qreg x) s = .next t ∧ t.disp = .occurred ∧
      t.front.queues = s.front.queues ++ [r] ∧ r.pa.toNat = pa ∧ r.rung = false ∧ (∀ q ∈ s.front.queues, q.qidx ≠ r.qidx) ∧
      onlyWrote s t (pa + 48) 2 (16 * r.qidx.toNat + prio)) ∧
    (ctx = 0 ∨ s.partition ctx = [] → ∃ t, exec (.qreg x) s = .next t ∧ t.disp = .occurred ∧ t.front = s.front ∧
      onlyWrote s t (pa + 48) 2 (0xFFF0 + prio))) ∧
  (∀ (c : CoreId) (h : HartId) (a : BitVec 48) (x : W) (s : State), a.toNat % 8 = 0 → s.devReg a.toNat = some .rproute →
    ((s.hartAt c h).mode = 3 → ∃ t, exec (.deviceRegisterWrite c h a 3 x) s = .next t ∧ t.disp = .occurred ∧ t.mem = s.mem ∧
      t.pkg.rproute = x &&& ~~~0xF#64) ∧
    ((s.hartAt c h).mode = 1 → ∃ t, exec (.deviceRegisterWrite c h a 3 x) s = .next t ∧ t.disp = .occurred ∧
      t.pkg.rproute = s.pkg.rproute)) ∧
  (∀ (c : CoreId) (x : W) (s : State), x &&& csrReserved 0x248 = 0 → ringBad x = false → ∃ t, exec (.ltbaseWrite c x) s = .next t ∧
    t.disp = .occurred ∧ t.mem = s.mem ∧ let y := (t.core c).tags
    y.ltBase = x.extractLsb' 7 12 ∧ y.ltSz = x.extractLsb' 0 3 ∧ (x.getLsbD 40 = true → y.ltOvf = false) ∧
    ((s.core c).tags.ltBase ≠ x.extractLsb' 7 12 ∨ (s.core c).tags.ltSz ≠ x.extractLsb' 0 3 → y.ltHead = 0 ∧ y.ltTail = 0 ∧ y.ltPend = false)) ∧
  (∀ (d : BitVec 2) (x : W) (s : State), x &&& csrReserved 0x320 = 0 → (x.extractLsb' 8 4).toNat < 10 →
    ∃ t, exec (.elogbaseWrite d x) s = .next t ∧ t.disp = .occurred ∧ t.mem = s.mem ∧
      t.pkg.elog[d.toNat]? = some (0#16 ++ (x.extractLsb' 0 48 &&& 0xFFFFFFFFFF01#48))) ∧
  (∀ s : State, let f := s.pkg.flash
     ∃ t, exec .packageReset s = .next t ∧ t.disp = .occurred ∧ t.arrays = [] ∧ t.groups = [] ∧ t.reads = [] ∧
     t.net = State.reset.net ∧ t.books = State.reset.books ∧ t.cap = State.reset.cap ∧ t.front = State.reset.front ∧
     t.pkg = { State.reset.pkg with flash := f, boot := t.pkg.boot } ∧ t.images = [] ∧ t.mem = s.mem ∧ t.timeRef = s.timeRef ∧
     t.pkg.boot ≠ .pending ∧
     (∀ x b, t.pkg.boot = .done x b → f.verifies x = true ∧ b = (f.slot x).table ∧
       ∀ c h, t.hartAt c h = if inFirmware b.wm1 c then { Hart.reset c h with mode := 3 } else Hart.reset c h) ∧
     (t.pkg.boot = .noFirmware → f.verifies 0 = false ∧ f.verifies 1 = false ∧ ∀ c h, t.hartAt c h = { Hart.reset c h with stopped := true }) ∧
     (markerValid f.m0 = false → markerValid f.m1 = false → f.verifies 0 = true → t.pkg.boot = .done 0 f.slotA.table) ∧
     (∀ a b, (a, b) = (f.m0, f.m1) ∨ (a, b) = (f.m1, f.m0) → markerValid a = true →
       (markerValid b = false ∨ seqHigher (markerSeq a) (markerSeq b) = true) → f.verifies (markerSlot a) = true →
       t.pkg.boot = .done (markerSlot a) (f.slot (markerSlot a)).table))

/-- An uncorrectable error of a data line poisons the line; of core state, or of a late result, in a kennel it fences the kennel; outside every core
it kills every context that has work in the unit and no launch to replay; at the checker it traps with 0x182 and marks the core suspect. A corrected
one counts. A fenced kennel restarts at KENTRY in S. An event is appended to the log of its die, if that is enabled (R343, R346 to R348, R350). A
frame in quarantine is zeroed and goes free when it reads back clean, and is withdrawn otherwise. A suspect core whose partition stands still moves
to its row's spare, and is marked absent when the spare is taken. A launch that is due for a replay is queued again, its count one higher, with
every hart of its partition stopped, its cores unbound and no frame in quarantine for it (R353, R355, R356). Within the budget every context is
granted what it asks for, at full rate; the management controller may only lower the budget (R375). How errors are sorted, the log of the die named,
LRSTAT cleared at a replay, RATE 128 at a full grant, what work in a unit is, that SUSP moves with its core, and what a replay clears are the
model's readings (logs 50, 53, 64, 65, 66, 90, 91, 141). It says where these complete: uncorrectableError, correctedError, kennelRestart,
launchReplay, frameQuarantineScrub, coreRetirement, powerArbiterRecompute, coldPlateLimit. -/
def Obligations.ErrorsAreContained : Prop :=
  (∀ (d : BitVec 3) (c : CoreId) (h : HartId) (a : W) (s : State),
    (∀ key, lineKey d.toNat c a = some key → ∃ t, exec (.uncorrectableError d c h a 0) s = .next t ∧ t.disp = .occurred ∧ poisoned t key 1 = true) ∧
    (d = 1 ∨ (d = 0 ∧ ((s.hartAt c h).pend.any Pend.checkedLate) = true) → (s.core c).sys.fenced = false → (s.core c).sys.kennel.getLsbD 63 = true →
      ∃ t, exec (.uncorrectableError d c h a 1) s = .next t ∧ t.disp = .occurred ∧ (t.core c).sys.fenced = true ∧
        ∀ k, (t.hartAt c k).stopped = true) ∧
    (d ≠ 0 → d ≠ 7 → ∃ t, exec (.uncorrectableError d c h a 2) s = .next t ∧ t.disp = .occurred ∧
      ∀ x ∈ s.workIn d.toNat c a, s.replayStat x = none → t.pkg.recallBusy = true ∧ (t.pkg.victim = x ∨ x ∈ t.pkg.kills)) ∧
    (s.atChecked c h = true → s.unconfirmed c h = false → ∃ t, exec (.uncorrectableError 0 c h a 3) s = .next t ∧ t.disp = .occurred ∧
      s.tookTrap t c h 0x182 0 (s.hartAt c h).pc ∧ (t.core c).sys.chkstat.getLsbD 63 = true)) ∧
  (∀ (d k : BitVec 3) (c : CoreId) (a : W) (s : State), correctable d.toNat k.toNat = true →
    ∃ t, exec (.correctedError d k c a) s = .next t ∧ t.disp = .occurred ∧
      (d = 0 → let w := (s.core c).sys.chkstat.extractLsb' 32 16;
        (t.core c).sys.chkstat.extractLsb' 32 16 = if w = BitVec.allOnes 16 then w else w + 1) ∧
      (d = 1 → let w := (s.core c).sys.chkstat.extractLsb' 16 16;
        (t.core c).sys.chkstat.extractLsb' 16 16 = if w = BitVec.allOnes 16 then w else w + 1)) ∧
  (∀ (c : CoreId) (s : State), (s.core c).sys.fenced = true → (s.core c).sys.kennel.getLsbD 63 = true →
    s.smooth c → ∃ t, exec (.kennelRestart c) s = .next t ∧ t.disp = .occurred ∧ t.mem = s.mem ∧ (t.core c).sys.fenced = false ∧
      (t.hartAt c 0).stopped = false ∧ (t.hartAt c 0).pc = (s.core c).sys.kentry &&& ~~~3#64 ∧ (t.hartAt c 0).mode = 1 ∧
      (t.hartAt c 0).trap.trcause = (BitVec.ofNat 9 (0x183 + 8 * (s.core c).sys.fenceDet.toNat)).setWidth 64 ∧
      (t.hartAt c 0).trap.traddr = (s.core c).sys.fenceAddr ∧ (t.hartAt c 0).trap.trinfo = (s.core c).sys.fenceBy.setWidth 64) ∧
  (∀ (s : State) (x : ErrAt) (cause : BitVec 9) (r : W), s.pkg.elog[(dieOf x.core).toNat]? = some r →
    (r.getLsbD 0 = false → s.logCause x cause = s) ∧
    (r.getLsbD 0 = true → s.Canonical → let tail : BitVec 16 := r.extractLsb' 48 16
      onlyWrote s (s.logCause x cause) (4096 * (r.extractLsb' 12 36).toNat + 32 * (tail.toNat % 2 ^ ((r.extractLsb' 8 4).toNat + 7))) 32
        (errRecord s x cause).toNat ∧
      (s.logCause x cause).pkg.elog[(dieOf x.core).toNat]? = some ((tail + 1) ++ r.extractLsb' 0 48))) ∧
  (∀ (f : BitVec 36) (o : Bool) (s : State), f ∈ s.books.quarantine → s.Canonical → ∃ t, exec (.frameQuarantineScrub f o) s = .next t ∧
    t.disp = .occurred ∧ f ∉ t.books.quarantine ∧ (o = false → f ∈ t.books.withdrawn) ∧
    (o = true → t.books.withdrawn = s.books.withdrawn ∧ ∀ a, readByte t.mem a = if a / 4096 = f.toNat then 0 else readByte s.mem a)) ∧
  (∀ (c : CoreId) (s : State), let x := (s.core c).mem.ctxid
    (s.core c).sys.suspect = true → x ≠ 0 → s.heelState x = 2 → s.phaseOf x = 0 → c ∉ s.pkg.absent →
    (s.pkg.moved.any (sameRow c) = false → ∃ t, exec (.coreRetirement c) s = .next t ∧ t.disp = .occurred ∧ t.pkg.moved = s.pkg.moved ++ [c] ∧
      (t.core c).sys.worn = false ∧ (t.core c).sys.chkstat = (s.core c).sys.chkstat ∧ t.heelState x = 0 ∧
      (s.smooth c → ∀ h, (t.hartAt c h).regs = (s.hartAt c h).regs)) ∧
    (s.pkg.moved.any (sameRow c) = true → ∃ t, exec (.coreRetirement c) s = .next t ∧ t.disp = .occurred ∧
      t.pkg.absent = s.pkg.absent ++ [c] ∧ (t.pkg.victim = x ∨ x ∈ t.pkg.kills))) ∧
  (∀ (x : BitVec 16) (l : Launch) (s : State), s.front.launches.find? (fun l => l.ctx == x && l.replay.isSome) = some l →
    (s.cores.map fun k => k.1).Nodup → ∃ t, exec (.launchReplay x) s = .next t ∧ t.disp = .occurred ∧
      t.front.launches = s.front.launches.map (fun y => if y.id = l.id then { y with replay := none, rcnt := y.rcnt + 1, phase := 1, cores := [] }
        else y) ∧ (∀ c ∈ l.cores.flatten, (t.core c).sys.lrstat = 0) ∧ t.books.quarantine = s.books.quarantine ∧
      (∀ c ∈ s.partition x, ∀ h, (t.hartAt c h).stopped = true) ∧ t.heelState x = 0 ∧ (∀ y ∈ t.books.shadows, y.1 ≠ x)) ∧
  (∀ (x q : BitVec 16) (s : State), s.partition x ≠ [] →
    ((s.pkg.requests.filter fun r => r.1 != x).map fun r => r.2.toNat).sum + q.toNat ≤ s.pkg.pwrbud.toNat →
    ∃ t, exec (.powerArbiterRecompute x q) s = .next t ∧ t.disp = .occurred ∧ t.mem = s.mem ∧
      ∀ c ∈ s.partition x, (t.core c).sys.req = q ∧ (t.core c).sys.grant = q ∧ (t.core c).sys.rate = 128) ∧
  (∀ (x : BitVec 13) (s : State), x.toNat < s.pkg.pwrbud.toNat →
    exec (.coldPlateLimit x) s = .next { s with pkg := { s.pkg with pwrbud := x }, disp := .occurred })

/-- GO stops every core of a running partition and writes its stop record; once nothing of it is outstanding the partition is stopped, and REL lets
it go on (R357, R358). A partition switches out: SWITCHT reaches its cores, each stops when its PTC has reached it, and once all have drained and
the spill sweep has ended every core is saved in an image and left; a resume goes through the re-injection of spilled messages and ends with the
cores going on; every core's clock runs on (R284, R360 to R362). A recall floods every core; where the victim's cores stand it leaves stopped harts
and an empty local store; and once every core has confirmed, its launches, groups, charges and partition are gone (R354, R355, R359). What the image
holds, and how a vacated core stands, are the model's choices (logs 62, 63). It says where these complete: heelcfgGo, heelcfgRel, partitionStopped,
recallGo, recallFloodArrival, recallSweepEnd, purgeConfirmed, switchtWrite, switchTimeReached, switchDrainDone, spillSweepEnd, resumeReinjectDone.
-/
def Obligations.PartitionsStopSwitchAndAreRecalled : Prop :=
  (∀ (x : BitVec 16) (s : State),
     (s.heelState x = 0 → s.partition x ≠ [] → ∃ t, exec (.heelcfgGo x) s = .next t ∧ t.disp = .occurred ∧ t.mem = s.mem ∧ t.heelState x = 1 ∧
       ∀ c ∈ s.partition x, let y := (t.core c).sys
         y.heeled = true ∧ ((s.core c).sys.heeled = false →
           y.stopcyc = s.cycleOf c 0 ∧ y.sent = (s.core c).sys.outs ∧ y.rcvd = (s.core c).sys.ins)) ∧
     (s.heelState x = 1 → s.allStopped x = true → ∃ t, exec (.partitionStopped x) s = .next t ∧ t.disp = .occurred ∧ t.heelState x = 2 ∧
       t.cores = s.cores ∧ t.mem = s.mem) ∧
     (s.heelState x = 2 → s.phaseOf x = 0 → ∃ t, exec (.heelcfgRel x) s = .next t ∧ t.disp = .occurred ∧ t.mem = s.mem ∧ t.heelState x = 0 ∧
       ∀ c ∈ s.partition x, (t.core c).sys.heeled = false ∧ (t.core c).sys.outs = 0 ∧ (t.core c).sys.ins = 0)) ∧
  (∀ (x : BitVec 16) (v : W) (s : State), s.partition x ≠ [] → ∃ t, exec (.switchtWrite x v) s = .next t ∧ t.disp = .occurred ∧ t.mem = s.mem ∧
    ∀ c ∈ s.partition x, (t.core c).sys.switcht = v) ∧
  (∀ (c : CoreId) (s : State), let k := s.core c
    k.mem.ctxid ≠ 0 → k.sys.switcht ≠ 0 → k.sys.switcht.toNat ≤ (s.ptc c).toNat → k.sys.heeled = false → s.phaseOf k.mem.ctxid = 0 →
    s.heelState k.mem.ctxid = 0 → ∃ t, exec (.switchTimeReached c) s = .next t ∧ t.disp = .occurred ∧ t.mem = s.mem ∧
      (t.core c).sys.heeled = true ∧ t.heelState k.mem.ctxid = 1 ∧ t.phaseOf k.mem.ctxid = 1) ∧
  (∀ (x : BitVec 16) (s : State), s.phaseOf x = 1 → s.allStopped x = true → (∀ c ∈ s.partition x, s.reported c = true) →
    ∃ t, exec (.switchDrainDone x) s = .next t ∧ t.disp = .occurred ∧ t.phaseOf x = 2 ∧ t.cores = s.cores ∧ t.mem = s.mem) ∧
  (∀ (x : BitVec 16) (s : State), s.phaseOf x = 2 → ∃ t, exec (.spillSweepEnd x) s = .next t ∧ t.disp = .occurred ∧ t.heelState x = 3 ∧
    t.phaseOf x = 0 ∧ ∀ c ∈ s.partition x, (t.core c).mem.ctxid = 0 ∧ (∀ h, (t.hartAt c h).stopped = true) ∧
      ∃ i ∈ t.images, i.ctx = x ∧ i.num = c ∧ i.core.mem.tlb = [] ∧ ∀ h, (i.core.hart h).pc = (s.hartAt c h).pc) ∧
  (∀ (x : BitVec 16) (s : State), s.heelState x = 3 → s.phaseOf x = 0 → s.coresFree x = true → (∀ i ∈ s.imagesOf x, s.imageBad i = false) →
    ∃ t, exec (.heelcfgRel x) s = .next t ∧ t.disp = .occurred ∧ t.phaseOf x = 3 ∧ (∀ i ∈ t.images, i.ctx ≠ x) ∧
      ∀ c, (t.core c).tags.skew = (s.core c).tags.skew ∧ (t.core c).tags.held = (s.core c).tags.held) ∧
  (∀ (x : BitVec 16) (s : State), s.phaseOf x = 3 → (∀ p ∈ s.pkg.spills, p.1 = x → ∀ n ∈ p.2, s.inFlight n = false) →
    ∃ t, exec (.resumeReinjectDone x) s = .next t ∧ t.disp = .occurred ∧ t.mem = s.mem ∧ t.phaseOf x = 0 ∧ t.heelState x = 0 ∧
      ∀ c ∈ s.partition x, (t.core c).sys.heeled = false) ∧
  (∀ (x : BitVec 16) (s : State), s.pkg.recallBusy = false → x ≠ 0 → ∃ t, exec (.recallGo x) s = .next t ∧ t.disp = .occurred ∧ (s.logsNowhere → t.mem = s.mem) ∧
    t.pkg.recallBusy = true ∧ t.pkg.victim = x ∧ t.pkg.floodDue = s.cores.map (fun k => k.1) ∧ t.pkg.sweepDue = []) ∧
  (∀ (c : CoreId) (s : State), s.pkg.recallBusy = true → c ∈ s.pkg.floodDue → s.Canonical → ∃ t, exec (.recallFloodArrival c) s = .next t ∧
    t.disp = .occurred ∧ c ∉ t.pkg.floodDue ∧ c ∈ t.pkg.sweepDue ∧
    ((s.core c).mem.ctxid = s.pkg.victim → (∀ h, (t.hartAt c h).stopped = true) ∧
      ∀ a, a < Config.spillBase → readByte t.mem (localKey c a) = 0)) ∧
  (∀ (c : CoreId) (s : State), c ∈ s.pkg.sweepDue → ∃ t, exec (.recallSweepEnd c) s = .next t ∧ t.disp = .occurred ∧ t.mem = s.mem ∧
    c ∉ t.pkg.sweepDue) ∧
  (∀ (s : State), s.pkg.recallBusy = true → s.pkg.floodDue = [] → s.pkg.sweepDue = [] → s.pkg.kills = [] → s.pkg.victim ≠ 0 →
    ((∃ u, s.endLaunches s.pkg.victim = .ok u) ∨ ∀ l ∈ s.front.launches, l.ctx = s.pkg.victim → l.compl = 0) →
    ∃ t, exec .purgeConfirmed s = .next t ∧ t.disp = .occurred ∧ t.pkg.recallBusy = false ∧ (∀ k ∈ t.cores, k.2.mem.ctxid ≠ s.pkg.victim) ∧
      (∀ g ∈ t.groups, g.ctx ≠ s.pkg.victim) ∧ (∀ f ∈ t.books.charged, f.2.1 ≠ s.pkg.victim) ∧ ∀ l ∈ t.front.launches, l.ctx ≠ s.pkg.victim)

/-- The front end takes the descriptor at the head of a source and keeps the launch when its record passes every check; the launch that is next by
priority and turn is bound to cores, whose harts start at their stage's entry in U with g1 to g4 set; and it leaves when every hart has stopped with
its work done and its completion word is written. A record that fails is reported with its status: in its completion word, if it has one, and to the
core that enqueued it by a record of FIFO 23 (R351, R363, R365, R368 to R371). The order in which sources are taken, that LRSTAT is 0 once a launch
is complete, how the front end reads memory, and that a replayable launch runs alone among launches are the model's readings (logs 90, 102 to 104,
107, 161). It says where these complete: launchCheck, launchBind, launchComplete. -/
def Obligations.LaunchesAreCheckedBoundAndCompleted : Prop :=
  (∀ (q : Nat) (s u : State) (x : Source) (o : Offer) (c : CoreId) (cs : List CoreId) (r : Record), s.sourceOf q = some x →
    s.offer x = some o → s.partition o.ctx = c :: cs → (∀ l ∈ s.front.launches, l.holds o = false) →
    o.desc.extractLsb' 2 4 = 0 → o.desc.extractLsb' 48 16 = 0 →
    s.checkRecord (frontParty c o.ctx o.agid) (o.desc &&& 0xFFFFFFFFFFC0#64) = .found u 0 r →
    ∃ t l, exec (.launchCheck q) s = .next t ∧ t.disp = .occurred ∧ t.front.launches = u.front.launches ++ [l] ∧ l.phase = 1 ∧ l.ctx = o.ctx ∧
      l.agid = o.agid ∧ l.desc = o.desc ∧ l.queue = o.queue ∧ l.stages = r.stages.map stageOf ∧ l.edges = r.edges.map edgeOf ∧ l.rcnt = 0) ∧
  (∀ (q : Nat) (s u : State) (x : Source) (o : Offer) (c : CoreId) (cs : List CoreId) (r : Record) (st : Byte), s.sourceOf q = some x →
    s.offer x = some o → o.queue = none → s.partition o.ctx = c :: cs → (∀ l ∈ s.front.launches, l.holds o = false) →
    o.desc.extractLsb' 2 4 = 0 → o.desc.extractLsb' 48 16 = 0 → st ≠ 0 → field r.head 128 64 = 0 →
    s.checkRecord (frontParty c o.ctx o.agid) (o.desc &&& 0xFFFFFFFFFFC0#64) = .found u st r →
    ∃ t e, exec (.launchCheck q) s = .next t ∧ t.disp = .occurred ∧ t.net.events = u.net.events ++ [e] ∧ e.core = o.by_ ∧ e.fifo = 23 ∧
      e.record = 0x42#8 ++ st ++ (o.desc.extractLsb' 0 48 &&& ~~~0x3F#48)) ∧
  (∀ (q : Nat) (s u : State) (x : Source) (o : Offer) (c : CoreId) (cs : List CoreId) (r : Record) (st : Byte), s.sourceOf q = some x →
    s.offer x = some o → s.partition o.ctx = c :: cs → (∀ l ∈ s.front.launches, l.holds o = false) →
    o.desc.extractLsb' 2 4 = 0 → o.desc.extractLsb' 48 16 = 0 → st ≠ 0 →
    s.checkRecord (frontParty c o.ctx o.agid) (o.desc &&& 0xFFFFFFFFFFC0#64) = .found u st r →
    let l := launchOf u o c st r
    let v := u.bump.taken x
    ∃ t, exec (.launchCheck q) s = .next t ∧ t.disp = .occurred ∧ ∀ p w key, l.compl ≠ 0 → v.reporter l = some p →
      engineReach v p .store l.compl 8 = .here w key → w.Canonical → bytesValue t.mem key 8 = st.toNat) ∧
  (∀ (n : Nat) (s u : State) (l : Launch) (cs : List (List CoreId)) (images : List (List Byte)), s.chosen = some l → l.id = n →
    s.placement l = some cs → (∀ o ∈ s.unchecked, s.outranks o l.offer = false) →
    readImages (frontParty ((s.partition l.ctx).head?.getD 0) l.ctx l.agid) l.stages s = .ok (u, images) →
    ∃ t, exec (.launchBind n) s = .next t ∧ t.disp = .occurred ∧
      t.front.launches = u.front.launches.map (fun y => if y.id = n then { l with phase := 2, cores := cs } else y)) ∧
  (∀ (s : State) (l : Launch) (n i : Nat) (x : StageEntry) (image : List Byte) (c : CoreId) (h : HartId), h.toNat < x.harts →
    let y := (s.bindCore l n i x image c).hartAt c h
    y.stopped = false ∧ y.mode = 0 ∧ y.pc = x.entry ∧ y.ie = false ∧ y.agid = l.agid ∧ y.regs.readG 1 = l.param ∧
      y.regs.readG 2 = BitVec.ofNat 64 n ∧ y.regs.readG 3 = BitVec.ofNat 64 i ∧ y.regs.readG 4 = h.setWidth 64 ∧
      (∀ j : BitVec 5, 4 < j.toNat → y.regs.readG j = 0) ∧
      ((s.bindCore l n i x image c).core c).sys.lrstat = BitVec.ofBool l.rpl ++ 0#47 ++ l.rcnt ++ l.lim) ∧
  (∀ (n : Nat) (s : State) (l : Launch), s.front.launches.find? (fun l => l.id == n) = some l → l.phase = 2 → l.replay = none →
    s.launchDone l = true → ∃ t, exec (.launchComplete n) s = .next t ∧ t.disp = .occurred ∧
      (∀ y ∈ t.front.launches, y.id = n → y.phase = 3) ∧ (l.compl = 0 → ∀ y ∈ t.front.launches, y.id ≠ n) ∧
      (∀ c ∈ l.cores.flatten, (t.core c).sys.lrstat = 0) ∧
      let v := (s.commitShadows l.ctx).unbind l
      ∀ p w key, v.reporter l = some p → engineReach v p .store l.compl 8 = .here w key → w.Canonical → l.compl ≠ 0 →
        bytesValue t.mem key 8 = 256 * l.rcnt.toNat) ∧
  (∀ (n : Nat) (s : State) (l : Launch), s.front.launches.find? (fun l => l.id == n) = some l → l.phase = 3 → l.compl = 0 →
    ∃ t, exec (.launchComplete n) s = .next t ∧ t.disp = .occurred ∧ ∀ y ∈ t.front.launches, y.id ≠ n)

/-! The machine. -/

/-- Every well-formed instruction has a word, and its word decodes to it, with every operand at every value that its encoding admits; a word that
decodes is the word of what it decodes to, and every other word is refused (R48, R54, R55, R92). -/
def Obligations.DecodeAndEncodeAgree : Prop :=
  (∀ i : Instr, i.isWord = true → i.wellFormed = true → i.csrListed = true → ∃ w, encode i = some w ∧ decodeWord w = .instr i) ∧
  (∀ (w : Word32) (i : Instr), decodeWord w = .instr i → i.isWord = true ∧ i.wellFormed = true ∧ i.csrListed = true ∧ encode i = some w)

/-- Words written out from the encodings of the manual decode to the instructions that they stand for, and a word with a reserved field or an
undefined opcode is refused (R46, R48, R52 to R54). -/
def Obligations.SampleWordsDecode : Prop :=
  decodeWord 0x02064292 = .instr (.ldd 2 0 0 4 5 true false) ∧ decodeWord 0x00107352 = .instr (.add 8 7 6 true false) ∧
  decodeWord 0x680A41D3 = .instr (.div 5 4 3 true true) ∧ decodeWord 0xE10620D3 = .instr (.sel 4 3 2 1 true true) ∧
  decodeWord 0x83FC3157 = .instr (.srai 63 3 2 true true) ∧ decodeWord 0x123452DB = .instr (.lui 0x12345 5 true true) ∧
  decodeWord 0xFFE20187 = .instr (.bne 0xFFE 0 3 true true) ∧ decodeWord 0x0001008B = .instr (.jal 0x10 1 true true) ∧
  decodeWord 0x0000100F = .instr (.jalr 0 1 0 true true) ∧ decodeWord 0x898A41E3 = .instr (.fmas 6 5 4 3 true true) ∧
  decodeWord 0x00D0103F = .instr (.csrrw 0x00D 1 0 true true) ∧ decodeWord 0x00000041 = .instr (.ecall false) ∧
  decodeWord 0x00322043 = .instr (.hstart 3 2 true) ∧ decodeWord 0x0040404B = .instr (.loop 4 4 true true) ∧
  decodeWord 0x18007327 = .instr (.gjoin 7 6 true true) ∧
  decodeWord 0x00000003 = .reject .undefinedMajor ∧ decodeWord 0x00E00043 = .reject .undefinedFunction ∧
  decodeWord 0x6BCA41D3 = .reject .reservedField

/-- A step runs what stands at the pc. The four bytes at a local pc are its word, and the fetch block that holds them gives the word from then on;
the hart that alone may get the slot executes what the word decodes to, or both halves of a pair in one, and the core counts the cycle; an event of
the agenda is executed likewise; and a turn that no agenda gives is the home core's. After each the interfaces note which packets have been met,
answered and sent, which changes no hart and no memory. A package without firmware does nothing of this (R46, R47, R50, R94 to R96, R239, R323,
R377, log 7). The agenda and the home core are the model's own (log 7), and a fetch block (log 10), the joined outcome of a pair (log 112) and a
turn as one core cycle (log 118) its readings. -/
def Obligations.StepRunsTheDecodedInstruction : Prop :=
  (∀ (s : State) (c : CoreId) (h : HartId) (i : Instr), let x := s.hartAt c h
    let key := localKey c x.pc.toNat
    spaceOf x.pc = .loc → x.pc.toNat % 4 = 0 → guardOk (s.core c).mem.lguard x.mode .fetch x.pc.toNat 4 = true →
    (s.hasBlock c h key = false → poisoned s key 4 = false → decodeBytes (readBytes s.mem key 4) = some (i, []) →
      (readByte s.mem key).getLsbD 0 = true → atPc (s.fetched c h) c h = .lone i) ∧
    (∀ b, x.block = some b → b.line = key / 64 → let w := b.bytes.extractLsb' (8 * (key % 64)) 32
      decodeWord w = .instr i → w.getLsbD 0 = true → s.fetched c h = s ∧ atPc s c h = .lone i)) ∧
  (∀ (s : State) (c : CoreId) (h : HartId) (ic ia : Instr) (x y z : State), let t := s.fetched c h
    s.interruptDue c h = false → atPc t c h = .pair ic ia →
    (s.hartAt c h).watched .fetch (s.hartAt c h).pc.toNat 8 = none → exec ic (t.issuing c h .cHalf) = .next x →
    exec ia (t.issuingA c h ic) = .next y → exec ia (t.issuingA c h ic).clearFlags = .next z →
    issueHart s c h = .next (joinPair (info ia).writes (t.issuing c h .cHalf) x y z)) ∧
  (∀ (s t : State) (c : CoreId) (h : HartId) (i : Instr), s.soleHart c h → s.standsAtWord c h i → s.pkg.boot ≠ .noFirmware →
    exec i ((s.fetched c h).issuing c h .lone) = .next t → t.disp ≠ .held → let r := t.cycleEnds c h (s.hartAt c h).prio
    (∀ (z : State) (l : List Turn), z.agenda = .issue c :: l → s = { z with agenda := l } → step z = .next r.noteFlights) ∧
    (∀ z : State, z.agenda = [] → z.home = c → s.beat ≠ 0 → s = { z with beat := z.beat + 1 } → step z = .next (passHome r).noteFlights)) ∧
  (∀ (s t : State) (e : Instr) (l : List Turn), s.agenda = .event e :: l → s.pkg.boot ≠ .noFirmware ∨ worksUnbooted e = true →
    exec e { s with agenda := l } = .next t → step s = .next t.noteFlights) ∧
  (∀ (s : State) (c : CoreId) (l : List Turn), s.pkg.boot = .noFirmware → s.agenda = .issue c :: l →
    step s = .next { s with agenda := l, disp := .idle }.noteFlights) ∧
  (∀ s : State, let t := s.noteFlights
    t.mem = s.mem ∧ t.poison = s.poison ∧ t.net.accs = s.net.accs ∧ ∀ c h, t.hartAt c h = s.hartAt c h)

/-- Every instruction and every event of the package answers a next state in every state, and so does every step: nothing stops the machine (R56,
R71, R94). That an event answers in every state, idle where it cannot take place, is the model's reading (log 113). -/
def Obligations.NothingStopsTheMachine : Prop :=
 (∀ (i : Instr) (s : State), ∃ t, exec i s = .next t) ∧ ∀ s : State, s.Steps

/-- Every step keeps memory in its canonical form: addresses strictly rising, and no byte listed that reads as memory that nothing has written
(R202). -/
def Obligations.MemoryStaysCanonical : Prop := ∀ s t : State, s.Canonical → step s = .next t → t.Canonical

/-- After reset every hart is stopped but hart 0 of row 0, column 31 of each die, which is in M; its g, v, m and k registers read zero, but for k0,
which reads all ones, and are full; no loop is open and no prefix pends. Every CSR but PTC and FCWIDTH, which boot sets, reads the value of its map,
and so do the registers of the reach ports. Memory is canonical (R60, R89, R97, R205, R326, R375). That memory lists nothing is the model's choice
(log 3). So are the pc of 0, the k registers of 0 and the table in flash (logs 1, 2, 121). -/
def Obligations.ResetLeavesTheMachineAtBoot : Prop :=
  State.reset.Canonical ∧ (∀ a, readByte State.reset.mem a = 0) ∧
  (∀ (c : CoreId) (h : HartId), let x := State.reset.hartAt c h
    (x.stopped = false ↔ h = 0 ∧ c.extractLsb' 0 10 = 31) ∧ (x.stopped = false → x.mode = 3) ∧ x.pc = 0 ∧
    (∀ d : BitVec 5, x.regs.readG d = 0 ∧ x.regs.readV d = 0 ∧ x.regs.full (.g d) = true ∧ x.regs.full (.v d) = true) ∧
    (∀ d : BitVec 4, x.regs.readM d = 0 ∧ x.regs.full (.m d) = true) ∧
    (∀ d : BitVec 3, x.regs.readK d = if d = 0 then BitVec.allOnes 64 else 0) ∧
    (∀ n, n ∈ csrNumbers → n ≠ 0x013 → n ≠ 0x384 → { State.reset with cur := c, curHart := h }.csrRead n = csrAtReset c h n) ∧
    x.loops.depth = 0 ∧ x.pp = false ∧ x.ie = false ∧ x.waitlim = 0x00100000 ∧ x.mx.held = false ∧ x.batch.unfinished = 0) ∧
  State.reset.cap.active = 0xFFF ∧ State.reset.cap.bytes = 0x18000000000 ∧ State.reset.pkg.pwrbud = 4200 ∧
  (∀ p, State.reset.portState p = 0) ∧ State.reset.pkg.rproute = 0 ∧ State.reset.pkg.rpid = 1 ∧
  State.reset.pkg.flash.slotA.table = tableAtReset ∧ State.reset.pkg.flash.slotB.table = tableAtReset ∧ State.reset.net.accs = [] ∧ State.reset.front.launches = []
end

