-- ==== Sys2Proof/Laws/State.lean ====
section
/-!
SUPPORT. What reading a core, a hart or a register gives after an update of one, and that two updates of one hart are one update.
-/

namespace Sys2Proof.Machine

/-! Cores. -/

theorem findCore_putCore_same (c : CoreId) (x : Core) (l : List (CoreId × Core)) : findCore c (putCore c x l) = some x := by
  induction l with
  | nil => simp [putCore, findCore]
  | cons p t ih =>
    obtain ⟨k, y⟩ := p
    unfold putCore
    split
    · simp [findCore]
    · split
      · simp [findCore]
      · simp_all [findCore]

theorem findCore_putCore_other (c d : CoreId) (x : Core) (l : List (CoreId × Core)) (h : d ≠ c) :
    findCore d (putCore c x l) = findCore d l := by
  induction l with
  | nil => simp [putCore, findCore, Ne.symm h]
  | cons p t ih =>
    obtain ⟨k, y⟩ := p
    unfold putCore
    split
    · rename_i hk
      have : k = c := by simpa using hk
      subst this
      simp [findCore, Ne.symm h]
    · split
      · simp [findCore, Ne.symm h]
      · simp only [findCore, ih]

theorem putCore_putCore (c : CoreId) (x y : Core) (l : List (CoreId × Core)) : putCore c y (putCore c x l) = putCore c y l := by
  induction l with
  | nil => simp [putCore]
  | cons p t ih =>
    obtain ⟨k, z⟩ := p
    by_cases hk : k = c
    · simp [putCore, hk]
    · by_cases hl : c.toNat < k.toNat
      · simp [putCore, hk, hl]
      · simp [putCore, hk, hl, ih]

@[simp] theorem State.core_setCore_same (s : State) (c : CoreId) (x : Core) : (s.setCore c x).core c = x := by
  simp [State.core, State.setCore, findCore_putCore_same]

@[simp] theorem State.unlisted_setCore (s : State) (c d : CoreId) (x : Core) : (s.setCore c x).unlisted d = s.unlisted d := rfl

theorem State.core_setCore_other (s : State) (c d : CoreId) (x : Core) (h : d ≠ c) : (s.setCore c x).core d = s.core d := by
  unfold State.core
  rw [State.unlisted_setCore]
  simp [State.setCore, findCore_putCore_other c d x _ h]

@[simp] theorem State.setCore_setCore (s : State) (c : CoreId) (x y : Core) : (s.setCore c x).setCore c y = s.setCore c y := by
  simp [State.setCore, putCore_putCore]

@[simp] theorem State.core_onCore_same (s : State) (c : CoreId) (f : Core → Core) : (s.onCore c f).core c = f (s.core c) := by
  simp [State.onCore]

theorem State.core_onCore_other (s : State) (c d : CoreId) (f : Core → Core) (h : d ≠ c) : (s.onCore c f).core d = s.core d := by
  simp [State.onCore, State.core_setCore_other _ _ _ _ h]

@[simp] theorem State.onCore_onCore (s : State) (c : CoreId) (f g : Core → Core) :
    (s.onCore c f).onCore c g = s.onCore c fun k => g (f k) := by
  simp [State.onCore]

/-! Harts. -/

@[simp] theorem Core.hart_setHart_same (k : Core) (h : HartId) (x : Hart) : (k.setHart h x).hart h = x := by
  simp [Core.hart, Core.setHart]

theorem Core.hart_setHart_other (k : Core) (h i : HartId) (x : Hart) (hi : i ≠ h) : (k.setHart h x).hart i = k.hart i := by
  have : h.toNat ≠ i.toNat := fun e => hi (BitVec.eq_of_toNat_eq e.symm)
  simp [Core.hart, Core.setHart, this]

@[simp] theorem Core.setHart_setHart (k : Core) (h : HartId) (x y : Hart) : (k.setHart h x).setHart h y = k.setHart h y := by
  simp [Core.setHart]

@[simp] theorem State.hartAt_onHartAt_same (s : State) (c : CoreId) (h : HartId) (f : Hart → Hart) :
    (s.onHartAt c h f).hartAt c h = f (s.hartAt c h) := by
  simp [State.hartAt, State.onHartAt]

@[simp] theorem State.onHartAt_onHartAt (s : State) (c : CoreId) (h : HartId) (f g : Hart → Hart) :
    (s.onHartAt c h f).onHartAt c h g = s.onHartAt c h fun x => g (f x) := by
  simp [State.onHartAt]

theorem State.onHartAt_congr (s : State) (c : CoreId) (h : HartId) (f g : Hart → Hart) (e : f (s.hartAt c h) = g (s.hartAt c h)) :
    s.onHartAt c h f = s.onHartAt c h g := by
  unfold State.hartAt at e
  simp [State.onHartAt, State.onCore, e]

@[simp] theorem State.onHartAt_cur (s : State) (c : CoreId) (h : HartId) (f : Hart → Hart) : (s.onHartAt c h f).cur = s.cur := rfl
@[simp] theorem State.onHartAt_curHart (s : State) (c : CoreId) (h : HartId) (f : Hart → Hart) :
    (s.onHartAt c h f).curHart = s.curHart := rfl
@[simp] theorem State.onHart_cur (s : State) (f : Hart → Hart) : (s.onHart f).cur = s.cur := rfl
@[simp] theorem State.onHart_curHart (s : State) (f : Hart → Hart) : (s.onHart f).curHart = s.curHart := rfl
@[simp] theorem State.onHart_slot (s : State) (f : Hart → Hart) : (s.onHart f).slot = s.slot := rfl
@[simp] theorem State.onHart_flow (s : State) (f : Hart → Hart) : (s.onHart f).flow = s.flow := rfl
@[simp] theorem State.onHart_disp (s : State) (f : Hart → Hart) : (s.onHart f).disp = s.disp := rfl
@[simp] theorem State.onHart_mem (s : State) (f : Hart → Hart) : (s.onHart f).mem = s.mem := rfl
@[simp] theorem State.onHart_net (s : State) (f : Hart → Hart) : (s.onHart f).net = s.net := rfl
@[simp] theorem State.onHart_nextId (s : State) (f : Hart → Hart) : (s.onHart f).nextId = s.nextId := rfl
@[simp] theorem State.onHart_cPfx (s : State) (f : Hart → Hart) : (s.onHart f).cPfx = s.cPfx := rfl

@[simp] theorem State.hart_onHart (s : State) (f : Hart → Hart) : (s.onHart f).hart = f s.hart :=
  State.hartAt_onHartAt_same s s.cur s.curHart f

@[simp] theorem State.onHart_onHart (s : State) (f g : Hart → Hart) : (s.onHart f).onHart g = s.onHart fun x => g (f x) :=
  State.onHartAt_onHartAt s s.cur s.curHart f g

theorem State.onHart_congr (s : State) (f g : Hart → Hart) (e : f s.hart = g s.hart) : s.onHart f = s.onHart g :=
  State.onHartAt_congr s _ _ f g e

end Sys2Proof.Machine
end

