-- ==== Sys2Proof/Laws/Fields.lean ====
section
/-!
SUPPORT. A change of one core or one hart leaves every other field of the package as it was.
-/

namespace Sys2Proof.Machine

@[simp] theorem State.setCore_arrays (s : State) (c : CoreId) (x : Core) : (s.setCore c x).arrays = s.arrays := rfl
@[simp] theorem State.setCore_groups (s : State) (c : CoreId) (x : Core) : (s.setCore c x).groups = s.groups := rfl
@[simp] theorem State.setCore_mem (s : State) (c : CoreId) (x : Core) : (s.setCore c x).mem = s.mem := rfl
@[simp] theorem State.setCore_poison (s : State) (c : CoreId) (x : Core) : (s.setCore c x).poison = s.poison := rfl
@[simp] theorem State.setCore_reads (s : State) (c : CoreId) (x : Core) : (s.setCore c x).reads = s.reads := rfl
@[simp] theorem State.setCore_net (s : State) (c : CoreId) (x : Core) : (s.setCore c x).net = s.net := rfl
@[simp] theorem State.setCore_books (s : State) (c : CoreId) (x : Core) : (s.setCore c x).books = s.books := rfl
@[simp] theorem State.setCore_cap (s : State) (c : CoreId) (x : Core) : (s.setCore c x).cap = s.cap := rfl
@[simp] theorem State.setCore_front (s : State) (c : CoreId) (x : Core) : (s.setCore c x).front = s.front := rfl
@[simp] theorem State.setCore_pkg (s : State) (c : CoreId) (x : Core) : (s.setCore c x).pkg = s.pkg := rfl
@[simp] theorem State.setCore_images (s : State) (c : CoreId) (x : Core) : (s.setCore c x).images = s.images := rfl
@[simp] theorem State.setCore_timeRef (s : State) (c : CoreId) (x : Core) : (s.setCore c x).timeRef = s.timeRef := rfl
@[simp] theorem State.setCore_nextId (s : State) (c : CoreId) (x : Core) : (s.setCore c x).nextId = s.nextId := rfl
@[simp] theorem State.setCore_freeCount (s : State) (c : CoreId) (x : Core) : (s.setCore c x).freeCount = s.freeCount := rfl
@[simp] theorem State.setCore_agenda (s : State) (c : CoreId) (x : Core) : (s.setCore c x).agenda = s.agenda := rfl
@[simp] theorem State.setCore_home (s : State) (c : CoreId) (x : Core) : (s.setCore c x).home = s.home := rfl
@[simp] theorem State.setCore_beat (s : State) (c : CoreId) (x : Core) : (s.setCore c x).beat = s.beat := rfl
@[simp] theorem State.setCore_cur (s : State) (c : CoreId) (x : Core) : (s.setCore c x).cur = s.cur := rfl
@[simp] theorem State.setCore_curHart (s : State) (c : CoreId) (x : Core) : (s.setCore c x).curHart = s.curHart := rfl
@[simp] theorem State.setCore_slot (s : State) (c : CoreId) (x : Core) : (s.setCore c x).slot = s.slot := rfl
@[simp] theorem State.setCore_cPfx (s : State) (c : CoreId) (x : Core) : (s.setCore c x).cPfx = s.cPfx := rfl
@[simp] theorem State.setCore_flow (s : State) (c : CoreId) (x : Core) : (s.setCore c x).flow = s.flow := rfl
@[simp] theorem State.setCore_disp (s : State) (c : CoreId) (x : Core) : (s.setCore c x).disp = s.disp := rfl

@[simp] theorem State.onCore_arrays (s : State) (c : CoreId) (f : Core → Core) : (s.onCore c f).arrays = s.arrays := rfl
@[simp] theorem State.onCore_groups (s : State) (c : CoreId) (f : Core → Core) : (s.onCore c f).groups = s.groups := rfl
@[simp] theorem State.onCore_mem (s : State) (c : CoreId) (f : Core → Core) : (s.onCore c f).mem = s.mem := rfl
@[simp] theorem State.onCore_poison (s : State) (c : CoreId) (f : Core → Core) : (s.onCore c f).poison = s.poison := rfl
@[simp] theorem State.onCore_reads (s : State) (c : CoreId) (f : Core → Core) : (s.onCore c f).reads = s.reads := rfl
@[simp] theorem State.onCore_net (s : State) (c : CoreId) (f : Core → Core) : (s.onCore c f).net = s.net := rfl
@[simp] theorem State.onCore_books (s : State) (c : CoreId) (f : Core → Core) : (s.onCore c f).books = s.books := rfl
@[simp] theorem State.onCore_cap (s : State) (c : CoreId) (f : Core → Core) : (s.onCore c f).cap = s.cap := rfl
@[simp] theorem State.onCore_front (s : State) (c : CoreId) (f : Core → Core) : (s.onCore c f).front = s.front := rfl
@[simp] theorem State.onCore_pkg (s : State) (c : CoreId) (f : Core → Core) : (s.onCore c f).pkg = s.pkg := rfl
@[simp] theorem State.onCore_images (s : State) (c : CoreId) (f : Core → Core) : (s.onCore c f).images = s.images := rfl
@[simp] theorem State.onCore_timeRef (s : State) (c : CoreId) (f : Core → Core) : (s.onCore c f).timeRef = s.timeRef := rfl
@[simp] theorem State.onCore_nextId (s : State) (c : CoreId) (f : Core → Core) : (s.onCore c f).nextId = s.nextId := rfl
@[simp] theorem State.onCore_freeCount (s : State) (c : CoreId) (f : Core → Core) : (s.onCore c f).freeCount = s.freeCount := rfl
@[simp] theorem State.onCore_agenda (s : State) (c : CoreId) (f : Core → Core) : (s.onCore c f).agenda = s.agenda := rfl
@[simp] theorem State.onCore_home (s : State) (c : CoreId) (f : Core → Core) : (s.onCore c f).home = s.home := rfl
@[simp] theorem State.onCore_beat (s : State) (c : CoreId) (f : Core → Core) : (s.onCore c f).beat = s.beat := rfl
@[simp] theorem State.onCore_cur (s : State) (c : CoreId) (f : Core → Core) : (s.onCore c f).cur = s.cur := rfl
@[simp] theorem State.onCore_curHart (s : State) (c : CoreId) (f : Core → Core) : (s.onCore c f).curHart = s.curHart := rfl
@[simp] theorem State.onCore_slot (s : State) (c : CoreId) (f : Core → Core) : (s.onCore c f).slot = s.slot := rfl
@[simp] theorem State.onCore_cPfx (s : State) (c : CoreId) (f : Core → Core) : (s.onCore c f).cPfx = s.cPfx := rfl
@[simp] theorem State.onCore_flow (s : State) (c : CoreId) (f : Core → Core) : (s.onCore c f).flow = s.flow := rfl
@[simp] theorem State.onCore_disp (s : State) (c : CoreId) (f : Core → Core) : (s.onCore c f).disp = s.disp := rfl

@[simp] theorem State.onSelf_arrays (s : State) (f : Core → Core) : (s.onSelf f).arrays = s.arrays := rfl
@[simp] theorem State.onSelf_groups (s : State) (f : Core → Core) : (s.onSelf f).groups = s.groups := rfl
@[simp] theorem State.onSelf_mem (s : State) (f : Core → Core) : (s.onSelf f).mem = s.mem := rfl
@[simp] theorem State.onSelf_poison (s : State) (f : Core → Core) : (s.onSelf f).poison = s.poison := rfl
@[simp] theorem State.onSelf_reads (s : State) (f : Core → Core) : (s.onSelf f).reads = s.reads := rfl
@[simp] theorem State.onSelf_net (s : State) (f : Core → Core) : (s.onSelf f).net = s.net := rfl
@[simp] theorem State.onSelf_books (s : State) (f : Core → Core) : (s.onSelf f).books = s.books := rfl
@[simp] theorem State.onSelf_cap (s : State) (f : Core → Core) : (s.onSelf f).cap = s.cap := rfl
@[simp] theorem State.onSelf_front (s : State) (f : Core → Core) : (s.onSelf f).front = s.front := rfl
@[simp] theorem State.onSelf_pkg (s : State) (f : Core → Core) : (s.onSelf f).pkg = s.pkg := rfl
@[simp] theorem State.onSelf_images (s : State) (f : Core → Core) : (s.onSelf f).images = s.images := rfl
@[simp] theorem State.onSelf_timeRef (s : State) (f : Core → Core) : (s.onSelf f).timeRef = s.timeRef := rfl
@[simp] theorem State.onSelf_nextId (s : State) (f : Core → Core) : (s.onSelf f).nextId = s.nextId := rfl
@[simp] theorem State.onSelf_freeCount (s : State) (f : Core → Core) : (s.onSelf f).freeCount = s.freeCount := rfl
@[simp] theorem State.onSelf_agenda (s : State) (f : Core → Core) : (s.onSelf f).agenda = s.agenda := rfl
@[simp] theorem State.onSelf_home (s : State) (f : Core → Core) : (s.onSelf f).home = s.home := rfl
@[simp] theorem State.onSelf_beat (s : State) (f : Core → Core) : (s.onSelf f).beat = s.beat := rfl
@[simp] theorem State.onSelf_cur (s : State) (f : Core → Core) : (s.onSelf f).cur = s.cur := rfl
@[simp] theorem State.onSelf_curHart (s : State) (f : Core → Core) : (s.onSelf f).curHart = s.curHart := rfl
@[simp] theorem State.onSelf_slot (s : State) (f : Core → Core) : (s.onSelf f).slot = s.slot := rfl
@[simp] theorem State.onSelf_cPfx (s : State) (f : Core → Core) : (s.onSelf f).cPfx = s.cPfx := rfl
@[simp] theorem State.onSelf_flow (s : State) (f : Core → Core) : (s.onSelf f).flow = s.flow := rfl
@[simp] theorem State.onSelf_disp (s : State) (f : Core → Core) : (s.onSelf f).disp = s.disp := rfl

@[simp] theorem State.onHartAt_arrays (s : State) (c : CoreId) (h : HartId) (f : Hart → Hart) : (s.onHartAt c h f).arrays = s.arrays := rfl
@[simp] theorem State.onHartAt_groups (s : State) (c : CoreId) (h : HartId) (f : Hart → Hart) : (s.onHartAt c h f).groups = s.groups := rfl
@[simp] theorem State.onHartAt_mem (s : State) (c : CoreId) (h : HartId) (f : Hart → Hart) : (s.onHartAt c h f).mem = s.mem := rfl
@[simp] theorem State.onHartAt_poison (s : State) (c : CoreId) (h : HartId) (f : Hart → Hart) : (s.onHartAt c h f).poison = s.poison := rfl
@[simp] theorem State.onHartAt_reads (s : State) (c : CoreId) (h : HartId) (f : Hart → Hart) : (s.onHartAt c h f).reads = s.reads := rfl
@[simp] theorem State.onHartAt_net (s : State) (c : CoreId) (h : HartId) (f : Hart → Hart) : (s.onHartAt c h f).net = s.net := rfl
@[simp] theorem State.onHartAt_books (s : State) (c : CoreId) (h : HartId) (f : Hart → Hart) : (s.onHartAt c h f).books = s.books := rfl
@[simp] theorem State.onHartAt_cap (s : State) (c : CoreId) (h : HartId) (f : Hart → Hart) : (s.onHartAt c h f).cap = s.cap := rfl
@[simp] theorem State.onHartAt_front (s : State) (c : CoreId) (h : HartId) (f : Hart → Hart) : (s.onHartAt c h f).front = s.front := rfl
@[simp] theorem State.onHartAt_pkg (s : State) (c : CoreId) (h : HartId) (f : Hart → Hart) : (s.onHartAt c h f).pkg = s.pkg := rfl
@[simp] theorem State.onHartAt_images (s : State) (c : CoreId) (h : HartId) (f : Hart → Hart) : (s.onHartAt c h f).images = s.images := rfl
@[simp] theorem State.onHartAt_timeRef (s : State) (c : CoreId) (h : HartId) (f : Hart → Hart) : (s.onHartAt c h f).timeRef = s.timeRef := rfl
@[simp] theorem State.onHartAt_nextId (s : State) (c : CoreId) (h : HartId) (f : Hart → Hart) : (s.onHartAt c h f).nextId = s.nextId := rfl
@[simp] theorem State.onHartAt_freeCount (s : State) (c : CoreId) (h : HartId) (f : Hart → Hart) : (s.onHartAt c h f).freeCount = s.freeCount := rfl
@[simp] theorem State.onHartAt_agenda (s : State) (c : CoreId) (h : HartId) (f : Hart → Hart) : (s.onHartAt c h f).agenda = s.agenda := rfl
@[simp] theorem State.onHartAt_home (s : State) (c : CoreId) (h : HartId) (f : Hart → Hart) : (s.onHartAt c h f).home = s.home := rfl
@[simp] theorem State.onHartAt_beat (s : State) (c : CoreId) (h : HartId) (f : Hart → Hart) : (s.onHartAt c h f).beat = s.beat := rfl
@[simp] theorem State.onHartAt_slot (s : State) (c : CoreId) (h : HartId) (f : Hart → Hart) : (s.onHartAt c h f).slot = s.slot := rfl
@[simp] theorem State.onHartAt_cPfx (s : State) (c : CoreId) (h : HartId) (f : Hart → Hart) : (s.onHartAt c h f).cPfx = s.cPfx := rfl
@[simp] theorem State.onHartAt_flow (s : State) (c : CoreId) (h : HartId) (f : Hart → Hart) : (s.onHartAt c h f).flow = s.flow := rfl
@[simp] theorem State.onHartAt_disp (s : State) (c : CoreId) (h : HartId) (f : Hart → Hart) : (s.onHartAt c h f).disp = s.disp := rfl

@[simp] theorem State.onHart_arrays (s : State) (f : Hart → Hart) : (s.onHart f).arrays = s.arrays := rfl
@[simp] theorem State.onHart_groups (s : State) (f : Hart → Hart) : (s.onHart f).groups = s.groups := rfl
@[simp] theorem State.onHart_poison (s : State) (f : Hart → Hart) : (s.onHart f).poison = s.poison := rfl
@[simp] theorem State.onHart_reads (s : State) (f : Hart → Hart) : (s.onHart f).reads = s.reads := rfl
@[simp] theorem State.onHart_books (s : State) (f : Hart → Hart) : (s.onHart f).books = s.books := rfl
@[simp] theorem State.onHart_cap (s : State) (f : Hart → Hart) : (s.onHart f).cap = s.cap := rfl
@[simp] theorem State.onHart_front (s : State) (f : Hart → Hart) : (s.onHart f).front = s.front := rfl
@[simp] theorem State.onHart_pkg (s : State) (f : Hart → Hart) : (s.onHart f).pkg = s.pkg := rfl
@[simp] theorem State.onHart_images (s : State) (f : Hart → Hart) : (s.onHart f).images = s.images := rfl
@[simp] theorem State.onHart_timeRef (s : State) (f : Hart → Hart) : (s.onHart f).timeRef = s.timeRef := rfl
@[simp] theorem State.onHart_freeCount (s : State) (f : Hart → Hart) : (s.onHart f).freeCount = s.freeCount := rfl
@[simp] theorem State.onHart_agenda (s : State) (f : Hart → Hart) : (s.onHart f).agenda = s.agenda := rfl
@[simp] theorem State.onHart_home (s : State) (f : Hart → Hart) : (s.onHart f).home = s.home := rfl
@[simp] theorem State.onHart_beat (s : State) (f : Hart → Hart) : (s.onHart f).beat = s.beat := rfl

/-! Register writes. -/

@[simp] theorem State.setReg_mem (s : State) (r : RegRef) (x : BitVec 1024) : (s.setReg r x).mem = s.mem := rfl
@[simp] theorem State.setReg_net (s : State) (r : RegRef) (x : BitVec 1024) : (s.setReg r x).net = s.net := rfl
@[simp] theorem State.setReg_nextId (s : State) (r : RegRef) (x : BitVec 1024) : (s.setReg r x).nextId = s.nextId := rfl
@[simp] theorem State.setReg_freeCount (s : State) (r : RegRef) (x : BitVec 1024) : (s.setReg r x).freeCount = s.freeCount := rfl
@[simp] theorem State.setReg_cur (s : State) (r : RegRef) (x : BitVec 1024) : (s.setReg r x).cur = s.cur := rfl
@[simp] theorem State.setReg_curHart (s : State) (r : RegRef) (x : BitVec 1024) : (s.setReg r x).curHart = s.curHart := rfl
@[simp] theorem State.setReg_slot (s : State) (r : RegRef) (x : BitVec 1024) : (s.setReg r x).slot = s.slot := rfl
@[simp] theorem State.setReg_cPfx (s : State) (r : RegRef) (x : BitVec 1024) : (s.setReg r x).cPfx = s.cPfx := rfl
@[simp] theorem State.setReg_flow (s : State) (r : RegRef) (x : BitVec 1024) : (s.setReg r x).flow = s.flow := rfl

@[simp] theorem State.setG_mem (s : State) (i : BitVec 5) (x : W) : (s.setG i x).mem = s.mem := rfl
@[simp] theorem State.setG_net (s : State) (i : BitVec 5) (x : W) : (s.setG i x).net = s.net := rfl
@[simp] theorem State.setG_nextId (s : State) (i : BitVec 5) (x : W) : (s.setG i x).nextId = s.nextId := rfl
@[simp] theorem State.setG_freeCount (s : State) (i : BitVec 5) (x : W) : (s.setG i x).freeCount = s.freeCount := rfl
@[simp] theorem State.setG_cur (s : State) (i : BitVec 5) (x : W) : (s.setG i x).cur = s.cur := rfl
@[simp] theorem State.setG_curHart (s : State) (i : BitVec 5) (x : W) : (s.setG i x).curHart = s.curHart := rfl
@[simp] theorem State.setG_slot (s : State) (i : BitVec 5) (x : W) : (s.setG i x).slot = s.slot := rfl
@[simp] theorem State.setG_cPfx (s : State) (i : BitVec 5) (x : W) : (s.setG i x).cPfx = s.cPfx := rfl
@[simp] theorem State.setG_flow (s : State) (i : BitVec 5) (x : W) : (s.setG i x).flow = s.flow := rfl

@[simp] theorem State.setV_mem (s : State) (i : BitVec 5) (x : VReg) : (s.setV i x).mem = s.mem := rfl
@[simp] theorem State.setV_net (s : State) (i : BitVec 5) (x : VReg) : (s.setV i x).net = s.net := rfl
@[simp] theorem State.setV_nextId (s : State) (i : BitVec 5) (x : VReg) : (s.setV i x).nextId = s.nextId := rfl
@[simp] theorem State.setV_freeCount (s : State) (i : BitVec 5) (x : VReg) : (s.setV i x).freeCount = s.freeCount := rfl
@[simp] theorem State.setV_cur (s : State) (i : BitVec 5) (x : VReg) : (s.setV i x).cur = s.cur := rfl
@[simp] theorem State.setV_curHart (s : State) (i : BitVec 5) (x : VReg) : (s.setV i x).curHart = s.curHart := rfl
@[simp] theorem State.setV_slot (s : State) (i : BitVec 5) (x : VReg) : (s.setV i x).slot = s.slot := rfl
@[simp] theorem State.setV_cPfx (s : State) (i : BitVec 5) (x : VReg) : (s.setV i x).cPfx = s.cPfx := rfl
@[simp] theorem State.setV_flow (s : State) (i : BitVec 5) (x : VReg) : (s.setV i x).flow = s.flow := rfl

@[simp] theorem State.setK_mem (s : State) (i : BitVec 3) (x : W) : (s.setK i x).mem = s.mem := rfl
@[simp] theorem State.setK_net (s : State) (i : BitVec 3) (x : W) : (s.setK i x).net = s.net := rfl
@[simp] theorem State.setK_nextId (s : State) (i : BitVec 3) (x : W) : (s.setK i x).nextId = s.nextId := rfl
@[simp] theorem State.setK_freeCount (s : State) (i : BitVec 3) (x : W) : (s.setK i x).freeCount = s.freeCount := rfl
@[simp] theorem State.setK_cur (s : State) (i : BitVec 3) (x : W) : (s.setK i x).cur = s.cur := rfl
@[simp] theorem State.setK_curHart (s : State) (i : BitVec 3) (x : W) : (s.setK i x).curHart = s.curHart := rfl
@[simp] theorem State.setK_slot (s : State) (i : BitVec 3) (x : W) : (s.setK i x).slot = s.slot := rfl
@[simp] theorem State.setK_cPfx (s : State) (i : BitVec 3) (x : W) : (s.setK i x).cPfx = s.cPfx := rfl
@[simp] theorem State.setK_flow (s : State) (i : BitVec 3) (x : W) : (s.setK i x).flow = s.flow := rfl

@[simp] theorem State.markEmpty_mem (s : State) (r : RegRef) : (s.markEmpty r).mem = s.mem := rfl
@[simp] theorem State.markEmpty_net (s : State) (r : RegRef) : (s.markEmpty r).net = s.net := rfl
@[simp] theorem State.markEmpty_nextId (s : State) (r : RegRef) : (s.markEmpty r).nextId = s.nextId := rfl
@[simp] theorem State.markEmpty_freeCount (s : State) (r : RegRef) : (s.markEmpty r).freeCount = s.freeCount := rfl
@[simp] theorem State.markEmpty_cur (s : State) (r : RegRef) : (s.markEmpty r).cur = s.cur := rfl
@[simp] theorem State.markEmpty_curHart (s : State) (r : RegRef) : (s.markEmpty r).curHart = s.curHart := rfl
@[simp] theorem State.markEmpty_slot (s : State) (r : RegRef) : (s.markEmpty r).slot = s.slot := rfl
@[simp] theorem State.markEmpty_cPfx (s : State) (r : RegRef) : (s.markEmpty r).cPfx = s.cPfx := rfl
@[simp] theorem State.markEmpty_flow (s : State) (r : RegRef) : (s.markEmpty r).flow = s.flow := rfl

/-! Retirement changes the executing hart, and the model's notes `flow` and `disp`. -/

@[simp] theorem State.retire_arrays (s : State) : s.retire.arrays = s.arrays := rfl
@[simp] theorem State.retire_groups (s : State) : s.retire.groups = s.groups := rfl
@[simp] theorem State.retire_mem (s : State) : s.retire.mem = s.mem := rfl
@[simp] theorem State.retire_poison (s : State) : s.retire.poison = s.poison := rfl
@[simp] theorem State.retire_reads (s : State) : s.retire.reads = s.reads := rfl
@[simp] theorem State.retire_net (s : State) : s.retire.net = s.net := rfl
@[simp] theorem State.retire_books (s : State) : s.retire.books = s.books := rfl
@[simp] theorem State.retire_cap (s : State) : s.retire.cap = s.cap := rfl
@[simp] theorem State.retire_front (s : State) : s.retire.front = s.front := rfl
@[simp] theorem State.retire_pkg (s : State) : s.retire.pkg = s.pkg := rfl
@[simp] theorem State.retire_images (s : State) : s.retire.images = s.images := rfl
@[simp] theorem State.retire_timeRef (s : State) : s.retire.timeRef = s.timeRef := rfl
@[simp] theorem State.retire_nextId (s : State) : s.retire.nextId = s.nextId := rfl
@[simp] theorem State.retire_freeCount (s : State) : s.retire.freeCount = s.freeCount := rfl
@[simp] theorem State.retire_agenda (s : State) : s.retire.agenda = s.agenda := rfl
@[simp] theorem State.retire_home (s : State) : s.retire.home = s.home := rfl
@[simp] theorem State.retire_beat (s : State) : s.retire.beat = s.beat := rfl
@[simp] theorem State.retire_cur (s : State) : s.retire.cur = s.cur := rfl
@[simp] theorem State.retire_curHart (s : State) : s.retire.curHart = s.curHart := rfl
@[simp] theorem State.retire_slot (s : State) : s.retire.slot = s.slot := rfl
@[simp] theorem State.retire_cPfx (s : State) : s.retire.cPfx = s.cPfx := rfl

@[simp] theorem State.complete_arrays (s : State) : s.complete.arrays = s.arrays := by unfold State.complete; split <;> rfl
@[simp] theorem State.complete_groups (s : State) : s.complete.groups = s.groups := by unfold State.complete; split <;> rfl
@[simp] theorem State.complete_mem (s : State) : s.complete.mem = s.mem := by unfold State.complete; split <;> rfl
@[simp] theorem State.complete_poison (s : State) : s.complete.poison = s.poison := by unfold State.complete; split <;> rfl
@[simp] theorem State.complete_reads (s : State) : s.complete.reads = s.reads := by unfold State.complete; split <;> rfl
@[simp] theorem State.complete_net (s : State) : s.complete.net = s.net := by unfold State.complete; split <;> rfl
@[simp] theorem State.complete_books (s : State) : s.complete.books = s.books := by unfold State.complete; split <;> rfl
@[simp] theorem State.complete_cap (s : State) : s.complete.cap = s.cap := by unfold State.complete; split <;> rfl
@[simp] theorem State.complete_front (s : State) : s.complete.front = s.front := by unfold State.complete; split <;> rfl
@[simp] theorem State.complete_pkg (s : State) : s.complete.pkg = s.pkg := by unfold State.complete; split <;> rfl
@[simp] theorem State.complete_images (s : State) : s.complete.images = s.images := by unfold State.complete; split <;> rfl
@[simp] theorem State.complete_timeRef (s : State) : s.complete.timeRef = s.timeRef := by unfold State.complete; split <;> rfl
@[simp] theorem State.complete_nextId (s : State) : s.complete.nextId = s.nextId := by unfold State.complete; split <;> rfl
@[simp] theorem State.complete_freeCount (s : State) : s.complete.freeCount = s.freeCount := by unfold State.complete; split <;> rfl
@[simp] theorem State.complete_agenda (s : State) : s.complete.agenda = s.agenda := by unfold State.complete; split <;> rfl
@[simp] theorem State.complete_home (s : State) : s.complete.home = s.home := by unfold State.complete; split <;> rfl
@[simp] theorem State.complete_beat (s : State) : s.complete.beat = s.beat := by unfold State.complete; split <;> rfl
@[simp] theorem State.complete_cur (s : State) : s.complete.cur = s.cur := by unfold State.complete; split <;> rfl
@[simp] theorem State.complete_curHart (s : State) : s.complete.curHart = s.curHart := by unfold State.complete; split <;> rfl
@[simp] theorem State.complete_slot (s : State) : s.complete.slot = s.slot := by unfold State.complete; split <;> rfl
@[simp] theorem State.complete_cPfx (s : State) : s.complete.cPfx = s.cPfx := by unfold State.complete; split <;> rfl

end Sys2Proof.Machine
end

