-- ==== Sys2Proof/Laws/Issue.lean ====
section
/-!
SUPPORT. What the shared steps of every meaning do: an instruction that passes its checks has its effect, writes are logged, and a lone
word retires.
-/

namespace Sys2Proof.Machine

/-- An instruction that issues passes every check. -/
theorem check_of_issues {i : Instr} {s : State} (h : s.issues i = true) : s.check i = none := by
  simp only [State.issues, Bool.and_eq_true, bne_iff_ne, ne_eq, Bool.not_eq_true', beq_iff_eq] at h
  obtain ⟨⟨⟨⟨⟨⟨⟨h1, h2⟩, h3⟩, h4⟩, h5⟩, h6⟩, _⟩, _⟩ := h
  simp [State.check, h1, h2, h3, h4, h5, h6]

/-- An instruction that issues has its effect. -/
theorem issue_of_issues {i : Instr} {s t : State} (h : s.issues i = true) : issue i s t = .next t := by
  simp [issue, check_of_issues h]

/-- No earlier transfer is pending when an instruction issues. -/
theorem flow_of_issues {i : Instr} {s : State} (h : s.issues i = true) : s.flow = .next := by
  simp only [State.issues, Bool.and_eq_true, beq_iff_eq] at h
  exact h.1.2

/-- No result waits for an instruction that issues. -/
theorem readyFor_of_issues {i : Instr} {s : State} (h : s.issues i = true) : s.readyFor i = none := by
  simp only [State.issues, Bool.and_eq_true, Option.isNone_iff_eq_none] at h
  exact h.2

/-- A precise instruction that issues starts. -/
theorem preciseOr_of_issues {i : Instr} {s t : State} (h : s.issues i = true) : s.preciseOr i t = t := by
  simp [State.preciseOr, readyFor_of_issues h]

/-- A write of a g register, with its log record. -/
theorem setG_eq_wroteG (s : State) (d : BitVec 5) (x : W) : s.setG d x = s.wroteG d x := by
  unfold State.setG State.wroteG
  apply State.onHart_congr
  by_cases hu : s.unconfirmed s.cur s.curHart <;> simp [logReg, hu]

/-- A write of any register, with its log record. -/
theorem setReg_eq_wrote (s : State) (r : RegRef) (x : BitVec 1024) : s.setReg r x = s.wrote r x := by
  unfold State.setReg State.wrote
  apply State.onHart_congr
  by_cases hu : s.unconfirmed s.cur s.curHart <;> simp [logReg, hu]

/-- A register marked empty, with its log record. -/
theorem markEmpty_eq_emptied (s : State) (r : RegRef) : s.markEmpty r = s.emptied r := by
  unfold State.markEmpty State.emptied
  apply State.onHart_congr
  by_cases hu : s.unconfirmed s.cur s.curHart <;> simp [logReg, hu]

/-- A meaning without a transfer completes: a lone word retires to the next word. -/
theorem complete_eq_retires (s : State) (h : s.flow = .next) : s.complete = s.retires := by
  unfold State.complete State.retires
  split
  · rename_i hl
    have hs : s.slot = .lone := by simpa using hl
    simp only [State.retire, h, hs]
    rw [State.onHart_congr s _ Hart.onwards]
    simp [Hart.onwards, Hart.counted, State.lastWord, State.nx, hs]
  · rfl

/-- A lone word that ends in a taken transfer retires. -/
theorem retire_taken (s : State) (t : W) (hf : s.flow = .taken t) (hs : s.slot = .lone) :
    s.retire = { s.onHart (Hart.goesTo t) with flow := .next, disp := .retired } := by
  simp only [State.retire, hf, hs]
  rw [State.onHart_congr s _ (Hart.goesTo t)]
  simp [Hart.goesTo, Hart.counted]

/-- A taken transfer. -/
theorem complete_eq_transfers (s : State) (t : W) : { s with flow := .taken t }.complete = s.transfers t := by
  by_cases hs : s.slot = .lone
  · have h := retire_taken { s with flow := .taken t } t rfl hs
    simp only [State.complete, State.transfers, hs, beq_self_eq_true, if_true]
    rw [← hs]
    exact h
  · simp [State.complete, State.transfers, hs]

/-- A hart that is parked on no ticket freezes nothing. -/
theorem freeze_of_not_parked (s : State) (h : s.hart.tkp = false) : s.freeze s.cur s.curHart = s := by
  unfold State.hart at h
  simp [State.freeze, h]

/-- A fault of execution is taken at once when no older access is open. -/
theorem fault_eq_trapped (s : State) (cause : BitVec 9) (addr info : W) (h : s.settled = true) :
    s.fault cause addr info = s.trapped cause addr info := by
  simp only [State.settled, Bool.and_eq_true, Bool.not_eq_true'] at h
  simp [State.fault, State.raise, State.trapped, h.1, State.trapAt, freeze_of_not_parked s h.2, State.onHart]

end Sys2Proof.Machine
end

