-- ==== Sys2Proof/Laws/Control.lean ====
section
/-!
SUPPORT. What an instruction can come to before its effect (R56), and what taking a trap (R104, R250), retiring and waiting leave alone.
-/

namespace Sys2Proof.Machine

/-- An instruction has its effect, or a check of R56 turns it into a trap or holds it. -/
theorem issue_cases (i : Instr) (s t : State) :
    (s.check i = none ∧ issue i s t = .next t) ∨ ∃ r, s.check i = some r ∧ issue i s t = .next r := by
  cases h : s.check i with
  | none => exact .inl ⟨rfl, by simp [issue, h]⟩
  | some r => exact .inr ⟨r, rfl, by simp [issue, h]⟩

/-- A trap is taken, or it waits for an older access and nothing happens (R250). -/
theorem raise_cases (s : State) (stage : Nat) (cause : BitVec 9) (addr info : W) :
    (s.unconfirmed s.cur s.curHart = true ∧ s.raise stage cause addr info = s.hold) ∨
    (s.unconfirmed s.cur s.curHart = false ∧
      s.raise stage cause addr info =
        { s.trapAt s.cur s.curHart false cause addr info s.hart.pc with disp := .trapped stage }) := by
  cases h : s.unconfirmed s.cur s.curHart with
  | true => exact .inl ⟨rfl, by simp [State.raise, h]⟩
  | false => exact .inr ⟨rfl, by simp [State.raise, h]⟩

@[simp] theorem State.freeze_mem (s : State) (c : CoreId) (h : HartId) : (s.freeze c h).mem = s.mem := by
  unfold State.freeze; dsimp only; split <;> rfl

@[simp] theorem State.freeze_cur (s : State) (c : CoreId) (h : HartId) : (s.freeze c h).cur = s.cur := by
  unfold State.freeze; dsimp only; split <;> rfl

@[simp] theorem State.freeze_curHart (s : State) (c : CoreId) (h : HartId) : (s.freeze c h).curHart = s.curHart := by
  unfold State.freeze; dsimp only; split <;> rfl

@[simp] theorem State.trapAt_mem (s : State) (c : CoreId) (h : HartId) (int : Bool) (cause : BitVec 9) (addr info trpc : W) :
    (s.trapAt c h int cause addr info trpc).mem = s.mem := by
  simp [State.trapAt]

/-- A trap writes no memory. -/
@[simp] theorem State.raise_mem (s : State) (stage : Nat) (cause : BitVec 9) (addr info : W) :
    (s.raise stage cause addr info).mem = s.mem := by
  unfold State.raise
  split
  · rfl
  · simp

@[simp] theorem State.fault_mem (s : State) (cause : BitVec 9) (addr info : W) : (s.fault cause addr info).mem = s.mem :=
  State.raise_mem s 10 cause addr info

/-- A trap of one core changes no other core. -/
theorem State.core_raise_other (s : State) (stage : Nat) (cause : BitVec 9) (addr info : W) (c : CoreId) (hc : c ≠ s.cur) :
    (s.raise stage cause addr info).core c = s.core c := by
  unfold State.raise
  split
  · rfl
  · show (State.trapAt _ _ _ _ _ _ _ _).core c = _
    unfold State.trapAt State.onHartAt
    rw [State.core_onCore_other _ _ _ _ hc]
    unfold State.freeze
    dsimp only
    split
    · unfold State.onHartAt
      rw [State.core_onCore_other _ _ _ _ hc]
      rfl
    · rfl

@[simp] theorem State.hold_mem (s : State) : s.hold.mem = s.mem := rfl
@[simp] theorem State.hold_cores (s : State) : s.hold.cores = s.cores := rfl
@[simp] theorem State.hold_net (s : State) : s.hold.net = s.net := rfl
@[simp] theorem State.waitIn_mem (s : State) (i : Instr) (w : Wait) : (s.waitIn i w).mem = s.mem := rfl
@[simp] theorem State.waitIn_net (s : State) (i : Instr) (w : Wait) : (s.waitIn i w).net = s.net := rfl

/-- Retirement of one core's instruction changes no other core. -/
theorem State.core_retire_other (s : State) (c : CoreId) (hc : c ≠ s.cur) : s.retire.core c = s.core c := by
  unfold State.core
  obtain ⟨x, hx⟩ : ∃ x, s.retire.cores = putCore s.cur x s.cores := ⟨_, rfl⟩
  rw [hx, findCore_putCore_other s.cur c x s.cores hc]
  rfl

theorem State.core_complete_other (s : State) (c : CoreId) (hc : c ≠ s.cur) : s.complete.core c = s.core c := by
  unfold State.complete
  split
  · exact State.core_retire_other s c hc
  · rfl

end Sys2Proof.Machine
end

