-- ==== Sys2Proof/Laws/Fabric.lean ====
section
/-!
SUPPORT. What the interfaces of the fabric leave alone: counting and the records of packets on their way change no hart and no memory, and neither does
a copy that is turned away.
-/

namespace Sys2Proof.Machine

@[simp] theorem State.putFlight_mem (s : State) (f : Flight) : (s.putFlight f).mem = s.mem := rfl
@[simp] theorem State.putFlight_poison (s : State) (f : Flight) : (s.putFlight f).poison = s.poison := rfl
@[simp] theorem State.putFlight_cores (s : State) (f : Flight) : (s.putFlight f).cores = s.cores := rfl
@[simp] theorem State.putFlight_accs (s : State) (f : Flight) : (s.putFlight f).net.accs = s.net.accs := rfl
@[simp] theorem State.putFlight_hartAt (s : State) (f : Flight) (c : CoreId) (h : HartId) : (s.putFlight f).hartAt c h = s.hartAt c h := rfl

@[simp] theorem State.putLane_mem (s : State) (l : Lane) : (s.putLane l).mem = s.mem := rfl
@[simp] theorem State.putLane_poison (s : State) (l : Lane) : (s.putLane l).poison = s.poison := rfl
@[simp] theorem State.putLane_cores (s : State) (l : Lane) : (s.putLane l).cores = s.cores := rfl
@[simp] theorem State.putLane_accs (s : State) (l : Lane) : (s.putLane l).net.accs = s.net.accs := rfl

@[simp] theorem State.fabCount_mem (s : State) (c : CoreId) (i : Nat) : (s.fabCount c i).mem = s.mem := rfl
@[simp] theorem State.fabCount_poison (s : State) (c : CoreId) (i : Nat) : (s.fabCount c i).poison = s.poison := rfl
@[simp] theorem State.fabCount_net (s : State) (c : CoreId) (i : Nat) : (s.fabCount c i).net = s.net := rfl

@[simp] theorem State.fabCount_hartAt (s : State) (c d : CoreId) (h : HartId) (i : Nat) : (s.fabCount c i).hartAt d h = s.hartAt d h := by
  by_cases e : d = c
  · subst e
    simp [State.fabCount, State.hartAt, State.onCore, Core.hart]
  · simp [State.fabCount, State.hartAt, State.core_onCore_other _ _ _ _ e]

@[simp] theorem State.countAt_mem (s : State) (f : Flight) (i : Nat) : (s.countAt f i).mem = s.mem := by unfold State.countAt; split <;> rfl
@[simp] theorem State.countAt_poison (s : State) (f : Flight) (i : Nat) : (s.countAt f i).poison = s.poison := by unfold State.countAt; split <;> rfl
@[simp] theorem State.countAt_net (s : State) (f : Flight) (i : Nat) : (s.countAt f i).net = s.net := by unfold State.countAt; split <;> rfl
@[simp] theorem State.countAt_hartAt (s : State) (f : Flight) (i : Nat) (c : CoreId) (h : HartId) : (s.countAt f i).hartAt c h = s.hartAt c h := by
  unfold State.countAt; split <;> simp

/-- What a copy that is turned away can do: the step is idle, or it counts and the copy is gone; no hart, no memory and no access changes (R321, R323). -/
theorem State.turnedAway_cases (s t : State) (n k : Nat) (e : s.turnedAway n k = .next t) :
    t.mem = s.mem ∧ t.poison = s.poison ∧ t.net.accs = s.net.accs ∧ (∀ c h, t.hartAt c h = s.hartAt c h) ∧
      (t = { s with disp := .idle } ∨ ∃ f, s.flight n k = some f ∧ t.disp = .occurred) := by
  unfold State.turnedAway at e
  split at e
  · cases e; exact ⟨rfl, rfl, rfl, fun _ _ => rfl, .inl rfl⟩
  · rename_i f hf
    split at e
    · cases e; exact ⟨rfl, rfl, rfl, fun _ _ => rfl, .inl rfl⟩
    · split at e
      · cases e; exact ⟨rfl, rfl, rfl, fun _ _ => rfl, .inl rfl⟩
      · split at e
        · cases e
          exact ⟨by simp, by simp, by simp, fun c h => State.countAt_hartAt s f 16 c h, .inr ⟨f, hf, rfl⟩⟩
        · split at e
          · cases e
            exact ⟨by simp, by simp, by simp, fun c h => State.countAt_hartAt s f 32 c h, .inr ⟨f, hf, rfl⟩⟩
          · cases e; exact ⟨rfl, rfl, rfl, fun _ _ => rfl, .inl rfl⟩

end Sys2Proof.Machine
end

