-- ==== Sys2Proof/Laws/Header.lean ====
section
/-!
SUPPORT. The fields of a packet's header word (R318), and when a packet is malformed (R324): by its opcode's class and body, or a destination package
that is not the one it has come to.
-/

namespace Sys2Proof.Machine

theorem Header.word_opcode (h : Header) : h.word.extractLsb' 172 8 = h.opcode := by
  ext i hi
  simp only [Header.word, BitVec.getElem_extractLsb', BitVec.getLsbD_append]
  interval_cases i <;> simp

theorem Header.word_cls (h : Header) : h.word.extractLsb' 170 2 = h.cls := by
  ext i hi
  simp only [Header.word, BitVec.getElem_extractLsb', BitVec.getLsbD_append]
  interval_cases i <;> simp

theorem Header.word_flits (h : Header) : h.word.extractLsb' 180 4 = h.flits := by
  ext i hi
  simp only [Header.word, BitVec.getElem_extractLsb', BitVec.getLsbD_append]
  interval_cases i <;> simp

theorem Header.word_dpkg (h : Header) : h.word.extractLsb' 162 4 = h.dpkg := by
  ext i hi
  simp only [Header.word, BitVec.getElem_extractLsb', BitVec.getLsbD_append]
  interval_cases i <;> simp

theorem Header.word_reserved (h : Header) : h.word.extractLsb' 128 8 = 0 := by
  ext i hi
  simp only [Header.word, BitVec.getElem_extractLsb', BitVec.getLsbD_append]
  interval_cases i <;> simp

/-- A packet that the machine makes is malformed where its class, its body or its destination package is wrong (R324). -/
theorem State.badFlight_eq (s : State) (f : Flight) (x : Packet) : s.badFlight f x =
    (opcodeClass x.opcode != some ((opcodeClass x.opcode).getD 0) || !opcodeBody x.opcode (BitVec.ofNat 4 (s.bodyFlits x)).toNat || f.dpkg != s.rpidOf f.pkg) := by
  simp only [State.badFlight, headerBad, Header.word_opcode, Header.word_cls, Header.word_flits, Header.word_dpkg, Header.word_reserved]
  simp [State.header, Header.sealed, State.bodyFlits]

end Sys2Proof.Machine
end

