-- ==== Sys2Proof/Laws/Memory.lean ====
section
/-!
SUPPORT. Memory: its canonical form is kept by every operation that changes it, and what reading a byte gives after each of them.
-/

namespace Sys2Proof.Machine

/-! The canonical form. -/

theorem Memory.wfFrom_none {l : Nat} {m : Memory} (h : Memory.wfFrom (some l) m = true) : Memory.wfFrom none m = true := by
  cases m with
  | nil => rfl
  | cons p t => obtain ⟨k, x⟩ := p; simp_all [Memory.wfFrom]

theorem Memory.wfFrom_weaken {l k : Nat} {m : Memory} (hk : k ≤ l) (h : Memory.wfFrom (some l) m = true) :
    Memory.wfFrom (some k) m = true := by
  cases m with
  | nil => rfl
  | cons p t =>
    obtain ⟨j, x⟩ := p
    simp only [Memory.wfFrom, Bool.and_eq_true, decide_eq_true_eq] at h ⊢
    exact ⟨⟨by omega, h.1.2⟩, h.2⟩

/-- Below every listed address, memory reads as unwritten. -/
theorem readByte_of_le {l a : Nat} {m : Memory} (ha : a ≤ l) (h : Memory.wfFrom (some l) m = true) : readByte m a = Config.unwrittenByte := by
  cases m with
  | nil => rfl
  | cons p t =>
    obtain ⟨k, x⟩ := p
    simp only [Memory.wfFrom, Bool.and_eq_true, decide_eq_true_eq] at h
    have h1 : (k == a) = false := by simp; omega
    have h2 : a < k := by omega
    simp [readByte, h1, h2]

theorem Memory.wfFrom_cellFor {lo : Option Nat} {a : Nat} {x : Byte} {t : Memory} (ha : ∀ l, lo = some l → l < a)
    (ht : Memory.wfFrom (some a) t = true) : Memory.wfFrom lo (cellFor a x ++ t) = true := by
  by_cases hx : x = Config.unwrittenByte
  · have : cellFor a x ++ t = t := by simp [cellFor, hx]
    rw [this]
    cases lo with
    | none => exact Memory.wfFrom_none ht
    | some l => exact Memory.wfFrom_weaken (Nat.le_of_lt (ha l rfl)) ht
  · have : cellFor a x ++ t = (a, x) :: t := by simp [cellFor, hx]
    rw [this]
    cases lo with
    | none => simp [Memory.wfFrom, hx, ht]
    | some l => simp [Memory.wfFrom, hx, ht, ha l rfl]

theorem Memory.wfFrom_writeByte {lo : Option Nat} {m : Memory} {a : Nat} {x : Byte} (ha : ∀ l, lo = some l → l < a)
    (h : Memory.wfFrom lo m = true) : Memory.wfFrom lo (writeByte m a x) = true := by
  induction m generalizing lo with
  | nil => simpa [writeByte] using Memory.wfFrom_cellFor (x := x) (t := []) ha rfl
  | cons p t ih =>
    obtain ⟨k, y⟩ := p
    have hy : (y != Config.unwrittenByte) = true ∧ Memory.wfFrom (some k) t = true := by
      simp only [Memory.wfFrom, Bool.and_eq_true] at h; exact ⟨h.1.2, h.2⟩
    unfold writeByte
    split
    · rename_i hk
      exact Memory.wfFrom_cellFor ha (by simp [Memory.wfFrom, hk, hy.1, hy.2])
    · split
      · rename_i hka
        have : k = a := by simpa using hka
        subst this
        exact Memory.wfFrom_cellFor ha hy.2
      · rename_i h1 h2
        have hne : k ≠ a := by simpa using h2
        simp only [Memory.wfFrom, Bool.and_eq_true] at h ⊢
        exact ⟨h.1, ih (fun l hl => by cases hl; omega) h.2⟩

theorem Memory.wf_writeByte {m : Memory} {a : Nat} {x : Byte} (h : Memory.wf m = true) : Memory.wf (writeByte m a x) = true :=
  Memory.wfFrom_writeByte (by simp) h

theorem Memory.wf_writeBytes {m : Memory} {a : Nat} {l : List Byte} (h : Memory.wf m = true) : Memory.wf (writeBytes m a l) = true := by
  induction l generalizing m a with
  | nil => exact h
  | cons x t ih => exact ih (Memory.wf_writeByte h)

theorem Memory.wf_writeNat {m : Memory} {a n x : Nat} (h : Memory.wf m = true) : Memory.wf (writeNat m a n x) = true :=
  Memory.wf_writeBytes h

theorem Memory.wf_foldl_writeByte {α : Type} {l : List α} {f : α → Nat} {g : α → Byte} {m : Memory} (h : Memory.wf m = true) :
    Memory.wf (l.foldl (fun m x => writeByte m (f x) (g x)) m) = true := by
  induction l generalizing m with
  | nil => exact h
  | cons x t ih => exact ih (Memory.wf_writeByte h)

theorem Memory.wfFrom_filter {lo : Option Nat} {m : Memory} (p : Host.Cell → Bool) (h : Memory.wfFrom lo m = true) :
    Memory.wfFrom lo (m.filter p) = true := by
  induction m generalizing lo with
  | nil => rfl
  | cons q t ih =>
    obtain ⟨k, x⟩ := q
    have ht : Memory.wfFrom (some k) t = true := by simp only [Memory.wfFrom, Bool.and_eq_true] at h; exact h.2
    by_cases hp : p (k, x)
    · simp only [List.filter_cons_of_pos hp, Memory.wfFrom, Bool.and_eq_true] at h ⊢
      exact ⟨h.1, ih h.2⟩
    · rw [List.filter_cons_of_neg hp]
      refine ih ?_
      cases lo with
      | none => exact Memory.wfFrom_none ht
      | some l =>
        refine Memory.wfFrom_weaken ?_ ht
        simp only [Memory.wfFrom, Bool.and_eq_true, decide_eq_true_eq] at h
        omega

theorem Memory.wf_clearRange {m : Memory} {a n : Nat} (h : Memory.wf m = true) : Memory.wf (clearRange m a n) = true :=
  Memory.wfFrom_filter _ h

/-- The memory of the state after reset has the canonical form. -/
theorem reset_canonical : State.reset.Canonical := rfl

theorem storeBytes_canonical {s : State} {key : Nat} {l : List Byte} (h : s.Canonical) : (storeBytes s key l).Canonical :=
  Memory.wf_writeBytes h

theorem zeroRange_canonical {s : State} {a n : Nat} (h : s.Canonical) : (s.zeroRange a n).Canonical := by
  unfold State.Canonical State.zeroRange
  simp only
  split
  · exact Memory.wf_clearRange h
  · exact Memory.wf_foldl_writeByte (f := fun i => a + i) (g := fun _ => 0) (Memory.wf_clearRange h)

theorem copyRange_canonical {s : State} {src dst n : Nat} (h : s.Canonical) : (s.copyRange src dst n).Canonical :=
  Memory.wf_foldl_writeByte (f := fun x : Host.Cell => x.1 - src + dst) (g := fun x : Host.Cell => x.2) (Memory.wf_clearRange h)

/-! Reading a byte after a write. -/

theorem readByte_cellFor_same {lo a : Nat} {x : Byte} {t : Memory} (hlo : a ≤ lo) (ht : Memory.wfFrom (some lo) t = true) :
    readByte (cellFor a x ++ t) a = x := by
  by_cases hx : x = Config.unwrittenByte
  · simp [cellFor, hx, readByte_of_le hlo ht]
  · simp [cellFor, hx, readByte]

theorem readByte_cellFor_other {a b : Nat} {x : Byte} {t : Memory} (hb : b ≠ a) (ht : Memory.wfFrom (some a) t = true) :
    readByte (cellFor a x ++ t) b = readByte t b := by
  by_cases hx : x = Config.unwrittenByte
  · simp [cellFor, hx]
  · have h1 : (a == b) = false := by simp; omega
    by_cases h2 : b < a
    · simp [cellFor, hx, readByte, h1, h2, readByte_of_le (Nat.le_of_lt h2) ht]
    · simp [cellFor, hx, readByte, h1, h2]

/-- A byte reads as what was written there. -/
theorem readByte_writeByte_same {lo : Option Nat} {m : Memory} {a : Nat} {x : Byte} (h : Memory.wfFrom lo m = true) :
    readByte (writeByte m a x) a = x := by
  induction m generalizing lo with
  | nil => simpa [writeByte] using readByte_cellFor_same (t := []) (Nat.le_refl a) rfl
  | cons p t ih =>
    obtain ⟨k, y⟩ := p
    have hy : (y != Config.unwrittenByte) = true ∧ Memory.wfFrom (some k) t = true := by
      simp only [Memory.wfFrom, Bool.and_eq_true] at h; exact ⟨h.1.2, h.2⟩
    unfold writeByte
    split
    · rename_i hk
      exact readByte_cellFor_same (Nat.le_refl a) (by simp [Memory.wfFrom, hk, hy.1, hy.2])
    · split
      · rename_i hka
        have : k = a := by simpa using hka
        subst this
        exact readByte_cellFor_same (Nat.le_refl _) hy.2
      · rename_i h1 h2
        simp [readByte, h2, h1, ih hy.2]

/-- Every other byte reads as before. -/
theorem readByte_writeByte_other {lo : Option Nat} {m : Memory} {a b : Nat} {x : Byte} (hb : b ≠ a) (h : Memory.wfFrom lo m = true) :
    readByte (writeByte m a x) b = readByte m b := by
  induction m generalizing lo with
  | nil => simpa [writeByte] using readByte_cellFor_other (t := []) hb rfl
  | cons p t ih =>
    obtain ⟨k, y⟩ := p
    have hy : (y != Config.unwrittenByte) = true ∧ Memory.wfFrom (some k) t = true := by
      simp only [Memory.wfFrom, Bool.and_eq_true] at h; exact ⟨h.1.2, h.2⟩
    unfold writeByte
    split
    · rename_i hk
      exact readByte_cellFor_other hb (by simp [Memory.wfFrom, hk, hy.1, hy.2])
    · split
      · rename_i hka
        have : k = a := by simpa using hka
        subst this
        rw [readByte_cellFor_other hb hy.2]
        have h1 : (k == b) = false := by simp; omega
        by_cases h2 : b < k
        · simp [readByte, h1, h2, readByte_of_le (Nat.le_of_lt h2) hy.2]
        · simp [readByte, h1, h2]
      · simp only [readByte]
        split
        · rfl
        · split
          · rfl
          · exact ih hy.2

/-- Bytes below what is written read as before, and those at or above its end too. -/
theorem readByte_writeBytes_other {m : Memory} {a b : Nat} {l : List Byte} (hb : b < a ∨ a + l.length ≤ b) (h : Memory.wf m = true) :
    readByte (writeBytes m a l) b = readByte m b := by
  induction l generalizing m a with
  | nil => rfl
  | cons x t ih =>
    simp only [List.length_cons] at hb
    rw [writeBytes, ih (by omega) (Memory.wf_writeByte h), readByte_writeByte_other (by omega) h]

/-- Byte `i` of what is written reads as written. -/
theorem readByte_writeBytes_same {m : Memory} {a i : Nat} {l : List Byte} (hi : i < l.length) (h : Memory.wf m = true) :
    readByte (writeBytes m a l) (a + i) = l[i] := by
  induction l generalizing m a i with
  | nil => simp at hi
  | cons x t ih =>
    rw [writeBytes]
    cases i with
    | zero =>
      rw [readByte_writeBytes_other (by omega) (Memory.wf_writeByte h)]
      simpa using readByte_writeByte_same (lo := none) h
    | succ j =>
      have := ih (m := writeByte m a x) (a := a + 1) (i := j) (by simpa using hi) (Memory.wf_writeByte h)
      rw [show a + (j + 1) = a + 1 + j by omega, this]
      rfl

theorem readByte_filter {lo : Option Nat} {m : Memory} {b : Nat} (p : Nat → Bool) (h : Memory.wfFrom lo m = true) :
    readByte (m.filter fun x => p x.1) b = if p b then readByte m b else Config.unwrittenByte := by
  induction m generalizing lo with
  | nil => simp [readByte]
  | cons q t ih =>
    obtain ⟨k, x⟩ := q
    have ht : Memory.wfFrom (some k) t = true := by simp only [Memory.wfFrom, Bool.and_eq_true] at h; exact h.2
    have hi := ih ht
    by_cases hk : k = b
    · subst hk
      by_cases hp : p k
      · simp [hp, readByte]
      · simpa [hp, List.filter_cons] using hi
    · have h1 : (k == b) = false := by simpa using hk
      by_cases h2 : b < k
      · have hu := readByte_of_le (Nat.le_of_lt h2) ht
        have hu' := readByte_of_le (Nat.le_of_lt h2) (Memory.wfFrom_filter (fun x => p x.1) ht)
        by_cases hp : p k <;> simp [hp, readByte, h1, h2, hu']
      · by_cases hp : p k
        · simp only [hp, List.filter_cons, readByte, h1, h2, Bool.false_eq_true, if_false, if_true, hi]
        · simp only [hp, List.filter_cons, readByte, h1, h2, Bool.false_eq_true, if_false, hi]

/-- A range that is cleared reads as unwritten, and every other byte as before. -/
theorem readByte_clearRange {m : Memory} {a n b : Nat} (h : Memory.wf m = true) :
    readByte (clearRange m a n) b = if a ≤ b ∧ b < a + n then Config.unwrittenByte else readByte m b := by
  rw [clearRange, readByte_filter (fun x => !decide (a ≤ x ∧ x < a + n)) h]
  by_cases hb : a ≤ b ∧ b < a + n <;> simp [hb]

/-! Numbers in memory. -/

@[simp] theorem length_natLe (n x : Nat) : (natLe n x).length = n := by
  induction n generalizing x with
  | zero => rfl
  | succ n ih => simp [natLe, ih]

@[simp] theorem length_readBytes (m : Memory) (a n : Nat) : (readBytes m a n).length = n := by
  induction n generalizing a with
  | zero => rfl
  | succ n ih => simp [readBytes, ih]

theorem leNat_natLe (n x : Nat) : leNat (natLe n x) = x % 256 ^ n := by
  induction n generalizing x with
  | zero => simp [natLe, leNat, Nat.mod_one]
  | succ n ih =>
    show (BitVec.ofNat 8 x).toNat + 256 * leNat (natLe n (x / 256)) = _
    rw [ih, BitVec.toNat_ofNat, show 256 ^ (n + 1) = 256 * 256 ^ n from Nat.pow_succ']
    exact (Nat.mod_mul (a := 256) (b := 256 ^ n) (x := x)).symm

theorem readBytes_writeBytes_same {m : Memory} {a : Nat} {l : List Byte} (h : Memory.wf m = true) :
    readBytes (writeBytes m a l) a l.length = l := by
  induction l generalizing m a with
  | nil => rfl
  | cons x t ih =>
    have h0 : readByte (writeBytes m a (x :: t)) a = x := by
      have h1 := readByte_writeBytes_same (a := a) (i := 0) (l := x :: t) (by simp) h
      simpa only [Nat.add_zero, List.getElem_cons_zero] using h1
    simp only [List.length_cons, readBytes, h0]
    rw [writeBytes, ih (Memory.wf_writeByte h)]

/-- A number that was written reads back, modulo its width. -/
theorem readNat_writeNat_same {m : Memory} {a n x : Nat} (h : Memory.wf m = true) : readNat (writeNat m a n x) a n = x % 256 ^ n := by
  have := readBytes_writeBytes_same (m := m) (a := a) (l := natLe n x) h
  rw [length_natLe] at this
  rw [readNat, writeNat, this, leNat_natLe]

/-! Page tables of zeros. -/

/-- Bytes that are all zero make the number zero (R3). -/
theorem readNat_of_clear {m : Memory} (n : Nat) : ∀ {a : Nat}, (∀ j, j < n → readByte m (a + j) = 0) → readNat m a n = 0 := by
  induction n with
  | zero => intro a _; rfl
  | succ n ih =>
    intro a h
    have h0 : readByte m a = 0 := by simpa using h 0 (by omega)
    have ht : readNat m (a + 1) n = 0 := ih fun j hj => by
      have := h (j + 1) (by omega)
      rwa [show a + (j + 1) = a + 1 + j by omega] at this
    simp only [readNat, readBytes, leNat] at *
    simp [h0, ht]

/-- Of a list made entry by entry, the one entry that is not empty. -/
theorem flatMap_single {α : Type} (f : Nat → List α) (n k : Nat) (hk : k < n) (h : ∀ i, i < n → i ≠ k → f i = []) :
    (List.range n).flatMap f = f k := by
  induction n with
  | zero => omega
  | succ n ih =>
    rw [List.range_succ, List.flatMap_append]
    by_cases hn : n = k
    · subst hn
      have : (List.range n).flatMap f = [] := by
        rw [List.flatMap_eq_nil_iff]
        intro i hi
        have := List.mem_range.mp hi
        exact h i (by omega) (by omega)
      simp [this]
    · rw [ih (by omega) fun i hi => h i (by omega)]
      simp [h n (by omega) hn]

/-- A table of zeros maps nothing (R244). -/
theorem mappedFrom_of_clear (m : Memory) (n table base : Nat) (h : ∀ j, j < 4096 → readByte m (table + j) = 0) : mappedFrom m n table base = [] := by
  cases n with
  | zero => rfl
  | succ n =>
    rw [mappedFrom, List.flatMap_eq_nil_iff]
    intro i hi
    have := List.mem_range.mp hi
    have : readNat m (table + 8 * i) 8 = 0 := readNat_of_clear 8 fun j hj => by
      have := h (8 * i + j) (by omega)
      rwa [← Nat.add_assoc] at this
    simp [this]

/-- A table of zeros but for entry 0, which points to a table of zeros in HBM, maps that table alone (R244). -/
theorem mappedFrom_pointer (m : Memory) (n table base : Nat) (pte : W) (hp : readNat m table 8 = pte.toNat) (hv : pte.getLsbD 0 = true)
    (ht : pte.getLsbD 1 = true) (hm : malformed (n + 1) pte = false) (h : ∀ j, 8 ≤ j → j < 4096 → readByte m (table + j) = 0)
    (h' : ∀ j, j < 4096 → readByte m (4096 * (pte.extractLsb' 12 36).toNat + j) = 0) :
    mappedFrom m (n + 1) table base = [{ place := table, vpn := base, level := n, pte := pte }] := by
  rw [mappedFrom, flatMap_single _ 512 0 (by omega)]
  · have hq : BitVec.ofNat 64 (readNat m table 8) = pte := by simp [hp]
    have hb : base + 0 * 512 ^ n = base := by omega
    simp only [hq, hb, Nat.mul_zero, Nat.add_zero, hv, hm, ht, Mapped.isTable, Mapped.frame, mappedFrom_of_clear _ _ _ _ h']
    simp
  · intro i hi h0
    have : readNat m (table + 8 * i) 8 = 0 := readNat_of_clear 8 fun j hj => by
      have := h (8 * i + j) (by omega) (by omega)
      rwa [← Nat.add_assoc] at this
    simp [this]

end Sys2Proof.Machine
end

