-- ==== Sys2Proof/Laws/Regs.lean ====
section
/-!
SUPPORT. Registers: what a read gives after a write of the same or another register, and which full bits a write sets (R60).
-/

namespace Sys2Proof.Machine

@[simp] theorem Regs.readG_zero (r : Regs) : r.readG 0 = 0 := rfl

@[simp] theorem Regs.readK_zero (r : Regs) : r.readK 0 = BitVec.allOnes 64 := rfl

@[simp] theorem Regs.writeG_zero (r : Regs) (x : W) : r.writeG 0 x = r := rfl

@[simp] theorem Regs.writeK_zero (r : Regs) (x : W) : r.writeK 0 x = r := rfl

theorem Regs.readG_writeG_same (r : Regs) (i : BitVec 5) (x : W) (h : i ≠ 0) : (r.writeG i x).readG i = x := by
  have hb : (i == 0) = false := by simpa using h
  simp only [Regs.readG, Regs.writeG, hb, Bool.false_eq_true, if_false, Vector.getElem_set_self]

theorem Regs.readG_writeG_other (r : Regs) (i j : BitVec 5) (x : W) (h : j ≠ i) : (r.writeG i x).readG j = r.readG j := by
  have hn : i.toNat ≠ j.toNat := fun e => h (BitVec.eq_of_toNat_eq e.symm)
  unfold Regs.writeG
  split
  · rfl
  · simp [Regs.readG, hn]

@[simp] theorem Regs.readV_writeV_same (r : Regs) (i : BitVec 5) (x : VReg) : (r.writeV i x).readV i = x := by
  simp [Regs.readV, Regs.writeV]

theorem Regs.readV_writeV_other (r : Regs) (i j : BitVec 5) (x : VReg) (h : j ≠ i) : (r.writeV i x).readV j = r.readV j := by
  have hn : i.toNat ≠ j.toNat := fun e => h (BitVec.eq_of_toNat_eq e.symm)
  simp [Regs.readV, Regs.writeV, hn]

@[simp] theorem Regs.readM_writeM_same (r : Regs) (i : BitVec 4) (x : MReg) : (r.writeM i x).readM i = x := by
  simp [Regs.readM, Regs.writeM]

theorem Regs.readM_writeM_other (r : Regs) (i j : BitVec 4) (x : MReg) (h : j ≠ i) : (r.writeM i x).readM j = r.readM j := by
  have hn : i.toNat ≠ j.toNat := fun e => h (BitVec.eq_of_toNat_eq e.symm)
  simp [Regs.readM, Regs.writeM, hn]

theorem Regs.readK_writeK_same (r : Regs) (i : BitVec 3) (x : W) (h : i ≠ 0) : (r.writeK i x).readK i = x := by
  have hb : (i == 0) = false := by simpa using h
  simp only [Regs.readK, Regs.writeK, hb, Bool.false_eq_true, if_false, Vector.getElem_set_self]

theorem Regs.readK_writeK_other (r : Regs) (i j : BitVec 3) (x : W) (h : j ≠ i) : (r.writeK i x).readK j = r.readK j := by
  have hn : i.toNat ≠ j.toNat := fun e => h (BitVec.eq_of_toNat_eq e.symm)
  unfold Regs.writeK
  split
  · rfl
  · simp [Regs.readK, hn]

/-! A write of one file leaves the others. -/

@[simp] theorem Regs.readV_writeG (r : Regs) (i j : BitVec 5) (x : W) : (r.writeG i x).readV j = r.readV j := by
  unfold Regs.writeG; split <;> rfl

@[simp] theorem Regs.readM_writeG (r : Regs) (i : BitVec 5) (j : BitVec 4) (x : W) : (r.writeG i x).readM j = r.readM j := by
  unfold Regs.writeG; split <;> rfl

@[simp] theorem Regs.readK_writeG (r : Regs) (i : BitVec 5) (j : BitVec 3) (x : W) : (r.writeG i x).readK j = r.readK j := by
  unfold Regs.writeG; split <;> rfl

@[simp] theorem Regs.readG_writeV (r : Regs) (i j : BitVec 5) (x : VReg) : (r.writeV i x).readG j = r.readG j := rfl

@[simp] theorem Regs.readM_writeV (r : Regs) (i : BitVec 5) (j : BitVec 4) (x : VReg) : (r.writeV i x).readM j = r.readM j := rfl

@[simp] theorem Regs.readK_writeV (r : Regs) (i : BitVec 5) (j : BitVec 3) (x : VReg) : (r.writeV i x).readK j = r.readK j := rfl

@[simp] theorem Regs.readG_writeM (r : Regs) (i : BitVec 4) (j : BitVec 5) (x : MReg) : (r.writeM i x).readG j = r.readG j := rfl

@[simp] theorem Regs.readV_writeM (r : Regs) (i : BitVec 4) (j : BitVec 5) (x : MReg) : (r.writeM i x).readV j = r.readV j := rfl

@[simp] theorem Regs.readK_writeM (r : Regs) (i : BitVec 4) (j : BitVec 3) (x : MReg) : (r.writeM i x).readK j = r.readK j := rfl

@[simp] theorem Regs.readG_writeK (r : Regs) (i : BitVec 3) (j : BitVec 5) (x : W) : (r.writeK i x).readG j = r.readG j := by
  unfold Regs.writeK; split <;> rfl

@[simp] theorem Regs.readV_writeK (r : Regs) (i : BitVec 3) (j : BitVec 5) (x : W) : (r.writeK i x).readV j = r.readV j := by
  unfold Regs.writeK; split <;> rfl

@[simp] theorem Regs.readM_writeK (r : Regs) (i : BitVec 3) (j : BitVec 4) (x : W) : (r.writeK i x).readM j = r.readM j := by
  unfold Regs.writeK; split <;> rfl

/-! Full bits. -/

/-- A register that is written is full. -/
theorem Regs.full_write_same (r : Regs) (x : BitVec 1024) (d : RegRef) : (r.write x d).full d = true := by
  cases d with
  | g i =>
    by_cases hi : i = 0
    · simp [Regs.full, hi]
    · have hb : (i == 0) = false := by simpa using hi
      simp only [Regs.full, Regs.write, Regs.writeG, hb, Bool.false_eq_true, if_false]
      simp
      exact Or.inr i.isLt
  | v i =>
    simp [Regs.full, Regs.write, Regs.writeV]
    have := i.isLt
    omega
  | m i =>
    simp [Regs.full, Regs.write, Regs.writeM]
    have := i.isLt
    omega
  | k i => rfl

/-! The executing hart's registers after a write of its own. -/

theorem State.g_setG_same (s : State) (i : BitVec 5) (x : W) (h : i ≠ 0) : (s.setG i x).g i = x := by
  simp [State.g, State.setG, Regs.readG_writeG_same _ _ _ h]

theorem State.g_setG_other (s : State) (i j : BitVec 5) (x : W) (h : j ≠ i) : (s.setG i x).g j = s.g j := by
  unfold State.g State.setG
  rw [State.hart_onHart]
  by_cases hu : s.unconfirmed s.cur s.curHart <;> simp [logReg, hu, Regs.readG_writeG_other _ _ _ _ h]

@[simp] theorem State.v_setV_same (s : State) (i : BitVec 5) (x : VReg) : (s.setV i x).v i = x := by
  simp [State.v, State.setV]

theorem State.v_setV_other (s : State) (i j : BitVec 5) (x : VReg) (h : j ≠ i) : (s.setV i x).v j = s.v j := by
  unfold State.v State.setV
  rw [State.hart_onHart]
  by_cases hu : s.unconfirmed s.cur s.curHart <;> simp [logReg, hu, Regs.readV_writeV_other _ _ _ _ h]

/-! Arrays. -/

theorem findArr_putArr_same (a : BitVec 7) (x : Arr) (l : List (BitVec 7 × Arr)) : findArr a (putArr a x l) = some x := by
  induction l with
  | nil => simp [putArr, findArr]
  | cons p t ih =>
    obtain ⟨k, y⟩ := p
    unfold putArr
    split
    · simp [findArr]
    · split
      · simp [findArr]
      · simp_all [findArr]

@[simp] theorem State.array_onArray_same (s : State) (a : BitVec 7) (f : Arr → Arr) : (s.onArray a f).array a = f (s.array a) := by
  simp [State.array, State.onArray, findArr_putArr_same]

end Sys2Proof.Machine
end

