-- ==== Sys2Proof/Tests/Slice0.lean ====
section
/-!
SUPPORT. Tests: words of the manual's encodings and what they decode to, ill-formed terms, worked values of the manual, and for each statement
states and operands that meet its hypotheses.
-/

namespace Sys2Proof.Machine

set_option maxRecDepth 20000
set_option Elab.async false

/-! Witnesses: for each statement, states and operands that meet its hypotheses together. -/

/-- The reset state with g registers set. -/
def withG (l : List (BitVec 5 × W)) : State := l.foldl (fun s p => s.onHart fun h => { h with regs := h.regs.writeG p.1 p.2 }) State.reset

/-- A state whose boot hart has one pending operation. -/
def withPend (p : Pend) : State := State.reset.onHart fun h => { h with pend := [p] }

/-- A pending operation of number 4. -/
def pendOf (i : Instr) (k : PendKind) (precise : Bool) : Pend := { id := 4, op := i, kind := k, dsts := [], precise := precise, seq := 0 }

theorem witness_IntegerRegisterResults : registerResult (withG [(1, 7), (2, 9)]) (.add 2 1 3 true true) = some (3, 16) ∧
    registerResult (withG [(1, 7), (2, 64)]) (.sll 2 1 0 true true) = some (0, 7) ∧
    (withG [(1, 7), (2, 9)]).issues (.add 2 1 3 true true) = true := by decide +kernel

theorem witness_ImmediateResults : immediateResult (withG [(1, 7)]) (.addi 0xFFF 1 3 true true) = some (3, 6) ∧
    (withG [(1, 7)]).issues (.addi 0xFFF 1 3 true true) = true := by decide +kernel

theorem witness_DividesCompleteOrTrap :
    (divideOf (withG [(1, 7), (2, 2)]) (.div 2 1 3 true true) = some (3, 7, 2, false) ∧ (withG [(1, 7), (2, 2)]).issues (.div 2 1 3 true true) = true) ∧
    (divideOf (withG [(1, 7), (2, 2)]) (.remu 2 1 0 true true) = some (0, 7, 2, true) ∧ (withG [(1, 7), (2, 2)]).issues (.remu 2 1 0 true true) = true) ∧
    (divideOf (withG [(1, 7)]) (.div 2 1 3 true true) = some (3, 7, 0, false) ∧ (withG [(1, 7)]).issues (.div 2 1 3 true true) = true ∧
      (withG [(1, 7)]).settled = true) ∧
    ((withPend (pendOf (.div 2 1 3 true true) (.div 3 9) false)).hartAt 31 0).pend.find? (fun q => q.id == 4) =
      some (pendOf (.div 2 1 3 true true) (.div 3 9) false) := by decide +kernel

theorem witness_BranchesAndJumpsTransfer :
    (branchOf State.reset (.beq 0xFFF 2 1 true true) = some (0xFFF, true) ∧ State.reset.issues (.beq 0xFFF 2 1 true true) = true) ∧
    State.reset.issues (.jal 4 1 true true) = true ∧ State.reset.issues (.jalr 0 2 1 true true) = true ∧
    (BitVec.ofInt 64 ((State.reset.g 2).toInt + (0#12).toInt)).toNat % 4 = 0 ∧
    (BitVec.ofInt 64 ((State.reset.g 2).toInt + (2#12).toInt)).toNat % 4 ≠ 0 ∧ State.reset.settled = true := by decide +kernel

/-- The boot hart in a loop from 4 to 8 that has two rounds left. -/
def inLoop : State := State.reset.onHart fun h =>
  { h with loops := { h.loops with lps := h.loops.lps.set 0 4, lpe := h.loops.lpe.set 0 8, lpc := h.loops.lpc.set 0 2, depth := 1 } }

theorem witness_LoopsRunTheirLevels :
    (loopOf State.reset (.loopi 3 2 true true) = some (3, 8) ∧ State.reset.issues (.loopi 3 2 true true) = true) ∧
    (loopOf State.reset (.loop 2 1 true true) = some (0, 8) ∧ State.reset.issues (.loop 2 1 true true) = true ∧ State.reset.slot = .lone) ∧
    (loopOf (State.reset.issuing 31 0 .cHalf) (.loop 2 1 true true) = some (0, 8) ∧
      (State.reset.issuing 31 0 .cHalf).issues (.loop 2 1 true true) = true ∧ (State.reset.issuing 31 0 .cHalf).slot ≠ .lone) ∧
    inLoop.issues (.lbrk true true) = true ∧ inLoop.issues (.lpop true true) = true ∧
    (inLoop.hart.loops.depth.toNat = 0 + 1 ∧ inLoop.hart.loops.topEnd = some 8) ∧ inLoop.hart.loops.topEnd ≠ some 4 ∧
    (∃ i, inLoop.hart.loops.depth.toNat = i + 1 ∧ (inLoop.hart.loops.lps[i]?.getD 0).toNat ≤ 6 ∧ 6 ≤ (inLoop.hart.loops.lpe[i]?.getD 0).toNat) :=
  ⟨by decide +kernel, by decide +kernel, by decide +kernel, by decide +kernel, by decide +kernel, by decide +kernel, by decide +kernel, 0, by decide +kernel⟩

theorem witness_PrefixStaysPending : State.reset.issues (.pfx false false 0 0 0 0 0 0 true true) = true ∧ State.reset.slot = .lone ∧
    (State.reset.issuing 31 0 .cHalf).issues (.pfx false false 0 0 0 0 0 0 true true) = true := by decide +kernel

/-- g1 holds FP32 one, and every trap of FPSTAT is enabled. -/
def trapping : State := (withG [(1, 0x3F800000)]).onHart fun h => { h with arith := { h.arith with fpstat := 0x1F00 } }

theorem witness_ScalarFloatResults :
    (floatResult (withG [(1, 0x3F800000)]) (.fadd 0 0 1 1 3 true true) = some (3, 0x40000000, 0) ∧
      (withG [(1, 0x3F800000)]).issues (.fadd 0 0 1 1 3 true true) = true) ∧
    (floatResult trapping (.fmul 1 0 1 1 3 true true) = some (3, 0, 3) ∧ trapping.issues (.fmul 1 0 1 1 3 true true) = true ∧
      trapping.settled = true ∧ trapping.hart.arith.fpstat.extractLsb' 8 5 &&& 3 ≠ 0) ∧
    (signResult trapping (.fsgnjn 0 1 1 3 true true) = some (3, 0xBF800000) ∧ trapping.issues (.fsgnjn 0 1 1 3 true true) = true) := by decide +kernel

theorem witness_FloatDividesArrive :
    (longFloat (withG [(1, 0x3F800000)]) (.fdiv 0 0 1 1 3 true true) = some (3, 0x3F800000, 0) ∧
      (withG [(1, 0x3F800000)]).issues (.fdiv 0 0 1 1 3 true true) = true ∧ (withG []).hart.arith.fpstat.extractLsb' 8 5 = 0) ∧
    (longFloat trapping (.fsqrt 0 0 1 3 true true) = some (3, 0x3F800000, 0) ∧ trapping.issues (.fsqrt 0 0 1 3 true true) = true ∧
      trapping.hart.arith.fpstat.extractLsb' 8 5 ≠ 0) ∧
    (∀ b, ((withPend (pendOf (.fsqrt 0 0 1 3 true true) (.fdiv 3 9 16) b)).hartAt 31 0).pend.find? (fun q => q.id == 4) =
      some (pendOf (.fsqrt 0 0 1 3 true true) (.fdiv 3 9 16) b)) ∧
    ((withPend (pendOf (.fsqrt 0 0 1 3 true true) (.fdiv 3 9 16) true)).unconfirmed 31 0 = false ∧
      trapping.hart.arith.fpstat.extractLsb' 8 5 &&& 16 ≠ 0 ∧ trapping.hart.tkp = false) := by decide +kernel

theorem witness_LocalLoadsRead :
    (loadOf State.reset (.ldd 1 0 0 2 3 true true) = some (.g 3, loadAsk State.reset 1 0 2 3 8 true) ∧
      State.reset.issues (.ldd 1 0 0 2 3 true true) = true ∧ State.reset.isNew = true ∧
      State.reset.allows (loadAsk State.reset 1 0 2 3 8 true) = true ∧ (loadAsk State.reset 1 0 2 3 8 true).isLocal = true) ∧
    (∀ f, ((withPend (pendOf (.ldd 1 0 0 2 3 true true) (.localLoad (.g 3) 9 f) false)).hartAt 31 0).pend.find? (fun q => q.id == 4) =
      some (pendOf (.ldd 1 0 0 2 3 true true) (.localLoad (.g 3) 9 f) false)) :=
  ⟨by decide +kernel, fun _ => rfl⟩

/-- g1 holds a local address with a signalling NaN in a format that a load converts from, or zeros, and every trap is enabled. -/
def converting (bad : Bool) : State := { (State.reset.onHart fun h =>
    { h with pp := true, fields := pfxFields false false 0 0 0 0 1 2, arith := { h.arith with fpstat := 0x1F00 } }) with
  mem := if bad then [(localKey 31 0x40, 1), (localKey 31 0x41, 0x7C)] else [] }

theorem witness_VectorLoadConversionsTrap : ∀ b : Bool, let s := converting b
    (loadOf s (.vld 1 2 3 true true)).any (fun x => s.allows x.2 && x.2.isLocal && x.2.els.length == 1) = true ∧
    s.issues (.vld 1 2 3 true true) = true ∧ s.isNew = true ∧ s.settled = true ∧ s.hart.trapsEnabled = true ∧
    (s.hart.arith.fpstat.extractLsb' 8 5 &&& (convertLoad s.self.cblo s.self.cbhi s.loadForm.memf s.loadForm.lane false
      (bytesValue s.mem (localKey 31 0x40) s.loadForm.blockBytes)).2 != 0) = b := by decide +kernel

theorem witness_LocalStoresWriteTheirBytes :
    (storeOf (withG [(3, 7)]) (.std 1 0 0 2 3 true true) = some (storeAsk (withG [(3, 7)]) 1 0 2 3 8, 0) ∧ Memory.wf (withG [(3, 7)]).mem = true ∧
      (withG [(3, 7)]).issues (.std 1 0 0 2 3 true true) = true ∧ (withG [(3, 7)]).isNew = true ∧
      (withG [(3, 7)]).allows (storeAsk (withG [(3, 7)]) 1 0 2 3 8) = true ∧ (storeAsk (withG [(3, 7)]) 1 0 2 3 8).isLocal = true) := by decide +kernel

/-- Every lane of v3 holds the largest FP32 number, a prefix that narrows a store to FP16 pends, and every trap is enabled. -/
def narrowing : State := State.reset.onHart fun h =>
  { h with regs := h.regs.writeV 3 (BitVec.ofNat 512 ((List.range 16).foldl (fun x _ => x * 2 ^ 32 + 0x7F7FFFFF) 0)),
           pp := true, fields := pfxFields false false 0 0 0 0 2 1, arith := { h.arith with fpstat := 0x1F00 } }

theorem witness_VectorStoreConversionsTrap : (storeOf narrowing (.vst 1 2 3 true true)).any (fun x => x.2 == 5 && narrowing.allows x.1) = true ∧
    narrowing.issues (.vst 1 2 3 true true) = true ∧ narrowing.settled = true := by decide +kernel

/-- g1 and g2 hold two local addresses. -/
def twoPlaces : State := withG [(1, 0x100), (2, 0x200), (3, 5)]

theorem witness_LocalFlagStoresAndAtomics :
    (flagStoreOf twoPlaces (.stfd false 2 1 3 true true) = some (flagStoreAsk twoPlaces 1 2 8 5) ∧ Memory.wf twoPlaces.mem = true ∧
      twoPlaces.issues (.stfd false 2 1 3 true true) = true ∧ twoPlaces.isNew = true ∧
      twoPlaces.allows (flagStoreAsk twoPlaces 1 2 8 5) = true ∧ (flagStoreAsk twoPlaces 1 2 8 5).isLocal = true) ∧
    ((atomicOf twoPlaces (.aadd 0 0 true 3 1 4 true true)).any (fun x => x.1 == atomicAsk twoPlaces 0 0 8 3 1 4) = true ∧
      twoPlaces.issues (.aadd 0 0 true 3 1 4 true true) = true ∧ twoPlaces.allows (atomicAsk twoPlaces 0 0 8 3 1 4) = true ∧
      (atomicAsk twoPlaces 0 0 8 3 1 4).isLocal = true) := by decide +kernel

/-- g1 and g2 hold an address in the store of core 5 of this package. -/
def peerPlace : State := withG [(1, 0xFE00050000000100), (2, 0xFE00050000000103), (3, 5)]

theorem witness_OtherAccessesSetOut :
    (memoryOf peerPlace (.ldd 0 0 0 1 4 true true)).any (fun q => peerPlace.allows q && q.isRemote) = true ∧
    (memoryOf peerPlace (.aswap 0 0 true 3 1 4 true true)).any (fun q => peerPlace.allows q && q.isRemote) = true ∧
    peerPlace.issues (.ldd 0 0 0 1 4 true true) = true ∧ peerPlace.issues (.aswap 0 0 true 3 1 4 true true) = true ∧
    peerPlace.isNew = true ∧ peerPlace.entryFree = true := by decide +kernel

/-- v3 holds the offsets 0 and, in every other lane, what takes a local address beyond the local space into the global one. -/
def spread : State := (withG [(1, 0x7F000)]).onHart fun h => { h with regs := h.regs.writeV 3 (0x100000#512 <<< 32) }

theorem witness_SomeElementsAreLocal :
    (memoryOf spread (.vldx 3 1 4 true true)).any (fun q => spread.allows q && !q.isLocal && !q.isRemote && spread.convertsNow q) = true ∧
    spread.issues (.vldx 3 1 4 true true) = true ∧ spread.isNew = true ∧ spread.entryFree = true := by decide +kernel

theorem witness_OrderedAccessesOutsideTheGlobalSpace :
    (orderedOf twoPlaces (.tldd 0 1 3 true true)).any (fun q => q.els.any fun e => spaceOf e.va == .loc && e.va.toNat % e.size == 0) = true ∧
    (orderedOf peerPlace (.tldd 0 1 3 true true)).any (fun q => q.els.any fun e => spaceOf e.va == .peer && e.va.toNat % e.size == 0) = true ∧
    twoPlaces.issues (.tldd 0 1 3 true true) = true ∧ peerPlace.issues (.tldd 0 1 3 true true) = true := by decide +kernel

theorem witness_BadAccessesTrap :
    (memoryOf peerPlace (.ldd 0 0 0 2 4 true true)).any (fun q => q.els.any fun e => e.va.toNat % e.size != 0) = true ∧
    peerPlace.issues (.ldd 0 0 0 2 4 true true) = true ∧ peerPlace.settled = true ∧
    orderedStoreAt twoPlaces (.tstd 0 1 3 true true) = some (0x100, 8) ∧ twoPlaces.issues (.tstd 0 1 3 true true) = true ∧
    twoPlaces.settled = true ∧ twoPlaces.hart.rx = false := by decide +kernel

theorem witness_UnitOperationsIssue :
    ((unitFormOf (.vadd 0 0 1 2 3 true true)).isSome = true ∧ (withG []).issues (.vadd 0 0 1 2 3 true true) = true ∧
      (withG []).hart.arith.fpstat.extractLsb' 8 5 = 0) ∧
    ((unitFormOf (.madd 0 1 2 3 true true)).isSome = true ∧ trapping.issues (.madd 0 1 2 3 true true) = true ∧
      trapping.hart.arith.fpstat.extractLsb' 8 5 ≠ 0) := by decide +kernel

/-- The operands of an operation in the reset state. -/
def operands (i : Instr) : OpCtx := State.reset.opCtx i 1 2 3 0 0

theorem witness_UnitsAcceptInIssueOrder : ∀ m, ∃ p o,
    (withPend (pendOf (.vadd 3 0 2 1 3 true true) (if m then .momIssued (operands (.madd 0 2 1 3 true true))
      else .vecIssued (operands (.vadd 3 0 2 1 3 true true))) false)).firstWaiting 31 0 m = some (p, o) := by
  intro m; cases m <;> exact ⟨_, _, rfl⟩

/-- A result that writes v3, or m3 with bad lanes. -/
def resultOf (flags : BitVec 5) (bad : BitVec 16) : OpResult := ⟨[⟨.v 3, 9⟩], flags, bad, false, false⟩

/-- An accepted operation of the moment datapath, for which its hart waits. -/
def doneOp (flags : BitVec 5) (bad : BitVec 16) : State :=
  (withPend (pendOf (.madd 0 2 1 3 true true) (.momAccepted (resultOf flags bad)) true)).onHart fun h =>
    { h with arith := { h.arith with fpstat := 0x1F00, momode := 4 }, wait := .precise, waitAt := some { slot := .lone, op := .madd 0 2 1 3 true true } }

theorem witness_UnitResultsLand :
    ((withPend (pendOf (.vadd 3 0 2 1 3 true true) (.vecAccepted (resultOf 0 0)) false)).nextDone 31 0 false).any (fun x => !x.1.precise) = true ∧
    ((doneOp 4 0).nextDone 31 0 true).any (fun x => x.1.precise && 0x1F &&& x.2.flags != 0) = true ∧
    ((doneOp 0 6).nextDone 31 0 true).any (fun x => x.1.precise && x.2.flags == 0 && x.2.bad != 0) = true ∧
    ((doneOp 0 0).nextDone 31 0 true).any (fun x => x.1.precise && x.2.flags == 0 && x.2.bad == 0) = true ∧
    (∀ f b, (doneOp f b).unconfirmed 31 0 = false ∧ ((doneOp f b).hartAt 31 0).tkp = false ∧ ((doneOp f b).hartAt 31 0).arith.momode = 4) :=
  ⟨by decide +kernel, by decide +kernel, by decide +kernel, by decide +kernel, fun _ _ => ⟨rfl, rfl, rfl⟩⟩

theorem witness_IntegerLanesByMask : (intLane (operands (.vadd 3 0 2 1 3 true true)).op).isSome = true ∧
    (operands (.vadd 3 0 2 1 3 true true)).pfx = 0 := by decide +kernel

theorem witness_MomentLanesByMask : (operands (.madd 0 2 1 3 true true)).momode.extractLsb' 0 2 = 0 ∧
    (momentLane (operands (.madd 0 2 1 3 true true)) 0 (operands (.madd 0 2 1 3 true true)).op).isSome = true := by decide +kernel

/-- What a rewind to the instruction at 0x40 restores. -/
def mark0 : Resume := { pc := 0x40, loops := Loops.reset, pp := false, fields := 0, instret := 7, arrival := .fall, fpstat := 2, moflags := 1 }

/-- Access 6 of the boot hart, which goes to 0x1000. -/
def accessOf (op : AccOp) (ps : List Part) : Access :=
  { id := 6, core := 31, hart := 0, seq := 0, mark := mark0, ctx := 0, agid := 0, mode := 3, op := op, vec := false, plain := true, acq := false,
    orphan := false, parts := ps, frozen := 0, since := 0, mute := false }

/-- Its one part, of 8 bytes. -/
def partOf (st : Stage) : Part := { n := 0, va := 0x1000, size := 8, data := 0x55, stage := st }

/-- The boot hart has issued one access and stands at 0x44. -/
def withAcc (a : Access) : State :=
  { (State.reset.onHart fun h => { h with nseq := 1, pc := 0x44 }) with net := { State.reset.net with accs := [a] } }

/-- On the way to byte 0x100 of HBM. -/
def sentPart : Part := partOf (.sent (.phys 0x100 0))

theorem witness_RequestsActOnMemory : ∀ op ∈ [AccOp.load 3 true, .vload 3 0 0 false, .store, .vstore, .atomic 0 (.g 3) 5 0],
    let s := withAcc (accessOf op [sentPart])
    Memory.wf s.mem = true ∧ s.acc 6 = some (accessOf op [sentPart]) ∧ (accessOf op [sentPart]).part 0 = some sentPart ∧
      (accessOf op [sentPart]).op.isMessage = false ∧ s.heldBack 6 0 = false ∧ s.before (accessOf op [sentPart]) sentPart = [] ∧
      migrationHolds s.cap 0x100 = false ∧ poisoned s 0x100 8 = false := by decide +kernel

/-- An STF whose data part is performed and whose flag part is on its way. -/
def flagging : Access := accessOf .stf [partOf (.answered 0), { sentPart with n := 1 }]

theorem witness_stfFlagIncrement : (withAcc flagging).acc 6 = some flagging ∧ flagging.part 1 = some { sentPart with n := 1 } ∧
    (withAcc flagging).heldBack 6 1 = false ∧
    (withAcc flagging).before flagging { sentPart with n := 1 } = [] ∧
    (flagging.part 0).any (fun q => q.stage.performed) = true := by decide +kernel

/-- The boot hart waits in an atomic. -/
def waitingAtomic : State :=
  (withAcc (accessOf (.atomic 0 (.g 3) 5 0) [partOf (.answered 9)])).onHart fun h =>
    { h with wait := .access 6, waitAt := some { slot := .lone, op := .aadd 0 0 true 2 1 3 true true } }

theorem witness_AnswersReachTheirHart :
    (∀ op ∈ [AccOp.load 3 true, .store, .vstore, .message none], let s := withAcc (accessOf op [partOf (.answered 9)])
      s.acc 6 = some (accessOf op [partOf (.answered 9)]) ∧ (s.hartAt 31 0).tkp = false ∧ s.answerReady 6 0 = true ∧
        ∀ b ∈ s.net.accs, b = accessOf op [partOf (.answered 9)] ∧ ∀ q ∈ b.parts, q.stage.stuck = false) ∧
    (waitingAtomic.waitsFor (accessOf (.atomic 0 (.g 3) 5 0) [partOf (.answered 9)]) = true ∧
      (waitingAtomic.hartAt 31 0).waitAt = some { slot := .lone, op := .aadd 0 0 true 2 1 3 true true }) := by decide +kernel

/-- A refusal with the cause of a load beyond the bounds of a global page. -/
def refused : Access := accessOf (.load 3 true) [partOf (.refused 0x05A none)]

/-- A part that holds ticket 1 of slice 2, and one that the ticket is on its way to. -/
def parkedPart (b : Bool) : Part := partOf (if b then .parked 2 1 else .ticket 2 1)

/-- The boot hart, parked on its load. -/
def parkedState : State := (withAcc (accessOf (.load 3 true) [parkedPart true])).onHart fun h => { h with tkp := true, tklim := 5 }

/-- The same, rewound, when its access has been parked for 5 cycles. -/
def expired : State :=
  (parkedState.onHart fun h => { h with nseq := 0 }).onCore 31 fun k => { k with cycles := 5 }

theorem witness_RefusalsTrapPrecisely :
    ((withAcc refused).acc 6 = some refused ∧ (0x05A#9).extractLsb' 6 3 = 1 ∧ ((withAcc refused).hartAt 31 0).stopped = false ∧
      refused.seq < ((withAcc refused).hartAt 31 0).nseq ∧ ((withAcc refused).hartAt 31 0).pend.all Pend.isReady = true ∧
      refused.op.isMessage = false ∧ (withAcc refused).answerReady 6 0 = true ∧ ∀ b ∈ (withAcc refused).net.accs, b = refused) ∧
    ((expired.live 31 0).find? (fun b => b.seq == (expired.hartAt 31 0).nseq) = some (accessOf (.load 3 true) [parkedPart true]) ∧
      (expired.hartAt 31 0).tkp = true ∧ expired.rewound 31 0 = true ∧ expired.unconfirmed 31 0 = false ∧
      (accessOf (.load 3 true) [parkedPart true]).parked = true ∧ (expired.hartAt 31 0).tklim ≠ 0 ∧
      (expired.hartAt 31 0).tklim.toNat ≤ (expired.cycleOf 31 0 - 0).toNat) := by decide +kernel

/-- Ticket 1 of slice 2 with an answer. -/
def ticketOf (x : Option (Option (BitVec 9))) : Ticket :=
  { slice := 2, num := 1, ctx := 0, core := 31, hart := 0, agid := 0, vpn := 1, kind := 1, level := 0, reason := 0, answer := x, engine := false, since := none }

/-- The slices hold that ticket. -/
def withTicket (s : State) (x : Option (Option (BitVec 9))) : State := { s with books := { s.books with tickets := [ticketOf x] } }

/-- The same with a divide that has not ended. -/
def stuckBehind : State := parkedState.onHart fun h => { h with pend := [pendOf (.div 2 1 3 true true) (.div 3 9) false] }

theorem witness_TicketsParkAndRewind :
    ((withAcc (accessOf (.load 3 true) [parkedPart false])).acc 6 = some (accessOf (.load 3 true) [parkedPart false]) ∧
      ((withAcc (accessOf (.load 3 true) [parkedPart false])).hartAt 31 0).tkEv = false ∧
      ((withAcc (accessOf (.load 3 true) [parkedPart false])).hartAt 31 0).nseq = 1) ∧
    (∀ b ∈ parkedState.net.accs, b = accessOf (.load 3 true) [parkedPart true]) ∧
    (∀ x ∈ [some none, some (some 0x090#9)], ∀ s ∈ [parkedState, stuckBehind, parkedState.onHart fun h => { h with nseq := 0 }],
      (withTicket s x).findTicket 2 1 = some (ticketOf x) ∧ (withTicket s x).ticketTravels 2 1 = false ∧ (withTicket s x).isSwitchedOut 0 = false ∧
      (withTicket s x).acc 6 = some (accessOf (.load 3 true) [parkedPart true])) ∧
    ((stuckBehind.hartAt 31 0).nseq = 1 ∧ (stuckBehind.hartAt 31 0).pend.all (fun q => q.isReady || q.precise) = false) ∧
    (0x090#9).extractLsb' 6 3 = 2 ∧
    (accessOf (.load 3 true) [parkedPart true] ∈ parkedState.net.accs ∧ (parkedState.hartAt 31 0).nseq = 1 ∧
      (parkedState.hartAt 31 0).pend.all Pend.isReady = true ∧ (parkedState.hartAt 31 0).tkp = true ∧ (parkedState.hartAt 31 0).log = []) := by
  decide +kernel

/-- Tables from 0x10000 on that map page 1 of the global space by a leaf with low byte `b`, of frame 0x55 but for one of
the host. -/
def tables (b : Byte) : Memory :=
  [(0x10000, 0x03), (0x10001, 0x10), (0x10002, 0x01), (0x11000, 0x03), (0x11001, 0x20), (0x11002, 0x01),
   (0x12000, 0x03), (0x12001, 0x30), (0x12002, 0x01), (0x13008, b)] ++ if b.getLsbD 7 then [] else [(0x13009, 0x50), (0x1300A, 0x05)]

/-- The boot core uses these tables. -/
def mapped (leaf : Byte) (s : State) : State := { (s.onCore 31 fun k => { k with mem := { k.mem with ptbase := 0x10000 } }) with mem := tables leaf }

/-- A load at its slice, or before the host's answer. -/
def atSlice (leaf : Byte) (st : Stage) : State := mapped leaf (withAcc (accessOf (.load 3 true) [partOf st]))

/-- A leaf of frame 0x55 with R, W and X; one kept by the host; one that is not valid; and one with a reserved bit. -/
def leaves : List Byte := [0x1D, 0x8D, 0x3C, 0x5D]

theorem witness_SlicesTranslate :
    (∀ x ∈ leaves, ∀ st ∈ [Stage.slice, .ats], let s := atSlice x st
      s.acc 6 = some (accessOf (.load 3 true) [partOf st]) ∧ (s.pageTicket (sliceOf 31 0x1000) 0 0x1000).isNone = true ∧
        (s.sliceHit (sliceOf 31 0x1000) 0 0x1000).isNone = true ∧ (s.openAt (sliceOf 31 0x1000)).length < 1024) ∧
    (atSlice 0x1D .slice).walkOf (accessOf (.load 3 true) [partOf .slice]) 0x1000 = .leaf 0 0x5501D 0x13008 ∧
    (leafEntry 0 0x1000 0 0x5501D).permits .load 3 = true ∧
    (leafEntry 0 0x1000 0 0x55005).permits .store 3 = false ∧
    (atSlice 0x1D .slice).needsShadow .load (leafEntry 0 0x1000 0 0x5501D) 0x55000 = false ∧
    (atSlice 0x1D .slice).reachPhys (.load 3 true) .load true 3 0x55000 0 8 = .go (.sent (.phys 0x55000 0)) ∧
    (atSlice 0x3C .slice).walkOf (accessOf (.load 3 true) [partOf .slice]) 0x1000 = .ticket .absent 0 0x13008 ∧
    (atSlice 0x8D .ats).walkOf (accessOf (.load 3 true) [partOf .ats]) 0x1000 = .host 0 0x8D 0x13008 ∧
    (match (atSlice 0x5D .slice).walkOf (accessOf (.load 3 true) [partOf .slice]) 0x1000 with
      | .fault .. => true
      | _ => false) = true ∧
    (hostEntry 0 0x1000 0x8D 0x7000 true false 0).permits .load 3 = true ∧ (hostEntry 0 0x1000 0x89 0x7000 true false 0).permits .load 3 = false ∧
    (true && atsEnough .load true false) = true ∧ (false && atsEnough .load true false) = false := by decide +kernel

/-- The boot hart waits in a lone word. -/
def waitingIn (w : Wait) (i : Instr) (s : State) : State := s.onHart fun h => { h with wait := w, waitAt := some { slot := .lone, op := i } }

theorem witness_FencesYieldAndWaita :
    (State.reset.issues (.fence true false false false false 0 true true) = true ∧ State.reset.engineBusy 31 0 = false ∧
      State.reset.issues (.ifence true true) = true ∧ State.reset.issues (.yield true true) = true) ∧
    (∀ k, k ≠ 0 → State.reset.mayIssue 31 k = false) ∧
    ((State.reset.onHart fun h => { h with pause := 4 }).hartAt 31 0).pause ≠ 0 ∧
    (∀ l ∈ [[(1#5, 0x100#64)], [(1, 0x100), (2, 5)], [(1, 0xFE00050000000100)]], let s := withG l
      s.issues (.waita 0 true 2 1 3 true true) = true ∧ s.isNew = true ∧ s.allows (waitaReads (s.g 1) true) = true ∧
        s.hart.waitlim ≠ 0 ∧ s.entryFree = true) ∧
    (∀ n ∈ [16, 0x100000], let s := (waitingIn (.waita 3 0x100 8 0 0 0 false) (.waita 0 true 2 1 3 true true) State.reset).onCore 31 fun k =>
        { k with cycles := BitVec.ofNat 64 n }
      16 ≤ (s.cycleOf 31 0 - 0).toNat ∧ s.atRest 31 = false ∧ ({ s with cur := 31, curHart := 0, slot := .lone } : State).allows (waitaReads 0x100 true) = true) ∧
    (0x100000#32).toNat ≤ (0x100000#64).toNat := by decide +kernel

/-- Group 5, whose members are hart 0 and hart 1 of the boot core. -/
def group5 (o : Bool) (aw ar : List (CoreId × HartId)) : Group :=
  { id := 5, ctx := 0, members := [(31, 0, 0), (31, 1, 1)], isOpen := o, awaited := aw, arrived := ar, episode := 3, owed := [] }

/-- That group, and its number in g1. -/
def grouped (o : Bool) (aw ar : List (CoreId × HartId)) : State := { withG [(1, 5)] with groups := [group5 o aw ar] }

theorem witness_GroupsAndBarriers :
    (∀ s ∈ [withG [(1, 5)], grouped false [] []], s.issues (.gjoin 1 3 true true) = true ∧ s.joinRefused 31 0 5 = false ∧
      s.issues (.gleave 1 true true) = true ∧ s.issues (.gqry 1 3 true true) = true ∧ (s.g 1).toNat < 4096) ∧
    (∀ x ∈ [(false, []), (true, [(31#12, 0#2), (31, 1)]), (true, [(31, 1)])], let s := grouped x.1 x.2 []
      s.issues (.gbar 1 true true) = true ∧ (s.group 5).any (fun g => (g.members.any fun m => m.1 == 31 && m.2.1 == 0) && g.owed == []) = true) ∧
    ((grouped true [(31, 0)] [(31, 0)]).group 5 = some (group5 true [(31, 0)] [(31, 0)])) := by decide +kernel

/-- A message of tag 9 for port 0. -/
def inMsg : InMsg :=
  { t := 9, m := 0, port := 0, score := 4, shart := 1, pidx := 2, sptc := 3, payload := 7, ot := 9, om := 0, late := false, selfKey := none,
    arr := 0, aptc := 5, ahzn := 0, ahznm := 0, alft := 0, alftm := 0 }

/-- The boot hart in a reaction. -/
def reacting : State := State.reset.onHart fun h => { h with rx := true }

/-- The boot hart waits in NEXT, a message waits for it, and PTC has passed its tag by far. -/
def delivering : State :=
  { (waitingIn (.next 3) (.next 3 true true) State.reset).onCore 31 fun k => { k with tags := { k.tags with inbox := [inMsg], nexters := [0] } } with
    timeRef := 0xFFFFFFFFFF }

theorem witness_ReactionsRunFromNextToDone :
    (∀ s ∈ [State.reset, reacting], s.issues (.next 3 true true) = true ∧ s.issues (.done true true) = true ∧ s.self.ltp s.curHart = false ∧
      s.settled = true) ∧ State.reset.hart.rx = false ∧ reacting.hart.rx = true ∧
    ((delivering.core 31).tags.inbox = [inMsg] ∧ (delivering.core 31).tags.nexters = [0] ∧ delivering.headSafe 31 = true ∧
      (delivering.core 31).anyRx = false ∧ (delivering.core 31).tags.window.length < 8 ∧ (delivering.core 31).sys.heeled = false ∧
      (delivering.core 31).sys.fenced = false ∧ delivering.reinjecting (delivering.core 31).mem.ctxid = false ∧
      (delivering.core 31).ltp 0 = false ∧ (delivering.hartAt 31 0).wait = .next 3 ∧
      (delivering.hartAt 31 0).waitAt = some { slot := .lone, op := .next 3 true true }) := by decide +kernel

theorem witness_PostsSendTaggedMessages :
    (∀ l ∈ [[(1#5, 5#64), (4, 9)], [(1, 0x30005), (4, 9)], [(1, 0x100005), (4, 9)]], let s := withG l
      s.issues (.post 4 2 1 true true) = true ∧ s.issues (.postp 4 2 1 true true) = true ∧ s.settled = true) ∧
    ((endpointOf 5).ok = true ∧ (endpointOf 5).pkg = 0 ∧ (endpointOf 0x100005).ok = false ∧ (endpointOf 0x30005).pkg ≠ 0 ∧
      State.reset.routed (endpointOf 0x30005).pkg = false) ∧
    ((postedTag (withG [(4, 9)]) 9).1 < 2 ^ 63 ∧ (postedTag (withG [(4, 9)]) 9).2 < 2 ^ 32 - 1 ∧ State.reset.self.tags.tpf = false ∧
      State.reset.entryReady = true) ∧
    2 ^ 63 ≤ (postedTag (withG [(4, 0x8000000000000000)]) 0x8000000000000000).1 := by decide +kernel

/-- The boot core's ring of late records at local byte 0x800 holds one of two. -/
def lateRing (pend : Bool) : State := State.reset.onCore 31 fun k =>
  { k with tags := { k.tags with ltBase := 16, ltSz := 0, ltTail := 1, ltPend := pend } }

theorem witness_ClocksAndLateRecordsAreRead :
    (∀ s ∈ [withG [], withG [(1, 100)]], s.issues (.tnow 3 true true) = true ∧ s.issues (.twait 1 true true) = true) ∧
    ((withG []).ptc 31).toNat < ((withG [(1, 100)]).g 1).toNat ∧ ((withG []).g 1).toNat ≤ ((withG []).ptc 31).toNat ∧
    (0#64).toNat ≤ ((waitingIn (.twait 0) (.twait 1 true true) State.reset).ptc 31).toNat ∧
    State.reset.timeRef.toNat ≤ (100#64).toNat ∧ (0xFFFD#16).toInt.natAbs ≤ (State.reset.core 31).tags.terr.toNat ∧
    (State.reset.core 31).tags.held.toNat ≤ (100#64 + (0xFFFD#16).signExtend 64).toNat ∧
    (∀ b, Memory.wf (lateRing b).mem = true ∧ (lateRing b).issues (.lateq 3 true true) = true) := by decide +kernel

/-- A message for port 0 of core 31 in flight, with the access that its acceptance confirms. -/
def postMsg (full : Bool) : PostMsg :=
  { id := 8, core := 31, hart := 0, ctx := 0, pkg := 0, dst := 31, port := 0, t := 20, m := 0, pidx := 0, sptc := 0, payload := 7, acc := 6,
    full := full, fromReaction := none }

/-- That message, with port 0 open or closed and an inbox of `n` messages. -/
def posted (full op : Bool) (n : Nat) : State :=
  let s := withAcc (accessOf (.message none) [partOf (.sent (.phys 0 0))])
  { s.onCore 31 fun k => { k with tags := { k.tags with portcfg := k.tags.portcfg.set 0 (if op then 1 else 0), inbox := List.replicate n inMsg } } with
    net := { s.net with posts := [postMsg full] } }

theorem witness_TaggedMessagesArrive :
    (∀ full, ∀ op, let s := posted full op 1
      s.findPost 8 = some (postMsg full) ∧ s.heldBack 8 0 = false ∧ (s.core 31).sys.fenced = false ∧ s.admits 31 0 8 = true ∧
        (s.core 31).mem.ctxid = 0 ∧ (((s.core 31).tags.portcfg[0]?).getD 0).getLsbD 0 = op) ∧
    (posted false true 256).findPost 8 = some (postMsg false) ∧ ((posted false true 256).core 31).tags.inbox.length = 256 ∧
    (State.reset.core 31).tags.lft = 0 ∧ (State.reset.core 31).tags.hzn = 0 ∧ State.reset.pkg.absent = [] := by decide +kernel

/-- A reaction of hart 0 of core 4. -/
def reaction : Reaction := { id := 3, t := 9, m := 0, hart := 0, msg := inMsg, escaped := false }

/-- An entry of the ordered buffer of that reaction. -/
def ordEntry : OrdEntry := { rid := 3, t := 9, m := 0, hart := 0, line := 0x40000000000, mask := 0x11, data := 0x0506070809 }

/-- The core of context 7, with a finished reaction and its ordered store. -/
def finished : State := State.reset.onCore 4 fun k =>
  { k with mem := { k.mem with ctxid := 7 }, tags := { k.tags with window := [reaction], obuf := [ordEntry] } }

theorem witness_HorizonAndCommits : finished.partition 7 = [4] ∧ (finished.core 4).tags.doomed = none ∧ Memory.wf finished.mem = true ∧
    ((finished.core 4).tags.obuf.filter fun e => decide (e.rid = reaction.id)) = [ordEntry] := by
  decide +kernel

/-- A read of that line by the reaction. -/
def readRec : ReadRec := { line := 0x40000000000, core := 4, t := 9, m := 0, hart := 0, rid := 3 }

/-- An abort is called for at the finished reaction, and one is due at its hart. -/
def aborting : State := (finished.onCore 4 fun k => { k with tags := { k.tags with doomed := some readRec } }).onHartAt 4 0 fun h =>
  { h with react := { h.react with abort := true, rxpc := 0x80 } }

theorem witness_AbortsTakeReactionsBack : (aborting.core 4).tags.doomed = some readRec ∧ (aborting.core 4).tags.indexOf readRec = some 0 ∧
    (aborting.hartAt 4 0).react.abort = true ∧ aborting.unconfirmed 4 0 = false ∧ (aborting.hartAt 4 0).wait.interruptible = true ∧
    (aborting.hartAt 4 0).pend = [] := by decide +kernel

/-- The boot core with a channel for sending and one for receiving: channel 0 goes to channel 2 of core 5; channels 0 and 1 have
rings of 128 bytes at local bytes 0x800 and 0x880, for 8-byte and for 64-byte messages. -/
def withChannels (prod : BitVec 32) : State := State.reset.onCore 31 fun k =>
  { k with chan := { k.chan with
      chout := k.chan.chout.set 0 0x8000000000002005
      chin := (k.chan.chin.set 0 0x8000000000800800).set 1 0xC000000000800880
      chptr := k.chan.chptr.set 0 (prod ++ 0#32)
      fifos := k.chan.fifos.set 0 [7, 8] } }

theorem witness_MessagesAreSent :
    (∀ o : Bool, let i : Instr := if o then .enqn 4 0 1 true true else .enq 0 1 true true
      (sendOf (withChannels 0) i).any (fun x => x.1 == 0 && x.2.1 == false && x.2.2.1 == o) = true ∧ (withChannels 0).issues i = true) ∧
    (sendOf (withChannels 0) (.enqv 3 1 true true)).any (fun x => x.1 == 3) = true ∧ (withChannels 0).issues (.enqv 3 1 true true) = true ∧
    (sendOf (withChannels 0) (.enq 23 1 true true)).any (fun x => x.1 == 23) = true ∧ (withChannels 0).issues (.enq 23 1 true true) = true ∧
    (sendOf (withChannels 0) (.enqv 16 1 true true)).any (fun x => x.1 == 16) = true ∧ (withChannels 0).issues (.enqv 16 1 true true) = true ∧
    ((withChannels 0).self.chan.chout[0]?.getD 0).getLsbD 63 = true ∧ ((withChannels 0).self.chan.chout[3]?.getD 0).getLsbD 63 = false ∧
    (withChannels 0).entryReady = true ∧ (withChannels 0).settled = true := by decide +kernel

/-- A message for a channel of core 31, with the access that its acceptance confirms. -/
def chanMsg (q : BitVec 5) (wide once held : Bool) : ChanMsg :=
  { id := 8, core := 31, hart := 0, ctx := 0, agid := 0, dst := 31, chan := q, wide := wide, data := 0x0807060504030201, acc := some 6,
    once := once, held := held, batch := none }

/-- That message on its way, and `prod` bytes in the ring of channel 0. -/
def messaged (q : BitVec 5) (wide once held : Bool) (prod : BitVec 32) : State :=
  let s := withAcc (accessOf (.message none) [partOf (.sent (.phys 0 0))])
  { s with cores := (withChannels prod).cores, net := { s.net with chans := [chanMsg q wide once held] } }

/-- A record for FIFO 16 of core 31, which holds `n`. -/
def recorded (n : Nat) : State :=
  let s := State.reset.onCore 31 fun k => { k with chan := { k.chan with fifos := k.chan.fifos.set 0 (List.replicate n 5) } }
  { s with net := { s.net with events := [{ id := 8, src := 3, core := 31, fifo := 16, record := 6 }] } }

/-- A message that its ring has held comes again by its number alone, and a new one when nothing holds its packet back. -/
def mayArrive (s : State) (held : Bool) : Bool := !(if held then s.spilled 8 else s.heldBack 8 0)

theorem witness_MessagesAndRecordsArrive :
    (∀ wide : Bool, ∀ once : Bool, ∀ held : Bool, let q : BitVec 5 := if wide then 1 else 0
      let s := messaged q wide once held 0
      s.findChan 8 = some (chanMsg q wide once held) ∧ s.sentBefore (chanMsg q wide once held) = false ∧ mayArrive s held = true ∧ Memory.wf s.mem = true ∧
        s.pkg.absent = [] ∧ (s.core 31).sys.fenced = false ∧ (s.core 31).mem.ctxid = 0 ∧ s.admits 31 0 9 = true ∧
        (((s.core 31).chan.chin[q.toNat]?).getD 0).getLsbD 63 = true ∧ (((s.core 31).chan.chin[q.toNat]?).getD 0).getLsbD 62 = wide ∧
        8 * ((((s.core 31).chan.chin[q.toNat]?).getD 0).extractLsb' 19 16).toNat = 128) ∧
    (∀ once : Bool, (messaged 0 false once false 128).findChan 8 = some (chanMsg 0 false once false) ∧
      (((messaged 0 false once false 128).core 31).chan.chptr[0]?.getD 0).extractLsb' 32 32 = 128) ∧
    (messaged 2 false false false 0).findChan 8 = some (chanMsg 2 false false false) ∧
    (((messaged 2 false false false 0).core 31).chan.chin[2]?.getD 0).getLsbD 63 = false ∧
    (messaged 0 true false false 0).findChan 8 = some (chanMsg 0 true false false) ∧
    (∀ n ∈ [0, 64], (recorded n).net.events.find? (fun e => e.id == 8) = some { id := 8, src := 3, core := 31, fifo := 16, record := 6 } ∧
      (recorded n).heldBack 8 0 = false ∧ (((recorded n).core 31).chan.fifos[0]?.getD []).length = n) := by decide +kernel

/-- The boot hart waits in a DEQ of queue `q`. -/
def receiving (q : BitVec 5) (prod : BitVec 32) : State :=
  (waitingIn (.deq (.g 3) q) (.deq q 3 true true) (withChannels prod)).onCore 31 fun k => { k with chan := { k.chan with takers := [(0, q)] } }

theorem witness_ReceivesTakeTheOldest :
    ((receiveOf (.deq 0 3 true true) = some (0, .g 3, false) ∧ (withChannels 8).issues (.deq 0 3 true true) = true) ∧
      (receiveOf (.deqv 1 3 true true) = some (1, .v 3, true) ∧ (withChannels 8).issues (.deqv 1 3 true true) = true) ∧
      (withChannels 8).issues (.deq 16 3 true true) = true ∧ (withChannels 8).issues (.deqv 16 3 true true) = true ∧
      (withChannels 8).issues (.deq 2 3 true true) = true ∧ (withChannels 8).issues (.deqv 0 3 true true) = true ∧ (withChannels 8).settled = true) ∧
    (∀ n ∈ [0, 16], let q := BitVec.ofNat 5 n
      let s := receiving q 8
      (s.core 31).chan.takers.find? (fun p => p.2 == q) = some (0, q) ∧ s.queueHeld 31 q ≠ 0 ∧ (s.core 31).sys.heeled = false ∧
        (s.core 31).sys.fenced = false ∧ (s.hartAt 31 0).wait = .deq (.g 3) q ∧
        (s.hartAt 31 0).waitAt = some { slot := .lone, op := .deq q 3 true true }) ∧
    (∀ n ∈ [0, 16, 17], (withChannels 8).issues (.deqn 4 (BitVec.ofNat 5 n) 3 true true) = true ∧
      (withChannels 0).issues (.deqn 4 (BitVec.ofNat 5 n) 3 true true) = true ∧
      (withChannels 0).issues (.qlen (BitVec.ofNat 5 n) 3 true true) = true) ∧
    (withChannels 8).queueHeld 31 0 = 1 ∧ (withChannels 0).queueHeld 31 0 = 0 ∧ (withChannels 0).queueHeld 31 16 = 2 := by decide +kernel

/-- Rows of four words, two of them, at strides of 16 bytes. -/
def box : Shape := { esz := 2, aln := 2, dims := 1, n0 := 4, n1 := 2, n2 := 1, ss1 := 16, ss2 := 0, ds1 := 16, ds2 := 0 }

/-- The boot hart holds that shape in slot 0; g1 and g2 hold local addresses, g3 a length, g4 a control word, g5 the address of a
bin table, and the TLB maps its page to the commons. -/
def transferring (g3 g4 : W) : State := ((withG [(1, 0x1000), (2, 0x200), (3, g3), (4, g4), (5, 0x100000)]).onHart fun h =>
  { h with batch := { h.batch with slots := h.batch.slots.set 0 (some box) } }).onCore 31 fun k =>
  { k with mem := { k.mem with tlb := [{ ctx := 0, vpn := 0x100, size := 0, frame := 0x100000000, r := true, w := true, x := false, u := false,
                                          host := false }] } }

/-- A command of the boot hart. -/
def cmdOf (k : CmdKind) (cut : Bool) (ps : List Piece) (row : Nat) (dst : W) : Cmd :=
  { id := 8, core := 31, hart := 0, ctx := 0, agid := 0, mode := 3, batch := 1, kind := k, dst := dst, src := 0x1FF8, len := 16, cut := cut,
    pieces := ps, made := [], row := row, told := false, segs := [] }

/-- Sixty-four commands of the boot hart. -/
def crowded : State :=
  { transferring 32 2 with net := { State.reset.net with cmds := List.replicate 64 (cmdOf .copy false [] 0 0x1000) } }

theorem witness_FencesWaitForEngines : crowded.issues (.fence true false false false false 0 true true) = true ∧ crowded.engineBusy 31 0 = true := by
  decide +kernel

theorem witness_TransferCommandsSetOut :
    (∀ i ∈ [Instr.xcopy 3 2 1 true true, .xfill 3 3 1 true true, .xcopys 0 2 1 true true, .xgath 4 1 2 1 true true, .xscat 4 1 2 5 true true],
      (transferOf (transferring 32 2) i).isSome = true ∧ (transferring 32 2).issues i = true) ∧
    transferFine (transferring 32 2) (.xcopy 3 2 1 true true) ∧ transferFine (transferring 32 2) (.xfill 3 3 1 true true) ∧
    transferFine (transferring 32 2) (.xcopys 0 2 1 true true) ∧ transferFine (transferring 32 2) (.xgath 4 1 2 1 true true) ∧
    transferFine (transferring 32 2) (.xscat 4 1 2 5 true true) ∧ tableReady (transferring 32 2) (.xscat 4 1 2 5 true true) ∧
    ((transferring 32 2).commands 31 0).length < 64 ∧ 64 ≤ (crowded.commands 31 0).length ∧ (transferring 32 2).settled = true ∧
    (transferOf crowded (.xcopy 3 2 1 true true)).isSome = true ∧ crowded.issues (.xcopy 3 2 1 true true) = true ∧
    (∀ i ∈ [Instr.xcopy 4 2 1 true true, .xfill 3 4 1 true true, .xcopys 1 2 1 true true, .xgath 4 1 2 1 true true, .xgath 0 1 2 1 true true, .xscat 3 1 2 3 true true],
      (transferTrap (transferring 3 0x100000001) i).isSome = true ∧ (transferring 3 0x100000001).issues i = true) ∧
    (let s : State := (transferring 32 2).onCore 31 fun k => { k with mem := { k.mem with tlb := [] } }
     s.issues (.xscat 4 1 2 5 true true) = true ∧ s.allows (tableAsk (s.g 5)) = true ∧ (s.self.mem.lookup (s.g 5)).isNone = true ∧
        s.isNew = true ∧ s.entryFree = true) := by
  refine ⟨by decide +kernel, ⟨by decide +kernel, by decide +kernel, by decide +kernel⟩, ⟨by decide +kernel, by decide +kernel⟩,
    ⟨box, by decide +kernel⟩, ⟨?_, box, by decide +kernel⟩, ⟨?_, box, by decide +kernel⟩, ⟨by decide +kernel, by decide +kernel,
    by decide +kernel, by decide +kernel, _, rfl, by decide +kernel, by decide +kernel⟩, by decide +kernel⟩
  all_goals unfold plainCtl; decide +kernel

/-- That shape's record at local byte 0x400, or one whose rows are not aligned. -/
def shapeAt (n0 : Byte) : State := { withG [(1, 0x400)] with
  mem := [(localKey 31 0x400, 0x22), (localKey 31 0x401, 1), (localKey 31 0x404, n0), (localKey 31 0x408, 2), (localKey 31 0x40C, 1),
          (localKey 31 0x410, 16), (localKey 31 0x420, 16)] }

/-- XSHAPE reads 64 bytes. -/
def shapeAsk (va : W) : Ask := { op := .shape 0, els := [⟨va, 64, 0, .load⟩], vec := true, plain := false, acq := false }

theorem witness_ShapesAreReadAndChecked :
    (∀ n ∈ [4, 0], let s := shapeAt (BitVec.ofNat 8 n)
      s.issues (.xshape 0 1 true true) = true ∧ s.isNew = true ∧ s.allows (shapeAsk (s.g 1)) = true ∧ (shapeAsk (s.g 1)).isLocal = true ∧
        s.settled = true) ∧
    (readShape (BitVec.ofNat 512 (bytesValue (shapeAt 4).mem (localKey 31 0x400) 64))).toOption = some box ∧
    (readShape (BitVec.ofNat 512 (bytesValue (shapeAt 0).mem (localKey 31 0x400) 64))).toOption = none ∧
    (peerPlace.issues (.xshape 0 1 true true) = true ∧ peerPlace.isNew = true ∧ peerPlace.allows (shapeAsk (peerPlace.g 1)) = true ∧
      (shapeAsk (peerPlace.g 1)).isRemote = true ∧ peerPlace.entryFree = true) := by decide +kernel

/-- The boot hart with `n` sealed batches that are not finished, the first of which reports as told. -/
def sealedBatches (n : Nat) (mode : W) : State := (withG [(1, 2), (2, 0x2005), (3, 7), (4, 3)]).onHart fun h =>
  { h with batch := { h.batch with bopen := BitVec.ofNat 16 (n + 1), sealed := [(1, mode, 9)] } }

theorem witness_BatchesAreSealedAndFinish :
    (∀ n ∈ [1, 15], (sealedBatches n 0).issues (.bseal 3 true true) = true ∧ (sealedBatches n 0).issues (.bwait 1 true true) = true ∧
      (sealedBatches n 0).issues (.bstat 3 3 true true) = true ∧
      ((sealedBatches n 0).hart.batch.bopen - (sealedBatches n 0).hart.batch.bdone - 1).toNat = n) ∧
    (∀ i ∈ [Instr.xmode 3 2 1 true true, .xmode 3 2 0 true true, .xmode 3 2 4 true true], (sealedBatches 1 0).issues i = true) ∧
    (sealedBatches 1 0).g 1 = 2 ∧ ((sealedBatches 1 0).g 2).toNat < 2 ^ 16 ∧ (withG [(1, 2), (2, 0x10000)]).issues (.xmode 3 2 1 true true) = true ∧
    (sealedBatches 1 0).settled = true ∧ (withG [(1, 2), (2, 0x10000)]).settled = true ∧
    (∀ n ∈ [0, 1, 0x200500000002], let s := sealedBatches 1 (BitVec.ofNat 64 n)
      (s.hartAt 31 0).batch.bopen ≠ (s.hartAt 31 0).batch.bdone + 1 ∧ s.net.cmds = [] ∧ s.net.chans = [] ∧
        ((s.hartAt 31 0).batch.report 1).1 = BitVec.ofNat 64 n) := by decide +kernel

/-- The streamer holds that command; page 0x100 of the global space is the first of the commons, which holds a table of one bin of
four rows, the list of one row at local byte 0x200 names bin 0, and two bytes stand at 0x1FF8. -/
def streaming (c : Cmd) : State :=
  { (State.reset.onCore 31 fun k => { k with mem := { k.mem with ptbase := 0x10000 } }) with
    net := { State.reset.net with cmds := [c] }
    books := { State.reset.books with sliceTlb := [(sliceOf 31 0x100000, leafEntry 0 0x100000 0 0x10000000001D)] }
    mem := [(0x10000, 0x03), (0x10001, 0x10), (0x10002, 0x01), (0x11000, 0x03), (0x11001, 0x20), (0x11002, 0x01),
            (0x12000, 0x03), (0x12001, 0x30), (0x12002, 0x01), (0x13800, 0x1D), (0x13805, 0x10),
            (0x100000000000, 1), (0x100000000011, 0x30), (0x100000000018, 4), (0x10000000001C, 2),
            (localKey 31 0x1FF8, 7), (localKey 31 0x2000, 8)] }

/-- The piece of a copy that it has come to. -/
def piece : Piece := { src := 0x1FF8, dst := 0x1000, len := 8, bad := none, row := none, no := 0, here := false }

/-- Two pieces of one row, of which the first has left its space. -/
def badRow : List Piece := [{ piece with row := some 0, bad := some true }, { piece with src := 0x2000, row := some 0, no := 1 }]

theorem witness_StreamersAndBins :
    (∀ k ∈ [CmdKind.copy, .fill 5], (streaming (cmdOf k false [] 0 0x1000)).findCmd 8 = some (cmdOf k false [] 0 0x1000) ∧
      (streaming (cmdOf k true [piece] 0 0x1000)).findCmd 8 = some (cmdOf k true [piece] 0 0x1000) ∧
      (streaming (cmdOf k true [] 0 0x1000)).findCmd 8 = some (cmdOf k true [] 0 0x1000) ∧
      Memory.wf (streaming (cmdOf k true [piece] 0 0x1000)).mem = true ∧ (streaming (cmdOf k true [piece] 0 0x1000)).heldBack 8 0 = false ∧
      (∀ q ∈ [piece], q = piece) ∧
      (∀ j, j < 8 → poisoned (streaming (cmdOf k true [piece] 0 0x1000)) (localKey 31 0x1FF8 + j) 1 = false)) ∧
    (∀ k, reachesAt (streaming (cmdOf k true [piece] 0 0x1000)) (cmdOf k true [piece] 0 0x1000).party .store 0x1000 8 (localKey 31 0x1000) ∧
      reachesAt (streaming (cmdOf k true [piece] 0 0x1000)) (cmdOf k true [piece] 0 0x1000).party .load 0x1FF8 8 (localKey 31 0x1FF8)) ∧
    (let c := cmdOf (.gath box 0x200 1) true badRow 0 0x1000
     (streaming c).findCmd 8 = some c ∧ c.pieces.find? (fun q => q.row == some 0) = badRow[0]? ∧ (streaming c).heldBack 8 1 = false) ∧
    (let c := cmdOf (.scat box 0x200 1) true [] 0 0x100000
     let s := streaming c
     s.findCmd 8 = some c ∧ Memory.wf s.mem = true ∧ reachesAt s c.party .load 0x200 4 (localKey 31 0x200) ∧
       (∀ j, j < 4 → poisoned s (localKey 31 0x200 + j) 1 = false) ∧ engineReach s c.party .atomic c.dst 16 = .here s 0x100000000000 ∧
       bytesValue s.mem 0x100000000000 2 = 1 ∧ bytesValue s.mem (localKey 31 0x200) 4 = 0 ∧ poisoned s 0x100000000000 16 = false ∧
       poisoned s 0x100000000010 16 = false ∧ poisoned s 0x100000000020 16 = false ∧ bytesValue s.mem 0x10000000001C 4 = 2 ∧
       bytesValue s.mem 0x100000000018 4 = 4) := by
  refine ⟨by decide +kernel, fun _ => ⟨⟨by decide +kernel, rfl⟩, by decide +kernel, rfl⟩, by decide +kernel, by decide +kernel, by decide +kernel,
    ⟨by decide +kernel, rfl⟩, by decide +kernel, rfl, by decide +kernel⟩

/-- The boot hart with a lease of its array, number 3, or without. -/
def leasing (held queued rev : Bool) (y : Arr) : State :=
  { (withG [(1, 3), (2, 4), (3, 0x80)]).onHart fun h =>
      { h with mx := { h.mx with held := held, queued := queued, rev := rev, array := 3, leashD := if queued then some 4 else none } } with
    arrays := [(3, y)] }

theorem witness_LeasesPassOn :
    (leasing false false false Arr.reset).ownArray = 3 ∧
    (∀ l ∈ [[], [(31#12, 1#2)]], let s := leasing false false false { Arr.reset with fifo := l }
      s.issues (.leash 1 4 true true) = true ∧ s.issues (.leashn 1 4 true true) = true ∧ s.g 1 = 3) ∧
    (∀ i ∈ [Instr.leash 2 4 true true, .leashn 2 4 true true, .leash 3 4 true true, .leashn 3 4 true true],
      (leasing false false false Arr.reset).issues i = true) ∧ (leasing false false false Arr.reset).settled = true ∧
    (leasing true false false Arr.reset).issues (.leash 1 4 true true) = true ∧ (leasing false true false Arr.reset).issues (.leashn 1 4 true true) = true ∧
    (∀ a b : Bool, (leasing a b false Arr.reset).issues (.unleash true true) = true) ∧
    (∀ f ∈ [[], [(31#12, 1#2)], [(31, 1), (31, 2)]], let y : Arr := { Arr.reset with fifo := f }
      ((leasing false true false y).array 3).holder = none ∧ ((leasing false true false y).array 3).fifo = f ∧
      ((leasing true false false { y with holder := some (31, 0), cmds := 16 }).array 3).holder = some (31, 0) ∧
      (16#7).toNat ≤ ((leasing true false false { y with holder := some (31, 0), cmds := 16 }).array 3).cmds ∧
      ((leasing true false false { y with holder := some (31, 0), rows := 65536 }).array 3).rows = 65536) := by decide +kernel

/-- Array 3 with the record of its command 0. -/
def recording (st : Byte) : State := { withG [(1, 0x300000000), (2, 0x80), (3, 3), (4, 0x300000005)] with
  arrays := [(3, { Arr.reset with holder := some (31, 0), seq := 1, lastDone := 0, recs := [{ seq := 0, ctx := 0, rows := 4, status := st }] })] }

theorem witness_ArraysAreDescribedAndWatched :
    (∀ n ∈ [0, 0x200000000, 31, 0xFFC00000], let x := BitVec.ofNat 64 n
      let s := withG [(1, x)]
      s.issues (.mxcfg 2 1 true true) = true ∧ s.settled = true ∧
        rectBad x 0 = decide (n = 0x200000000) ∧ s.rectOutside 31 (rectOf x 0) = decide (n = 31)) ∧
    Config.spillBase < (rectOf 0xFFC00000 0).base + (rectOf 0xFFC00000 0).rpc * (256 / (rectOf 0xFFC00000 0).w) * 4 ∧
    (∀ a : Nat, a < 4 → (recording 0).issues (.mxqry (BitVec.ofNat 5 a) 5 true true) = true) ∧ ((recording 0).array 3).holder = some (31, 0) ∧
    ((recording 0).array 0).holder = none ∧ 2 ^ 7 ≤ ((recording 0).g 2).toNat ∧ ((recording 0).g 3).toNat < 2 ^ 7 ∧ (recording 0).settled = true ∧
    (∀ b : Bool, let st : Byte := if b then 0x30 else 0
      (recording st).issues (.mxwait 1 5 true true) = true ∧ (recording st).issues (.mxwait 4 5 true true) = true ∧
      ((recording st).array 3).recs.find? (fun r => r.seq == 0 && r.ctx == 0) = some { seq := 0, ctx := 0, rows := 4, status := st }) ∧
    2 ^ 31 ≤ (0#32 - (0x300000005#64).extractLsb' 0 32).toNat := by decide +kernel

/-- A command of the boot hart: its rectangle is one row of core 0. -/
def mxCmd (kind : BitVec 2) : MxCmd :=
  { kind := kind, core := 31, hart := 0, ctx := 0, mode := 3, agid := 0, tile := 1, pair := false, fmt := 2, q := 1, p := 1, ce := false,
    cblo := 0, cbhi := 0, buf := false, addr := 0x800, stride := 512, rows := 1, orow := 0, acc := false, mmode := 0, scale := 0, desc := 0,
    lbase := 0, d := 4, sflags := 0, lost := false }

/-- The boot hart has its lease, a rectangle and a loaded buffer, and operands for MXLDB in g1 and g2 and for MXRUN in g3, g4 and g5. -/
def computing : State := { (withG [(1, 0x20000), (2, 0), (3, 0x800), (4, 0), (5, 1)]).onHart fun h =>
      { h with mx := { h.mx with held := true, array := 3, valid := true, loaded := true, lastLoad := some (false, 2, false) } } with
    arrays := [(3, { Arr.reset with holder := some (31, 0), buf0 := { BBuf.reset with loader := some (31, 0), fmt := 2, q := 1, p := 1 } })] }

/-- Array 3 has a command at the head of its queue. -/
def queued (k : MxCmd) : State := computing.onArray 3 fun y => { y with queue := [k] }

theorem witness_ArrayCommandsQueueAndAreAccepted :
    (computing.issues (.mxldb 2 1 true true) = true ∧ loadFine computing (computing.g 1) (computing.g 2) ∧ computing.arrayTakes) ∧
    (∀ r : Bool, let s := leasing false false r Arr.reset
      s.issues (.mxldb 0 0 true true) = true ∧ loadFine s 0 0 ∧ s.settled = true) ∧
    (computing.issues (.mxrun 5 4 3 4 true true) = true ∧ (runProblem computing (computing.g 4) (computing.g 5)).isNone = true ∧
      (computing.g 3).toNat % 8 = 0 ∧ computing.doneBefore = false ∧ computing.ownStops.isNone = true ∧
      (match computing.rowRange ((runRows computing (computing.g 4) (computing.g 5)).2.2.2 / 4096 + 2) (computing.g 3).toNat
          (runRows computing (computing.g 4) (computing.g 5)).2.2.2 with
        | .ok _ => true
        | _ => false) = true) ∧
    (computing.issues (.mxzero true true) = true ∧ computing.hart.mx.valid = true ∧ computing.rectRefused = false) ∧
    (State.reset.issues (.mxzero true true) = true ∧ State.reset.hart.mx.valid = false ∧ State.reset.settled = true) ∧
    (∀ n : Nat, n < 3 → ((queued (mxCmd (BitVec.ofNat 2 n))).array 3).queue = [mxCmd (BitVec.ofNat 2 n)] ∧
      ((queued (mxCmd (BitVec.ofNat 2 n))).array 3).usesBuf false = false ∧ Memory.wf (queued (mxCmd (BitVec.ofNat 2 n))).mem = true ∧
      ((queued (mxCmd (BitVec.ofNat 2 n))).core 31).mem.ctxid = 0 ∧ ((queued (mxCmd (BitVec.ofNat 2 n))).core 31).sys.fenced = false) := by
  unfold loadFine State.arrayTakes
  decide +kernel

/-- The same with these operands of an MXRUN in g4 and g5. -/
def computingOf (opt n : W) : State := computing.onHart fun h => { h with regs := (h.regs.writeG 4 opt).writeG 5 n }

/-- An MXRUN with these operands traps with a cause. -/
def runTraps (opt n : W) (cause : BitVec 9) : Bool :=
  let s := computingOf opt n
  s.issues (.mxrun 5 4 3 4 true true) && s.settled && (runProblem s (s.g 4) (s.g 5)).map Prod.fst == some cause

/-- The boot hart without its lease, after a revocation or not. -/
def unleashedAt (r : Bool) : State := computing.onHart fun h => { h with mx := { h.mx with held := false, rev := r } }

/-- The same with the lease and an address in g3 that is not aligned. -/
def misalignedRun : State := computing.onHart fun h => { h with regs := h.regs.writeG 3 0x804 }

theorem witness_MatrixCommandsTrap :
    (runTraps 0 0 0x158 = true ∧ runTraps 0x38 1 0x157 = true ∧ runTraps 2 1 0x15A = true ∧ runTraps 0x80 1 0x157 = true) ∧
    (misalignedRun.issues (.mxrun 5 4 3 4 true true) = true ∧ misalignedRun.settled = true ∧
      (runProblem misalignedRun (misalignedRun.g 4) (misalignedRun.g 5)).isNone = true ∧ misalignedRun.arrayTakes ∧ (misalignedRun.g 3).toNat % 8 ≠ 0) ∧
    (∀ r : Bool, (unleashedAt r).unleashed ∧ (unleashedAt r).hart.mx.rev = r ∧ (unleashedAt r).settled = true ∧
      (unleashedAt r).issues (.mxldb 2 1 true true) = true ∧ loadFine (unleashedAt r) ((unleashedAt r).g 1) ((unleashedAt r).g 2) ∧
      (unleashedAt r).issues (.mxrun 5 4 3 4 true true) = true ∧
      (runProblem (unleashedAt r) ((unleashedAt r).g 4) ((unleashedAt r).g 5)).isNone = true ∧
      (unleashedAt r).issues (.mxzero true true) = true ∧ (unleashedAt r).hart.mx.valid = true ∧ (unleashedAt r).rectRefused = false) := by
  unfold loadFine State.arrayTakes State.unleashed
  decide +kernel

/-- Array 3 works on a command. -/
def running (kind : BitVec 2) (next : Nat) : State := computing.onArray 3 fun y =>
  { y with runs := [{ cmd := mxCmd kind, seq := 0, next := next, owed := 0, applied := 1, outcome := 0, flags := 0 }], seq := 1 }

/-- Two partial sums on their way to core 0. -/
def partialOf (acc : Bool) : PartialMsg := { id := 8, array := 3, seq := 0, core := 0, addr := 0, row := 0, acc := acc, means := [0x3F800000, 7], vars := [] }

/-- Those sums under way. -/
def summing (acc : Bool) : State := { running 1 1 with net := { State.reset.net with partials := [partialOf acc] } }

theorem witness_RowsAreAppliedAndRecorded :
    (∀ n ∈ [1, 2], ((running (BitVec.ofNat 2 n) 0).array 3).active.any (fun r => r.cmd.kind.toNat == n) = true ∧ (running (BitVec.ofNat 2 n) 0).net.partials = [] ∧
      ((running (BitVec.ofNat 2 n) 1).array 3).runs.any (fun r => r.owed == 0 && decide (r.cmd.rows ≤ r.next)) = true ∧
      (((running (BitVec.ofNat 2 n) 1).array 3).seq - 0).toNat ≤ 64 ∧ ((running (BitVec.ofNat 2 n) 1).core 31).mem.ctxid = 0) ∧
    (∃ x, engineReadGroups (running 1 0) (mxCmd 1).party 0x800 512 512 1 = .bytes (running 1 0) x ∧ anyPoison x = false) ∧
    (let g := rowGroups 2 0 1 1; g.1 = 1 ∧ g.2.1 = 512 ∧ g.2.2 = 512) ∧
    (∀ acc : Bool, (summing acc).net.partials.find? (fun m => m.id == 8) = some (partialOf acc) ∧ Memory.wf (summing acc).mem = true ∧
      (summing acc).closedTo 0 = false ∧ (summing acc).heldAny 8 = none ∧ (summing acc).recalledAt (partialOf acc) = false ∧ poisoned (summing acc) (localKey 0 0) 8 = false) :=
  ⟨by decide +kernel, ⟨_, rfl, by decide +kernel⟩, by decide +kernel, by decide +kernel⟩

/-- A slot of the boot core, armed in context 0. -/
def armed : CSlot := { CSlot.reset with arm := true, mode := 3, chain := 0x100 }

/-- Slot 3 of the boot core; its number, a chain, a staging area and a slot number out of range in g1 to g4. -/
def withSlot (x : CSlot) : State := (withG [(1, 3), (2, 0x100), (3, 0), (4, 32), (5, 7)]).onSlot 31 3 fun _ => x

theorem witness_SlotsAreArmedAndCounted :
    (∀ b : Bool, (withSlot (if b then armed else CSlot.reset)).issues (.warm 3 2 1 true true) = true) ∧ warmBad 0x100 0 = false ∧
    (withSlot CSlot.reset).g 2 = 0x100 ∧ (withSlot CSlot.reset).g 3 = 0 ∧ ((withSlot armed).cslot 31 3).arm = true ∧
    (∀ i ∈ [Instr.wdisarm 1 true true, .wcnt 1 6 true true, .wadd 5 1 true true, .wwait 5 1 6 true true, .wwait 0 1 6 true true, .wstart 1 true true],
      (withSlot armed).issues i = true ∧ (withSlot { armed with pers := true }).issues i = true ∧
      (withSlot { armed with pers := true, done := true }).issues i = true ∧ (withSlot { armed with pers := true, err := true }).issues i = true ∧
      (withSlot CSlot.reset).issues i = true) ∧
    (∀ i ∈ [Instr.warm 3 2 4 true true, .wdisarm 4 true true, .wcnt 4 6 true true, .wadd 5 4 true true, .wwait 5 4 6 true true, .wstart 4 true true],
      (slotOf (withSlot armed) i).any (fun x => x.1 == 32) = true ∧ (withSlot armed).issues i = true) ∧
    (withSlot armed).settled = true ∧ (withSlot CSlot.reset).settled = true := by decide +kernel

/-- Slot 3 of the boot core is at the entry at local byte 0x100, which sends two words from 0x200 to core 5 once COUNT is `n`, or is malformed. -/
def firing (n : Nat) (bad : Bool) : State := { withSlot { armed with cursor := some 0x100 } with
  mem := (if bad then [(localKey 31 0x10B, 0x60)] else []) ++ [(localKey 31 0x10E, 0x40), (localKey 31 0x112, 2)] ++
    (if n = 0 then [] else [(localKey 31 0x114, 1)]) ++
    [(localKey 31 0x119, 1), (localKey 31 0x11D, 5), (localKey 31 0x11F, 0xFE), (localKey 31 0x203, 0x3F)] }

/-- A wave of two words for `dst`. -/
def waveOf2 (reduce : Bool) (dst : W) : Wave :=
  { id := 8, core := 31, hart := 0, slot := 3, gen := 0, ctx := 0, agid := 0, mode := 3, reduce := reduce, dst := dst, dslot := 2, typ := 0, op := 0,
    nel := 2, dl := false, list := false, got := 0, pairs := [], elems := if reduce then [(0x3F800000, false), (0, false)] else [],
    raw := if reduce then [] else [(1, false), (2, false), (3, false), (4, false), (5, false), (6, false), (7, false), (8, false)] }

/-- That wave on its way to slot 2 of core 5, owed to slot 3 of the boot core. -/
def waving (w : Wave) (arm : Bool) : State := { (withSlot { armed with owed := [8] }).onSlot 5 2 (fun _ => { armed with arm := arm }) with
  net := { State.reset.net with waves := [w] } }

theorem witness_CollectivesFireAndComplete :
    (∀ n : Nat, n < 2 → ∀ bad : Bool, let s := firing n bad
      let e := wentry (BitVec.ofNat 256 (bytesValue s.mem (localKey 31 0x100) 32))
      (s.cslot 31 3).arm = true ∧ (s.cslot 31 3).cursor = some 0x100 ∧ poisoned s (localKey 31 0x100) 32 = false ∧ e.thresh.toNat = n ∧
        e.malformed (s.core 31).colldens.toNat = bad ∧ e.kind = (if bad then 3 else 0) ∧ e.sl = false ∧
        (bad = false → s.buffersOk 31 (s.cslot 31 3) e (s.core 31).colldens.toNat = true)) ∧
    (∀ r : Bool, let w := waveOf2 r 0xFE00050000000100
      let s := waving w true
      s.findWave 8 = some w ∧ s.heldBack 8 0 = false ∧ w.packets ≤ w.got + 1 ∧ w.dead = false ∧ (s.cslot 5 2).done = false ∧ spaceOf w.dst = .peer ∧ w.dst.extractLsb' 52 4 = 0 ∧ w.dst.extractLsb' 40 12 = 5 ∧
        s.pkg.absent = [] ∧ (s.core 5).sys.fenced = false ∧ s.admits 5 0 14 = true ∧ (s.cslot 5 2).arm = true ∧ (s.cslot 5 2).ctx = 0 ∧
        (s.cslot 5 2).gen = 0 ∧ (s.wavePlace w 5).toOption = some 0x100 ∧ (s.cslot 5 2).cursor = none ∧ Memory.wf s.mem = true ∧
        poisoned s (localKey 5 0x100) 8 = false ∧ ((waving w false).cslot 5 2).arm = false ∧ ((waving w false).cslot 31 3).owed = [8] ∧
        (waving { w with dead := true } true).findWave 8 = some { w with dead := true } ∧
        (waving { w with dead := true } true).heldBack 8 0 = false ∧ s.retraining 0 = false) ∧
    (∀ n, ((waving (waveOf2 n 0xFE00050000000100) true).cslot 31 3).owed = [8]) ∧
    (let w := waveOf2 false 0x100000
     let s := { (waving w true).onCore 31 (fun k => { k with mem := { k.mem with ptbase := 0x10000 } }) with
       mem := (streaming (cmdOf .copy true [] 0 0)).mem, books := (streaming (cmdOf .copy true [] 0 0)).books }
     s.findWave 8 = some w ∧ (s.heldBack 8 0 = false ∧ w.packets ≤ w.got + 1) ∧ w.dead = false ∧ spaceOf w.dst = .global ∧ Memory.wf s.mem = true ∧ reachesAt s w.party .store w.dst 8 0x100000000000) ∧
    ((withSlot armed).cslot 31 3).done = false ∧ ((withSlot armed).cslot 31 3).cursor = none ∧ ((withSlot armed).cslot 31 3).owed = [] :=
  ⟨by decide +kernel, by decide +kernel, by decide +kernel, ⟨by decide +kernel, by decide +kernel, by decide +kernel, by decide +kernel, by decide +kernel,
    by decide +kernel, rfl⟩, by decide +kernel⟩

theorem witness_CsrInstructionsExchange :
    (∀ i ∈ [Instr.csrrs 0x00D 0 3 true true, .csrrc 0x012 0 3 true true, .csrsi 0x120 0 3 true true, .csrci 0x014 0 3 true true],
      (csrOf State.reset i).any (fun x => x.1 != .write && x.2.2.1 == 0 && x.2.1 != 0x013) = true ∧ State.reset.issues i = true) ∧
    (∀ n ∈ [0x00D, 0x012, 0x120, 0x014], State.reset.csrBusy n none = false ∧ plainCsr n = true ∧ CsrForm.write.reservedSet n 7 = false ∧
      (withG [(1, 7)]).issues (.csrrw (BitVec.ofNat 12 n) 1 3 true true) = true ∧
      (withG [(1, 7)]).issues (.csrsi (BitVec.ofNat 12 n) 7 3 true true) = true ∧
      (withG [(1, 7)]).issues (.csrrc (BitVec.ofNat 12 n) 1 3 true true) = true) ∧
    (CsrForm.write.reservedSet 0x140 0x2000 = true ∧ (withG [(1, 0x2000)]).issues (.csrrw 0x140 1 3 true true) = true ∧
      (withG [(1, 0x2000)]).settled = true) ∧
    (let s := State.reset.onHart fun h => { h with mode := 0 }
     s.settled = true ∧ prefixOk (.csrrw 0x008 1 3 true true) s = true ∧ privOk (.csrrw 0x008 1 3 true true) s = false) ∧
    ((withG [(1, 0x3C)]).issues (.csrrw 0x000 1 3 true true) = true ∧ CsrForm.write.reservedSet 0 0x3C = false ∧ (0x3C#64).extractLsb' 4 2 = 3 ∧
      State.reset.hart.mode = 3) ∧
    (∀ n ∈ [0x020, 0x025, 0x02B], (withG [(1, 8)]).issues (.csrrw (BitVec.ofNat 12 n) 1 3 true true) = true ∧
      CsrForm.write.reservedSet n 8 = false ∧ State.reset.slot = .lone) ∧
    (∀ b : Bool, let s := withG [(1, if b then 0x24 else 0x05)]
      s.issues (.csrrw 0x02C 1 3 true true) = true ∧ CsrForm.write.reservedSet 0x02C (s.g 1) = false ∧
        decide (((s.g 1).extractLsb' 0 3).toNat ≤ 4 ∧ ((s.g 1).extractLsb' 4 3).toNat ≤ 4) = b) ∧
    ((withG [(1, 0x1000)]).issues (.csrrw 0x210 1 3 true true) = true ∧ CsrForm.write.reservedSet 0x210 0x1000 = false) := by decide +kernel

/-- A CSRRW of `x` to CSR `n` by the boot hart is one that the register's own rules judge as `ok` tells. -/
def csrJudged (n : Nat) (x : W) (ok : Option Bool) : Bool :=
  let s := withG [(1, x)]
  s.issues (.csrrw (BitVec.ofNat 12 n) 1 3 true true) && !(CsrForm.write.reservedSet n x) && !s.csrBusy n none &&
    mayHold s n (CsrForm.write.leaves (s.csrRead n) x) == ok

theorem witness_CsrsWithEffects : csrJudged 0x002 3 (some true) = true ∧ csrJudged 0x018 1 (some true) = true ∧
    csrJudged 0x100 4 (some true) = true ∧ csrJudged 0x100 5 (some false) = true ∧ csrJudged 0x180 64 (some true) = true ∧
    csrJudged 0x180 0 (some false) = true ∧ csrJudged 0x280 1 (some true) = true ∧ csrJudged 0x280 0x20 (some false) = true ∧
    csrJudged 0x282 2 (some true) = true ∧ csrJudged 0x282 3 (some false) = true ∧ csrJudged 0x290 0x8000000000080000 (some true) = true ∧
    csrJudged 0x290 0x8000000000000000 (some false) = true ∧ csrJudged 0x2C1 1 (some true) = true ∧ csrJudged 0x2C1 0 (some false) = true ∧
    csrJudged 0x339 0xC00 (some true) = true ∧ csrJudged 0x339 0 (some false) = true ∧ csrJudged 0x141 1 (some true) = true ∧
    csrJudged 0x010 0x1001 none = true ∧ csrJudged 0x284 3 none = true ∧ csrJudged 0x208 0x100000000 none = true := by decide +kernel

theorem witness_TrapsEnterAndReturn : State.reset.issues (.ecall true) = true ∧ State.reset.issues (.ebreak true) = true ∧
    State.reset.settled = true ∧ State.reset.issues (.tret true) = true ∧ State.reset.slot = .lone ∧ State.reset.hart.frozen = [] := by decide +kernel

/-- The software interrupt is enabled and pending. -/
def interrupted : State := State.reset.onHart fun h => { h with ie := true, trap := { h.trap with ien := 1, soft := true } }

/-- A word at local byte 0: no bit of it is set, or its opcode is not defined. -/
def badWord (b : Byte) : State := { State.reset.onHart fun h => h with mem := if b = 0 then [] else [(localKey 31 0, b)] }

/-- The boot hart at the first global page, whose leaf is malformed. -/
def fetching : State := { (State.reset.onHart fun h => { h with pc := 0x100000 }).onCore 31 fun k => { k with mem := { k.mem with ptbase := 0x10000 } } with
  mem := [(0x10000, 0x03), (0x10001, 0x10), (0x10002, 0x01), (0x11000, 0x03), (0x11001, 0x20), (0x11002, 0x01),
          (0x12000, 0x03), (0x12001, 0x30), (0x12002, 0x01), (0x13800, 0x5D)] }

/-- The ticket of its fetch has been answered with a fault. -/
def fetchFailed (cause : BitVec 9) : State := { fetching with
  books := { fetching.books with tickets := [{ ticketOf (some (some cause)) with vpn := 0x100, kind := 0 }] } }

theorem witness_InterruptsAndBadWordsAreTaken :
    (interrupted.firstSource 31 0 = some 0 ∧ interrupted.interruptDue 31 0 = true ∧ (interrupted.core 31).awake = true ∧
      interrupted.timeUp 31 = false) ∧
    (∀ n ∈ [0, 3], (badWord (BitVec.ofNat 8 n)).mayIssue 31 0 = true ∧
      (match atPc (badWord (BitVec.ofNat 8 n)) 31 0 with
        | .illegal _ k => decide (k < 8)
        | _ => false) = true ∧ (badWord (BitVec.ofNat 8 n)).unconfirmed 31 0 = false) ∧
    (let s := State.reset.onHart fun h => { h with pc := 0x80000 }
     s.mayIssue 31 0 = true ∧ atPc s 31 0 = .noFetch 0x80000 (.fault 0x042) ∧ s.unconfirmed 31 0 = false) ∧
    (fetching.mayIssue 31 0 = true ∧ atPc fetching 31 0 = .noFetch 0x100000 (.malformed 0x080) ∧ fetching.unconfirmed 31 0 = false) ∧
    (∀ cause ∈ [0x081#9, 0x1C5], let s := fetchFailed cause
     s.mayIssue 31 0 = true ∧ atPc s 31 0 = .noFetch 0x100000 (.failed cause (if cause = 0x1C5 then 2 else 0x20001)) ∧
       s.unconfirmed 31 0 = false) := by decide +kernel

/-- An HSTART or HSTOP of hart 1 of the boot core, or of the boot hart by hart 1. -/
def hartCmd (start : Bool) : HartCmd :=
  if start then { id := 8, start := true, dst := 31, target := 1, pc := 0x40, core := 31, hart := 0, mode := 3 }
  else { id := 8, start := false, dst := 31, target := 0, pc := 0, core := 31, hart := 1, mode := 3 }

/-- Its issuer waits for the acknowledgement. -/
def commanded (start : Bool) : State :=
  { State.reset.onHartAt 31 (hartCmd start).hart fun h =>
      { h with stopped := false, wait := .hart 8, waitAt := some { slot := .lone, op := .hstop 1 true } } with
    net := { State.reset.net with hcmds := [hartCmd start] } }

/-- Hart 1 stops itself. -/
def selfStop : State := { commanded false with net := { State.reset.net with hcmds := [{ hartCmd false with target := 1 }] } }

theorem witness_HartsWaitStopAndStart :
    State.reset.issues (.wfi true) = true ∧ State.reset.firstSource 31 0 = none ∧ interrupted.issues (.wfi true) = true ∧
    (let s := waitingIn .wfi (.wfi true) interrupted
     (s.hartAt 31 0).wait = .wfi ∧ (s.hartAt 31 0).waitAt = some { slot := .lone, op := .wfi true } ∧ s.firstSource 31 0 ≠ none) ∧
    (State.reset.issues (.halt true) = true ∧ State.reset.hart.rx = false ∧ ∀ h, h ≠ 0 → State.reset.stoppable 31 h = true) ∧
    (∀ n ∈ [0x101F, 0x4000], let s := withG [(1, BitVec.ofNat 64 n), (2, 8), (3, 6)]
      s.issues (.hstart 2 1 true) = true ∧ s.issues (.hstart 3 1 true) = true ∧ s.issues (.hstop 1 true) = true ∧ s.settled = true ∧
        s.hart.mode = 3) ∧
    (∀ start : Bool, let m := hartCmd start
      let s := commanded start
      s.net.hcmds.find? (fun m => m.id == 8) = some m ∧ s.heldBack 8 0 = false ∧ s.refusesHart m = false ∧ (m.core, m.hart) ≠ (m.dst, m.target) ∧
        (s.hartAt m.core m.hart).wait = .hart 8 ∧ (s.hartAt m.core m.hart).waitAt = some { slot := .lone, op := .hstop 1 true } ∧
        (start = true → (s.hartAt 31 1).stopped = true) ∧ (start = false → s.stoppable 31 0 = true)) ∧
    (let s := selfStop
     s.net.hcmds.find? (fun m => m.id == 8) = some { hartCmd false with target := 1 } ∧ s.heldBack 8 0 = false ∧ s.refusesHart { hartCmd false with target := 1 } = false ∧
       (s.hartAt 31 1).wait = .hart 8 ∧ (s.hartAt 31 1).waitAt = some { slot := .lone, op := .hstop 1 true }) ∧
    (({ commanded false with pkg := { State.reset.pkg with absent := [31] } } : State).refusesHart (hartCmd false) = true) ∧
    (let s := (commanded true).onHartAt 31 0 id
     ({ s.onCore 4 fun k => { k with mem := { k.mem with ctxid := 7 } } with net := { s.net with hcmds := [{ hartCmd true with core := 4 }] } } : State).refusesHart
       { hartCmd true with core := 4 } = true) := by decide +kernel

/-- Core 5 belongs to context 7. -/
def inContext : State := State.reset.onCore 5 fun k => { k with mem := { k.mem with ctxid := 7 } }

/-- An invalidation that waits for nothing more. -/
def draining : State := { (waitingIn .tlbinv (.csrrw 0x210 1 3 true true) State.reset) with
  books := { State.reset.books with drains := [{ waiter := .hart 31 0, parts := [] }, { waiter := .host 1 2 0, parts := [] }] } }

/-- A ticket of page 1 with this reason, by the tables with this leaf; page 1 is declared to context 0, or not, and
agent 0 may hold five pages. -/
def ticketing (reason : BitVec 3) (leaf : Byte) (declared : Bool) : State := { mapped leaf State.reset with
  mem := (0, 5) :: tables leaf
  books := { State.reset.books with
    tickets := [{ ticketOf none with reason := reason }]
    declared := if declared then [{ ctx := 0, lo := 0x1000, hi := 0x2000, r := true, w := true, x := false, u := true }] else [] } }

/-- The same ticket, when the last table lies in host memory. -/
def awayTable : State := { ticketing 1 0x1D false with
  mem := [(0x10000, 0x03), (0x10001, 0x10), (0x10002, 0x01), (0x11000, 0x03), (0x11001, 0x20), (0x11002, 0x01), (0x12000, 0x03), (0x12005, 0x20)] }

theorem witness_TranslationsAreWithdrawnAndServed :
    ((State.reset.hartAt 31 0).mode = 3 ∧ (State.reset.hartAt 31 0).stopped = false ∧ (State.reset.hartAt 31 0).wait = .none) ∧
    (draining.books.drains.find? (fun d => d.waiter == DrainFor.hart 31 0) = some { waiter := .hart 31 0, parts := [] } ∧
      (draining.hartAt 31 0).wait = .tlbinv ∧ (draining.hartAt 31 0).waitAt = some { slot := .lone, op := .csrrw 0x210 1 3 true true } ∧
      draining.books.drains.find? (fun d => d.pasid == some 1) = some { waiter := .host 1 2 0, parts := [] }) ∧
    (∀ n : Nat, n < 3 → let b : Bool := decide (n = 2)
      let leaf : Byte := if n = 0 then 0x1D else 0x3C
      let s := ticketing 0 leaf b
      let k := ticketOf none
      s.findTicket 2 1 = some k ∧ s.books.tickets.find? (fun u => u.ctx == k.ctx && u.vpn == k.vpn && u.answer.isNone) = some k ∧
        s.frameTaken 0x200 4 = false ∧ Memory.wf s.mem = true ∧
        (n = 0 → walk s.mem 0x1000 4 (s.memOf 31 0).root = .leaf 0 0x5501D 0x13008) ∧
        (n ≠ 0 → walk s.mem 0x1000 4 (s.memOf 31 0).root = .ticket .absent 0 0x13008) ∧ (s.declaredAt 0 1).isSome = b ∧
        levelOf s.mem 0x1000 4 (s.memOf 31 0).root = 0 ∧ (s.charge 31 0 0 0x200 1).isSome = true ∧ s.books.touched = [] ∧
        4096 * ((0x200#36).toNat + 1) ≤ s.cap.allocBytes ∧ (s.charge 31 0 1 0x200 1).isNone = true ∧
        s.cap.allocBytes < 4096 * ((0x18000000#36).toNat + 0 + 1) ∧ s.frameTaken 0x18000000 4 = false) ∧
    (walk awayTable.mem 0x1000 4 (awayTable.memOf 31 0).root = .ticket .walkNode 3 0x12000 ∧ Memory.wf awayTable.mem = true ∧
      (BitVec.ofNat 64 (bytesValue awayTable.mem 0x12000 8)).getLsbD 8 = false ∧ 4096 * ((0x200#36).toNat + 1) ≤ awayTable.cap.allocBytes) ∧
    (TicketReason.host.code = 3 ∧ (ticketing 3 0x8D false).findTicket 2 1 = some { ticketOf none with reason := 3 }) := by decide +kernel

/-- Capacity with eleven active stacks while the twelfth retires. -/
def retiring (open' bounced : Bool) (cursor : BitVec 40) : State := { State.reset with
  cap := { State.reset.cap with active := if open' then 0x7FF else 0xFFF, pend := !open', isOpen := open', rstk := 11, cursor := cursor,
                                target := if open' then none else some 11, bounced := bounced } }

/-- Before that, the first table of context 7's root lies above the new capacity; or it is marked, and nothing goes through it any more. -/
def evacuating (marked : Bool) : State := { (inContext.onCore 5 fun k => { k with mem := { k.mem with ptbase := 0x10000 } }) with
  cap := (retiring false false 0).cap
  books := { State.reset.books with drains := if marked then [{ waiter := .move 7 0 3, parts := [] }] else [] }
  mem := [(0x10000, 0x03)] ++ (if marked then [(0x10001, 0x01)] else []) ++ [(0x10004, 0x60), (0x10005, 0x01)] }

/-- The entry of that table. -/
def highTable (marked : Bool) : Mapped :=
  { place := 0x10000, vpn := 0, level := 3, pte := if marked then 0x16000000103 else 0x16000000003 }

/-- A byte of the high table, or of the root beyond its first entry, reads zero. -/
theorem evacuating_clear (b : Bool) (a : Nat) (h : 0x10008 ≤ a) : readByte (evacuating b).mem a = 0 := by
  have h0 : ∀ k, k ≤ 0x10005 → k ≠ a := by omega
  cases b <;> simp [evacuating, readByte, Config.unwrittenByte, h0, show ¬ a < 0x10000 by omega, show ¬ a < 0x10001 by omega,
    show ¬ a < 0x10004 by omega, show ¬ a < 0x10005 by omega]

theorem witness_TablesAreEvacuated (b : Bool) : (evacuating b).highEntries (11 * 2 ^ 37) = [(7, highTable b)] ∧
    (evacuating b).cap.target = some 11 ∧ Memory.wf (evacuating b).mem = true ∧ (highTable b).migrates = b ∧
    (evacuating b).drained { waiter := .move 7 0 3, parts := [] } = true := by
  have hr : (evacuating b).roots = [(7, 0x10000)] := by cases b <;> decide +kernel
  have hm : mappedFrom (evacuating b).mem 4 0x10000 0 = [highTable b] := by
    have hf : 4096 * ((highTable b).pte.extractLsb' 12 36).toNat = 0x16000000000 := by cases b <;> rfl
    exact mappedFrom_pointer _ 3 _ 0 (highTable b).pte (by cases b <;> decide +kernel) (by cases b <;> rfl) (by cases b <;> rfl)
      (by cases b <;> decide +kernel) (fun j h _ => evacuating_clear b _ (by omega)) (fun j _ => evacuating_clear b _ (by omega))
  refine ⟨?_, by cases b <;> decide +kernel⟩
  simp only [State.highEntries, hr, List.flatMap_cons, List.flatMap_nil, List.append_nil, hm]
  cases b <;> decide +kernel

theorem witness_CapacityShrinksByAStack :
    (0#64).extractLsb' 60 3 = 0 ∧
    (State.reset.cap.isOpen = false ∧ State.reset.cap.pend = false ∧ State.reset.cap.active.getLsbD 11 = true ∧
      0 < (activeStacks State.reset.cap.active).length - 1) ∧
    ((retiring false false 0).usedAbove (11 * 2 ^ 37) = false ∧ (retiring false false 0).hbmInFlight = false ∧
      (retiring false false 0).cap.target = some 11) ∧
    (∀ n ∈ [5, 0x15FFFFFFF], let c := (retiring true false (BitVec.ofNat 40 n)).cap
      c.isOpen = true ∧ c.bounced = false ∧ c.cursor ≠ BitVec.allOnes 40 ∧ decide (12 * 11 ≤ c.cursor.toNat) = decide (n ≠ 5)) ∧
    (activeStacks (retiring true false 5).cap.active).length + 1 = 12 ∧
    ((retiring true true 5).cap.isOpen = true ∧ (retiring true true 5).cap.rstk = 11 ∧ (retiring true true 5).cap.bounced = true) := by decide +kernel

/-- The packet of a store of the boot core on its way, sent `resends` times more, for package `d` by its header. -/
def flightOf (d : BitVec 4) (resends : Nat) : Flight :=
  { n := 6, k := 0, src := 31, dst := 31, pkg := 0, dpkg := d, seq := 0, since := 0, resends := resends, copies := [(resends, false)], answers := [], done := false }

/-- Sixty-four bytes on their way. -/
def widePart : Part := { sentPart with size := 64 }

/-- The store, and that packet, when its timer has run out; link 0 has failed 17 frames within few cycles. -/
def lossy (f : Flight) (retrain : Bool) : State :=
  let s := (withAcc (accessOf .store [widePart])).onCore 31 fun k => { k with cycles := 0x100000 }
  { s with net := { s.net with flights := [f] }
           pkg := { s.pkg with links := [{ id := 0, fails := List.replicate 17 0xFFFFF, retrain := retrain }] } }

/-- Reach port 2 is in state `n`; its link went down at time 5, or is up. -/
def port (n : BitVec 2) (down : Option W) : State := { State.reset with
  timeRef := 200000, pkg := { State.reset.pkg with rpState := State.reset.pkg.rpState.set 2 n, rpDown := State.reset.pkg.rpDown.set 2 down } }

/-- What that packet carries. -/
def storePacket : Packet := .part (accessOf .store [widePart]) widePart (.phys 0x100 0)

theorem witness_MalformedPackets : ∀ d ∈ [1#4, 2], ∀ n ∈ [0, 8],
    (lossy (flightOf d n) false).badFlight (flightOf d n) storePacket = decide (d = 2) := by
  simp only [State.badFlight_eq]
  decide +kernel

theorem witness_FabricLosesAndRecovers :
    (∀ d ∈ [1#4, 2], ∀ n ∈ [0, 8], let f := flightOf d n
      let s := lossy f false
      (s.net.flights.filter fun g => g.n == 6) = [f] ∧ s.packetAt 6 0 = some storePacket ∧
        s.elapsed f (s.timeoutAt 31) = true ∧ s.resendLimit f = 8 ∧ s.bodyFlits storePacket ≠ 0 ∧ s.stopsAt f = false) ∧
    (∀ b : Bool, ((lossy (flightOf 1 0) b).link 0).retrain = b) ∧
    16 < (((lossy (flightOf 1 0) false).link 0).recent (lossy (flightOf 1 0) false).coreCycles).length ∧
    (∀ n : Nat, n < 4 → (port (BitVec.ofNat 2 n) none).portState 2 = BitVec.ofNat 2 n) ∧ (port 2 none).pkg.rpDown[2]? = some none ∧
    (port 0 (some 5)).pkg.rpDown[2]? = some (some 5) ∧ (5#64).toNat + 100000 ≤ (port 0 (some 5)).timeRef.toNat := by decide +kernel

/-- One queue is registered; the record of another stands at 0x2000 for context `x`; and the package has booted. -/
def outside (x : Byte) : State := { inContext with
  mem := if x = 0 then [] else [(0x2034, x)]
  pkg := { State.reset.pkg with boot := .done 0 State.reset.pkg.flash.slotA.table }
  front := { State.reset.front with queues := [{ qidx := 5, pa := 0x3000, rung := false, passes := 0, slot := none, stamp := 0 }] } }

/-- Both slots verify; marker copy M0 names slot A with SEQ 4, M1 slot B with SEQ 5. The CRCs were computed apart from the model. -/
def flashed : Flash :=
  { slotA := State.reset.pkg.flash.slotA, slotB := State.reset.pkg.flash.slotA
    m0 := 0xdb04f8d40000000000000000000000000000000000000004000000004d524b53
    m1 := 0x100b52030000000000000000000000000000000100000005000000004d524b53 }

theorem witness_RequestsFromOutside :
    (migrationHolds State.reset.cap 0x1000 = false ∧ Memory.wf State.reset.mem = true ∧ physCheck State.reset.cap .store true 1 0x1000 8 = .ok ∧
      physCheck State.reset.cap .store true 1 0x1007 1 = .ok ∧ physCheck State.reset.cap .load true 1 0x1000 8 = .ok ∧
      physCheck State.reset.cap .load true 1 0x1007 1 = .ok ∧ poisoned State.reset 0x1000 8 = false ∧
      (∃ p, physCheck State.reset.cap .load true 1 0x17FFFFFFFFF0 8 = .problem p)) ∧
    ((∃ r ∈ (outside 0).front.queues, r.qidx = 5) ∧ (outside 0).front.queues.length ≤ 64) ∧
    (∀ n ∈ [0, 7, 8], let s := outside (BitVec.ofNat 8 n)
      Memory.wf s.mem = true ∧ bytesValue s.mem 0x2034 2 = n ∧ (n = 7 → s.partition 7 = [5]) ∧ (n = 8 → s.partition 8 = [])) ∧
    ((outside 0).devReg 0x300000001040 = some .rproute ∧ ((outside 0).hartAt 31 0).mode = 3 ∧ ((outside 0).hartAt 5 0).mode = 1) ∧
    ((0x800#64) &&& csrReserved 0x248 = 0 ∧ ringBad 0x800 = false ∧ ((outside 0).core 31).tags.ltBase ≠ 16) ∧
    ((0x1001#64) &&& csrReserved 0x320 = 0 ∧ ((0x1001#64).extractLsb' 8 4).toNat < 10) ∧
    (markerValid flashed.m0 = true ∧ markerValid flashed.m1 = true ∧ seqHigher (markerSeq flashed.m1) (markerSeq flashed.m0) = true ∧
      flashed.verifies (markerSlot flashed.m1) = true ∧ markerValid 0 = false ∧ flashed.verifies 0 = true) :=
  ⟨⟨by decide +kernel, by decide +kernel, by decide +kernel, by decide +kernel, by decide +kernel, by decide +kernel, by decide +kernel, _, rfl⟩,
    by decide +kernel, by decide +kernel, by decide +kernel, by decide +kernel, by decide +kernel, by decide +kernel⟩

/-- A launch of context 7 on core 5. -/
def launch7 (phase : BitVec 2) (replay : Option (BitVec 3)) : Launch :=
  { id := 8, queue := none, ctx := 7, agid := 0, by_ := 5, desc := 0x100000, phase := phase, kind := 0x40, status := 0, rpl := false, lim := 0, rcnt := 0, param := 3,
    compl := 0, stages := [{ entry := 0x40, image := 0x100080, len := 64, height := 1, width := 1, harts := 1 }], edges := [],
    cores := if phase = 2 then [[5]] else [], root := 0x10000, replay := replay }

/-- Core 5 has a kennel, or is suspect and stands still. -/
def troubled (fenced : Bool) : State := { (inContext.onCore 5 fun k =>
    { k with sys := { k.sys with kennel := 0x8000000000000001, fenced := fenced, chkstat := 0x8000000000000000 } }) with
  pkg := { State.reset.pkg with heel := [(7, 2)], moved := if fenced then [6] else [] }
  books := { State.reset.books with quarantine := [0x55] }
  front := { State.reset.front with launches := [launch7 2 (some 3)] }
  arrays := [(arrayOf 5, { Arr.reset with queue := [{ mxCmd 1 with ctx := 7 }] })]
  mem := [(localKey 31 0, 0xDB), (localKey 31 1, 0x52), (localKey 31 2, 0x34), (localKey 31 3, 0x12)] }

theorem witness_ErrorsAreContained :
    lineKey 1 31 0x100 = some (localKey 31 0x100) ∧
    (((troubled false).core 5).sys.fenced = false ∧ ((troubled false).core 5).sys.kennel.getLsbD 63 = true) ∧
    (7 ∈ (troubled false).workIn 4 5 0 ∧ (troubled false).replayStat 7 = none ∧ (troubled false).pkg.recallBusy = false) ∧
    ((troubled false).atChecked 31 0 = true ∧ (troubled false).unconfirmed 31 0 = false) ∧ correctable 1 0 = true ∧ correctable 0 1 = true ∧
    ((troubled true).core 5).sys.fenced = true ∧ (troubled true).net.accs = [] ∧
    (withPend (pendOf (.div 2 1 3 true true) (.div 3 9) false)).hart.pend.any Pend.checkedLate = true ∧
    State.reset.pkg.elog[0]?.any (fun r => !r.getLsbD 0) = true ∧ (0x55 ∈ (troubled false).books.quarantine ∧ Memory.wf (troubled false).mem = true) ∧
    (∀ b : Bool, let s := troubled b
      (s.core 5).sys.suspect = true ∧ s.heelState 7 = 2 ∧ s.phaseOf 7 = 0 ∧ s.pkg.absent = [] ∧ s.pkg.moved.any (sameRow 5) = b) ∧
    ((troubled false).front.launches.find? (fun l => l.ctx == 7 && l.replay.isSome) = some (launch7 2 (some 3)) ∧
      (troubled false).cores.map (fun k => k.1) = [5]) ∧
    (inContext.partition 7 = [5] ∧ inContext.pkg.requests = [] ∧ (100#16).toNat ≤ inContext.pkg.pwrbud.toNat) ∧
    (4000#13).toNat < State.reset.pkg.pwrbud.toNat := by decide +kernel

/-- Context 7 in a state of its partition and a phase of a switch; core 5 stands still, or is due to switch. -/
def staged (heel phase : BitVec 2) : State := { (inContext.onCore 5 fun k =>
    { k with sys := { k.sys with heeled := decide (heel ≠ 0), switcht := 1 } }) with
  timeRef := 100, pkg := { State.reset.pkg with heel := if heel = 0 then [] else [(7, heel)], switching := if phase = 0 then [] else [(7, phase)] } }

/-- A recall of context 7 in progress. -/
def recalling (due sweep : List CoreId) : State := { inContext with
  pkg := { State.reset.pkg with recallBusy := true, victim := 7, floodDue := due, sweepDue := sweep } }

theorem witness_PartitionsStopSwitchAndAreRecalled :
    (∀ n : Nat, n < 4 → (staged (BitVec.ofNat 2 n) 0).heelState 7 = BitVec.ofNat 2 n ∧ (staged (BitVec.ofNat 2 n) 0).partition 7 = [5] ∧
      (staged (BitVec.ofNat 2 n) 0).phaseOf 7 = 0 ∧ (staged 1 (BitVec.ofNat 2 n)).phaseOf 7 = BitVec.ofNat 2 n) ∧
    ((staged 1 0).allStopped 7 = true ∧ (staged 1 1).allStopped 7 = true ∧ (staged 1 1).reported 5 = true) ∧
    (let s := staged 0 0
     (s.core 5).sys.switcht.toNat ≤ (s.ptc 5).toNat ∧ (s.core 5).sys.switcht ≠ 0 ∧ (s.core 5).sys.heeled = false ∧ (s.core 5).mem.ctxid = 7) ∧
    ((staged 3 0).coresFree 7 = true ∧ (staged 3 0).imagesOf 7 = []) ∧ (staged 3 3).pkg.spills = [] ∧ State.reset.pkg.recallBusy = false ∧
    (5 ∈ (recalling [5] []).pkg.floodDue ∧ Memory.wf (recalling [5] []).mem = true ∧ ((recalling [5] []).core 5).mem.ctxid = 7) ∧
    5 ∈ (recalling [] [5]).pkg.sweepDue ∧ ((recalling [] []).pkg.kills = [] ∧ (recalling [] []).pkg.victim ≠ 0 ∧ (recalling [] []).front.launches = []) := by decide +kernel

/-- A descriptor of context 7 in a software FIFO, whose record and image stand in the page at 0x55000. -/
def offered (l : List Launch) : State := { (inContext.onCore 5 fun k => { k with mem := { k.mem with ptbase := 0x10000 } }) with
  front := { State.reset.front with soft := [(0, 0x100000, 7, 0, 5)], launches := l }
  mem := [(0x10000, 0x03), (0x10001, 0x10), (0x10002, 0x01), (0x11000, 0x03), (0x11001, 0x20), (0x11002, 0x01),
          (0x12000, 0x03), (0x12001, 0x30), (0x12002, 0x01), (0x13800, 0x1D), (0x13801, 0x50), (0x13802, 0x05),
          (0x55000, 1), (0x55040, 0x40), (0x55054, 0x80), (0x55056, 0x10), (0x5505C, 0x40), (0x55080, 0x41)] }

/-- A descriptor whose record has no stage. -/
def badOffer : State := { offered [] with front := { State.reset.front with soft := [(0, 0x100800, 7, 0, 5)] } }

theorem witness_LaunchesAreCheckedBoundAndCompleted :
    ((offered []).sourceOf (4096 + 7) = some (.device 7) ∧ ((offered []).offer (.device 7)).any (fun o => o.desc == 0x100000 && o.ctx == 7) = true ∧
      (offered []).partition 7 = [5] ∧ (offered []).front.launches = [] ∧ (0x100000#64).extractLsb' 2 4 = 0 ∧ (0x100000#64).extractLsb' 48 16 = 0 ∧
      (match (offered []).checkRecord (frontParty 5 7 0) 0x100000 with
        | .found _ st r => st == 0 && r.stages.map stageOf == [{ entry := 0x40, image := 0x100080, len := 64, height := 1, width := 1, harts := 1 }]
        | .wait _ => false) = true) ∧
    ((offered [launch7 1 none]).chosen = some (launch7 1 none) ∧ (offered [launch7 1 none]).placement (launch7 1 none) = some [[5]] ∧
      (offered [launch7 1 none]).unchecked = [] ∧
      (match readImages (frontParty 5 7 0) (launch7 1 none).stages (offered [launch7 1 none]) with
        | .ok (_, l) => l.map List.length == [64]
        | .error _ => false) = true) ∧
    ((offered [launch7 2 none]).front.launches.find? (fun l => l.id == 8) = some (launch7 2 none) ∧
      (offered [launch7 2 none]).launchDone (launch7 2 none) = true) ∧
    (offered [launch7 3 none]).front.launches.find? (fun l => l.id == 8) = some (launch7 3 none) ∧
    ((badOffer.offer (.device 7)).any (fun o => o.desc == 0x100800 && o.queue.isNone) = true ∧
      (match badOffer.checkRecord (frontParty 5 7 0) 0x100800 with
        | .found _ st r => st != 0 && field r.head 128 64 == 0
        | .wait _ => false) = true) := by decide +kernel

/-- Words from local byte 0 of the boot core on. -/
def withWords (l : List (BitVec 32)) : State := { State.reset with
  mem := ((List.range l.length).flatMap fun i => (List.range 4).map fun j =>
    (localKey 31 (4 * i + j), (l[i]?.getD 0).extractLsb' (8 * j) 8)).filter fun p => p.2 != 0 }

theorem witness_StepRunsTheDecodedInstruction :
    (let s := withWords [0x680A41D3]
     spaceOf (s.hartAt 31 0).pc = .loc ∧ guardOk (s.core 31).mem.lguard (s.hartAt 31 0).mode .fetch 0 4 = true ∧ poisoned s (localKey 31 0) 4 = false ∧
       decodeBytes (readBytes s.mem (localKey 31 0) 4) = some (.div 5 4 3 true true, []) ∧ (readByte s.mem (localKey 31 0)).getLsbD 0 = true ∧
       contends s 31 0 = true ∧ (∀ k, k ≠ 0 → contends s 31 k = false) ∧ (s.hartAt 31 0).pause = 0 ∧ s.interruptDue 31 0 = false ∧
       (s.hartAt 31 0).watched .fetch 0 4 = none ∧
       s.hasBlock 31 0 (localKey 31 0) = false ∧ atPc (s.fetched 31 0) 31 0 = .lone (.div 5 4 3 true true) ∧ s.pkg.boot ≠ .noFirmware) ∧
    (let s := (withWords []).onHart fun h => { h with block := some { line := localKey 31 0 / 64, bytes := 0x680A41D3 } }
     (s.hartAt 31 0).block = some { line := localKey 31 0 / 64, bytes := 0x680A41D3 } ∧
       decodeWord ((0x680A41D3#512).extractLsb' (8 * (localKey 31 0 % 64)) 32) = .instr (.div 5 4 3 true true) ∧ (0x680A41D3#32).getLsbD 0 = true) ∧
    (({ State.reset with pkg := { State.reset.pkg with boot := .noFirmware } } : State).pkg.boot = .noFirmware) ∧
    (let s := withWords [0x02064292, 0x00107352]
     s.interruptDue 31 0 = false ∧ atPc (s.fetched 31 0) 31 0 = .pair (.ldd 2 0 0 4 5 true false) (.add 8 7 6 true false) ∧
       (s.hartAt 31 0).watched .fetch (s.hartAt 31 0).pc.toNat 8 = none) := by decide +kernel

theorem witness_MemoryStaysCanonical : State.reset.Canonical ∧ ∃ t, step State.reset = .next t := ⟨rfl, _, rfl⟩

theorem witness_DecodeAndEncodeAgree : ∀ i ∈ [Instr.add 8 7 6 true false, .csrrw 0x00D 1 0 true true, .lui 0x12345 5 true true],
    i.isWord = true ∧ i.wellFormed = true ∧ i.csrListed = true := by decide +kernel


/-! Words from the encodings of the manual: its own worked words where it gives one, else the fields of R52 put at their bits with W = L = 1. -/

/-- A word of format R: FN, C, B, A, D and the major opcode. -/
def wordR (fn c b a d major : Nat) : Word32 := BitVec.ofNat 32 (fn * 2 ^ 27 + c * 2 ^ 22 + b * 2 ^ 17 + a * 2 ^ 12 + d * 2 ^ 7 + major * 4 + 3)

/-- A word of format I: IMM12, F3, A, D and the major opcode. -/
def wordI (imm f3 a d major : Nat) : Word32 := BitVec.ofNat 32 (imm * 2 ^ 20 + f3 * 2 ^ 17 + a * 2 ^ 12 + d * 2 ^ 7 + major * 4 + 3)

/-- A word of format BR: OFF12, CND, B and A. -/
def wordBR (off cnd b a : Nat) : Word32 := BitVec.ofNat 32 (off * 2 ^ 20 + cnd * 2 ^ 17 + b * 2 ^ 12 + a * 2 ^ 7 + 1 * 4 + 3)

/-- A word of format M: OFF8, SCP, ORD, SZ, A, D and the major opcode. -/
def wordM (off scp ord sz a d major : Nat) : Word32 :=
  BitVec.ofNat 32 (off * 2 ^ 24 + scp * 2 ^ 22 + ord * 2 ^ 20 + sz * 2 ^ 17 + a * 2 ^ 12 + d * 2 ^ 7 + major * 4 + 3)

/-- A word of format V: FN, TY, K, B, A, D and the major opcode. -/
def wordV (fn ty k b a d major : Nat) : Word32 :=
  BitVec.ofNat 32 (fn * 2 ^ 27 + ty * 2 ^ 25 + k * 2 ^ 22 + b * 2 ^ 17 + a * 2 ^ 12 + d * 2 ^ 7 + major * 4 + 3)

/-- The word is that of the instruction. -/
def reads (p : Word32 × Instr) : Bool := decodeWord p.1 == .instr p.2

theorem test_decode_branches_and_jumps : [(0xFFE20187, Instr.bne 0xFFE 0 3 true true), (wordBR 7 0 2 1, .beq 7 2 1 true true), (wordBR 7 2 2 1, .blt 7 2 1 true true),
    (wordBR 7 3 2 1, .bge 7 2 1 true true), (wordBR 7 4 2 1, .bltu 7 2 1 true true), (wordBR 7 5 2 1, .bgeu 7 2 1 true true),
    (wordBR 7 6 2 1, .bbs 7 2 1 true true), (wordBR 7 7 2 1, .bbc 7 2 1 true true), (0x0001008B, .jal 0x10 1 true true), (0xFFFFA009, .jal 0xFFFFA 0 false true),
    (0x0000100F, .jalr 0 1 0 true true)].all reads = true := by decide +kernel

theorem test_decode_loads_and_stores : [(0x02064293, Instr.ldd 2 0 0 4 5 true true), (0x02942193, .ldw 2 2 1 2 3 true true), (0x0008C293, .ldbu 0 0 0 12 5 true true),
    (0x100CB193, .ldwu 0x10 0 0 11 3 true true), (0x00DCB213, .ldwu 0 3 1 11 4 true true), (wordM 9 0 0 0 2 3 4, .ldb 9 0 0 2 3 true true),
    (wordM 9 0 0 1 2 3 4, .ldh 9 0 0 2 3 true true), (wordM 9 0 0 5 2 3 4, .ldhu 9 0 0 2 3 true true), (0xFFE67317, .std 0xFF 3 2 7 6 true true),
    (0x10E4B197, .stw 0x10 3 2 11 3 true true), (wordM 9 0 0 0 2 3 5, .stb 9 0 0 2 3 true true), (wordM 9 0 0 1 2 3 5, .sth 9 0 0 2 3 true true)].all reads = true := by
  decide +kernel

theorem test_decode_vector_memory : [(0x0200521B, Instr.vld 2 5 4 true true), (0x0402739B, .vst 4 7 7 true true), (0x0304209B, .vlds 3 2 1 true true),
    (wordM 3 0 0 3 2 1 6, .vsts 3 2 1 true true), (wordM 3 0 0 4 2 1 6, .vldx 3 2 1 true true), (wordM 3 0 0 5 2 1 6, .vstx 3 2 1 true true),
    (wordM 3 0 0 6 2 1 6, .vldbc 3 2 1 true true)].all reads = true := by decide +kernel

theorem test_decode_atomics : [(0x05CA419F, Instr.aadd 2 3 true 5 4 3 true true), (0x54CA419F, .acasf 2 1 true 5 4 3 true true),
    (wordR 1 1 2 3 4 7, .aand 0 0 true 2 3 4 true true), (wordR 2 1 2 3 4 7, .aor 0 0 true 2 3 4 true true), (wordR 3 1 2 3 4 7, .axor 0 0 true 2 3 4 true true),
    (wordR 4 1 2 3 4 7, .amin 0 0 true 2 3 4 true true), (wordR 5 1 2 3 4 7, .amax 0 0 true 2 3 4 true true), (wordR 6 0 2 3 4 7, .aminu 0 0 false 2 3 4 true true),
    (wordR 7 1 2 3 4 7, .amaxu 0 0 true 2 3 4 true true), (wordR 8 1 2 3 4 7, .aswap 0 0 true 2 3 4 true true), (wordR 9 1 2 3 4 7, .acas 0 0 true 2 3 4 true true),
    (wordR 11 0 2 3 4 7, .afadd 0 0 2 3 4 true true), (wordR 12 0 2 3 4 7, .afmin 0 0 2 3 4 true true), (wordR 13 0 2 3 4 7, .afmax 0 0 2 3 4 true true),
    (wordR 14 0 2 3 4 7, .avadd 0 0 2 3 4 true true), (wordR 15 0 2 3 4 7, .avmax 0 0 2 3 4 true true), (wordR 16 1 2 3 4 7, .aincw 0 0 true 2 3 4 true true)].all reads
      = true := by decide +kernel

theorem test_decode_ordered_accesses : [(0x010041A3, Instr.tldw 1 4 3 true true), (0x020241A3, .tldd 2 4 3 true true), (wordM 1 0 0 2 4 3 8, .tstw 1 4 3 true true),
    (0x020642A3, .tstd 2 4 5 true true), (wordM 1 0 0 4 4 3 8, .tldv 1 4 3 true true), (0x010A4123, .tstv 1 4 2 true true),
    (0x0C0A41C7, .stfd false 5 4 3 true true), (wordR 0 24 5 4 3 17, .stfw true 5 4 3 true true), (wordR 2 16 5 4 3 17, .stfv false 5 4 3 true true)].all reads = true := by
  decide +kernel

theorem test_decode_order_and_groups : [(0x01440025, Instr.fence false false true false true 2 false true), (0x07C60025, .fence true true true true true 3 false true),
    (0x08000025, .ifence false true), (0x164A41A7, .waita 3 true 5 4 3 true true), (0x1606B227, .waita 3 false 3 11 4 true true),
    (0x18007327, .gjoin 7 6 true true), (wordR 4 0 0 7 0 9, .gleave 7 true true), (wordR 5 0 0 7 0 9, .gbar 7 true true), (wordR 6 0 0 7 6 9, .gqry 7 6 true true),
    (wordR 7 0 0 0 0 9, .yield true true)].all reads = true := by decide +kernel

theorem test_decode_time_and_queues : [(0x000000AB, Instr.next 1 true true), (0x08000029, .done false true), (0x11CC502B, .post 7 6 5 true true),
    (0x19CC502B, .postp 7 6 5 true true), (0x200001AB, .tnow 3 true true), (0x280001AB, .lateq 3 true true), (0x3000402B, .twait 4 true true),
    (0x000032AF, .enq 3 5 true true), (0x0800332F, .deq 3 6 true true), (0x1000412F, .enqv 4 2 true true), (0x1800412F, .deqv 4 2 true true),
    (0x200E32AF, .enqn 7 3 5 true true), (0x280F032F, .deqn 7 16 6 true true), (0x3000342F, .qlen 3 8 true true), (0x000172AF, .enq 23 5 true true)].all reads = true := by
  decide +kernel

theorem test_decode_streamers : [(0x00044033, Instr.xshape 2 4 true true), (0x098A4033, .xcopy 6 5 4 true true), (0x108A4033, .xcopys 2 5 4 true true),
    (0x198A41B3, .xgath 6 5 4 3 true true), (0x218A41B3, .xscat 6 5 4 3 true true), (0x298A4033, .xfill 6 5 4 true true), (0x300003B3, .bseal 7 true true),
    (0x38000031, .bwait 0 false true), (0x40007433, .bstat 7 8 true true), (0x498A4033, .xmode 6 5 4 true true)].all reads = true := by decide +kernel

theorem test_decode_arrays_and_collectives : [(0x00003237, Instr.leash 3 4 true true), (0x08003237, .leashn 3 4 true true), (0x10000035, .unleash false true),
    (0x180C5037, .mxcfg 6 5 true true), (0x20007037, .mxldb 0 7 true true), (0x2B16A4B7, .mxrun 12 11 10 9 true true), (0x30000035, .mxzero false true),
    (0x380096B7, .mxwait 9 13 true true), (0x40003737, .mxqry 3 14 true true), (0x018A403B, .warm 6 5 4 true true), (0x0800403B, .wdisarm 4 true true),
    (0x100041BB, .wcnt 4 3 true true), (0x180A403B, .wadd 5 4 true true), (0x200A41BB, .wwait 5 4 3 true true), (0x2800403B, .wstart 4 true true)].all reads = true := by
  decide +kernel

theorem test_decode_system : [(0x00D0103F, Instr.csrrw 0x00D 1 0 true true), (0x001200BF, .csrrs 0x001 0 1 true true), (wordI 0x140 2 1 3 15, .csrrc 0x140 1 3 true true),
    (0x1408403D, .csrwi 0x140 4 0 false true), (wordI 0x140 5 4 3 15, .csrsi 0x140 4 3 true true), (0x140C403D, .csrci 0x140 4 0 false true),
    (0x00000041, .ecall false), (0x00100041, .ebreak false), (0x00200041, .tret false), (0x00300041, .wfi false), (0x00400041, .halt false),
    (0x00322043, .hstart 3 2 true), (0x00042043, .hstop 2 true), (0x0040404B, .loop 4 4 true true), (0x00320149, .loopi 3 2 false true),
    (wordI 0 2 0 0 18, .lbrk true true), (wordI 0 3 0 0 18, .lpop true true), (0x0000224D, .pfx false false 0 0 0 0 4 4 false true)].all reads = true := by decide +kernel

theorem test_decode_integer : [(0x000AA553, Instr.add 5 10 10 true true), (0x680A41D3, .div 5 4 3 true true), (0xE10620D3, .sel 4 3 2 1 true true),
    (wordR 1 0 2 1 3 20, .sub 2 1 3 true true), (wordR 2 0 2 1 3 20, .and 2 1 3 true true), (wordR 3 0 2 1 3 20, .or 2 1 3 true true),
    (wordR 4 0 2 1 3 20, .xor 2 1 3 true true), (wordR 5 0 2 1 3 20, .sll 2 1 3 true true), (wordR 6 0 2 1 3 20, .srl 2 1 3 true true),
    (wordR 7 0 2 1 3 20, .sra 2 1 3 true true), (wordR 8 0 2 1 3 20, .slt 2 1 3 true true), (wordR 9 0 2 1 3 20, .sltu 2 1 3 true true),
    (wordR 10 0 2 1 3 20, .mul 2 1 3 true true), (wordR 11 0 2 1 3 20, .mulh 2 1 3 true true), (wordR 12 0 2 1 3 20, .mulhu 2 1 3 true true),
    (wordR 14 0 2 1 3 20, .divu 2 1 3 true true), (wordR 15 0 2 1 3 20, .rem 2 1 3 true true), (wordR 16 0 2 1 3 20, .remu 2 1 3 true true),
    (wordR 17 0 2 1 3 20, .min 2 1 3 true true), (wordR 18 0 2 1 3 20, .max 2 1 3 true true), (wordR 19 0 2 1 3 20, .minu 2 1 3 true true),
    (wordR 20 0 2 1 3 20, .maxu 2 1 3 true true), (wordR 21 0 0 1 3 20, .clz 1 3 true true), (wordR 22 0 0 1 3 20, .ctz 1 3 true true),
    (wordR 23 0 0 1 3 20, .popc 1 3 true true), (wordR 24 0 2 1 3 20, .rol 2 1 3 true true), (wordR 25 0 2 1 3 20, .ror 2 1 3 true true),
    (wordR 26 0 2 1 3 20, .addw 2 1 3 true true), (wordR 27 0 2 1 3 20, .subw 2 1 3 true true)].all reads = true := by decide +kernel

theorem test_decode_immediates : [(0x04000257, Instr.addi 64 0 4 true true), (0x00000055, .addi 0 0 0 false true), (0x0FF231D7, .andi 0xFF 3 3 true true),
    (wordI 5 2 1 3 21, .ori 5 1 3 true true), (wordI 5 3 1 3 21, .xori 5 1 3 true true), (wordI 5 4 1 3 21, .slti 5 1 3 true true), (wordI 5 5 1 3 21, .sltiu 5 1 3 true true),
    (0x006CD6D7, .slli 6 13 13 true true), (0x40CC12D7, .srli 12 1 5 true true), (0x83FC3157, .srai 63 3 2 true true), (wordI 0xC05 6 1 3 21, .rori 5 1 3 true true),
    (wordI 5 7 1 3 21, .addwi 5 1 3 true true), (0x123452DB, .lui 0x12345 5 true true), (0x0001045B, .lui 0x10 8 true true), (0x0010055F, .auipc 0x100 10 true true)].all reads
      = true := by decide +kernel

theorem test_decode_scalar_float : [(0x000A41E3, Instr.fadd 0 0 5 4 3 true true), (0x898A41E3, .fmas 6 5 4 3 true true), (wordR 1 1 2 1 3 24, .fsub 0 1 2 1 3 true true),
    (wordR 2 8 2 1 3 24, .fmul 1 0 2 1 3 true true), (wordR 3 0 2 1 3 24, .fdiv 0 0 2 1 3 true true), (wordR 4 0 0 1 3 24, .fsqrt 0 0 1 3 true true),
    (wordR 5 0 2 1 3 24, .fmin 0 2 1 3 true true), (wordR 6 0 2 1 3 24, .fmax 0 2 1 3 true true), (wordR 7 0 2 1 3 24, .fsgnj 0 2 1 3 true true),
    (wordR 8 0 2 1 3 24, .fsgnjn 0 2 1 3 true true), (wordR 9 0 2 1 3 24, .fsgnjx 0 2 1 3 true true), (wordR 10 0 2 1 3 24, .feq 0 2 1 3 true true),
    (wordR 11 0 2 1 3 24, .flt 0 2 1 3 true true), (wordR 12 0 2 1 3 24, .fle 0 2 1 3 true true), (wordR 13 0 0 1 3 24, .fclass 0 1 3 true true),
    (wordR 14 0 2 1 3 24, .fcvti 0 0 2 1 3 true true), (wordR 15 0 2 1 3 24, .fcvtf 0 0 2 1 3 true true), (wordR 16 0 1 1 3 24, .fcvtff 0 0 1 1 3 true true),
    (wordR 18 4 2 1 3 24, .fmad 4 2 1 3 true true)].all reads = true := by decide +kernel

theorem test_decode_vector : [(0x000411E7, Instr.vadd 0 0 2 1 3 true true), (0x184C5267, .vfma 0 1 6 5 4 true true), (0xA60060E7, .vsplat 3 0 6 1 true true),
    (0xD6021167, .vlut 3 0 true 1 2 true true), (0xCE0821E7, .vdot 3 0 4 2 3 true true), (0xAE0012E7, .vext 3 0 1 5 true true),
    (wordV 1 0 2 4 3 1 25, .vsub 0 2 4 3 1 true true), (wordV 2 0 0 4 3 1 25, .vmul 0 0 4 3 1 true true), (wordV 4 0 0 4 3 1 25, .vmin 0 0 4 3 1 true true),
    (wordV 5 0 0 4 3 1 25, .vmax 0 0 4 3 1 true true), (wordV 6 0 0 0 3 1 25, .vabs 0 0 3 1 true true), (wordV 7 0 0 0 3 1 25, .vneg 0 0 3 1 true true),
    (wordV 8 3 0 4 3 1 25, .vand 3 0 4 3 1 true true), (wordV 9 3 0 4 3 1 25, .vor 3 0 4 3 1 true true), (wordV 10 3 0 4 3 1 25, .vxor 3 0 4 3 1 true true),
    (wordV 11 3 0 4 3 1 25, .vshl 0 4 3 1 true true), (wordV 12 3 0 4 3 1 25, .vshr 0 4 3 1 true true), (wordV 13 3 0 4 3 1 25, .vsra 0 4 3 1 true true),
    (wordV 14 0 0 4 3 1 25, .vceq 0 0 4 3 1 true true), (wordV 15 0 0 4 3 1 25, .vclt 0 0 4 3 1 true true), (wordV 16 0 0 4 3 1 25, .vcle 0 0 4 3 1 true true),
    (wordV 17 0 1 4 3 1 25, .vsel 0 1 4 3 1 true true), (wordV 18 0 0 1 3 1 25, .vcvt 0 0 1 3 1 true true), (wordV 19 0 0 0 3 1 25, .vred 0 0 0 3 1 true true),
    (wordV 22 3 0 4 3 1 25, .vins 3 4 3 1 true true), (wordV 23 0 0 4 3 1 25, .vperm 0 0 4 3 1 true true), (wordV 24 1 0 4 3 2 25, .vwfma 1 0 4 3 1 true true),
    (wordV 27 3 0 2 3 1 25, .vpln 2 3 1 true true), (wordV 28 3 0 2 3 1 25, .vupl 0 2 3 1 true true), (wordV 29 0 0 0 3 1 25, .vrcp 0 0 3 1 true true),
    (wordV 30 0 0 0 3 1 25, .vrsq 0 0 3 1 true true), (wordV 31 0 0 0 3 1 25, .vexp 0 0 0 3 1 true true)].all reads = true := by decide +kernel

theorem test_decode_masks_and_second_vector : [(0x5608316B, Instr.vrand 0 4 3 2 true true), (wordV 0 0 0 2 1 3 26, .kand 2 1 3 true true), (wordV 1 0 0 2 1 3 26, .kor 2 1 3 true true),
    (wordV 2 0 0 2 1 3 26, .kxor 2 1 3 true true), (wordV 3 0 0 0 1 3 26, .knot 1 3 true true), (wordV 4 0 0 0 1 9 26, .kpopc 1 9 true true),
    (wordV 5 0 0 0 1 3 26, .kmovKK 1 3 true true), (wordV 5 0 0 1 9 3 26, .kmovKG 9 3 true true), (wordV 5 0 0 2 1 9 26, .kmovGK 1 9 true true),
    (wordV 6 3 0 0 0 1 26, .vidx 3 0 1 true true), (wordV 7 0 0 4 3 1 26, .vslide 0 0 4 3 1 true true), (wordV 8 3 0 0 3 1 26, .vmov 3 0 3 1 true true),
    (wordV 9 0 0 0 3 1 26, .vtanh 0 0 3 1 true true), (wordV 11 3 0 0 3 1 26, .vpopc 0 3 1 true true), (wordV 12 3 0 4 3 1 26, .vpdot 0 4 3 1 true true),
    (wordV 13 1 0 0 3 1 26, .vcvts 1 0 3 1 true true), (wordV 14 3 0 4 3 1 26, .vmulh 0 4 3 1 true true), (wordV 15 3 0 8 3 1 26, .vsat 0 8 3 1 true true)].all reads = true := by
  decide +kernel

theorem test_decode_moments : [(0x000411EF, Instr.madd 0 2 1 3 true true), (0x280010EF, .mrelu 0 1 1 true true), (0x408E62EF, .mpack 2 7 6 5 true true),
    (0x480E226F, .mcoll 0 1 3 2 4 true true), (0x1806116F, .mscal 0 3 1 2 true true), (0x500021EF, .mred 0 2 3 true true), (wordV 1 0 0 2 1 3 27, .msub 0 2 1 3 true true),
    (wordV 2 0 0 2 1 3 27, .mmul 0 2 1 3 true true), (wordV 4 0 0 20 1 3 27, .maddc 0 20 1 3 true true), (wordV 6 0 0 0 1 3 27, .mexp 0 1 3 true true),
    (wordV 7 0 0 0 1 3 27, .msig 0 1 3 true true), (wordV 11 0 0 0 1 3 27, .mmov 0 1 3 true true), (wordV 12 0 0 0 0 3 27, .mzero 0 3 true true),
    (wordV 13 0 0 0 1 3 27, .mchk 0 1 3 true true)].all reads = true := by decide +kernel

theorem test_pair_halves : decodeWord 0x0000114C = .instr (.pfx false false 0 0 0 0 2 2 false false) ∧
    decodeWord 0x000620E6 = .instr (.vadd 0 0 3 2 1 true false) := by decide +kernel

/-- The next state of an outcome. -/
def nx (o : Out) : State :=
  match o with
  | .next t => t
  | _ => State.reset

/-! Ill-formed terms: one for each check of WellFormed, which refuses it; and words that the decoder refuses by name. -/

theorem test_ill_formed : [Instr.ldd 0 0 2 1 2 true true, .ldw 0 1 0 1 2 true true, .std 0 0 1 1 2 true true, .stw 0 3 0 1 2 true true,
    .enq 24 1 true true, .deq 31 1 true true, .enqv 24 1 true true, .deqv 24 1 true true, .enqn 1 24 2 true true, .deqn 1 25 2 true true, .qlen 24 1 true true,
    .loop 0 1 true true, .loop 0x800 1 true true, .loopi 0 1 true true, .loopi 1 0 true true, .fadd 0 5 1 2 3 true true, .fsqrt 0 6 1 3 true true,
    .fcvti 0 0 6 1 3 true true, .fcvtf 0 5 0 1 3 true true, .fcvtff 0 6 0 1 3 true true, .vred 0 0 3 1 2 true true, .vext 0 16 1 2 true true,
    .vins 0 16 1 2 true true, .vwfma 0 0 1 2 3 true true, .vlut 0 0 true 1 2 true true, .vrcp 3 0 1 2 true true, .vrsq 3 0 1 2 true true,
    .vexp 3 0 0 1 2 true true, .vexp 0 0 3 1 2 true true, .vtanh 3 0 1 2 true true, .mcoll 0 1 0 1 2 true true].all (fun i => !i.wellFormed) = true ∧
    (Instr.csrrw 0x003 1 2 true true).csrListed = false := by decide +kernel

theorem test_refused_words : decodeWord 0x00000003 = .reject .undefinedMajor ∧ decodeWord 0x00000073 = .reject .undefinedMajor ∧
    decodeWord (wordR 29 0 2 1 3 20) = .reject .undefinedFunction ∧ decodeWord (wordM 0 0 0 7 2 1 4) = .reject .undefinedFunction ∧
    decodeWord (wordI 0x003 0 1 2 15) = .reject .undefinedFunction ∧ decodeWord (wordI 5 0 0 0 16) = .reject .undefinedFunction ∧
    decodeWord (wordR 0 1 2 1 3 20) = .reject .reservedField ∧ decodeWord (wordM 0 0 2 3 2 1 4) = .reject .reservedField ∧
    decodeWord (wordV 0 0 0 2 1 16 27) = .reject .reservedField ∧ decodeWord (wordR 7 0 0 16 0 12) = .reject .reservedField := by decide +kernel

/-! Worked values of the manual. -/

/-- R127: a = 1 + 2^-23, b = 1 - 2^-23, c = -1 give -2^-46 and no flag. -/
theorem test_fmas_rounds_once : floatResult (withG [(4, 0x3F800001), (5, 0x3F7FFFFE), (6, 0xBF800000)]) (.fmas 6 5 4 3 true true) =
    some (3, 0xA8800000, 0) := by decide +kernel

/-- R152: the two test vectors of VRAND. -/
theorem test_vrand_vectors : randLane 0 0 0 = 0 ∧ randLane 0 0 1 = 0x70EADAEA ∧ randLane 0x300000002 1 0 = 0x8875A9C7 := by decide +kernel

/-- The worked fragment of the moment chapter: lanes (2, 4) and (1, 1) with correlation lanes -3 give mean 3 and variance -1. -/
theorem test_madd_covariance :
    let o := { operands (.madd 0 2 1 3 true true) with
      ma := 0x40800000 * 2 ^ 512 + 0x40000000, mb := 0x3F800000 * 2 ^ 512 + 0x3F800000, cov := 0xC0400000, momode := 0x907 }
    (maddLane o 0).mu = 0x40400000 ∧ (maddLane o 0).s = 0xBF800000 := by decide +kernel

/-- The quotient of -7 and 2 is -3 (R117). -/
theorem test_div_rounds_toward_zero : (nx (exec (.div 5 4 3 true true) (withG [(4, 0xFFFFFFFFFFFFFFF9), (5, 2)]))).hart.pend.map Pend.kind =
    [.div 3 0xFFFFFFFFFFFFFFFD] := by decide +kernel

/-- A word at the end word of a loop goes back to its start while rounds are left (R108). -/
theorem test_loop_end_wraps : (nx (exec (.addi 0 0 0 false true) (inLoop.onHart fun h => { h with pc := 8 }))).hart.pc = 4 := by decide +kernel

/-- R104: ECALL in U of a core of the compute columns enters S at TVEC with its cause. -/
theorem test_ecall_enters_the_handler :
    let s := (State.reset.onHart fun h => { h with mode := 0, trap := { h.trap with tvec := 0x100, deleg := 0xFFFFFFFFFFFFFFFF } })
    let t := nx (exec (.ecall true) s)
    t.hart.pc = 0x100 ∧ t.hart.trap.trcause = 0x1C0 ∧ t.hart.mode = 1 ∧ t.hart.pmode = 0 := by decide +kernel

/-- A little-endian local store and load (R3, R212). -/
theorem test_store_then_load : let s := nx (exec (.std 1 0 0 2 3 true true) (withG [(2, 0x100), (3, 0x1122334455667788)]))
    readByte s.mem (localKey 31 0x108) = 0x88 ∧ readByte s.mem (localKey 31 0x10F) = 0x11 ∧
      (nx (exec (.ldw 2 0 0 2 4 true true) s)).hart.pend.length = 1 := by decide +kernel

/-- R376, R377: M0 names slot A with SEQ 4, M1 slot B with SEQ 5. Slot B is booted while it verifies, with both signatures, else A; with a copy spoilt the other decides. -/
theorem test_boot_takes_the_higher_marker :
    let bad : FwSlot := { flashed.slotA with mlDsa65 := false }
    bootChoice flashed = some 1 ∧ bootChoice { flashed with slotB := bad } = some 0 ∧ bootChoice { flashed with m1 := flashed.m1 ^^^ 1 } = some 0 ∧
      bootChoice { flashed with slotA := bad, slotB := bad } = none := by decide +kernel

/-- R377: when no slot verifies every hart stays stopped. -/
theorem test_no_firmware_no_hart :
    let t := nx (exec .packageReset { State.reset with pkg := { State.reset.pkg with flash := { flashed with slotA := { flashed.slotA with ed25519 := false }, slotB := { flashed.slotB with ed25519 := false } } } })
    (t.hartAt 31 0).stopped = true ∧ (t.hartAt 1055 0).stopped = true ∧ t.pkg.boot = .noFirmware := by decide +kernel

/-! Witnesses for further clauses. -/

/-- Core 4 with a port that rewinds, whose finished reaction has escaped or not. -/
def rewinding (escaped : Bool) : State := State.reset.onCore 4 fun k =>
  { k with tags := { k.tags with portcfg := k.tags.portcfg.set 0 0xD, window := [{ reaction with escaped := escaped }] } }

/-- A message of tag 5. -/
def earlyMsg : InMsg := { inMsg with t := 5, ot := 5 }

theorem witness_LateMessagesMeetTheirPolicy : ∀ e : Bool, let old := ((rewinding e).core 4).tags
    (((old.portcfg[0]?).getD 0).extractLsb' 2 2 = 3 ∧ tagBelow 5 0 9 0 ∧ ¬ tagBelow 5 0 old.hzn (old.hznm.extractLsb' 0 32)) ∧
    ((old.reactions.drop (old.reactions.takeWhile fun r => decide (tagBelow r.t r.m 5 0)).length).any (fun r => r.escaped) = e) ∧
    (old.ltTail - old.ltHead).toNat ≠ old.ringSize ∧ Memory.wf (rewinding e).mem = true := by decide +kernel

theorem witness_MayTakeNumber : State.reset.mayTakeNumber ∧ (withChannels 0).mayTakeNumber ∧ (withG [(1, 5), (4, 9)]).mayTakeNumber := by
  unfold State.mayTakeNumber; decide +kernel

/-- Two pieces between the same two segments, of which the second has come or not. -/
def twoPieces (came : Bool) : List Piece := [{ piece with len := 4 }, { piece with src := 0x1FFC, dst := 0x1004, len := 4, no := 1, here := came }]

theorem witness_PiecesWaitForTheirSegment : ∀ came : Bool, let c := cmdOf .copy true (twoPieces came) 0 0x1000
    (streaming c).findCmd 8 = some c ∧ c.pieces[0]? = (twoPieces came)[0]? ∧ (streaming c).heldBack 8 1 = false ∧
      (twoPieces came).all (fun q => (c.together q).length == 2) = true ∧ (twoPieces came).all (fun q => q.bad.isNone) = true ∧
      (c.together ((twoPieces came)[0]?.getD piece)).any (fun q => !q.here && q.no != 0) = !came := by decide +kernel

/-- A wave of two packets. -/
def longWave (got : Nat) : Wave := { waveOf2 false 0xFE00050000000100 with raw := List.replicate 500 (1, false), nel := 125, got := got }

theorem witness_WavesOfSeveralPackets : (longWave 0).packets = 2 ∧ (waving (longWave 0) true).findWave 8 = some (longWave 0) ∧
    (waving (longWave 0) true).heldBack 8 0 = false ∧ (waving (longWave 0) true).retraining 0 = false ∧
    (waving (longWave 1) true).lastPacket (longWave 1) := by
  unfold State.lastPacket; decide +kernel

/-- A wave of generation `g` meets core 5, which is absent, fenced or of the firmware column of another context's choosing. -/
def wavingAt (g : BitVec 16) (absent fenced : Bool) (dst : W) : State :=
  let s := waving { waveOf2 false dst with gen := g } true
  { s.onCore 5 fun k => { k with sys := { k.sys with fenced := fenced } } with pkg := { s.pkg with absent := if absent then [5] else [] } }

/-- That wave comes whole to an armed slot of generation 0, and its place lies in its store. -/
def wavingFits (g : BitVec 16) (absent fenced : Bool) : Bool :=
  let w := { waveOf2 false 0xFE00050000000100 with gen := g }
  let s := wavingAt g absent fenced 0xFE00050000000100
  s.findWave 8 == some w && !s.heldBack 8 0 && decide (w.packets ≤ w.got + 1) && s.pkg.absent.contains 5 == absent && (s.core 5).sys.fenced == fenced &&
    s.admits 5 0 14 && (s.cslot 5 2).gen == 0 && !(s.cslot 5 2).pers && (s.wavePlace w 5).toOption == some 0x100

theorem witness_WavesThatAreTurnedAway : wavingFits 1 false false = true ∧ wavingFits 0x7FFF false false = true ∧ wavingFits 0x8000 false false = true ∧
    wavingFits 0xFFFF false false = true ∧ wavingFits 0 true false = true ∧ wavingFits 0 false true = true := by decide +kernel

/-- A wave to this address of core 5 has no place there. -/
def wavingOutside (a : W) : Bool :=
  (waving (waveOf2 false a) true).findWave 8 == some (waveOf2 false a) && ((waving (waveOf2 false a) true).wavePlace (waveOf2 false a) 5).toOption.isNone

theorem witness_WavesOutsideTheirStore : wavingOutside 0xFE0005000007FFFC = true ∧ wavingOutside 0xFE00050000100000 = true := by decide +kernel

/-- A wave of context 7 to the boot core, which does not admit it. -/
def wavingRefused : Wave := { waveOf2 false 0xFE001F0000000100 with ctx := 7 }

theorem witness_WavesToFirmware : (waving wavingRefused true).findWave 8 = some wavingRefused ∧ (waving wavingRefused true).heldBack 8 0 = false ∧
    (waving wavingRefused true).pkg.absent = [] ∧ ((waving wavingRefused true).core 31).sys.fenced = false ∧
    (waving wavingRefused true).admits 31 7 14 = false := by decide +kernel

/-- A copy of the message of `posted` on its way, with wrong bits or whose SEQ was accepted before; and a partial copy in a reassembly buffer. -/
def copied (bad seen : Bool) : State :=
  let s := posted false true 1
  let f : Flight := { flightOf 1 0 with n := 8, copies := [(0, bad)] }
  { s.onCore 31 fun k => { k with cycles := 0x100000 } with net := { s.net with
      flights := [f], lanes := if seen then [{ src := 31, pkg := 0, dst := 31, next := 1, high := 0, seen := 1 }] else []
      reasm := [{ n := 8, k := 0, copy := 0, dst := 31, got := 1, since := 0 }] } }

theorem witness_CopiesAreTurnedAway : ∀ b : Bool, let s := copied b (!b)
    let f : Flight := { flightOf 1 0 with n := 8, copies := [(0, b)] }
    (s.net.flights.filter fun g => g.n == 8) = [f] ∧ s.findPost 8 = some (postMsg false) ∧ (s.packetAt 8 0).isSome = true ∧
      s.retraining 0 = false ∧ s.noBuffer f = false ∧ (s.lane 31 0 31).duplicate 0 = !b ∧ (s.net.reasm.filter fun b => b.n == 8).length = 1 ∧
      (s.timeoutAt 31).toNat ≤ ((s.core 31).cycles - 0).toNat := by decide +kernel

/-- A load whose page its slice's TLB holds. -/
def cachedPage : State := { atSlice 0x1D .slice with books := { State.reset.books with sliceTlb := [(sliceOf 31 0x1000, leafEntry 0 0x1000 0 0x5501D)] } }

theorem witness_SlicesHitTheirTlb : cachedPage.sliceHit (sliceOf 31 0x1000) 0 0x1000 = some (leafEntry 0 0x1000 0 0x5501D) ∧
    cachedPage.acc 6 = some (accessOf (.load 3 true) [partOf .slice]) ∧ (cachedPage.pageTicket (sliceOf 31 0x1000) 0 0x1000).isNone = true := by decide +kernel

/-- A record that fails, with a completion word. -/
def failedLaunch : State := { badOffer with mem := badOffer.mem ++ [(0x55811, 0x0F), (0x55812, 0x10)] }

theorem witness_FailedLaunchesReport : Memory.wf failedLaunch.mem = true ∧ (match failedLaunch.checkRecord (frontParty 5 7 0) 0x100800 with
    | .found u st r => (failedLaunch.offer (.device 7)).any fun o =>
        let l := launchOf u o 5 st r
        let v := u.bump.taken (.device 7)
        st != 0 && l.compl == 0x100F00 && (v.reporter l).any fun p => match engineReach v p .store l.compl 8 with
          | .here w key => w.mem == u.mem && key == 0x55F00
          | _ => false
    | .wait _ => false) = true := by decide +kernel

end Sys2Proof.Machine
end

section
/-!
PROOF. What a register write and retirement leave of the executing hart and its core, and the registers that therefore keep their value.
-/

namespace Sys2Proof.Machine

/-! A change of one hart leaves its core's own registers -/

@[simp] theorem Core.setHart_cycles (k : Core) (h : HartId) (x : Hart) : (k.setHart h x).cycles = k.cycles := rfl
@[simp] theorem Core.setHart_cblo (k : Core) (h : HartId) (x : Hart) : (k.setHart h x).cblo = k.cblo := rfl
@[simp] theorem Core.setHart_cbhi (k : Core) (h : HartId) (x : Hart) : (k.setHart h x).cbhi = k.cbhi := rfl
@[simp] theorem Core.setHart_mem (k : Core) (h : HartId) (x : Hart) : (k.setHart h x).mem = k.mem := rfl
@[simp] theorem Core.setHart_tags (k : Core) (h : HartId) (x : Hart) : (k.setHart h x).tags = k.tags := rfl
@[simp] theorem Core.setHart_chan (k : Core) (h : HartId) (x : Hart) : (k.setHart h x).chan = k.chan := rfl
@[simp] theorem Core.setHart_colldens (k : Core) (h : HartId) (x : Hart) : (k.setHart h x).colldens = k.colldens := rfl
@[simp] theorem Core.setHart_sys (k : Core) (h : HartId) (x : Hart) : (k.setHart h x).sys = k.sys := rfl

@[simp] theorem State.setG_arrays (s : State) (d : BitVec 5) (x : W) : (s.setG d x).arrays = s.arrays := rfl
@[simp] theorem State.setG_cap (s : State) (d : BitVec 5) (x : W) : (s.setG d x).cap = s.cap := rfl
@[simp] theorem State.setG_pkg (s : State) (d : BitVec 5) (x : W) : (s.setG d x).pkg = s.pkg := rfl

/-- Which cores lie in the firmware column is a matter of what boot has chosen (R12). -/
theorem firmware_congr {s t : State} (h : t.pkg = s.pkg) (c : CoreId) : t.firmware c = s.firmware c := by
  unfold State.firmware State.fwW; rw [h]

/-! What a register write followed by retirement leaves of a hart and its core -/

/-- The two harts agree in everything that control and status registers other than INSTRET and the loop registers stand for. -/
structure Hart.SameCsrs (h h' : Hart) : Prop where
  mode : h'.mode = h.mode
  pmode : h'.pmode = h.pmode
  pie : h'.pie = h.pie
  ie : h'.ie = h.ie
  prio : h'.prio = h.prio
  spp : h'.spp = h.spp
  fields : h'.fields = h.fields
  cycOff : h'.cycOff = h.cycOff
  waitlim : h'.waitlim = h.waitlim
  agid : h'.agid = h.agid
  trap : h'.trap = h.trap
  arith : h'.arith = h.arith
  mx : h'.mx = h.mx
  react : h'.react = h.react
  batch : h'.batch = h.batch
  tkEv : h'.tkEv = h.tkEv
  tklim : h'.tklim = h.tklim

/-- What retirement makes of a hart: INSTRET, the pc, the loop stack, how control came there and whether PFX fields are pending are as given, and
nothing is waited for (R50, R68, R96). -/
def Hart.moved (h : Hart) (n pc : W) (lo : Loops) (ar : Arrival) (p : Bool) : Hart :=
  { h with instret := n, we := false, emptyMet := none, wait := .none, waitAt := none, pend := h.pend.filter fun p => !p.isReady,
           pc := pc, loops := lo, arrival := ar, pp := p }

/-- Retirement is a change of the executing hart and of the model's notes. -/
theorem retire_eq_onHart (s : State) : ∃ f fl, s.retire = { s.onHart f with flow := fl, disp := .retired } ∧ ∃ n pc lo ar p,
    f s.hart = s.hart.moved n pc lo ar p := by
  refine ⟨_, _, rfl, ?_⟩
  cases s.flow <;> exact ⟨_, _, _, _, _, rfl⟩

/-- A lone word that completes retires; the half of a pair changes nothing of its hart yet. -/
theorem hart_complete_cases (s : State) : s.complete.hart = s.hart ∨ ∃ n pc lo ar p,
    s.complete.hart = s.hart.moved n pc lo ar p := by
  unfold State.complete
  split
  · obtain ⟨f, fl, e, hf⟩ := retire_eq_onHart s
    have h : s.retire.hart = f s.hart := by rw [e]; exact State.hart_onHart s f
    exact .inr (h ▸ hf)
  · exact .inl rfl

theorem hart_setG (s : State) (d : BitVec 5) (x : W) : ∃ l, (s.setG d x).hart = { s.hart with regs := s.hart.regs.writeG d x, log := l } := by
  rw [setG_eq_wroteG]
  exact ⟨_, State.hart_onHart s _⟩

theorem sameCsrs_setG_complete (s : State) (d : BitVec 5) (x : W) : s.hart.SameCsrs (s.setG d x).complete.hart := by
  obtain ⟨l, hg⟩ := hart_setG s d x
  rcases hart_complete_cases (s.setG d x) with h | ⟨n, pc, lo, ar, p, h⟩ <;> rw [h, hg] <;> constructor <;> rfl

@[simp] theorem regs_setG_complete (s : State) (d : BitVec 5) (x : W) :
    (s.setG d x).complete.hart.regs = s.hart.regs.writeG d x := by
  obtain ⟨l, hg⟩ := hart_setG s d x
  rcases hart_complete_cases (s.setG d x) with h | ⟨n, pc, lo, ar, p, h⟩ <;> rw [h, hg]
  rfl

@[simp] theorem State.complete_disp (s : State) : s.complete.disp = .retired := by
  unfold State.complete; split <;> rfl

/-- A write of a g register, and retirement, change nothing of the executing hart's core but the hart. -/
theorem self_setG_complete (s : State) (d : BitVec 5) (x : W) : ∃ y, (s.setG d x).complete.self = s.self.setHart s.curHart y := by
  have hg : (s.setG d x).self = s.self.setHart s.curHart (s.setG d x).hart := by
    rw [State.setG, State.hart_onHart]
    exact State.core_onCore_same s s.cur _
  unfold State.complete
  split
  · obtain ⟨f, fl, e, -⟩ := retire_eq_onHart (s.setG d x)
    have h : (s.setG d x).retire.self = (s.setG d x).self.setHart s.curHart (f (s.setG d x).hart) := by
      rw [e]
      exact State.core_onCore_same (s.setG d x) (s.setG d x).cur fun k => k.setHart (s.setG d x).curHart (f (k.hart (s.setG d x).curHart))
    rw [h, hg, Core.setHart_setHart]
    exact ⟨_, rfl⟩
  · exact ⟨_, hg⟩

/-- Registers that stand for fields which neither a write of a g register nor retirement touches: all but INSTRET and the loop registers, which count,
and HSTAT, IPEND, PTC, MXSTAT and TKSTAT, which are made up of several parts of the state. -/
def csrSteady (n : Nat) : Bool :=
  decide (n ≠ 0x000 ∧ n ≠ 0x010 ∧ n ≠ 0x012 ∧ n ≠ 0x013 ∧ n ≠ 0x181 ∧ n ≠ 0x208 ∧ (n < 0x020 ∨ 0x02C < n))

theorem csrRead_setG_complete (s : State) (d : BitVec 5) (x : W) {n : Nat} (hn : csrSteady n = true) :
    (s.setG d x).complete.csrRead n = s.csrRead n := by
  have k := sameCsrs_setG_complete s d x
  obtain ⟨y, hy⟩ := self_setG_complete s d x
  simp only [csrSteady, decide_eq_true_eq] at hn
  obtain ⟨h0, h10, h12, h13, h181, h208, hloop⟩ := hn
  have hcyc : (s.setG d x).complete.cycleOf s.cur s.curHart = s.cycleOf s.cur s.curHart := by
    have h1 : (s.setG d x).complete.self.cycles = s.self.cycles := by rw [hy, Core.setHart_cycles]
    have h2 := k.cycOff
    simp only [State.self, State.hart, State.complete_cur, State.complete_curHart, State.setG_cur, State.setG_curHart] at h1 h2
    simp [State.cycleOf, h1, h2]
  have hfw : (s.setG d x).complete.firmware s.cur = s.firmware s.cur := firmware_congr (by simp) _
  unfold State.csrRead
  split
  · have l0 : ¬ (0x020 ≤ n ∧ n ≤ 0x023) := by omega
    have l1 : ¬ (0x024 ≤ n ∧ n ≤ 0x027) := by omega
    have l2 : ¬ (0x028 ≤ n ∧ n ≤ 0x02B) := by omega
    have l3 : n ≠ 0x02C := by omega
    simp [csrReadHart, h0, h10, h12, h13, l0, l1, l2, l3, k.prio, k.trap, k.spp, k.fields, k.waitlim, hy, hcyc, hfw]
  split
  · simp [csrReadArith, h181, k.arith, k.mx, hy, State.array]
  split
  · simp [csrReadMem, h208, k.agid, k.tklim, hy]
  split
  · simp [csrReadTime, k.react, k.batch, hy]
  · simp [csrReadSys, k.trap, hy, State.heelState, State.elogOf, State.capbase, State.role, State.fwW]
end Sys2Proof.Machine
end

section
/-!
PROOF. The bits that a control and status register stores: every bit that is not reserved, and every bit that it reads.
-/

namespace Sys2Proof.Machine

/-! The bits that a register stores -/

/-- The bits of a field of `k` bits that stands at bit `p` of a word. -/
def fieldBits (p k : Nat) : W := (BitVec.allOnes k).setWidth 64 <<< p

theorem setWidth_shiftLeft_and_fieldBits {k : Nat} (p : Nat) (x : BitVec k) :
    x.setWidth 64 <<< p &&& fieldBits p k = x.setWidth 64 <<< p := by
  rw [fieldBits, ← BitVec.shiftLeft_and_distrib, ← BitVec.setWidth_and, BitVec.and_allOnes]

theorem setWidth_extractLsb'_shiftLeft (x : W) (p k : Nat) : (x.extractLsb' p k).setWidth 64 <<< p = x &&& fieldBits p k := by
  ext i hi
  by_cases h : i < p
  · simp [fieldBits, h]
  · have e : p + (i - p) = i := by omega
    by_cases h' : i - p < k <;> simp [fieldBits, h, h', e, hi]

@[simp] theorem setWidth_and_fieldBits {k : Nat} (x : BitVec k) : x.setWidth 64 &&& fieldBits 0 k = x.setWidth 64 := by
  simpa using setWidth_shiftLeft_and_fieldBits 0 x

theorem setWidth_extractLsb' (x : W) (k : Nat) : (x.extractLsb' 0 k).setWidth 64 = x &&& fieldBits 0 k := by
  simpa using setWidth_extractLsb'_shiftLeft x 0 k

theorem fieldBits_all : fieldBits 0 64 = BitVec.allOnes 64 := by decide

@[simp] theorem and_fieldBits_all (x : W) : x &&& fieldBits 0 64 = x := by rw [fieldBits_all, BitVec.and_allOnes]

theorem ofBool_getLsbD_eq_extractLsb' (x : W) (p : Nat) : BitVec.ofBool (x.getLsbD p) = x.extractLsb' p 1 := by
  ext i hi
  simp [show i = 0 by omega]

/-- The tag fault bounds (R276) as two fields. -/
theorem append_zero_append_eq_or (f : BitVec 32) (c : BitVec 16) (b : BitVec 1) :
    (f ++ c ++ 0#15 ++ b : W) = (f ++ c).setWidth 64 <<< 16 ||| b.setWidth 64 <<< 0 := by
  ext i hi
  simp only [BitVec.getElem_append, BitVec.getElem_or, BitVec.getElem_zero, BitVec.getElem_shiftLeft, BitVec.getElem_setWidth, BitVec.getLsbD_append]
  by_cases h : i < 1
  · simp [h]; omega
  · by_cases h' : i < 16
    · simp [h, h', BitVec.getLsbD_of_ge b i (by omega)]; omega
    · simp [h,h']; grind

theorem or_and_or_of_and {a b x y : W} (ha : a &&& x = a) (hb : b &&& y = b) : (a ||| b) &&& (x ||| y) = a ||| b := by
  ext i hi
  have ha' := congrArg (·[i]) ha
  have hb' := congrArg (·[i]) hb
  simp only [BitVec.getElem_and, BitVec.getElem_or] at *
  grind

/-- The bits that CSR `n` stores of a value that it takes: the width of its field in the state. -/
def csrHeld (n : Nat) : W :=
  if n = 0x002 ∨ n = 0x141 ∨ n = 0x380 then fieldBits 0 2
  else if n = 0x180 then fieldBits 0 7
  else if n = 0x100 ∨ n = 0x140 ∨ n = 0x383 then fieldBits 0 13
  else if n = 0x014 ∨ n = 0x1C0 ∨ n = 0x280 ∨ n = 0x281 ∨ n = 0x2C0 ∨ n = 0x339 ∨ n = 0x33B ∨ n = 0x385 then fieldBits 0 16
  else if n = 0x00F ∨ n = 0x030 ∨ (0x108 ≤ n ∧ n ≤ 0x10F) ∨ n = 0x209 ∨ n = 0x240 then fieldBits 0 32
  else if n = 0x00E then fieldBits 32 1 ||| fieldBits 7 22
  else if n = 0x24A then fieldBits 16 48 ||| fieldBits 0 1
  else fieldBits 0 64

/-- Every bit of a register that is not reserved is stored. -/
theorem csrReserved_or_csrHeld (n : Nat) : csrReserved n ||| csrHeld n = BitVec.allOnes 64 := by
  unfold csrHeld
  split
  · rename_i h
    rcases h with rfl | rfl | rfl <;> decide
  split
  · rename_i h
    subst h; decide
  split
  · rename_i h
    rcases h with rfl | rfl | rfl <;> decide
  split
  · rename_i h
    rcases h with rfl | rfl | rfl | rfl | rfl | rfl | rfl | rfl <;> decide
  split
  · rename_i h
    rcases h with rfl | rfl | ⟨h, h'⟩ | rfl | rfl
    · decide
    · decide
    · have e : csrReserved n = ~~~0xFFFFFFFF#64 := by
        simp [csrReserved, definedArith, h, h', show ¬ n < 0x100 by omega, show n < 0x1C0 by omega, show n ≠ 0x100 by omega]
      rw [e]; decide
    · decide
    · decide
  split
  · rename_i h
    subst h; decide
  split
  · rename_i h
    subst h; decide
  · rw [fieldBits_all]; exact BitVec.or_allOnes

/-- A register reads as bits that it stores. -/
theorem csrRead_and_csrHeld (s : State) (n : Nat) : s.csrRead n &&& csrHeld n = s.csrRead n := by
  unfold csrHeld
  split
  · rename_i h
    rcases h with rfl | rfl | rfl <;> simp [State.csrRead, csrReadHart, csrReadArith, csrReadSys]
  split
  · rename_i h
    subst h; simp [State.csrRead, csrReadArith]
  split
  · rename_i h
    rcases h with rfl | rfl | rfl <;> simp [State.csrRead, csrReadArith, csrReadSys]
  split
  · rename_i h
    rcases h with rfl | rfl | rfl | rfl | rfl | rfl | rfl | rfl <;> simp [State.csrRead, csrReadHart, csrReadMem, csrReadTime, csrReadSys]
  split
  · rename_i h
    rcases h with rfl | rfl | ⟨h, h'⟩ | rfl | rfl
    · simp [State.csrRead, csrReadHart]
    · simp [State.csrRead, csrReadHart]
    · simp [State.csrRead, csrReadArith, h, h', show ¬ n < 0x100 by omega, show n < 0x1C0 by omega, show n ≠ 0x100 by omega]
    · simp [State.csrRead, csrReadMem]
    · simp [State.csrRead, csrReadTime]
  split
  · rename_i h
    subst h
    exact or_and_or_of_and (setWidth_shiftLeft_and_fieldBits 32 _) (setWidth_shiftLeft_and_fieldBits 7 _)
  split
  · rename_i h
    subst h
    simp only [State.csrRead, csrReadTime]
    show (_ ++ _ ++ 0#15 ++ _) &&& _ = (_ ++ _ ++ 0#15 ++ _ : W)
    rw [append_zero_append_eq_or]
    exact or_and_or_of_and (setWidth_shiftLeft_and_fieldBits 16 _) (setWidth_shiftLeft_and_fieldBits 0 _)
  · exact and_fieldBits_all _

/-- A value that a form gives, without a reserved bit, is one that the register stores (R5). -/
theorem leaves_and_csrHeld {f : CsrForm} {n : Nat} {m : W} (s : State) (h : f.reservedSet n m = false) :
    f.leaves (s.csrRead n) m &&& csrHeld n = f.leaves (s.csrRead n) m := by
  have hr := csrRead_and_csrHeld s n
  have hm : f ≠ .clear → m &&& csrHeld n = m := by
    intro hf
    have hz : m &&& csrReserved n = 0 := by cases f <;> simp_all [CsrForm.reservedSet]
    calc m &&& csrHeld n = (m &&& csrReserved n) ||| (m &&& csrHeld n) := by rw [hz]; simp
      _ = m &&& (csrReserved n ||| csrHeld n) := by rw [BitVec.and_or_distrib_left]
      _ = m := by rw [csrReserved_or_csrHeld, BitVec.and_allOnes]
  cases f with
  | write => exact hm (by decide)
  | set =>
    show (s.csrRead n ||| m) &&& csrHeld n = s.csrRead n ||| m
    rw [BitVec.and_comm, BitVec.and_or_distrib_left, BitVec.and_comm, hr, BitVec.and_comm, hm (by decide)]
  | clear =>
    show s.csrRead n &&& ~~~m &&& csrHeld n = s.csrRead n &&& ~~~m
    calc s.csrRead n &&& ~~~m &&& csrHeld n = s.csrRead n &&& csrHeld n &&& ~~~m := by ac_rfl
      _ = s.csrRead n &&& ~~~m := by rw [hr]

end Sys2Proof.Machine
end

section
/-!
PROOF. Registers that take any value and read it back (R92).
-/

namespace Sys2Proof.Machine

/-! Registers that take a value -/

/-- CSR `n` takes what a CSR instruction supplies: nothing of memory, of what is in flight or of the hart's registers changes, and once the instruction
has retired the register reads back the value, in the bits that it stores. -/
structure State.Takes (s : State) (n : Nat) (w : CsrWr) (s' : State) : Prop where
  write : s.csrWrite n w = .ok s'
  mem : s'.mem = s.mem
  net : s'.net = s.net
  regs : s'.hart.regs = s.hart.regs
  read : s.slot = .lone → s.flow = .next → ∀ d x, (s'.setG d x).complete.csrRead n = w.x &&& csrHeld n

/-- A register that retirement leaves alone takes a value when it reads back at once. -/
theorem State.Takes.of_steady {s s' : State} {n : Nat} {w : CsrWr} (hn : csrSteady n = true) (hw : s.csrWrite n w = .ok s')
    (hm : s'.mem = s.mem) (hnet : s'.net = s.net) (hr : s'.hart.regs = s.hart.regs) (hx : s'.csrRead n = w.x &&& csrHeld n) : s.Takes n w s' :=
  ⟨hw, hm, hnet, hr, fun _ _ d x => by rw [csrRead_setG_complete _ _ _ hn, hx]⟩

/-- A register of the executing hart. -/
theorem State.Takes.of_onHart {s : State} {n : Nat} {w : CsrWr} {f : Hart → Hart} (hn : csrSteady n = true) (hw : s.csrWrite n w = .ok (s.onHart f))
    (hr : (f s.hart).regs = s.hart.regs) (hx : (s.onHart f).csrRead n = w.x &&& csrHeld n) : s.Takes n w (s.onHart f) :=
  .of_steady hn hw rfl rfl (by rw [State.hart_onHart, hr]) hx

@[simp] theorem State.self_onSelf (s : State) (f : Core → Core) : (s.onSelf f).self = f s.self := State.core_onCore_same s s.cur f

theorem State.hart_onSelf (s : State) (f : Core → Core) : (s.onSelf f).hart = (f s.self).hart s.curHart := by
  show ((s.onSelf f).self).hart s.curHart = _
  rw [State.self_onSelf]

/-- A register of the executing hart's core. -/
theorem State.Takes.of_onSelf {s : State} {n : Nat} {w : CsrWr} {f : Core → Core} (hn : csrSteady n = true) (hw : s.csrWrite n w = .ok (s.onSelf f))
    (hf : (f s.self).harts = s.self.harts) (hx : (s.onSelf f).csrRead n = w.x &&& csrHeld n) : s.Takes n w (s.onSelf f) :=
  .of_steady hn hw rfl rfl (by rw [State.hart_onSelf]; unfold Core.hart; simp only [hf]; rfl) hx

/-- PFXSTATE (R65): the PFX fields and SPP. -/
theorem pfxstate_takes (s : State) (w : CsrWr) : ∃ s', s.Takes 0x00E w s' := by
  refine ⟨_, .of_onHart rfl rfl rfl ?_⟩
  calc _ = (BitVec.ofBool (w.x.getLsbD 32)).setWidth 64 <<< 32 ||| (w.x.extractLsb' 7 22).setWidth 64 <<< 7 := by
        simp [State.csrRead, csrReadHart, bitW]
    _ = w.x &&& csrHeld 0x00E := by
        rw [ofBool_getLsbD_eq_extractLsb', setWidth_extractLsb'_shiftLeft, setWidth_extractLsb'_shiftLeft, ← BitVec.and_or_distrib_left]
        rfl

theorem State.self_onHart (s : State) (f : Hart → Hart) : (s.onHart f).self = s.self.setHart s.curHart (f s.hart) :=
  State.core_onCore_same s s.cur fun k => k.setHart s.curHart (f (k.hart s.curHart))

/-- A lone word that writes a g register and retires counts in INSTRET (R96). -/
theorem hart_instret_of_lone (s : State) (d : BitVec 5) (x : W) (hf : s.flow = .next) (hs : s.slot = .lone) :
    (s.setG d x).complete.hart.instret = s.hart.instret + 1 := by
  have h : (s.setG d x).complete.hart = Hart.onwards (s.setG d x).hart := by
    rw [complete_eq_retires (s.setG d x) hf, State.retires, if_pos (by simp [hs])]
    exact State.hart_onHart (s.setG d x) Hart.onwards
  obtain ⟨l, hg⟩ := hart_setG s d x
  rw [h, hg]
  rfl

/-- CYCLE (R96): the write sets the hart's offset from the cycles of its core. -/
theorem cycle_takes (s : State) (w : CsrWr) : ∃ s', s.Takes 0x011 w s' := by
  refine ⟨_, .of_onHart rfl rfl rfl ?_⟩
  show (State.self _).cycles + (State.hart _).cycOff = _
  rw [State.self_onHart, State.hart_onHart]
  simp [csrHeld]

/-- INSTRET (R96, log 28): the write makes up for the count of the instruction itself. -/
theorem instret_takes (s : State) (w : CsrWr) : ∃ s', s.Takes 0x012 w s' := by
  refine ⟨_, rfl, rfl, rfl, ?_, fun hs hf d x => ?_⟩
  · rw [State.hart_onHart]
  · refine (hart_instret_of_lone (s.onHart _) d x hf hs).trans ?_
    rw [State.hart_onHart]
    simp [hs, csrHeld]

theorem csrRead_deleg (s : State) (h : s.firmware s.cur = true) : s.csrRead 0x018 = s.hart.trap.deleg := by
  simp [State.csrRead, csrReadHart, h]

/-- DELEG of a firmware core (R103). -/
theorem deleg_takes (s : State) (w : CsrWr) (h : s.firmware s.cur = true) : ∃ s', s.Takes 0x018 w s' := by
  refine ⟨_, .of_onHart rfl (congrArg Except.ok (if_pos h)) rfl ?_⟩
  refine (csrRead_deleg (s.onHart _) ((firmware_congr rfl _).trans h)).trans ?_
  rw [State.hart_onHart]
  exact (and_fieldBits_all _).symm

/-- The hart's own registers that a program may write. -/
theorem csrWriteHart_takes (s : State) {n : Nat} (w : CsrWr)
    (h : (0x008 ≤ n ∧ n ≤ 0x00F) ∨ n = 0x002 ∨ n = 0x011 ∨ n = 0x012 ∨ n = 0x014 ∨ n = 0x030) : ∃ s', s.Takes n w s' := by
  have h' : n = 0x00E ∨ n = 0x011 ∨ n = 0x012 ∨ n = 0x014 ∨ n = 0x002 ∨ n = 0x008 ∨ n = 0x009 ∨ n = 0x00A ∨ n = 0x00B ∨ n = 0x00C ∨ n = 0x00D ∨
      n = 0x00F ∨ n = 0x030 := by omega
  rcases h' with rfl | rfl | rfl | rfl | h'
  · exact pfxstate_takes s w
  · exact cycle_takes s w
  · exact instret_takes s w
  · exact ⟨_, .of_onSelf rfl rfl rfl (by simp [State.csrRead, csrReadHart, csrHeld, setWidth_extractLsb'])⟩
  · rcases h' with rfl | rfl | rfl | rfl | rfl | rfl | rfl | rfl | rfl <;>
      exact ⟨_, .of_onHart rfl rfl rfl (by simp [State.csrRead, csrReadHart, csrHeld, setWidth_extractLsb'])⟩

theorem csrRead_scale (s : State) {n : Nat} (h : 0x108 ≤ n) (h' : n ≤ 0x10F) : s.csrRead n = (s.hart.arith.scale[n - 0x108]?.getD 0).setWidth 64 := by
  simp [State.csrRead, csrReadArith, h, h', show ¬ n < 0x100 by omega, show n < 0x1C0 by omega, show n ≠ 0x100 by omega]

theorem csrWrite_scale (s : State) {n : Nat} (w : CsrWr) (h : 0x108 ≤ n) (h' : n ≤ 0x10F) : s.csrWrite n w =
    .ok (s.onHart fun h => { h with arith := { h.arith with scale := h.arith.scale.setIfInBounds (n - 0x108) (w.x.extractLsb' 0 32) } }) := by
  simp [State.csrWrite, csrWriteArith, h, h', show ¬ n < 0x100 by omega, show n < 0x1C0 by omega, show n ≠ 0x100 by omega]

/-- SCALE (R32). -/
theorem scale_takes (s : State) {n : Nat} (w : CsrWr) (h : 0x108 ≤ n) (h' : n ≤ 0x10F) : ∃ s', s.Takes n w s' := by
  refine ⟨_, .of_onHart (by simp [csrSteady]; omega) (csrWrite_scale s w h h') rfl ?_⟩
  have e : csrHeld n = fieldBits 0 32 := by
    rw [csrHeld, if_neg (by omega), if_neg (by omega), if_neg (by omega), if_neg (by omega), if_pos (by omega)]
  rw [csrRead_scale _ h h', State.hart_onHart, e]
  simp [show n - 0x108 < 8 by omega, setWidth_extractLsb']

/-- The arithmetic registers that take any value (R32, R30, R132, R159, R160). -/
theorem csrWriteArith_takes (s : State) {n : Nat} (w : CsrWr)
    (h : (0x108 ≤ n ∧ n ≤ 0x111) ∨ n = 0x120 ∨ n = 0x140 ∨ n = 0x141) : ∃ s', s.Takes n w s' := by
  have h' : (0x108 ≤ n ∧ n ≤ 0x10F) ∨ n = 0x110 ∨ n = 0x111 ∨ n = 0x120 ∨ n = 0x140 ∨ n = 0x141 := by omega
  rcases h' with ⟨hl, hu⟩ | rfl | rfl | rfl | rfl | rfl
  · exact scale_takes s w hl hu
  · exact ⟨_, .of_onSelf rfl rfl rfl (by simp [State.csrRead, csrReadArith, csrHeld])⟩
  · exact ⟨_, .of_onSelf rfl rfl rfl (by simp [State.csrRead, csrReadArith, csrHeld])⟩
  · exact ⟨_, .of_onHart rfl rfl rfl (by simp [State.csrRead, csrReadArith, csrHeld])⟩
  · exact ⟨_, .of_onHart rfl rfl rfl (by simp [State.csrRead, csrReadArith, csrHeld, setWidth_extractLsb'])⟩
  · exact ⟨_, .of_onHart rfl rfl rfl (by simp [State.csrRead, csrReadArith, csrHeld, setWidth_extractLsb'])⟩

/-- The memory and translation registers that take any value (R198, R199, R208, R248, R255). -/
theorem csrWriteMem_takes (s : State) {n : Nat} (w : CsrWr) (h : n = 0x1C0 ∨ n = 0x1C2 ∨ n = 0x1E0 ∨ n = 0x200 ∨ n = 0x201 ∨ n = 0x209) :
    ∃ s', s.Takes n w s' := by
  rcases h with rfl | rfl | rfl | rfl | rfl | rfl
  · exact ⟨_, .of_onHart rfl rfl rfl (by simp [State.csrRead, csrReadMem, csrHeld, setWidth_extractLsb'])⟩
  · exact ⟨_, .of_onSelf rfl rfl rfl (by simp [State.csrRead, csrReadMem, csrHeld])⟩
  · exact ⟨_, .of_onSelf rfl rfl rfl (by simp [State.csrRead, csrReadMem, csrHeld])⟩
  · exact ⟨_, .of_onSelf rfl rfl rfl (by simp [State.csrRead, csrReadMem, csrHeld])⟩
  · exact ⟨_, .of_onSelf rfl rfl rfl (by simp [State.csrRead, csrReadMem, csrHeld])⟩
  · exact ⟨_, .of_onHart rfl rfl rfl (by simp [State.csrRead, csrReadMem, csrHeld, setWidth_extractLsb'])⟩

/-! Of a number from 0x240 to 0x2FF the register is one of time, queues or fabric. -/

theorem csrRead_time (s : State) {n : Nat} (h : 0x240 ≤ n) (h' : n < 0x300) : s.csrRead n = csrReadTime s n := by
  simp [State.csrRead, h', show ¬ n < 0x100 by omega, show ¬ n < 0x1C0 by omega, show ¬ n < 0x240 by omega]

theorem csrWrite_time (s : State) {n : Nat} (w : CsrWr) (h : 0x240 ≤ n) (h' : n < 0x300) : s.csrWrite n w = csrWriteTime s n w := by
  simp [State.csrWrite, h', show ¬ n < 0x100 by omega, show ¬ n < 0x1C0 by omega, show ¬ n < 0x240 by omega]

/-- The registers of a channel, a tag port or a guard store whole words. -/
theorem csrHeld_of_indexed {n : Nat} (h : 0x1D0 ≤ n ∧ n ≤ 0x1D7 ∨ 0x250 ≤ n ∧ n ≤ 0x25F ∨ 0x290 ≤ n ∧ n ≤ 0x2BF) : csrHeld n = fieldBits 0 64 := by
  unfold csrHeld
  repeat rw [if_neg (by omega)]

theorem csrRead_portcfg (s : State) {n : Nat} (h : 0x250 ≤ n) (h' : n ≤ 0x25F) : s.csrRead n = s.self.tags.portcfg[n - 0x250]?.getD 0 := by
  rw [csrRead_time s (by omega) (by omega)]
  unfold csrReadTime
  repeat rw [if_neg (by simp; omega)]
  rw [if_pos (by simp; omega)]

theorem csrWrite_portcfg (s : State) {n : Nat} (w : CsrWr) (h : 0x250 ≤ n) (h' : n ≤ 0x25F) : s.csrWrite n w =
    .ok (s.onSelf fun k => { k with tags := { k.tags with portcfg := k.tags.portcfg.setIfInBounds (n - 0x250) w.x } }) := by
  rw [csrWrite_time s w (by omega) (by omega)]
  unfold csrWriteTime
  repeat rw [if_neg (by simp; omega)]
  rw [if_pos (by simp; omega)]

/-- PORTCFG (R266). -/
theorem portcfg_takes (s : State) {n : Nat} (w : CsrWr) (h : 0x250 ≤ n) (h' : n ≤ 0x25F) : ∃ s', s.Takes n w s' := by
  refine ⟨_, .of_onSelf (by simp [csrSteady]; omega) (csrWrite_portcfg s w h h') rfl ?_⟩
  rw [csrRead_portcfg _ h h', State.self_onSelf, csrHeld_of_indexed (by omega)]
  simp [show n - 0x250 < 16 by omega]

theorem csrRead_chout (s : State) {n : Nat} (h : 0x2B0 ≤ n) (h' : n ≤ 0x2BF) : s.csrRead n = s.self.chan.chout[n - 0x2B0]?.getD 0 := by
  rw [csrRead_time s (by omega) (by omega)]
  unfold csrReadTime
  repeat rw [if_neg (by simp; omega)]
  rw [if_pos (by simp; omega)]

theorem csrWrite_chout (s : State) {n : Nat} (w : CsrWr) (h : 0x2B0 ≤ n) (h' : n ≤ 0x2BF) : s.csrWrite n w =
    .ok (s.onSelf fun k => { k with chan := { k.chan with chout := k.chan.chout.setIfInBounds (n - 0x2B0) w.x } }) := by
  rw [csrWrite_time s w (by omega) (by omega)]
  unfold csrWriteTime
  repeat rw [if_neg (by simp; omega)]
  rw [if_pos (by simp; omega)]

/-- CHOUT (R306). -/
theorem chout_takes (s : State) {n : Nat} (w : CsrWr) (h : 0x2B0 ≤ n) (h' : n ≤ 0x2BF) : ∃ s', s.Takes n w s' := by
  refine ⟨_, .of_onSelf (by simp [csrSteady]; omega) (csrWrite_chout s w h h') rfl ?_⟩
  rw [csrRead_chout _ h h', State.self_onSelf, csrHeld_of_indexed (by omega)]
  simp [show n - 0x2B0 < 16 by omega]

/-- The tag fault bounds (R276). -/
theorem tagBounds_takes (s : State) (w : CsrWr) : ∃ s', s.Takes 0x24A w s' := by
  have e : w.x.extractLsb' 32 32 ++ w.x.extractLsb' 16 16 = w.x.extractLsb' 16 48 := BitVec.extractLsb'_append_extractLsb'_eq_extractLsb' rfl
  refine ⟨_, .of_onSelf rfl rfl rfl ?_⟩
  calc _ = w.x.extractLsb' 32 32 ++ w.x.extractLsb' 16 16 ++ 0#15 ++ BitVec.ofBool (w.x.getLsbD 0) := by
        simp [State.csrRead, csrReadTime]
    _ = w.x &&& csrHeld 0x24A := by
        rw [append_zero_append_eq_or, ofBool_getLsbD_eq_extractLsb', e, setWidth_extractLsb'_shiftLeft, setWidth_extractLsb'_shiftLeft,
          ← BitVec.and_or_distrib_left]
        rfl

/-- The time, queue and fabric registers that take any value (R266, R276, R303, R306, R325, R333). -/
theorem csrWriteTime_takes (s : State) {n : Nat} (w : CsrWr)
    (h : n = 0x240 ∨ n = 0x24A ∨ (0x250 ≤ n ∧ n ≤ 0x25F) ∨ n = 0x283 ∨ (0x2B0 ≤ n ∧ n ≤ 0x2BF) ∨ n = 0x2C0 ∨ n = 0x2C2) : ∃ s', s.Takes n w s' := by
  rcases h with rfl | rfl | ⟨hl, hu⟩ | rfl | ⟨hl, hu⟩ | rfl | rfl
  · exact ⟨_, .of_onSelf rfl rfl rfl (by simp [State.csrRead, csrReadTime, csrHeld, setWidth_extractLsb'])⟩
  · exact tagBounds_takes s w
  · exact portcfg_takes s w hl hu
  · exact ⟨_, .of_onHart rfl rfl rfl (by simp [State.csrRead, csrReadTime, csrHeld])⟩
  · exact chout_takes s w hl hu
  · exact ⟨_, .of_onSelf rfl rfl rfl (by simp [State.csrRead, csrReadTime, csrHeld, setWidth_extractLsb'])⟩
  · exact ⟨_, .of_onSelf rfl rfl rfl (by simp [State.csrRead, csrReadTime, csrHeld])⟩

theorem State.hartAt_onSys (s : State) (c d : CoreId) (f : CoreSys → CoreSys) (h : HartId) : (s.onSys c f).hartAt d h = s.hartAt d h := by
  unfold State.hartAt State.onSys
  by_cases hd : d = c
  · subst hd
    rw [State.core_onCore_same]; rfl
  · rw [State.core_onCore_other _ _ _ _ hd]

/-- A change of the stop registers of several cores, one after the other. -/
theorem foldl_onSys_pwrcls (k : BitVec 2) (l : List CoreId) (s : State) :
    let t := l.foldl (fun s c => s.onSys c fun y => { y with pwrcls := k }) s
    t.mem = s.mem ∧ t.net = s.net ∧ t.cur = s.cur ∧ t.curHart = s.curHart ∧ (∀ c h, t.hartAt c h = s.hartAt c h) ∧
      ∀ c, (c ∈ l ∨ (s.core c).sys.pwrcls = k) → (t.core c).sys.pwrcls = k := by
  induction l generalizing s with
  | nil => simp
  | cons c l ih =>
    obtain ⟨hm, hn, hc, hh, hr, hp⟩ := ih (s.onSys c fun y => { y with pwrcls := k })
    refine ⟨hm, hn, hc, hh, fun d h => (hr d h).trans (s.hartAt_onSys c d _ h), fun d hd => hp d ?_⟩
    by_cases e : d = c
    · subst e
      right
      rw [State.onSys, State.core_onCore_same]
    · rw [State.onSys, State.core_onCore_other _ _ _ _ e]
      simpa [e] using hd

/-- PWRCLS of a context (R375). -/
theorem pwrcls_takes (s : State) (w : CsrWr) : ∃ s', s.Takes 0x380 w s' := by
  obtain ⟨hm, hn, hc, hh, hr, hp⟩ := foldl_onSys_pwrcls (w.x.extractLsb' 0 2) (s.cur :: s.partition s.self.mem.ctxid) s
  refine ⟨s.putPwrcls (w.x.extractLsb' 0 2), .of_steady rfl rfl hm hn ?_ ?_⟩
  · unfold State.hart State.putPwrcls
    rw [hc, hh, hr]
  · show ((s.putPwrcls _).self.sys.pwrcls).setWidth 64 = _
    unfold State.self State.putPwrcls
    rw [hc, hp s.cur (.inl List.mem_cons_self)]
    exact setWidth_extractLsb' _ _

/-- The containment, stop and power registers that take any value (R344, R350, R351, R359, R373 to R375). -/
theorem csrWriteSys_takes (s : State) {n : Nat} (w : CsrWr)
    (h : n = 0x303 ∨ n = 0x311 ∨ n = 0x318 ∨ n = 0x338 ∨ n = 0x33A ∨ n = 0x380 ∨ n = 0x383 ∨ n = 0x385) : ∃ s', s.Takes n w s' := by
  rcases h with rfl | rfl | rfl | rfl | rfl | rfl | rfl | rfl
  · exact ⟨_, .of_onSelf rfl rfl rfl (by simp [State.csrRead, csrReadSys, csrHeld])⟩
  · exact ⟨_, .of_onSelf rfl rfl rfl (by simp [State.csrRead, csrReadSys, csrHeld])⟩
  · exact ⟨_, .of_onSelf rfl rfl rfl (by simp [State.csrRead, csrReadSys, csrHeld])⟩
  · exact ⟨_, .of_onHart rfl rfl rfl (by simp [State.csrRead, csrReadSys, csrHeld])⟩
  · exact ⟨_, .of_onHart rfl rfl rfl (by simp [State.csrRead, csrReadSys, csrHeld])⟩
  · exact pwrcls_takes s w
  · exact ⟨_, .of_steady rfl rfl rfl rfl rfl (setWidth_extractLsb' w.x 13)⟩
  · exact ⟨_, .of_onSelf rfl rfl rfl (by simp [State.csrRead, csrReadSys, csrHeld, setWidth_extractLsb'])⟩

/-- A register that a program may write, and that reads back what was written, takes any value. -/
theorem plainCsr_takes (s : State) {n : Nat} (w : CsrWr) (h : plainCsr n = true) : ∃ s', s.Takes n w s' := by
  simp only [plainCsr, Bool.or_eq_true, decide_eq_true_eq, beq_iff_eq] at h
  by_cases h1 : n < 0x100
  · exact csrWriteHart_takes s w (by omega)
  by_cases h2 : n < 0x1C0
  · exact csrWriteArith_takes s w (by omega)
  by_cases h3 : n < 0x240
  · exact csrWriteMem_takes s w (by omega)
  by_cases h4 : n < 0x300
  · exact csrWriteTime_takes s w (by omega)
  · exact csrWriteSys_takes s w (by omega)

end Sys2Proof.Machine
end

section
/-!
PROOF. Registers that may hold certain values only, and how they judge one (R5).
-/

namespace Sys2Proof.Machine

/-! Registers that may hold certain values only -/

/-- CSR `n` judges the value that it is supplied with: it takes it, or refuses it with an illegal-instruction fault of kind 2 (R5). -/
def State.Judges (s : State) (n : Nat) (w : CsrWr) (ok : Bool) : Prop :=
  (ok = true → ∃ s', s.Takes n w s') ∧ (ok = false → s.csrWrite n w = .error 2)

/-- A write that refuses on a condition judges by that condition. -/
theorem State.Judges.of_ite {s s' : State} {n : Nat} {w : CsrWr} {bad : Prop} [Decidable bad] {ok : Bool}
    (hw : s.csrWrite n w = if bad then .error 2 else .ok s') (hb : bad ↔ ok = false)
    (ht : s.csrWrite n w = .ok s' → s.Takes n w s') : s.Judges n w ok := by
  refine ⟨fun h => ⟨s', ht ?_⟩, fun h => ?_⟩
  · rw [hw, if_neg (by simp [hb, h])]
  · rw [hw, if_pos (hb.mpr h)]

theorem toNat_extractLsb'_eq (x : W) (lo k : Nat) : (x.extractLsb' lo k).toNat = x.toNat / 2 ^ lo % 2 ^ k := by
  rw [BitVec.extractLsb'_toNat, Nat.shiftRight_eq_div_pow]

theorem fpstat_judges (s : State) (w : CsrWr) : s.Judges 0x100 w (decide (w.x.toNat / 2 ^ 0 % 2 ^ 3 ≤ 4)) :=
  .of_ite rfl (by rw [toNat_extractLsb'_eq, decide_eq_false_iff_not]; omega)
    fun hw => .of_onHart rfl hw rfl (by simp [State.csrRead, csrReadArith, csrHeld, setWidth_extractLsb'])

theorem mxprio_judges (s : State) (w : CsrWr) : s.Judges 0x180 w (decide (1 ≤ w.x.toNat / 2 ^ 0 % 2 ^ 7 ∧ w.x.toNat / 2 ^ 0 % 2 ^ 7 ≤ 64)) := by
  refine .of_ite rfl ?_ fun hw => .of_steady rfl hw rfl rfl rfl ?_
  · rw [Bool.or_eq_true, beq_iff_eq, decide_eq_true_eq, decide_eq_false_iff_not, ← toNat_extractLsb'_eq, ← BitVec.toNat_inj]
    simp
    omega
  · show ((State.array _ (arrayOf s.cur)).count).setWidth 64 = _
    rw [State.array_onArray_same]
    exact setWidth_extractLsb' w.x 7

theorem bopen_judges (s : State) (w : CsrWr) : s.Judges 0x280 w (decide ((w.x.extractLsb' 0 16 - s.hart.batch.bdone - 1).toNat ≤ 15)) :=
  .of_ite rfl (by rw [openBatches, decide_eq_false_iff_not]; omega)
    fun hw => .of_onHart rfl hw rfl (by simp [State.csrRead, csrReadTime, csrHeld, setWidth_extractLsb'])

theorem bdone_judges (s : State) (w : CsrWr) : s.Judges 0x281 w (decide ((s.hart.batch.bopen - w.x.extractLsb' 0 16 - 1).toNat ≤ 15)) :=
  .of_ite rfl (by rw [openBatches, decide_eq_false_iff_not]; omega)
    fun hw => .of_onHart rfl hw rfl (by simp [State.csrRead, csrReadTime, csrHeld, setWidth_extractLsb'])

theorem xcomp_judges (s : State) (w : CsrWr) : s.Judges 0x282 w (decide (w.x.toNat / 2 ^ 0 % 2 ^ 2 ≠ 3)) :=
  .of_ite rfl (by rw [← toNat_extractLsb'_eq, beq_iff_eq, ← BitVec.toNat_inj]; simp)
    fun hw => .of_onHart rfl hw rfl (by simp [State.csrRead, csrReadTime, csrHeld])

theorem fabcfg_judges (s : State) (w : CsrWr) : s.Judges 0x2C1 w (decide (w.x.toNat / 2 ^ 0 % 2 ^ 32 ≠ 0)) :=
  .of_ite rfl (by rw [← toNat_extractLsb'_eq, beq_iff_eq, ← BitVec.toNat_inj]; simp)
    fun hw => .of_onSelf rfl hw rfl (by simp [State.csrRead, csrReadTime, csrHeld])

theorem wctl_judges (s : State) {n : Nat} (w : CsrWr) (h : n = 0x339 ∨ n = 0x33B) :
    s.Judges n w (decide (3 ≤ w.x.toNat / 2 ^ 10 % 2 ^ 6 ∧ w.x.toNat / 2 ^ 10 % 2 ^ 6 ≤ 47)) := by
  rcases h with rfl | rfl
  · refine .of_ite rfl ?_ fun hw => .of_onHart rfl hw rfl (by simp [State.csrRead, csrReadSys, csrHeld, setWidth_extractLsb'])
    rw [toNat_extractLsb'_eq, Bool.or_eq_true, decide_eq_true_eq, decide_eq_true_eq, decide_eq_false_iff_not]; omega
  · refine .of_ite rfl ?_ fun hw => .of_onHart rfl hw rfl (by simp [State.csrRead, csrReadSys, csrHeld, setWidth_extractLsb'])
    rw [toNat_extractLsb'_eq, Bool.or_eq_true, decide_eq_true_eq, decide_eq_true_eq, decide_eq_false_iff_not]; omega

theorem csrRead_lguard (s : State) {n : Nat} (h : 0x1D0 ≤ n) (h' : n ≤ 0x1D7) : s.csrRead n = s.self.mem.lguard[n - 0x1D0]?.getD 0 := by
  unfold State.csrRead csrReadMem
  rw [if_neg (by omega), if_neg (by omega), if_pos (by omega)]
  repeat rw [if_neg (by simp; omega)]
  rw [if_pos (by simp; omega)]

theorem csrWrite_lguard (s : State) {n : Nat} (w : CsrWr) (h : 0x1D0 ≤ n) (h' : n ≤ 0x1D7) : s.csrWrite n w =
    if (n % 2 == 1 && guardTooHigh w.x) = true then .error 2
    else .ok (s.onSelf fun k => { k with mem := { k.mem with lguard := k.mem.lguard.setIfInBounds (n - 0x1D0) w.x } }) := by
  unfold State.csrWrite csrWriteMem
  rw [if_neg (by omega), if_neg (by omega), if_pos (by omega)]
  repeat rw [if_neg (by simp; omega)]
  rw [if_pos (by simp; omega)]

theorem lguard_judges (s : State) {n : Nat} (w : CsrWr) (h : 0x1D0 ≤ n) (h' : n ≤ 0x1D7) :
    s.Judges n w (decide (n % 2 = 0 ∨ w.x.toNat / 2 ^ 6 % 2 ^ 14 ≤ Config.spillBase / 64)) := by
  refine .of_ite (csrWrite_lguard s w h h') ?_ fun hw => .of_onSelf (by simp [csrSteady]; omega) hw rfl ?_
  · rw [guardTooHigh, toNat_extractLsb'_eq, Bool.and_eq_true, beq_iff_eq, decide_eq_true_eq, decide_eq_false_iff_not,
      show Config.spillBase / 64 = 0x1F80 from rfl]
    omega
  · rw [csrRead_lguard _ h h', State.self_onSelf, csrHeld_of_indexed (by omega)]
    simp [show n - 0x1D0 < 8 by omega]

theorem csrRead_chin (s : State) {n : Nat} (h : 0x290 ≤ n) (h' : n ≤ 0x29F) : s.csrRead n = s.self.chan.chin[n - 0x290]?.getD 0 := by
  rw [csrRead_time s (by omega) (by omega)]
  unfold csrReadTime
  repeat rw [if_neg (by simp; omega)]
  rw [if_pos (by simp; omega)]

theorem csrWrite_chin (s : State) {n : Nat} (w : CsrWr) (h : 0x290 ≤ n) (h' : n ≤ 0x29F) : s.csrWrite n w =
    if chinBad w.x = true then .error 2
    else .ok (s.onSelf fun k => { k with chan := { k.chan with chin := k.chan.chin.setIfInBounds (n - 0x290) w.x } }) := by
  rw [csrWrite_time s w (by omega) (by omega)]
  unfold csrWriteTime
  repeat rw [if_neg (by simp; omega)]
  rw [if_pos (by simp; omega)]

/-- Bit 63 of a word as a number. -/
theorem getLsbD_63_iff (x : W) : x.getLsbD 63 = true ↔ x.toNat / 2 ^ 63 % 2 ^ 1 = 1 := by
  rw [BitVec.getLsbD, Nat.testBit_eq_decide_div_mod_eq, decide_eq_true_eq, Nat.pow_one]

theorem chin_judges (s : State) {n : Nat} (w : CsrWr) (h : 0x290 ≤ n) (h' : n ≤ 0x29F) :
    s.Judges n w (decide (w.x.toNat / 2 ^ 63 % 2 ^ 1 = 1 → w.x.toNat / 2 ^ 19 % 2 ^ 16 ≠ 0 ∧
      8 * (w.x.toNat / 2 ^ 3 % 2 ^ 16) + 8 * (w.x.toNat / 2 ^ 19 % 2 ^ 16) ≤ Config.spillBase)) := by
  refine .of_ite (csrWrite_chin s w h h') ?_ fun hw => .of_onSelf (by simp [csrSteady]; omega) hw rfl ?_
  · rw [chinBad, toNat_extractLsb'_eq, toNat_extractLsb'_eq, Bool.and_eq_true, Bool.or_eq_true, beq_iff_eq, decide_eq_true_eq, getLsbD_63_iff,
      decide_eq_false_iff_not]
    omega
  · rw [csrRead_chin _ h h', State.self_onSelf, csrHeld_of_indexed (by omega)]
    simp [show n - 0x290 < 16 by omega]

theorem csrRead_chptr (s : State) {n : Nat} (h : 0x2A0 ≤ n) (h' : n ≤ 0x2AF) : s.csrRead n = s.self.chan.chptr[n - 0x2A0]?.getD 0 := by
  rw [csrRead_time s (by omega) (by omega)]
  unfold csrReadTime
  repeat rw [if_neg (by simp; omega)]
  rw [if_pos (by simp; omega)]

theorem csrWrite_chptr (s : State) {n : Nat} (w : CsrWr) (h : 0x2A0 ≤ n) (h' : n ≤ 0x2AF) : s.csrWrite n w =
    if (s.self.chan.inReg (n - 0x2A0)).getLsbD 63 = true then .error 2
    else .ok (s.onSelf fun k => { k with chan := { k.chan with chptr := k.chan.chptr.setIfInBounds (n - 0x2A0) w.x } }) := by
  rw [csrWrite_time s w (by omega) (by omega)]
  unfold csrWriteTime
  repeat rw [if_neg (by simp; omega)]
  rw [if_pos (by simp; omega)]

theorem chptr_judges (s : State) {n : Nat} (w : CsrWr) (h : 0x2A0 ≤ n) (h' : n ≤ 0x2AF) :
    s.Judges n w (!((s.self.chan.chin[n - 0x2A0]?).getD 0).getLsbD 63) := by
  refine .of_ite (csrWrite_chptr s w h h') (by rw [Bool.not_eq_false']; rfl) fun hw => .of_onSelf (by simp [csrSteady]; omega) hw rfl ?_
  rw [csrRead_chptr _ h h', State.self_onSelf, csrHeld_of_indexed (by omega)]
  simp [show n - 0x2A0 < 16 by omega]

/-- A register that takes any value judges every value good. -/
theorem State.Judges.of_takes {s : State} {n : Nat} {w : CsrWr} (h : ∃ s', s.Takes n w s') : s.Judges n w true := ⟨fun _ => h, nofun⟩

/-- The first of a chain of cases, or a later one. -/
theorem ite_some_cases {c : Prop} [Decidable c] {a b : Bool} {o : Option Bool} (h : (if c then some a else o) = some b) :
    (c ∧ a = b) ∨ o = some b := by
  by_cases hc : c
  · rw [if_pos hc] at h; exact .inl ⟨hc, Option.some.inj h⟩
  · rw [if_neg hc] at h; exact .inr h

/-- A register that may hold certain values only takes those and refuses the others. -/
theorem mayHold_judges {s : State} {n : Nat} {w : CsrWr} {ok : Bool} (h : mayHold s n w.x = some ok) : s.Judges n w ok := by
  rcases ite_some_cases h with ⟨rfl | rfl | ⟨rfl, hfw⟩, rfl⟩ | h
  · exact .of_takes (csrWriteHart_takes s w (by omega))
  · exact .of_takes (csrWriteArith_takes s w (by omega))
  · exact .of_takes (deleg_takes s w hfw)
  rcases ite_some_cases h with ⟨rfl, rfl⟩ | h
  · exact fpstat_judges s w
  rcases ite_some_cases h with ⟨rfl, rfl⟩ | h
  · exact mxprio_judges s w
  rcases ite_some_cases h with ⟨⟨hl, hu⟩, rfl⟩ | h
  · exact lguard_judges s w hl hu
  rcases ite_some_cases h with ⟨rfl, rfl⟩ | h
  · exact bopen_judges s w
  rcases ite_some_cases h with ⟨rfl, rfl⟩ | h
  · exact bdone_judges s w
  rcases ite_some_cases h with ⟨rfl, rfl⟩ | h
  · exact xcomp_judges s w
  rcases ite_some_cases h with ⟨⟨hl, hu⟩, rfl⟩ | h
  · exact chin_judges s w hl hu
  rcases ite_some_cases h with ⟨⟨hl, hu⟩, rfl⟩ | h
  · exact chptr_judges s w hl hu
  rcases ite_some_cases h with ⟨rfl, rfl⟩ | h
  · exact fabcfg_judges s w
  rcases ite_some_cases h with ⟨hn, rfl⟩ | h
  · exact wctl_judges s w hn
  · cases h

end Sys2Proof.Machine
end

section
/-!
PROOF. The CSR instructions: what they exchange, what they refuse, and the registers with effects of their own (R91, R92).
-/

namespace Sys2Proof.Machine

/-! The CSR instructions -/

/-- A CSR instruction is checked and then exchanges its register (R92). -/
theorem exec_csr {s : State} {i : Instr} {f : CsrForm} {n : Nat} {m : W} {d : BitVec 5} (h : csrOf s i = some (f, n, m, d)) :
    exec i s = issue i s (s.preciseOr i (s.csr i f n m d)) := by
  unfold csrOf at h
  split at h
  case h_7 => cases h
  all_goals
    obtain ⟨rfl, rfl, rfl, rfl⟩ := Option.some.inj h
    rfl

theorem exec_csr_of_issues {s : State} {i : Instr} {f : CsrForm} {n : Nat} {m : W} {d : BitVec 5} (h : csrOf s i = some (f, n, m, d))
    (hi : s.issues i = true) : exec i s = .next (s.csr i f n m d) := by
  rw [exec_csr h, preciseOr_of_issues hi, issue_of_issues hi]

/-- What a form supplies when it writes: the value that it leaves, and the W1C bits of its mask unless it sets (R92). -/
theorem supply_of_writes {f : CsrForm} {n : Nat} {t m : W} (h : f = .write ∨ m ≠ 0) : ∃ w, f.supply n t m = some w ∧ w.x = f.leaves t m ∧
    w.clear = if f = .set then 0 else m &&& csrW1c n := by
  cases f <;> simp_all [CsrForm.supply, CsrForm.leaves]

/-- Of a register other than RECALL it does not matter what is written. -/
theorem csrBusy_of_ne_recall {s : State} {n : Nat} (h : n ≠ 0x304) (w : Option CsrWr) : s.csrBusy n w = s.csrBusy n none := by
  simp [State.csrBusy, h]

/-- With a mask of zero a CSR instruction reads its register and writes nothing (R92). -/
theorem csr_of_no_write {s : State} {i : Instr} {f : CsrForm} {n : Nat} {m : W} {d : BitVec 5} (hf : f ≠ .write) (hm : m = 0)
    (hb : s.csrBusy n none = false) : s.csr i f n m d = (s.setG d (s.csrRead n)).complete := by
  have hr : f.reservedSet n m = false := by cases f <;> simp [CsrForm.reservedSet, hm]
  have hs : f.supply n (s.csrRead n) m = none := by cases f <;> simp_all [CsrForm.supply]
  simp only [State.csr, hr, hs, hb]
  rfl

/-- A reserved bit that is to be set is refused first (R5, log 17). -/
theorem csr_of_reserved {s : State} {i : Instr} {f : CsrForm} {n : Nat} {m : W} {d : BitVec 5} (hr : f.reservedSet n m = true) :
    s.csr i f n m d = s.illegalValue 2 := by
  simp only [State.csr, hr, if_true]

/-- A CSR instruction whose register takes the value writes the old one to gD and completes (R92). -/
theorem csr_of_ok {s s' : State} {i : Instr} {f : CsrForm} {n : Nat} {m : W} {d : BitVec 5} {w : CsrWr} (hr : f.reservedSet n m = false)
    (hb : s.csrBusy n none = false) (hn : n ≠ 0x304) (ht : n ≠ 0x210) (hs : f.supply n (s.csrRead n) m = some w) (hw : s.csrWrite n w = .ok s') :
    s.csr i f n m d = (s'.setG d (s.csrRead n)).complete := by
  simp [State.csr, hr, hs, csrBusy_of_ne_recall hn, hb, ht, hw]

/-- A value that the register refuses is an illegal instruction of that kind (R5, R91). -/
theorem csr_of_error {s : State} {i : Instr} {f : CsrForm} {n : Nat} {m : W} {d : BitVec 5} {w : CsrWr} {k : Nat} (hr : f.reservedSet n m = false)
    (hb : s.csrBusy n none = false) (hn : n ≠ 0x304) (ht : n ≠ 0x210) (hs : f.supply n (s.csrRead n) m = some w) (hw : s.csrWrite n w = .error k) :
    s.csr i f n m d = s.illegalValue k := by
  simp [State.csr, hr, hs, csrBusy_of_ne_recall hn, hb, ht, hw]

theorem exec_csr_of_ok {s s' : State} {i : Instr} {f : CsrForm} {n : Nat} {m : W} {d : BitVec 5} {w : CsrWr} (h : csrOf s i = some (f, n, m, d))
    (hi : s.issues i = true) (hr : f.reservedSet n m = false) (hb : s.csrBusy n none = false) (hn : n ≠ 0x304) (ht : n ≠ 0x210)
    (hs : f.supply n (s.csrRead n) m = some w) (hw : s.csrWrite n w = .ok s') : exec i s = .next (s'.setG d (s.csrRead n)).complete := by
  rw [exec_csr_of_issues h hi, csr_of_ok hr hb hn ht hs hw]

theorem exec_csr_of_error {s : State} {i : Instr} {f : CsrForm} {n : Nat} {m : W} {d : BitVec 5} {w : CsrWr} {k : Nat}
    (h : csrOf s i = some (f, n, m, d)) (hi : s.issues i = true) (hr : f.reservedSet n m = false) (hb : s.csrBusy n none = false) (hn : n ≠ 0x304)
    (ht : n ≠ 0x210) (hs : f.supply n (s.csrRead n) m = some w) (hw : s.csrWrite n w = .error k) : exec i s = .next (s.illegalValue k) := by
  rw [exec_csr_of_issues h hi, csr_of_error hr hb hn ht hs hw]

/-- TRCAUSE of an illegal instruction: its kind, and the position of the word (R57, R101). -/
theorem illegalCause : ∀ (kind : Fin 8) (p : BitVec 3),
    let c : W := (BitVec.ofBool false).setWidth 64 <<< 63 ||| (BitVec.ofNat 9 (8 * kind.val) ||| p.setWidth 9).setWidth 64
    c.extractLsb' 3 6 = BitVec.ofNat 6 kind.val ∧ c.toNat < 0x40 := by decide

/-- An illegal instruction of a hart without an open access traps at once (R57, R104). -/
theorem tookIllegal_raise {s : State} {stage kind : Nat} (p : BitVec 3) (info : W) (h : s.settled = true) (hk : kind < 8) :
    s.tookIllegal (s.raise stage (BitVec.ofNat 9 (8 * kind) ||| p.setWidth 9) 0 info) kind := by
  simp only [State.settled, Bool.and_eq_true, Bool.not_eq_true'] at h
  obtain ⟨hu, hp⟩ := h
  have ht : (s.raise stage (BitVec.ofNat 9 (8 * kind) ||| p.setWidth 9) 0 info).hart =
      trapHart (s.firmware s.cur) false (BitVec.ofNat 9 (8 * kind) ||| p.setWidth 9) 0 info s.hart.pc s.hart := by
    rw [State.raise, if_neg (by simp [hu]), State.trapAt, freeze_of_not_parked s hp]
    exact State.hart_onHart s _
  obtain ⟨hc, hlt⟩ := illegalCause ⟨kind, hk⟩ p
  unfold State.tookIllegal
  rw [ht]
  exact ⟨rfl, hc, hlt, rfl, rfl, rfl, rfl, rfl, State.raise_mem _ _ _ _ _⟩

theorem tookIllegal_illegalValue {s : State} {kind : Nat} (h : s.settled = true) (hk : kind < 8) : s.tookIllegal (s.illegalValue kind) kind :=
  tookIllegal_raise _ _ h hk

/-- A mode that may not read or write the register is refused before the instruction executes (R56, R91). -/
theorem exec_csr_of_not_privOk {s : State} {i : Instr} {f : CsrForm} {n : Nat} {m : W} {d : BitVec 5} (h : csrOf s i = some (f, n, m, d))
    (hp : prefixOk i s = true) (hv : privOk i s = false) : exec i s = .next (s.illegal 4) := by
  rw [exec_csr h]
  simp [issue, State.check, hp, hv]

/-- A register that takes its value is exchanged: the old value is in gD, and of a lone word the register then reads back the new one (R92). -/
theorem exec_csr_of_takes {s s' : State} {i : Instr} {f : CsrForm} {n : Nat} {m : W} {d : BitVec 5} {w : CsrWr} (h : csrOf s i = some (f, n, m, d))
    (hi : s.issues i = true) (hr : f.reservedSet n m = false) (hb : s.csrBusy n none = false) (hn : n ≠ 0x304) (ht : n ≠ 0x210)
    (hs : f.supply n (s.csrRead n) m = some w) (hx : w.x = f.leaves (s.csrRead n) m) (hw : s.Takes n w s') :
    ∃ t, exec i s = .next t ∧ t.disp = .retired ∧ t.mem = s.mem ∧ t.net = s.net ∧ t.hart.regs = s.hart.regs.writeG d (s.csrRead n) ∧
      (s.slot = .lone → t.csrRead n = f.leaves (s.csrRead n) m) := by
  refine ⟨_, exec_csr_of_ok h hi hr hb hn ht hs hw.write, State.complete_disp _, ?_, ?_, ?_, fun hl => ?_⟩
  · rw [State.complete_mem, State.setG_mem, hw.mem]
  · rw [State.complete_net, State.setG_net, hw.net]
  · rw [regs_setG_complete, hw.regs]
  · rw [hw.read hl (flow_of_issues hi), hx, leaves_and_csrHeld s hr]

theorem plainCsr_ne {n : Nat} (h : plainCsr n = true) : n ≠ 0x304 ∧ n ≠ 0x210 := by
  constructor <;> rintro rfl <;> revert h <;> decide

theorem mayHold_ne {s : State} {n : Nat} {x : W} {ok : Bool} (h : mayHold s n x = some ok) : n ≠ 0x304 ∧ n ≠ 0x210 := by
  constructor <;> rintro rfl <;> simp [mayHold] at h

/-- Every CSR instruction returns the old value, and a plain register takes the value that the form gives (R5, R91, R92). -/
theorem csr_exchanges (i : Instr) (s : State) (f : CsrForm) (n : Nat) (m : W) (d : BitVec 5) (h : csrOf s i = some (f, n, m, d)) :
    (s.issues i = true → f ≠ .write → m = 0 → s.csrBusy n none = false → exec i s = .next (s.wroteG d (s.csrRead n)).retires) ∧
    (s.issues i = true → plainCsr n = true → f.reservedSet n m = false → s.csrBusy n none = false → (f = .write ∨ m ≠ 0) →
      ∃ t, exec i s = .next t ∧ t.disp = .retired ∧ t.mem = s.mem ∧ t.net = s.net ∧ t.hart.regs = s.hart.regs.writeG d (s.csrRead n) ∧
        (s.slot = .lone → t.csrRead n = f.leaves (s.csrRead n) m)) ∧
    (s.issues i = true → s.settled = true → f.reservedSet n m = true → ∃ t, exec i s = .next t ∧ s.tookIllegal t 2) ∧
    (s.settled = true → prefixOk i s = true → privOk i s = false → ∃ t, exec i s = .next t ∧ s.tookIllegal t 4) := by
  refine ⟨fun hi hf hm hb => ?_, fun hi hp hr hb hw => ?_, fun hi hs hr => ?_, fun hs hp hv => ?_⟩
  · rw [exec_csr_of_issues h hi, csr_of_no_write hf hm hb, setG_eq_wroteG]
    have hfl : s.flow = .next := flow_of_issues hi
    rw [complete_eq_retires (s.wroteG d (s.csrRead n)) hfl]
  · obtain ⟨w, hsup, hx, -⟩ := supply_of_writes (n := n) (t := s.csrRead n) hw
    obtain ⟨s', ht⟩ := plainCsr_takes s w hp
    exact exec_csr_of_takes h hi hr hb (plainCsr_ne hp).1 (plainCsr_ne hp).2 hsup hx ht
  · exact ⟨_, by rw [exec_csr_of_issues h hi, csr_of_reserved hr], tookIllegal_illegalValue hs (by decide)⟩
  · exact ⟨_, exec_csr_of_not_privOk h hp hv, tookIllegal_raise _ _ hs (by decide)⟩

/-- What CSRRW and CSRWI supply. -/
def csrWhole (n : Nat) (x : W) : CsrWr := { x := x, touch := BitVec.allOnes 64, clear := x &&& csrW1c n }

/-- CSRRW of a register that takes the value (R92). -/
theorem exec_csrrw_of_ok {s s' : State} {c : BitVec 12} {a d : BitVec 5} {w l : Bool} (hi : s.issues (.csrrw c a d w l) = true)
    (hr : CsrForm.write.reservedSet c.toNat (s.g a) = false) (hb : s.csrBusy c.toNat none = false) (hn : c.toNat ≠ 0x304) (ht : c.toNat ≠ 0x210)
    (hw : s.csrWrite c.toNat (csrWhole c.toNat (s.g a)) = .ok s') :
    exec (.csrrw c a d w l) s = .next (s'.setG d (s.csrRead c.toNat)).complete :=
  exec_csr_of_ok rfl hi hr hb hn ht rfl hw

/-- CSRRW of a register that refuses the value (R5, R91). -/
theorem exec_csrrw_of_error {s : State} {c : BitVec 12} {a d : BitVec 5} {w l : Bool} {k : Nat} (hi : s.issues (.csrrw c a d w l) = true)
    (hr : CsrForm.write.reservedSet c.toNat (s.g a) = false) (hb : s.csrBusy c.toNat none = false) (hn : c.toNat ≠ 0x304) (ht : c.toNat ≠ 0x210)
    (hw : s.csrWrite c.toNat (csrWhole c.toNat (s.g a)) = .error k) : exec (.csrrw c a d w l) s = .next (s.illegalValue k) :=
  exec_csr_of_error rfl hi hr hb hn ht rfl hw

/-- No operation that is under way still changes a register other than FPSTAT and MOFLAGS (R39, R160). -/
theorem not_csrBusy {s : State} {n : Nat} (h : n ≠ 0x100 ∧ n ≠ 0x141) : s.csrBusy n none = false := by
  simp [State.csrBusy, h.1, h.2]

/-- PMODE takes no mode that does not exist, and M only from M (R91). -/
theorem csrWrite_hstat (s : State) (x : W) (h2 : x.extractLsb' 4 2 ≠ 2) (h3 : x.extractLsb' 4 2 = 3 → s.hart.mode = 3) :
    s.csrWrite 0 (csrWhole 0 x) = .ok (s.onHart fun h => { h with pmode := x.extractLsb' 4 2, pie := x.getLsbD 3, ie := x.getLsbD 2 }) := by
  have e : s.csrWrite 0 (csrWhole 0 x) = csrWriteHart s 0 (csrWhole 0 x) := rfl
  rw [e, csrWriteHart, if_pos (show ((0 : Nat) == 0) = true from rfl), if_neg, if_neg]
  · rfl
  · rw [Bool.and_eq_true, Bool.and_eq_true, beq_iff_eq, bne_iff_ne]
    exact fun h => h.2 (h3 h.1.2)
  · rw [Bool.and_eq_true, beq_iff_eq]
    exact fun h => h2 h.2

/-- CSRRW of HSTAT (R91). -/
theorem csrrw_hstat (a d : BitVec 5) (w l : Bool) (s : State) (hi : s.issues (.csrrw 0x000 a d w l) = true)
    (hr : CsrForm.write.reservedSet 0 (s.g a) = false) (h2 : (s.g a).extractLsb' 4 2 ≠ 2) (h3 : (s.g a).extractLsb' 4 2 = 3 → s.hart.mode = 3) :
    ∃ t, exec (.csrrw 0x000 a d w l) s = .next t ∧ t.disp = .retired ∧ t.hart.pmode = (s.g a).extractLsb' 4 2 ∧ t.hart.pie = (s.g a).getLsbD 3 ∧
      t.hart.ie = (s.g a).getLsbD 2 ∧ t.hart.mode = s.hart.mode ∧ t.hart.regs = s.hart.regs.writeG d (s.csrRead 0) := by
  refine ⟨_, exec_csrrw_of_ok hi hr (not_csrBusy (by decide)) (by decide) (by decide) (csrWrite_hstat s (s.g a) h2 h3), State.complete_disp _, ?_⟩
  have k := sameCsrs_setG_complete
    (s.onHart fun h => { h with pmode := (s.g a).extractLsb' 4 2, pie := (s.g a).getLsbD 3, ie := (s.g a).getLsbD 2 }) d (s.csrRead 0)
  refine ⟨k.pmode.trans ?_, k.pie.trans ?_, k.ie.trans ?_, k.mode.trans ?_, (regs_setG_complete _ _ _).trans ?_⟩ <;>
    rw [State.hart_onHart]
  rfl

/-- A word that writes a loop register retires: loops that end at its last word count first (R92, R110, log 18). -/
theorem retire_loops_eq_put (s : State) {which : BitVec 2} {i : Nat} {x m : W} (hf : s.flow = .loops which i x m) :
    s.retire.hart.loops = (loopCount s.lastWord 4 s.hart.loops).1.put which i x m := by
  have h : ∃ f fl, s.retire = { s.onHart f with flow := fl, disp := .retired } ∧
      (f s.hart).loops = (loopCount s.lastWord 4 s.hart.loops).1.put which i x m := by
    refine ⟨_, _, rfl, ?_⟩
    rw [hf]
  obtain ⟨f, fl, e, hl⟩ := h
  have hh : s.retire.hart = f s.hart := by rw [e]; exact State.hart_onHart s f
  rw [hh, hl]

/-- A lone CSR instruction writes a loop register once it has itself been counted at the loops that end there. -/
theorem loops_putLoop_complete (s : State) (which : BitVec 2) (i : Nat) (w : CsrWr) (d : BitVec 5) (x : W) (hs : s.slot = .lone) :
    ((s.putLoop which i w).setG d x).complete.hart.loops = (loopCount s.hart.pc 4 s.hart.loops).1.put which i w.x w.touch := by
  have hl : ((s.putLoop which i w).setG d x).slot = .lone := hs
  obtain ⟨l, hg⟩ := hart_setG (s.putLoop which i w) d x
  rw [State.complete, if_pos (beq_iff_eq.mpr hl), retire_loops_eq_put _ (which := which) (i := i) (x := w.x) (m := w.touch) rfl, State.lastWord, hg, hl]
  have hp : (s.putLoop which i w).hart = s.hart := rfl
  simp [hp]

theorem csrWrite_lps (s : State) {n : Nat} (w : CsrWr) (h : 0x020 ≤ n) (h' : n ≤ 0x023) : s.csrWrite n w = .ok (s.putLoop 0 (n - 0x020) w) := by
  unfold State.csrWrite csrWriteHart
  rw [if_pos (by omega)]
  repeat rw [if_neg (by simp; omega)]
  rw [if_pos (by simp; omega)]

theorem csrWrite_lpe (s : State) {n : Nat} (w : CsrWr) (h : 0x024 ≤ n) (h' : n ≤ 0x027) : s.csrWrite n w = .ok (s.putLoop 1 (n - 0x024) w) := by
  unfold State.csrWrite csrWriteHart
  rw [if_pos (by omega)]
  repeat rw [if_neg (by simp; omega)]
  rw [if_pos (by simp; omega)]

theorem csrWrite_lpc (s : State) {n : Nat} (w : CsrWr) (h : 0x028 ≤ n) (h' : n ≤ 0x02B) : s.csrWrite n w = .ok (s.putLoop 2 (n - 0x028) w) := by
  unfold State.csrWrite csrWriteHart
  rw [if_pos (by omega)]
  repeat rw [if_neg (by simp; omega)]
  rw [if_pos (by simp; omega)]

/-- CSRRW of a loop register (R110). -/
theorem csrrw_loop {s : State} {c : BitVec 12} {a d : BitVec 5} {w l : Bool} {which : BitVec 2} {i : Nat} (hi : s.issues (.csrrw c a d w l) = true)
    (hs : s.slot = .lone) (hr : CsrForm.write.reservedSet c.toNat (s.g a) = false) (hc : 0x020 ≤ c.toNat ∧ c.toNat ≤ 0x02C)
    (hw : s.csrWrite c.toNat (csrWhole c.toNat (s.g a)) = .ok (s.putLoop which i (csrWhole c.toNat (s.g a)))) :
    ∃ t, exec (.csrrw c a d w l) s = .next t ∧ t.disp = .retired ∧ t.hart.regs = s.hart.regs.writeG d (s.csrRead c.toNat) ∧
      t.hart.loops = (loopCount s.hart.pc 4 s.hart.loops).1.put which i (s.g a) (BitVec.allOnes 64) :=
  ⟨_, exec_csrrw_of_ok hi hr (not_csrBusy (by omega)) (by omega) (by omega) hw, State.complete_disp _, regs_setG_complete _ _ _,
    loops_putLoop_complete _ _ _ _ _ _ hs⟩

/-- CSRRW of LPS, LPE or LPC of a level (R110). -/
theorem csrrw_loopRegister (c : BitVec 12) (a d : BitVec 5) (w l : Bool) (s : State) (hi : s.issues (.csrrw c a d w l) = true) (hs : s.slot = .lone)
    (hr : CsrForm.write.reservedSet c.toNat (s.g a) = false) (hl : 0x020 ≤ c.toNat) (hu : c.toNat ≤ 0x02B) :
    let k := (loopCount s.hart.pc 4 s.hart.loops).1
    ∃ t, exec (.csrrw c a d w l) s = .next t ∧ t.disp = .retired ∧ t.hart.regs = s.hart.regs.writeG d (s.csrRead c.toNat) ∧
      t.hart.loops.depth = k.depth ∧
      (c.toNat ≤ 0x023 → t.hart.loops.lps = k.lps.setIfInBounds (c.toNat - 0x020) (s.g a) ∧ t.hart.loops.lpe = k.lpe ∧ t.hart.loops.lpc = k.lpc) ∧
      (0x024 ≤ c.toNat → c.toNat ≤ 0x027 → t.hart.loops.lpe = k.lpe.setIfInBounds (c.toNat - 0x024) (s.g a) ∧ t.hart.loops.lps = k.lps) ∧
      (0x028 ≤ c.toNat → t.hart.loops.lpc = k.lpc.setIfInBounds (c.toNat - 0x028) (s.g a) ∧ t.hart.loops.lpe = k.lpe) := by
  intro k
  by_cases h1 : c.toNat ≤ 0x023
  · obtain ⟨t, he, hd, hg, hp⟩ := csrrw_loop hi hs hr ⟨hl, by omega⟩ (csrWrite_lps s _ hl h1)
    refine ⟨t, he, hd, hg, ?_⟩
    rw [hp]
    exact ⟨rfl, fun _ => ⟨rfl, rfl, rfl⟩, fun _ _ => by omega, fun _ => by omega⟩
  by_cases h2 : c.toNat ≤ 0x027
  · obtain ⟨t, he, hd, hg, hp⟩ := csrrw_loop hi hs hr ⟨hl, by omega⟩ (csrWrite_lpe s _ (by omega) h2)
    refine ⟨t, he, hd, hg, ?_⟩
    rw [hp]
    exact ⟨rfl, fun _ => by omega, fun _ _ => ⟨rfl, rfl⟩, fun _ => by omega⟩
  · obtain ⟨t, he, hd, hg, hp⟩ := csrrw_loop hi hs hr ⟨hl, by omega⟩ (csrWrite_lpc s _ (by omega) hu)
    refine ⟨t, he, hd, hg, ?_⟩
    rw [hp]
    exact ⟨rfl, fun _ => by omega, fun _ _ => by omega, fun _ => ⟨rfl, rfl⟩⟩

/-- LPD takes a depth and a saved depth of at most 4 (R110). -/
theorem csrWrite_lpd (s : State) (w : CsrWr) : s.csrWrite 0x02C w =
    if (decide (4 < (w.x.extractLsb' 0 3).toNat) || decide (4 < (w.x.extractLsb' 4 3).toNat)) = true then .error 2 else .ok (s.putLoop 3 0 w) := rfl

/-- CSRRW of LPD (R110). -/
theorem csrrw_lpd (a d : BitVec 5) (w l : Bool) (s : State) (hi : s.issues (.csrrw 0x02C a d w l) = true)
    (hr : CsrForm.write.reservedSet 0x02C (s.g a) = false) :
    let ok : Prop := ((s.g a).extractLsb' 0 3).toNat ≤ 4 ∧ ((s.g a).extractLsb' 4 3).toNat ≤ 4
    (ok → s.slot = .lone → ∃ t, exec (.csrrw 0x02C a d w l) s = .next t ∧ t.disp = .retired ∧ t.hart.regs = s.hart.regs.writeG d (s.csrRead 0x02C) ∧
      t.hart.loops.depth = (s.g a).extractLsb' 0 3 ∧ t.hart.loops.sdepth = (s.g a).extractLsb' 4 3) ∧
    (¬ ok → s.settled = true → ∃ t, exec (.csrrw 0x02C a d w l) s = .next t ∧ s.tookIllegal t 2) := by
  refine ⟨fun hok hs => ?_, fun hok hset => ?_⟩
  · have hw : s.csrWrite 0x02C (csrWhole 0x02C (s.g a)) = .ok (s.putLoop 3 0 (csrWhole 0x02C (s.g a))) := by
      rw [csrWrite_lpd, if_neg]
      rw [Bool.or_eq_true, decide_eq_true_eq, decide_eq_true_eq]
      simp only [csrWhole]
      omega
    obtain ⟨t, he, hd, hg, hp⟩ := csrrw_loop hi hs hr ⟨by decide, by decide⟩ hw
    refine ⟨t, he, hd, hg, ?_⟩
    rw [hp]
    exact ⟨rfl, rfl⟩
  · have hw : s.csrWrite 0x02C (csrWhole 0x02C (s.g a)) = .error 2 := by
      rw [csrWrite_lpd, if_pos]
      rw [Bool.or_eq_true, decide_eq_true_eq, decide_eq_true_eq]
      simp only [csrWhole]
      omega
    exact ⟨_, exec_csrrw_of_error hi hr (not_csrBusy (by decide)) (by decide) (by decide) hw, tookIllegal_illegalValue hset (by decide)⟩

/-! Registers that hold certain values only, registers whose bits a one clears, and EV. -/

/-- The bits that a write to a W1C field clears: those of the mask, unless the form sets (R92). -/
theorem extractLsb'_clear {f : CsrForm} {m x c : W} {p k : Nat} (hc : c = if f = .set then 0 else m &&& x) (hx : x.extractLsb' p k = BitVec.allOnes k) :
    c.extractLsb' p k = if f = .set then 0 else m.extractLsb' p k := by
  rw [hc]
  split
  · exact BitVec.extractLsb'_zero
  · rw [BitVec.extractLsb'_and, hx, BitVec.and_allOnes]

theorem csrWrite_ipend (s : State) (w : CsrWr) : s.csrWrite 0x010 w =
    .ok (s.onTrap fun t => { t with soft := w.x.getLsbD 0, edge := t.edge &&& ~~~(w.clear.extractLsb' 12 4) }) := rfl

theorem csrWrite_evstat (s : State) (w : CsrWr) : s.csrWrite 0x284 w =
    .ok (s.onSelf fun k => { k with chan := { k.chan with evstat := k.chan.evstat &&& ~~~(w.clear.extractLsb' 0 8) } }) := rfl

theorem csrWrite_tkstat (s : State) (w : CsrWr) : s.csrWrite 0x208 w = .ok (s.onHart fun h => { h with tkEv := w.x.getLsbD 32 }) := rfl

/-- IPEND: SOFT takes its value, and edges that are written with 1 are cleared (R105). -/
theorem csr_ipend {i : Instr} {s : State} {f : CsrForm} {m : W} {d : BitVec 5} (h : csrOf s i = some (f, 0x010, m, d)) (hi : s.issues i = true)
    (hr : f.reservedSet 0x010 m = false) (hf : f = .write ∨ m ≠ 0) : ∃ t, exec i s = .next t ∧ t.disp = .retired ∧
      t.hart.trap.soft = (f.leaves (s.csrRead 0x010) m).getLsbD 0 ∧
      t.hart.trap.edge = s.hart.trap.edge &&& ~~~(if f = .set then 0 else m.extractLsb' 12 4) := by
  obtain ⟨w, hs, hx, hc⟩ := supply_of_writes (n := 0x010) (t := s.csrRead 0x010) hf
  refine ⟨_, exec_csr_of_ok h hi hr (not_csrBusy (by decide)) (by decide) (by decide) hs (csrWrite_ipend s w), State.complete_disp _, ?_⟩
  rw [(sameCsrs_setG_complete _ _ _).trap, State.onTrap, State.hart_onHart, ← hx, ← extractLsb'_clear hc (by decide)]
  exact ⟨rfl, rfl⟩

/-- EVSTAT: bits that are written with 1 are cleared (R310). -/
theorem csr_evstat {i : Instr} {s : State} {f : CsrForm} {m : W} {d : BitVec 5} (h : csrOf s i = some (f, 0x284, m, d)) (hi : s.issues i = true)
    (hr : f.reservedSet 0x284 m = false) (hf : f = .write ∨ m ≠ 0) : ∃ t, exec i s = .next t ∧ t.disp = .retired ∧
      t.self.chan.evstat = s.self.chan.evstat &&& ~~~(if f = .set then 0 else m.extractLsb' 0 8) := by
  obtain ⟨w, hs, hx, hc⟩ := supply_of_writes (n := 0x284) (t := s.csrRead 0x284) hf
  refine ⟨_, exec_csr_of_ok h hi hr (not_csrBusy (by decide)) (by decide) (by decide) hs (csrWrite_evstat s w), State.complete_disp _, ?_⟩
  obtain ⟨y, hy⟩ := self_setG_complete (s.onSelf fun k =>
      { k with chan := { k.chan with evstat := k.chan.evstat &&& ~~~(w.clear.extractLsb' 0 8) } }) d (s.csrRead 0x284)
  rw [hy, Core.setHart_chan, State.self_onSelf, ← extractLsb'_clear hc (by decide)]

/-- TKSTAT: EV takes its value (R255). -/
theorem csr_tkstat {i : Instr} {s : State} {f : CsrForm} {m : W} {d : BitVec 5} (h : csrOf s i = some (f, 0x208, m, d)) (hi : s.issues i = true)
    (hr : f.reservedSet 0x208 m = false) (hf : f = .write ∨ m ≠ 0) : ∃ t, exec i s = .next t ∧ t.disp = .retired ∧
      t.hart.tkEv = (f.leaves (s.csrRead 0x208) m).getLsbD 32 := by
  obtain ⟨w, hs, hx, -⟩ := supply_of_writes (n := 0x208) (t := s.csrRead 0x208) hf
  refine ⟨_, exec_csr_of_ok h hi hr (not_csrBusy (by decide)) (by decide) (by decide) hs (csrWrite_tkstat s w), State.complete_disp _, ?_⟩
  rw [(sameCsrs_setG_complete _ _ _).tkEv, State.hart_onHart, ← hx]

/-- Registers whose write has rules of its own (R5, R39, R105, R179, R198, R255, R291, R303, R306, R310, R325, R344). -/
theorem csr_judges (i : Instr) (s : State) (f : CsrForm) (n : Nat) (m : W) (d : BitVec 5) (h : csrOf s i = some (f, n, m, d)) (hi : s.issues i = true)
    (hr : f.reservedSet n m = false) (hb : s.csrBusy n none = false) (hf : f = .write ∨ m ≠ 0) : let x := f.leaves (s.csrRead n) m
    (mayHold s n x = some true → ∃ t, exec i s = .next t ∧ t.disp = .retired ∧ t.mem = s.mem ∧ t.hart.regs = s.hart.regs.writeG d (s.csrRead n) ∧
      (s.slot = .lone → t.csrRead n = x)) ∧
    (mayHold s n x = some false → s.settled = true → ∃ t, exec i s = .next t ∧ s.tookIllegal t 2) ∧
    (n = 0x010 → ∃ t, exec i s = .next t ∧ t.disp = .retired ∧ t.hart.trap.soft = x.getLsbD 0 ∧
      t.hart.trap.edge = s.hart.trap.edge &&& ~~~(if f = .set then 0 else m.extractLsb' 12 4)) ∧
    (n = 0x284 → ∃ t, exec i s = .next t ∧ t.disp = .retired ∧
      t.self.chan.evstat = s.self.chan.evstat &&& ~~~(if f = .set then 0 else m.extractLsb' 0 8)) ∧
    (n = 0x208 → ∃ t, exec i s = .next t ∧ t.disp = .retired ∧ t.hart.tkEv = x.getLsbD 32) := by
  intro x
  obtain ⟨w, hs, hx, -⟩ := supply_of_writes (n := n) (t := s.csrRead n) hf
  refine ⟨fun hm => ?_, fun hm hset => ?_, ?_, ?_, ?_⟩
  · obtain ⟨h3, h2⟩ := mayHold_ne hm
    obtain ⟨s', ht⟩ := (mayHold_judges (show mayHold s n w.x = some true by rw [hx]; exact hm)).1 rfl
    obtain ⟨t, he, hd, hmem, -, hg, hread⟩ := exec_csr_of_takes h hi hr hb h3 h2 hs hx ht
    exact ⟨t, he, hd, hmem, hg, hread⟩
  · obtain ⟨h3, h2⟩ := mayHold_ne hm
    have hw := (mayHold_judges (show mayHold s n w.x = some false by rw [hx]; exact hm)).2 rfl
    exact ⟨_, exec_csr_of_error h hi hr hb h3 h2 hs hw, tookIllegal_illegalValue hset (by decide)⟩
  · rintro rfl; exact csr_ipend h hi hr hf
  · rintro rfl; exact csr_evstat h hi hr hf
  · rintro rfl; exact csr_tkstat h hi hr hf

/-! TLBINV. -/

theorem findCore_map (g : Core → Core) (c : CoreId) (l : List (CoreId × Core)) :
    findCore c (l.map fun k => (k.1, g k.2)) = (findCore c l).map g := by
  induction l with
  | nil => rfl
  | cons p l ih =>
    rw [List.map_cons, findCore, findCore, ih]
    split <;> rfl

/-- Removing translations from every TLB changes no hart. -/
theorem State.hartAt_purgePage (s : State) (x : BitVec 16) (v : BitVec 36) (z : BitVec 2) (c : CoreId) (h : HartId) :
    (s.purgePage x v z).hartAt c h = s.hartAt c h := by
  have e : findCore c (s.purgePage x v z).cores = (findCore c s.cores).map _ :=
    findCore_map (fun k => { k with mem := { k.mem with tlb := k.mem.tlb.filter fun e => !e.overlaps x v z } }) c s.cores
  have hu : (s.purgePage x v z).unlisted c = s.unlisted c := rfl
  unfold State.hartAt State.core
  rw [e, hu]
  cases findCore c s.cores <;> rfl

/-- An invalidation changes no hart (R258). -/
theorem State.hartAt_tlbinvBy (s : State) (c d : CoreId) (h k : HartId) (x : W) : (s.tlbinvBy c h x).hartAt d k = s.hartAt d k :=
  s.hartAt_purgePage _ _ _ d k

/-- A write of TLBINV withdraws translations and waits for the drain (R258, log 25). -/
theorem csr_tlbinv {s : State} {i : Instr} {f : CsrForm} {m : W} {d : BitVec 5} {w : CsrWr} (hr : f.reservedSet 0x210 m = false)
    (hs : f.supply 0x210 (s.csrRead 0x210) m = some w) :
    s.csr i f 0x210 m d = (s.tlbinvBy s.cur s.curHart (w.x &&& w.touch)).waitIn i .tlbinv := by
  simp only [State.csr, hr, csrBusy_of_ne_recall (show 0x210 ≠ 0x304 by decide), not_csrBusy (s := s) (show 0x210 ≠ 0x100 ∧ 0x210 ≠ 0x141 by decide), hs]
  rfl

theorem State.hart_waitIn (s : State) (i : Instr) (w : Wait) : (s.waitIn i w).hart =
    { s.hart with wait := w, waitAt := some { slot := s.slot, op := i }, we := false, emptyMet := none } :=
  State.hart_onHart s fun h => { h with wait := w, waitAt := some { slot := s.slot, op := i }, we := false, emptyMet := none }

/-- CSRRW of TLBINV. -/
theorem csrrw_tlbinv (a d : BitVec 5) (w l : Bool) (s : State) (hi : s.issues (.csrrw 0x210 a d w l) = true)
    (hr : CsrForm.write.reservedSet 0x210 (s.g a) = false) : ∃ t, exec (.csrrw 0x210 a d w l) s = .next t ∧ t.disp = .waiting ∧
      t.hart.wait = .tlbinv ∧ t.mem = s.mem ∧ t.hart.pc = s.hart.pc ∧ t.hart.regs = s.hart.regs := by
  have e : ∃ u : State, exec (.csrrw 0x210 a d w l) s = .next (u.waitIn (.csrrw 0x210 a d w l) .tlbinv) ∧ u.hart = s.hart ∧ u.mem = s.mem :=
    ⟨_, by rw [exec_csr_of_issues rfl hi]; exact congrArg _ (csr_tlbinv hr rfl), s.hartAt_tlbinvBy _ _ _ _ _, rfl⟩
  obtain ⟨u, he, hh, hm⟩ := e
  refine ⟨_, he, rfl, ?_, hm, ?_, ?_⟩ <;> rw [State.hart_waitIn]
  all_goals rw [hh]

/-- Settles O44: a CSR instruction exchanges its register; each clause is one of the lemmas above. -/
theorem csrInstructionsExchange : Obligations.CsrInstructionsExchange :=
  ⟨csr_exchanges, csrrw_hstat, csrrw_loopRegister, csrrw_lpd, csr_judges, csrrw_tlbinv⟩

end Sys2Proof.Machine
end

section
/-!
PROOF. What the result of a waiting instruction leaves of its hart (R50).
-/

namespace Sys2Proof.Machine

theorem hart_setReg (s : State) (r : RegRef) (x : BitVec 1024) :
    ∃ l, (s.setReg r x).hart = { s.hart with regs := s.hart.regs.write x r, log := l } := by
  rw [setReg_eq_wrote]
  exact ⟨_, State.hart_onHart s _⟩

/-- Register writes, with a change of the hart behind them, are one change of the executing hart: in its registers and its replay log. -/
theorem foldl_setReg_onHart (ws : List RegWrite) (s : State) (g : Hart → Hart) :
    ∃ f l, (ws.foldl (fun s w => s.setReg w.r w.x) s).onHart g = s.onHart f ∧
      f s.hart = g { s.hart with regs := ws.foldl (fun r w => r.write w.x w.r) s.hart.regs, log := l } := by
  induction ws generalizing s with
  | nil => exact ⟨g, s.hart.log, rfl, rfl⟩
  | cons w ws ih =>
    obtain ⟨f, l, e, hf⟩ := ih (s.setReg w.r w.x)
    obtain ⟨_, hw⟩ := hart_setReg s w.r w.x
    have hs : f (s.setReg w.r w.x).hart = _ := congrArg f (State.hart_onHart s _)
    rw [hs, hw] at hf
    exact ⟨_, l, e.trans (State.onHart_onHart s _ f), hf⟩

/-- The result of an instruction lands in the executing hart; outside the memory forms the log may note the old values (R60, R249). -/
theorem takeResult_eq_onHart (s : State) (i : Instr) (r : OpResult) :
    ∃ f l, s.takeResult i r = s.onHart f ∧ f s.hart = { Hart.takes r s.hart with log := l } := by
  unfold State.takeResult
  split
  · exact ⟨Hart.land r, s.hart.log, rfl, rfl⟩
  · exact foldl_setReg_onHart r.writes s _

theorem hart_retires_of_lone {s : State} (h : s.slot = .lone) : s.retires.hart = s.hart.onwards := by
  rw [State.retires, if_pos (beq_iff_eq.mpr h)]
  exact State.hart_onHart s Hart.onwards

/-- A lone word that waited takes its result and retires to the next word (R50, R96, R108). -/
theorem hartAt_finishWait_lone {s : State} {c : CoreId} {h : HartId} {w : WaitAt} (r : OpResult) (hw : (s.hartAt c h).waitAt = some w)
    (hl : w.slot = .lone) :
    ∃ l, (s.finishWait c h r).hartAt c h = Hart.onwards { Hart.takes r (s.hartAt c h) with log := l } := by
  obtain ⟨f, l, e, hf⟩ := takeResult_eq_onHart (s.issuing c h .lone) w.op r
  have ht : s.finishWait c h r = ((s.issuing c h .lone).onHart f).retires := by
    rw [← complete_eq_retires ((s.issuing c h .lone).onHart f) rfl, ← e]
    simp only [State.finishWait, hw, hl]
  have hr : ((s.issuing c h .lone).onHart f).retires.hart = _ := hart_retires_of_lone rfl
  rw [State.hart_onHart, hf] at hr
  exact ⟨l, by rw [ht]; exact hr⟩

theorem State.hartAt_bump (s : State) (c : CoreId) (h : HartId) : s.bump.hartAt c h = s.hartAt c h := rfl

/-- The half of a pair that waited finds its result when the pair issues again (R50). -/
theorem hartAt_finishWait_half {s : State} {c : CoreId} {h : HartId} {w : WaitAt} (r : OpResult) (hw : (s.hartAt c h).waitAt = some w)
    (hl : w.slot ≠ .lone) :
    let x := s.hartAt c h
    (s.finishWait c h r).hartAt c h = { x with
      wait := .none, waitAt := none, regs := r.writes.foldl (fun g y => g.write (g.read y.r) y.r) x.regs,
      pend := x.pend ++ [{ id := s.fresh, seq := x.nseq, op := w.op, kind := .ready r, dsts := [], precise := true }] } := by
  simp only [State.finishWait, hw]
  cases hs : w.slot with
  | lone => exact absurd hs hl
  | cHalf | aHalf => rw [State.hartAt_bump, State.hartAt_onHartAt_same]

/-- A waiting instruction that gets its result is concluded with it (R50). -/
theorem finishWait_concluded {s : State} {c : CoreId} {h : HartId} {w : WaitAt} (r : OpResult) (hw : (s.hartAt c h).waitAt = some w) :
    s.concluded (s.finishWait c h r) c h w r := by
  unfold State.concluded
  by_cases hl : w.slot = .lone
  · obtain ⟨l, e⟩ := hartAt_finishWait_lone r hw hl
    rw [e]
    exact ⟨rfl, rfl, fun _ => ⟨rfl, rfl, rfl, rfl⟩, fun hn => absurd hl hn⟩
  · rw [hartAt_finishWait_half r hw hl]
    exact ⟨rfl, rfl, fun hn => absurd hn hl, fun _ => ⟨rfl, rfl, _, List.mem_append_right _ (List.mem_singleton_self _), rfl, rfl⟩⟩

/-- The result of a waiting instruction leaves the hart's reaction registers and post count as they are. -/
theorem react_finishWait {s : State} {c : CoreId} {h : HartId} {w : WaitAt} (r : OpResult) (hw : (s.hartAt c h).waitAt = some w) :
    ((s.finishWait c h r).hartAt c h).react = (s.hartAt c h).react := by
  by_cases hl : w.slot = .lone
  · obtain ⟨l, e⟩ := hartAt_finishWait_lone r hw hl
    rw [e]; rfl
  · rw [hartAt_finishWait_half r hw hl]

@[simp] theorem State.takeResult_mem (s : State) (i : Instr) (r : OpResult) : (s.takeResult i r).mem = s.mem := by
  obtain ⟨f, _, e, -⟩ := takeResult_eq_onHart s i r
  rw [e, State.onHart_mem]

@[simp] theorem State.finishWait_mem (s : State) (c : CoreId) (h : HartId) (r : OpResult) : (s.finishWait c h r).mem = s.mem := by
  unfold State.finishWait
  split
  · rfl
  · split
    · rw [State.complete_mem, State.takeResult_mem]; rfl
    · rfl

end Sys2Proof.Machine
end

section
/-!
PROOF. Clocks are read, awaited and disciplined, and LATEQ reads late records (R15, R265, R278, R282, R283).
-/

namespace Sys2Proof.Machine

/-! TNOW and TWAIT -/

/-- TNOW returns the core's PTC (R283). -/
theorem tnow_reads_ptc (d : BitVec 5) (w l : Bool) (s : State) (hi : s.issues (.tnow d w l) = true) :
    exec (.tnow d w l) s = .next (s.wroteG d (s.ptc s.cur)).retires := by
  have e : exec (.tnow d w l) s = issue (.tnow d w l) s (s.setG d (s.ptc s.cur)).complete := rfl
  have hf : s.flow = .next := flow_of_issues hi
  rw [e, issue_of_issues hi, setG_eq_wroteG, complete_eq_retires (s.wroteG d (s.ptc s.cur)) hf]

theorem exec_twait_of_issues {a : BitVec 5} {w l : Bool} {s : State} (hi : s.issues (.twait a w l) = true) :
    exec (.twait a w l) s = .next (if (s.g a).toNat ≤ (s.ptc s.cur).toNat then (s.onHart resetPosts).complete
      else s.waitIn (.twait a w l) (.twait (s.g a))) := by
  have e (u : State) : issue (.twait a w l) s (s.preciseOr (.twait a w l) u) = .next u := by
    rw [issue_of_issues hi, preciseOr_of_issues hi]
  exact e _

/-- TWAIT goes on once PTC has reached gA, and waits until then (R283). -/
theorem twait_awaits_ptc (a : BitVec 5) (w l : Bool) (s : State) (hi : s.issues (.twait a w l) = true) :
    ((s.g a).toNat ≤ (s.ptc s.cur).toNat → exec (.twait a w l) s = .next (s.onHart resetPosts).retires) ∧
    ((s.ptc s.cur).toNat < (s.g a).toNat → exec (.twait a w l) s = .next (s.awaits (.twait a w l) (.twait (s.g a)))) := by
  rw [exec_twait_of_issues hi]
  constructor <;> intro h
  · have hf : s.flow = .next := flow_of_issues hi
    rw [if_pos h, complete_eq_retires (s.onHart resetPosts) hf]
  · rw [if_neg (by omega)]
    rfl

theorem react_resetPosts (k : Hart) : (resetPosts k).react.posts = if k.rx then k.react.posts else 0 := by
  unfold resetPosts; split <;> rfl

/-- What concludes a wait does not depend on the post count. -/
theorem concluded_of_resetPosts {s t : State} {c : CoreId} {h : HartId} {w : WaitAt} {r : OpResult}
    (hc : (s.onHartAt c h resetPosts).concluded t c h w r) : s.concluded t c h w r := by
  have e : ∃ y, resetPosts (s.hartAt c h) = { s.hartAt c h with react := y } := by
    unfold resetPosts
    split <;> exact ⟨_, rfl⟩
  obtain ⟨y, e⟩ := e
  unfold State.concluded at hc
  rw [State.hartAt_onHartAt_same, e] at hc
  exact hc

/-- A TWAIT that waits ends once PTC has reached its time (R283). -/
theorem twaitExpiry_concludes (s : State) (c : CoreId) (h : HartId) (x : W) (w : WaitAt) (hx : (s.hartAt c h).wait = .twait x)
    (hw : (s.hartAt c h).waitAt = some w) (ht : x.toNat ≤ (s.ptc c).toNat) (hr : s.atRest c = false) :
    ∃ t, exec (.twaitExpiry c h) s = .next t ∧ t.disp = .occurred ∧ t.mem = s.mem ∧ s.concluded t c h w noWrite ∧
      (t.hartAt c h).react.posts = (if (s.hartAt c h).rx then (s.hartAt c h).react.posts else 0) := by
  let u := s.onHartAt c h resetPosts
  have hu : u.hartAt c h = resetPosts (s.hartAt c h) := State.hartAt_onHartAt_same s c h resetPosts
  have hwu : (u.hartAt c h).waitAt = some w := by
    rw [hu, ← hw]; unfold resetPosts; split <;> rfl
  have he : exec (.twaitExpiry c h) s = .next { u.finishWait c h noWrite with disp := .occurred } := by
    show execTwaitExpiry c h s = _
    simp [execTwaitExpiry, hx, ht, hr, State.occur, u]
  refine ⟨_, he, rfl, State.finishWait_mem u c h noWrite, concluded_of_resetPosts (finishWait_concluded noWrite hwu), ?_⟩
  have hp : ((u.finishWait c h noWrite).hartAt c h).react.posts = (resetPosts (s.hartAt c h)).react.posts := by
    rw [react_finishWait noWrite hwu, hu]
  exact hp.trans (react_resetPosts _)

/-! The reference time and the offset of a core's clock -/

theorem clockAt_lt (x : W) (k : BitVec 16) : clockAt x k < 2 ^ 64 := by
  unfold clockAt; omega

/-- A core's clock does not go back when the reference does not (R15). -/
theorem clockAt_mono {x y : W} (h : x.toNat ≤ y.toNat) (k : BitVec 16) : clockAt x k ≤ clockAt y k := by
  unfold clockAt; omega

/-- The value that PTC is held at and the clock both fit PTC. -/
theorem toNat_ptc (s : State) (c : CoreId) :
    (s.ptc c).toNat = max (s.core c).tags.held.toNat (clockAt s.timeRef (s.core c).tags.skew) := by
  have h := (s.core c).tags.held.isLt
  have hc := clockAt_lt s.timeRef (s.core c).tags.skew
  simp only [State.ptc, BitVec.toNat_ofNat]
  exact Nat.mod_eq_of_lt (by omega)

/-- PTC is never below the value that it is held at (log 119). -/
theorem held_le_ptc (s : State) (c : CoreId) : (s.core c).tags.held.toNat ≤ (s.ptc c).toNat := by
  rw [toNat_ptc]; exact Nat.le_max_left _ _

/-- The state once the reference reads `x` and core `c` stands `k` ns off it (R15, R265). -/
def State.disciplined (s : State) (x : W) (c : CoreId) (k : BitVec 16) : State :=
  { s with timeRef := x, disp := .occurred }.onCore c fun y => { y with tags := { y.tags with skew := k, held := s.ptc c } }

theorem exec_timeTreeReference {s : State} {x : W} {c : CoreId} {k : BitVec 16} (hx : s.timeRef.toNat ≤ x.toNat)
    (hk : k.toInt.natAbs ≤ (s.core c).tags.terr.toNat) : exec (.timeTreeReference x c k) s = .next (s.disciplined x c k) := by
  show execTimeTreeReference x c k s = _
  simp only [execTimeTreeReference, hx, hk, decide_true, Bool.and_self, if_true]
  rfl

@[simp] theorem State.timeRef_disciplined (s : State) (x : W) (c : CoreId) (k : BitVec 16) : (s.disciplined x c k).timeRef = x := rfl

theorem State.tags_disciplined_same (s : State) (x : W) (c : CoreId) (k : BitVec 16) :
    ((s.disciplined x c k).core c).tags = { (s.core c).tags with skew := k, held := s.ptc c } := by
  unfold State.disciplined
  rw [State.core_onCore_same]
  rfl

theorem State.core_disciplined_other (s : State) (x : W) {c e : CoreId} (k : BitVec 16) (h : e ≠ c) :
    (s.disciplined x c k).core e = s.core e :=
  State.core_onCore_other _ _ _ _ h

/-- PTC of the disciplined core holds its value until its clock has caught up (log 119). -/
theorem ptc_disciplined_same (s : State) (x : W) (c : CoreId) (k : BitVec 16) :
    ((s.disciplined x c k).ptc c).toNat = max (s.ptc c).toNat (clockAt x k) := by
  rw [toNat_ptc, State.tags_disciplined_same, State.timeRef_disciplined]

/-- No core's PTC goes back (R15). -/
theorem ptc_le_disciplined {s : State} {x : W} (c : CoreId) (k : BitVec 16) (hx : s.timeRef.toNat ≤ x.toNat) (e : CoreId) :
    (s.ptc e).toNat ≤ ((s.disciplined x c k).ptc e).toNat := by
  by_cases h : e = c
  · subst h
    rw [ptc_disciplined_same]
    exact Nat.le_max_left _ _
  · have := clockAt_mono hx (s.core e).tags.skew
    rw [toNat_ptc, toNat_ptc, State.core_disciplined_other s x k h, State.timeRef_disciplined]
    omega

/-- A new reference time and a new offset take no PTC back (R15, R265). -/
theorem timeTreeReference_disciplines (s : State) (x : W) (c : CoreId) (k : BitVec 16) (hx : s.timeRef.toNat ≤ x.toNat)
    (hk : k.toInt.natAbs ≤ (s.core c).tags.terr.toNat) :
    ∃ t, exec (.timeTreeReference x c k) s = .next t ∧ t.disp = .occurred ∧ t.timeRef = x ∧ (t.core c).tags.skew = k ∧
      (∀ e, (s.ptc e).toNat ≤ (t.ptc e).toNat) ∧ (t.ptc c).toNat = max (s.ptc c).toNat (clockAt x k) :=
  ⟨_, exec_timeTreeReference hx hk, rfl, rfl, by rw [State.tags_disciplined_same], ptc_le_disciplined c k hx, ptc_disciplined_same s x c k⟩

/-! LATEQ -/

/-- The oldest late record that LATEQ has not returned, or the tail where there is none: the record that it returned before is given up (R278). -/
def Tags.lateHead (r : Tags) : Byte := if r.ltPend then r.ltHead + 1 else r.ltHead

/-- LATEQ moves the ring's head, and notes whether a record is returned there (R278, R283). -/
def State.lateAdvanced (s : State) : State := s.onSelf fun k =>
  { k with tags := { k.tags with ltHead := k.tags.lateHead, ltPend := k.tags.lateHead != k.tags.ltTail } }

theorem State.hart_lateAdvanced (s : State) : s.lateAdvanced.hart = s.hart := State.hart_onSelf s _

theorem State.self_lateAdvanced (s : State) : s.lateAdvanced.self =
    { s.self with tags := { s.self.tags with ltHead := s.self.tags.lateHead, ltPend := s.self.tags.lateHead != s.self.tags.ltTail } } :=
  State.self_onSelf s _

theorem lateq_of_empty {s : State} (d : BitVec 5) (h : s.self.tags.lateHead = s.self.tags.ltTail) :
    s.lateq d = (s.lateAdvanced.setG d 0).complete :=
  if_pos (beq_iff_eq.mpr h)

theorem lateq_of_record {s : State} (d : BitVec 5) (h : s.self.tags.lateHead ≠ s.self.tags.ltTail) :
    s.lateq d =
      let at' := s.self.tags.recordAt s.self.tags.lateHead
      let key := localKey s.cur (at' + 16)
      ((storeBytes s.lateAdvanced key [readByte s.mem key ||| 0x80#8]).setG d (BitVec.ofNat 64 at')).complete :=
  if_neg (by rwa [beq_iff_eq])

/-- One byte is written, and every other byte reads as before. -/
theorem readByte_storeByte {s : State} (hs : s.Canonical) (key : Nat) (y : Byte) (x : Nat) :
    readByte (storeBytes s key [y]).mem x = if x = key then y else readByte s.mem x := by
  split
  · next h => subst h; exact readByte_writeByte_same (lo := none) hs
  · next h => exact readByte_writeByte_other (lo := none) h hs

/-- A write of a g register, and retirement, leave the tags and the late ring of the executing hart's core as they are. -/
theorem tags_setG_complete (s : State) (d : BitVec 5) (x : W) : (s.setG d x).complete.self.tags = s.self.tags := by
  obtain ⟨y, e⟩ := self_setG_complete s d x
  rw [e, Core.setHart_tags]

/-- LATEQ returns the oldest late record that it has not returned, and marks it (R278, R283). -/
theorem lateq_returns_oldest (d : BitVec 5) (w l : Bool) (s : State) (hs : s.Canonical) (hi : s.issues (.lateq d w l) = true) :
    let r := s.self.tags
    let head := r.lateHead
    ∃ t, exec (.lateq d w l) s = .next t ∧ t.disp = .retired ∧ t.self.tags.ltHead = head ∧ t.self.tags.ltTail = r.ltTail ∧
      (head = r.ltTail → t.hart.regs = s.hart.regs.writeG d 0 ∧ t.mem = s.mem ∧ t.self.tags.ltPend = false) ∧
      (head ≠ r.ltTail → t.hart.regs = s.hart.regs.writeG d (BitVec.ofNat 64 (r.recordAt head)) ∧ t.self.tags.ltPend = true ∧
        ∀ x, readByte t.mem x =
          if x = localKey s.cur (r.recordAt head + 16) then readByte s.mem x ||| 0x80#8 else readByte s.mem x) := by
  intro r head
  have he : exec (.lateq d w l) s = .next (s.lateq d) := issue_of_issues hi
  by_cases h : head = r.ltTail
  · have hq := lateq_of_empty d h
    have ht : (s.lateq d).self.tags = s.lateAdvanced.self.tags := by rw [hq, tags_setG_complete]
    rw [State.self_lateAdvanced] at ht
    refine ⟨_, he, ?_, by rw [ht], by rw [ht], fun _ => ⟨?_, ?_, ?_⟩, fun hn => absurd h hn⟩
    · rw [hq, State.complete_disp]
    · rw [hq, regs_setG_complete, State.hart_lateAdvanced]
    · rw [hq, State.complete_mem]; rfl
    · rw [ht]; exact bne_eq_false_iff_eq.mpr h
  · have hq := lateq_of_record d h
    let key := localKey s.cur (r.recordAt head + 16)
    let u := storeBytes s.lateAdvanced key [readByte s.mem key ||| 0x80#8]
    have hu : u.hart = s.hart := s.hart_lateAdvanced
    have ht : (s.lateq d).self.tags = s.lateAdvanced.self.tags := by rw [hq, tags_setG_complete]; rfl
    rw [State.self_lateAdvanced] at ht
    refine ⟨_, he, ?_, by rw [ht], by rw [ht], fun hn => absurd hn h, fun _ => ⟨?_, ?_, fun x => ?_⟩⟩
    · rw [hq, State.complete_disp]
    · rw [hq, regs_setG_complete]; exact congrArg (fun k : Hart => k.regs.writeG d _) hu
    · rw [ht]; exact bne_iff_ne.mpr h
    · have hm : (s.lateq d).mem = u.mem := by rw [hq, State.complete_mem]; rfl
      have hk : readByte u.mem x = _ := readByte_storeByte (s := s.lateAdvanced) hs key _ x
      rw [hm, hk]
      split
      · next e => rw [e]
      · rfl

/-- Settles O27: each clause is one of the lemmas above. -/
theorem clocksAndLateRecordsAreRead : Obligations.ClocksAndLateRecordsAreRead :=
  ⟨tnow_reads_ptc, twait_awaits_ptc, twaitExpiry_concludes, timeTreeReference_disciplines, held_le_ptc, lateq_returns_oldest⟩

end Sys2Proof.Machine
end

section
/-!
PROOF. The scalar floating-point operations: what they leave, or the trap that they take (R40, R124, R126 to R128).
-/

namespace Sys2Proof.Machine

/-- A scalar floating-point operation is checked and then delivers its result by R40. -/
theorem exec_of_floatResult {s : State} {i : Instr} {d : BitVec 5} {r : Nat × BitVec 5} (h : floatResult s i = some (d, r)) :
    exec i s = issue i s (s.fpG d r) := by
  unfold floatResult at h
  split at h
  case h_15 => cases h
  all_goals
    obtain ⟨rfl, rfl⟩ := Option.some.inj h
    rfl

/-- The cause that R40 gives for the flags of a unit that have their trap enabled: by the first of them. -/
theorem fpCause_eq (unit : Nat) (st : BitVec 13) (fl : BitVec 5) :
    fpCause unit st fl = BitVec.ofNat 9 (0xC0 + 8 * trapKind (fpEnables st &&& fl) + unit) := by
  have kind : ∀ e : BitVec 5, (if e.getLsbD 4 then 2 else if e.getLsbD 3 then 3 else if e.getLsbD 2 then 4 else if e.getLsbD 1 then 5 else 6) =
      trapKind e := by decide
  simp only [fpCause, kind]

theorem fpTraps_eq_false {st : BitVec 13} {fl : BitVec 5} (h : fpEnables st &&& fl = 0) : fpTraps st fl = false := by
  simp [fpTraps, h]

theorem fpTraps_eq_true {st : BitVec 13} {fl : BitVec 5} (h : fpEnables st &&& fl ≠ 0) : fpTraps st fl = true :=
  bne_iff_ne.mpr h

/-- Without an enabled flag the result and its flags are written, and the operation retires. -/
theorem fpG_of_not_enabled {s : State} {d : BitVec 5} {x : Nat} {fl : BitVec 5} (hf : s.flow = .next)
    (h : fpEnables s.hart.arith.fpstat &&& fl = 0) : s.fpG d (x, fl) = ((s.wroteG d (BitVec.ofNat 64 x)).flagged fl).retires := by
  rw [State.fpG, if_neg (by simp [fpTraps_eq_false h]), setG_eq_wroteG]
  exact complete_eq_retires _ hf

/-- An enabled flag traps, with every flag in TRINFO. -/
theorem fpG_of_enabled {s : State} {d : BitVec 5} {x : Nat} {fl : BitVec 5} (hs : s.settled = true)
    (h : fpEnables s.hart.arith.fpstat &&& fl ≠ 0) : s.fpG d (x, fl) =
      s.trapped (BitVec.ofNat 9 (0xC0 + 8 * trapKind (fpEnables s.hart.arith.fpstat &&& fl))) 0 (fl.setWidth 64) := by
  rw [State.fpG, if_pos (fpTraps_eq_true h), fault_eq_trapped _ _ _ _ hs, fpCause_eq, Nat.add_zero]

/-! The sign injections -/

/-- A value whose sign bit is replaced, by the parity of the number that stands for the sign. -/
theorem ofNat_withSign (k : Fmt) (x : Nat) {m : Nat} {n : Bool} (h : m % 2 = n.toNat) : BitVec.ofNat 64 (k.withSign x m) = withSignOf k x n := by
  unfold Fmt.withSign withSignOf
  rw [h]
  cases n <;> simp

theorem signBit_eq_toNat_signOf (k : Fmt) (x : Nat) : k.signBit x = (signOf k x).toNat := (Nat.toNat_testBit x (k.e + k.f)).symm

/-- A sign injection is checked and then delivers its value, without a flag. -/
theorem exec_of_signResult {s : State} {i : Instr} {d : BitVec 5} {x : W} (h : signResult s i = some (d, x)) :
    ∃ n : Nat, BitVec.ofNat 64 n = x ∧ exec i s = issue i s (s.fpG d (n, 0)) := by
  unfold signResult at h
  split at h
  case h_4 => cases h
  all_goals
    obtain ⟨rfl, rfl⟩ := Option.some.inj h
    refine ⟨_, ofNat_withSign _ _ ?_, rfl⟩
    simp only [signBit_eq_toNat_signOf]
  next p b a _ _ => cases signOf (precFmt p) (s.gf (precFmt p) b) <;> rfl
  next p b a _ _ => cases signOf (precFmt p) (s.gf (precFmt p) b) <;> rfl
  next p b a _ _ => cases signOf (precFmt p) (s.gf (precFmt p) a) <;> cases signOf (precFmt p) (s.gf (precFmt p) b) <;> rfl

/-- Settles O7: an operation delivers its result by R40, which traps on an enabled flag and otherwise writes value and flags; a sign injection raises
no flag. -/
theorem scalarFloatResults : Obligations.ScalarFloatResults := by
  refine ⟨fun i s d x fl h hi => ?_, fun i s d x h hi => ?_⟩
  · rw [exec_of_floatResult h, issue_of_issues hi]
    exact ⟨fun he => congrArg _ (fpG_of_not_enabled (flow_of_issues hi) he), fun he hs => congrArg _ (fpG_of_enabled hs he)⟩
  · obtain ⟨n, rfl, he⟩ := exec_of_signResult h
    rw [he, issue_of_issues hi]
    exact congrArg _ (fpG_of_not_enabled (flow_of_issues hi) BitVec.and_zero)

end Sys2Proof.Machine
end

section
/-!
PROOF. The lanes that a vector operation leaves under its mask (R133).
-/

namespace Sys2Proof.Machine

/-- The bits of lane `i` that an operation leaves: its own where the mask selects it, else those of the old value. -/
def mergedLane (w : Nat) (mask : W) (old : Nat) (f : Nat → Lanes) (i : Nat) : Nat := if mask.getLsbD i then (f i).1 % 2 ^ w else laneBits old w i

theorem mergedLane_lt (w : Nat) (mask : W) (old : Nat) (f : Nat → Lanes) (i : Nat) : mergedLane w mask old f i < 2 ^ w := by
  unfold mergedLane laneBits
  split <;> exact Nat.mod_lt _ (Nat.two_pow_pos w)

/-- One more lane stands above those before it. -/
theorem mergeLanes_succ_fst (w n : Nat) (mask : W) (old : Nat) (f : Nat → Lanes) :
    (mergeLanes w (n + 1) mask old f).1 = (mergeLanes w n mask old f).1 + mergedLane w mask old f n * 2 ^ (w * n) := by
  simp only [mergeLanes, List.range_succ, List.foldl_append, List.foldl_cons, List.foldl_nil, mergedLane]
  split
  · rfl
  · simp [laneBits]

theorem mergeLanes_fst_lt (w n : Nat) (mask : W) (old : Nat) (f : Nat → Lanes) : (mergeLanes w n mask old f).1 < 2 ^ (w * n) := by
  induction n with
  | zero => simp [mergeLanes]
  | succ n ih =>
    have hl := mergedLane_lt w mask old f n
    rw [mergeLanes_succ_fst, Nat.mul_succ, Nat.add_comm (w * n), Nat.pow_add]
    calc _ < 2 ^ (w * n) + mergedLane w mask old f n * 2 ^ (w * n) := Nat.add_lt_add_right ih _
      _ = (mergedLane w mask old f n + 1) * 2 ^ (w * n) := by ring
      _ ≤ 2 ^ w * 2 ^ (w * n) := Nat.mul_le_mul_right _ hl

/-- Reading a lane of the merged ones gives it back. -/
theorem laneBits_mergeLanes {w n j : Nat} (hj : j < n) (mask : W) (old : Nat) (f : Nat → Lanes) :
    laneBits (mergeLanes w n mask old f).1 w j = mergedLane w mask old f j := by
  induction n with
  | zero => omega
  | succ n ih =>
    rw [mergeLanes_succ_fst, laneBits]
    by_cases h : j = n
    · subst h
      rw [Nat.add_mul_div_right _ _ (Nat.two_pow_pos _), Nat.div_eq_of_lt (mergeLanes_fst_lt w j mask old f), Nat.zero_add,
        Nat.mod_eq_of_lt (mergedLane_lt w mask old f j)]
    · have hn : w * n = w * j + (w + w * (n - j - 1)) := by
        rw [show n = j + (1 + (n - j - 1)) by omega]; simp [Nat.mul_add]
      have e : mergedLane w mask old f n * 2 ^ (w * n) = mergedLane w mask old f n * 2 ^ (w * (n - j - 1)) * 2 ^ w * 2 ^ (w * j) := by
        rw [hn, Nat.pow_add, Nat.pow_add]; ring
      rw [e, Nat.add_mul_div_right _ _ (Nat.two_pow_pos _), Nat.add_mul_mod_self_right]
      exact ih (by omega)

/-- Lanes without a flag raise none. -/
theorem mergeLanes_snd_eq_zero (w n : Nat) (mask : W) (old : Nat) {f : Nat → Lanes} (h : ∀ i, (f i).2 = 0) :
    (mergeLanes w n mask old f).2 = 0 := by
  induction n with
  | zero => rfl
  | succ n ih =>
    have e : (mergeLanes w (n + 1) mask old f).2 = (mergeLanes w n mask old f).2 ||| (if mask.getLsbD n then f n else (laneBits old w n, 0)).2 := by
      simp only [mergeLanes, List.range_succ, List.foldl_append, List.foldl_cons, List.foldl_nil]
    rw [e, ih]
    split <;> simp [h]

end Sys2Proof.Machine
end

section
/-!
PROOF. The integer lanes of the vector unit under their mask (R25, R133, R137, R138, R144, R151).
-/

namespace Sys2Proof.Machine

/-! Lanes of 32 bits -/

theorem toNat_lane32 (x : VReg) (j : Nat) : (lane32 x j).toNat = laneBits x.toNat 32 j := by
  simp [lane32, laneBits, BitVec.extractLsb'_toNat, Nat.shiftRight_eq_div_pow]

theorem lane32_eq_ofNat (x : VReg) (j : Nat) : lane32 x j = BitVec.ofNat 32 (laneBits x.toNat 32 j) := by
  rw [← toNat_lane32, BitVec.ofNat_toNat, BitVec.setWidth_eq]

theorem signed_toNat (a : BitVec 32) : signed 32 a.toNat = a.toInt := by
  have h := a.isLt
  rw [signed, Nat.mod_eq_of_lt h, BitVec.toInt]
  split <;> split <;> omega

theorem signed_laneBits (x : VReg) (j : Nat) : signed 32 (laneBits x.toNat 32 j) = (lane32 x j).toInt := by
  rw [← toNat_lane32, signed_toNat]

theorem ofNat_wrap (z : Int) : BitVec.ofNat 32 (wrap 32 z) = BitVec.ofInt 32 z := by
  apply BitVec.eq_of_toNat_eq
  simp [wrap, BitVec.toNat_ofInt]
  omega

/-- The result is register `d` of 16 lanes: `g` where the mask selects the lane, the lane of vD elsewhere; no flag is raised. -/
def OpResult.LanesByMask (r : OpResult) (o : OpCtx) (d : BitVec 5) (g : Nat → BitVec 32) : Prop :=
  ∃ x : VReg, r = { writes := [⟨.v d, x.setWidth 1024⟩], flags := 0, bad := 0, badNan := false, badNeg := false } ∧
    ∀ j, j < 16 → lane32 x j = if o.mask.getLsbD j then g j else lane32 o.d j

/-- Merged lanes of 32 bits that raise no flag. -/
theorem lanesByMask_of_mergeLanes {o : OpCtx} {d : BitVec 5} {f : Nat → Lanes} {g : Nat → BitVec 32} (hf : ∀ i, (f i).2 = 0)
    (hg : ∀ i, BitVec.ofNat 32 (f i).1 = g i) : (outV d (mergeLanes 32 16 o.mask o.d.toNat f)).LanesByMask o d g := by
  have hx : (BitVec.ofNat 512 (mergeLanes 32 16 o.mask o.d.toNat f).1).toNat = (mergeLanes 32 16 o.mask o.d.toNat f).1 :=
    (BitVec.toNat_ofNat _ (32 * 16)).trans (Nat.mod_eq_of_lt (mergeLanes_fst_lt 32 16 o.mask o.d.toNat f))
  refine ⟨BitVec.ofNat 512 (mergeLanes 32 16 o.mask o.d.toNat f).1, ?_, fun j hj => ?_⟩
  · rw [outV, mergeLanes_snd_eq_zero 32 16 _ _ hf, ← BitVec.toNat_ofNat, BitVec.ofNat_toNat]
  · rw [lane32_eq_ofNat, hx, laneBits_mergeLanes hj, mergedLane]
    split
    · rw [← hg j]
      apply BitVec.eq_of_toNat_eq
      simp
    · exact (lane32_eq_ofNat o.d j).symm

/-- Without a prefix a source of INT32 is read as its bits (R135). -/
theorem laneA_of_no_prefix {o : OpCtx} (h : o.pfx = 0) (lo hi : W) (i : Nat) : o.laneA 3 lo hi i = (laneBits o.a.toNat 32 i, 0) := by
  rw [OpCtx.laneA, h]; rfl

theorem laneB_of_no_prefix {o : OpCtx} (h : o.pfx = 0) (lo hi : W) (i : Nat) : o.laneB 3 lo hi i = (laneBits o.b.toNat 32 i, 0) := by
  rw [OpCtx.laneB, h]; rfl

/-- An element-wise operation on INT32 lanes wraps the integer that its row gives (R25, R137). -/
theorem elementwise_lanesByMask {o : OpCtx} (h : o.pfx = 0) (f : BitVec 32 → BitVec 32 → BitVec 32 → BitVec 32) {d : BitVec 5} {lo hi : W}
    {fi : Int → Int → Int → Int} {ff : Nat → Nat → Nat → Lanes} (hf : ∀ a b c, BitVec.ofInt 32 (fi a.toInt b.toInt c.toInt) = f a b c) :
    (o.elementwise 3 d lo hi fi ff).LanesByMask o d fun j => f (lane32 o.a j) (lane32 o.b j) (lane32 o.d j) := by
  refine lanesByMask_of_mergeLanes (fun _ => rfl) fun i => ?_
  show BitVec.ofNat 32 (i32Lane (pfSA o.pfx) (fi (signed 32 (o.laneA 3 lo hi i).1) (signed 32 (o.laneB 3 lo hi i).1)
    (signed 32 (laneBits o.d.toNat 32 i)))) = _
  rw [laneA_of_no_prefix h, laneB_of_no_prefix h, signed_laneBits, signed_laneBits, signed_laneBits, ← hf, ← ofNat_wrap, h]
  rfl

/-- The same for one source. -/
theorem unary_lanesByMask {o : OpCtx} (h : o.pfx = 0) (f : BitVec 32 → BitVec 32) {d : BitVec 5} {lo hi : W} {fi : Int → Int} {ff : Nat → Lanes}
    (hf : ∀ a, BitVec.ofInt 32 (fi a.toInt) = f a) :
    (o.unary 3 d lo hi fi ff).LanesByMask o d fun j => f (lane32 o.a j) := by
  refine lanesByMask_of_mergeLanes (fun _ => rfl) fun i => ?_
  show BitVec.ofNat 32 (i32Lane (pfSA o.pfx) (fi (signed 32 (o.laneA 3 lo hi i).1))) = _
  rw [laneA_of_no_prefix h, signed_laneBits, ← hf, ← ofNat_wrap, h]
  rfl

/-- An operation on the bits of 32-bit lanes (R138, R151). -/
theorem bits_lanesByMask (o : OpCtx) (f : BitVec 32 → BitVec 32 → BitVec 32) {d : BitVec 5} {fn : Nat → Nat → Nat}
    (hf : ∀ a b, BitVec.ofNat 32 (fn a.toNat b.toNat) = f a b) :
    (o.bits 3 d fn).LanesByMask o d fun j => f (lane32 o.a j) (lane32 o.b j) := by
  refine lanesByMask_of_mergeLanes (fun _ => rfl) fun i => ?_
  show BitVec.ofNat 32 (fn (laneBits o.a.toNat 32 i) (laneBits o.b.toNat 32 i)) = _
  rw [← toNat_lane32, ← toNat_lane32, hf]

/-! The rows of the tables -/

theorem ofInt_toInt_add (a b : BitVec 32) : BitVec.ofInt 32 (a.toInt + b.toInt) = a + b := by
  rw [BitVec.ofInt_add, BitVec.ofInt_toInt, BitVec.ofInt_toInt]

theorem ofInt_neg_toInt (a : BitVec 32) : BitVec.ofInt 32 (-a.toInt) = -a := by
  rw [BitVec.ofInt_neg, BitVec.ofInt_toInt]

theorem ofInt_toInt_sub (a b : BitVec 32) : BitVec.ofInt 32 (a.toInt - b.toInt) = a - b := by
  rw [Int.sub_eq_add_neg, BitVec.ofInt_add, BitVec.ofInt_toInt, ofInt_neg_toInt, BitVec.sub_eq_add_neg]

theorem ofInt_toInt_mul (a b : BitVec 32) : BitVec.ofInt 32 (a.toInt * b.toInt) = a * b := by
  rw [BitVec.ofInt_mul, BitVec.ofInt_toInt, BitVec.ofInt_toInt]

theorem ofInt_toInt_add_mul (a b c : BitVec 32) : BitVec.ofInt 32 (c.toInt + a.toInt * b.toInt) = c + a * b := by
  rw [BitVec.ofInt_add, BitVec.ofInt_toInt, ofInt_toInt_mul]

theorem ofInt_toInt_min (a b : BitVec 32) : BitVec.ofInt 32 (min a.toInt b.toInt) = if a.toInt ≤ b.toInt then a else b := by
  split <;> rename_i h
  · rw [min_eq_left h, BitVec.ofInt_toInt]
  · rw [min_eq_right (by omega), BitVec.ofInt_toInt]

theorem ofInt_toInt_max (a b : BitVec 32) : BitVec.ofInt 32 (max a.toInt b.toInt) = if b.toInt ≤ a.toInt then a else b := by
  split <;> rename_i h
  · rw [max_eq_left h, BitVec.ofInt_toInt]
  · rw [max_eq_right (by omega), BitVec.ofInt_toInt]

theorem ofInt_natAbs_toInt (a : BitVec 32) : BitVec.ofInt 32 a.toInt.natAbs = if a.toInt < 0 then -a else a := by
  split <;> rename_i h
  · rw [Int.ofNat_natAbs_of_nonpos (by omega), ofInt_neg_toInt]
  · rw [Int.natAbs_of_nonneg (by omega), BitVec.ofInt_toInt]

theorem ofNat_toNat_and (a b : BitVec 32) : BitVec.ofNat 32 (a.toNat &&& b.toNat) = a &&& b := by
  rw [← BitVec.toNat_and, BitVec.ofNat_toNat, BitVec.setWidth_eq]

theorem ofNat_toNat_or (a b : BitVec 32) : BitVec.ofNat 32 (a.toNat ||| b.toNat) = a ||| b := by
  rw [← BitVec.toNat_or, BitVec.ofNat_toNat, BitVec.setWidth_eq]

theorem ofNat_toNat_xor (a b : BitVec 32) : BitVec.ofNat 32 (a.toNat ^^^ b.toNat) = a ^^^ b := by
  rw [← BitVec.toNat_xor, BitVec.ofNat_toNat, BitVec.setWidth_eq]

theorem ofNat_mul_two_pow (a b : BitVec 32) : BitVec.ofNat 32 (a.toNat * 2 ^ (b.toNat % 32)) = a <<< (b.toNat % 32) := by
  apply BitVec.eq_of_toNat_eq
  simp [Nat.shiftLeft_eq]

theorem ofNat_div_two_pow (a b : BitVec 32) : BitVec.ofNat 32 (a.toNat / 2 ^ (b.toNat % 32)) = a >>> (b.toNat % 32) := by
  apply BitVec.eq_of_toNat_eq
  rw [BitVec.toNat_ofNat, BitVec.toNat_ushiftRight, Nat.shiftRight_eq_div_pow]
  exact Nat.mod_eq_of_lt (lt_of_le_of_lt (Nat.div_le_self _ _) a.isLt)

theorem ofNat_wrap_div_two_pow (a b : BitVec 32) :
    BitVec.ofNat 32 (wrap 32 (signed 32 a.toNat / (2 ^ (b.toNat % 32) : Nat))) = a.sshiftRight (b.toNat % 32) := by
  rw [ofNat_wrap, signed_toNat, BitVec.sshiftRight, Int.shiftRight_eq_div_pow]

theorem ofNat_wrap_mulh (a b : BitVec 32) :
    BitVec.ofNat 32 (wrap 32 (signed 32 a.toNat * signed 32 b.toNat / (2 ^ 32 : Nat))) = BitVec.ofInt 32 (a.toInt * b.toInt / 2 ^ 32) := by
  rw [ofNat_wrap, signed_toNat, signed_toNat]
  rfl

/-- VMOV copies the lanes of its source (R144). -/
theorem vmovOut_lanesByMask (o : OpCtx) (d : BitVec 5) : (vmovOut 3 d o).LanesByMask o d fun j => lane32 o.a j :=
  lanesByMask_of_mergeLanes (fun _ => rfl) fun i => (lane32_eq_ofNat o.a i).symm

/-- Each operation gives the lanes of its row. -/
theorem vecOut_lanesByMask {o : OpCtx} {d : BitVec 5} {f : BitVec 32 → BitVec 32 → BitVec 32 → BitVec 32} (h : intLane o.op = some (d, f))
    (hp : o.pfx = 0) (lo hi : W) : (vecOut o lo hi).LanesByMask o d fun j => f (lane32 o.a j) (lane32 o.b j) (lane32 o.d j) := by
  unfold intLane at h
  split at h
  case h_18 => cases h
  all_goals
    rename_i heq
    obtain ⟨rfl, rfl⟩ := Option.some.inj h
    simp only [vecOut, heq]
  case h_1 => exact elementwise_lanesByMask hp (fun a b _ => a + b) fun a b _ => ofInt_toInt_add a b
  case h_2 => exact elementwise_lanesByMask hp (fun a b _ => a - b) fun a b _ => ofInt_toInt_sub a b
  case h_3 => exact elementwise_lanesByMask hp (fun a b _ => a * b) fun a b _ => ofInt_toInt_mul a b
  case h_4 => exact elementwise_lanesByMask hp (fun a b c => c + a * b) ofInt_toInt_add_mul
  case h_5 => exact elementwise_lanesByMask hp (fun a b _ => if a.toInt ≤ b.toInt then a else b) fun a b _ => ofInt_toInt_min a b
  case h_6 => exact elementwise_lanesByMask hp (fun a b _ => if b.toInt ≤ a.toInt then a else b) fun a b _ => ofInt_toInt_max a b
  case h_7 => exact unary_lanesByMask hp (fun a => if a.toInt < 0 then -a else a) ofInt_natAbs_toInt
  case h_8 => exact unary_lanesByMask hp (fun a => -a) ofInt_neg_toInt
  case h_9 => exact bits_lanesByMask o (fun a b => a &&& b) ofNat_toNat_and
  case h_10 => exact bits_lanesByMask o (fun a b => a ||| b) ofNat_toNat_or
  case h_11 => exact bits_lanesByMask o (fun a b => a ^^^ b) ofNat_toNat_xor
  case h_12 => exact bits_lanesByMask o (fun a b => a <<< (b.toNat % 32)) ofNat_mul_two_pow
  case h_13 => exact bits_lanesByMask o (fun a b => a >>> (b.toNat % 32)) ofNat_div_two_pow
  case h_14 => exact bits_lanesByMask o (fun a b => a.sshiftRight (b.toNat % 32)) ofNat_wrap_div_two_pow
  case h_15 => exact vmovOut_lanesByMask o _
  case h_16 => exact bits_lanesByMask o (fun a b => BitVec.ofInt 32 (a.toInt * b.toInt / 2 ^ 32)) ofNat_wrap_mulh
  case h_17 => exact bits_lanesByMask o (fun a _ => BitVec.ofNat 32 (onesOf 32 a.toNat)) fun _ _ => rfl

/-- Settles O16: every operation of the table gives the lanes of its row. -/
theorem integerLanesByMask : Obligations.IntegerLanesByMask := fun _ lo hi _ _ h hp => vecOut_lanesByMask h hp lo hi

end Sys2Proof.Machine
end

section
/-!
PROOF. A converting local load that completes after a younger access of its hart has issued: NV also reaches what a rewind to that access
brings back (R40, R51, R214, R263).
-/

namespace Sys2Proof.Machine

/-- The completion of a converting load lands its lanes and its flag in the hart, and the flag in the marks of the younger accesses. -/
theorem exec_localLoadComplete_of_converting {s : State} {c : CoreId} {h : HartId} {n : Nat} {p : Pend} {r : RegRef} {x : BitVec 512}
    {ff tf : BitVec 4} {bc : Bool} (hp : (s.hartAt c h).pend.find? (fun q => q.id == n) = some p) (hk : p.kind = .localLoad r x (some (ff, tf, bc))) :
    let v := convertLoad (s.core c).cblo (s.core c).cbhi ff tf bc x.toNat
    exec (.localLoadComplete c h n) s =
      .next { (s.dropPend c h n).landOp c h (p.seq + 1) ⟨[⟨r, BitVec.ofNat 1024 v.1⟩], v.2, 0, false, false⟩ with disp := .occurred } := by
  intro v
  have hf : s.findPend c h n = some p := hp
  obtain ⟨id, seq, op, kind, ds, pr⟩ := p
  obtain rfl : kind = .localLoad r x (some (ff, tf, bc)) := hk
  show execLocalLoadComplete c h n s = _
  rw [execLocalLoadComplete, hf]
  rfl

/-- The FPSTAT that a rewind to each access in flight brings back. -/
def State.markFlags (s : State) : List (BitVec 13) := s.net.accs.map fun a => a.mark.fpstat

/-- Access 0 of the boot hart: VLD of FP16 elements to FP32 lanes, whose first element is a signalling NaN. -/
def nanLoad : Pend where
  id := 4
  seq := 0
  op := .vld 0 2 3 true true
  kind := .localLoad (.v 3) 0x7C01 (some (2, 1, false))
  dsts := [.v 3]
  precise := false

/-- Access 1 of the boot hart: a store to HBM, on its way. It issued when no flag was raised. -/
def youngerStore : Access where
  id := 6
  core := 31
  hart := 0
  seq := 1
  mark := { pc := 0x44, loops := Loops.reset, pp := false, fields := 0, instret := 2, arrival := .fall, fpstat := 0, moflags := 0 }
  ctx := 0
  agid := 0
  mode := 3
  op := .store
  vec := false
  plain := true
  acq := false
  orphan := false
  mute := false
  parts := [{ n := 0, va := 0x1000, size := 8, data := 0x55, stage := .sent (.phys 0x100 0) }]
  frozen := 0
  since := 0

/-- The boot hart has issued the load and then the store, and neither is complete. -/
def loadBeforeStore : State :=
  { (State.reset.onHart fun h => { h with nseq := 2, pc := 0x48, pend := [nanLoad] }) with
    net := { State.reset.net with accs := [youngerStore] } }

/-- Refutes O9: the last clause has the completion of a converting load change its hart alone. In `loadBeforeStore` the load's NV also goes into the
FPSTAT that a rewind to the younger store brings back, since the load is older than the store (R51, R263). -/
theorem not_localLoadsRead : ¬ Obligations.LocalLoadsRead := by
  rintro ⟨-, completes⟩
  have hp : (loadBeforeStore.hartAt 31 0).pend.find? (fun q => q.id == 4) = some nanLoad := by decide +kernel
  have claimed := (completes loadBeforeStore 31 0 4 nanLoad (.v 3) 0x7C01 _ hp rfl).2 2 1 false rfl
  rw [exec_localLoadComplete_of_converting hp rfl] at claimed
  have marks := congrArg State.markFlags (Host.Outcome.next.inj claimed)
  exact absurd marks (by decide +kernel)

end Sys2Proof.Machine
end

section
/-!
PROOF. Decoding reads back the word of every instruction, and reads nothing else (R48, R54, R55, R92).
-/

namespace Sys2Proof

/-! Fields of joined words. The width of a word is left to unification, as it is a numeral and no sum. -/

theorem extract_append_high {v w : Nat} (x : BitVec v) (y : BitVec w) {start len : Nat} (h : w ≤ start) :
    @BitVec.extractLsb' (no_index (v + w)) start len (HAppend.hAppend (γ := no_index (BitVec (v + w))) x y) = x.extractLsb' (start - w) len :=
  BitVec.extractLsb'_append_eq_of_le h

theorem extract_append_low {v w : Nat} (x : BitVec v) (y : BitVec w) {start len : Nat} (h : start + len ≤ w) :
    @BitVec.extractLsb' (no_index (v + w)) start len (HAppend.hAppend (γ := no_index (BitVec (v + w))) x y) = y.extractLsb' start len :=
  BitVec.extractLsb'_append_eq_of_add_le h

theorem bit_append_high {v w : Nat} (x : BitVec v) (y : BitVec w) {i : Nat} (h : w ≤ i) :
    @BitVec.getLsbD (no_index (v + w)) (HAppend.hAppend (γ := no_index (BitVec (v + w))) x y) i = x.getLsbD (i - w) := by
  rw [BitVec.getLsbD_append, if_neg (by omega)]

theorem bit_append_low {v w : Nat} (x : BitVec v) (y : BitVec w) {i : Nat} (h : i < w) :
    @BitVec.getLsbD (no_index (v + w)) (HAppend.hAppend (γ := no_index (BitVec (v + w))) x y) i = y.getLsbD i := by
  rw [BitVec.getLsbD_append, if_pos h]

/-! The fields of each format of R52: a field of a word is that of its operand, whole or in part. -/

section
variable (w l : Bool)

theorem encR_fields (fn c b a d mj : BitVec 5) :
    (encR fn c b a d mj w l).extractLsb' 2 5 = mj ∧ (encR fn c b a d mj w l).getLsbD 1 = w ∧ (encR fn c b a d mj w l).getLsbD 0 = l ∧
    (encR fn c b a d mj w l).extractLsb' 27 5 = fn ∧ (encR fn c b a d mj w l).extractLsb' 7 5 = d ∧
    (∀ k n, k + n ≤ 5 → (encR fn c b a d mj w l).extractLsb' (no_index (k + 22)) n = c.extractLsb' k n) ∧
    (∀ k, k < 5 → (encR fn c b a d mj w l).getLsbD (no_index (k + 22)) = c.getLsbD k) ∧
    (∀ k n, k + n ≤ 5 → (encR fn c b a d mj w l).extractLsb' (no_index (k + 17)) n = b.extractLsb' k n) ∧
    (∀ k n, k + n ≤ 5 → (encR fn c b a d mj w l).extractLsb' (no_index (k + 12)) n = a.extractLsb' k n) := by
  simp +contextual [encR, encTail, extract_append_high, extract_append_low, bit_append_high, bit_append_low, BitVec.extractLsb'_eq_self,
    -BitVec.getLsbD_eq_getElem]

theorem encI_fields (imm : BitVec 12) (f3 : BitVec 3) (a d mj : BitVec 5) :
    (encI imm f3 a d mj w l).extractLsb' 2 5 = mj ∧ (encI imm f3 a d mj w l).getLsbD 1 = w ∧ (encI imm f3 a d mj w l).getLsbD 0 = l ∧
    (encI imm f3 a d mj w l).extractLsb' 17 3 = f3 ∧ (encI imm f3 a d mj w l).extractLsb' 12 5 = a ∧ (encI imm f3 a d mj w l).extractLsb' 7 5 = d ∧
    ∀ k n, k + n ≤ 12 → (encI imm f3 a d mj w l).extractLsb' (no_index (k + 20)) n = imm.extractLsb' k n := by
  simp [encI, encTail, extract_append_high, extract_append_low, bit_append_high, bit_append_low, BitVec.extractLsb'_eq_self,
    -BitVec.getLsbD_eq_getElem]

/-- LOOPI carries its end word in two fields, which lie side by side. -/
theorem encI_end (imm : BitVec 12) (f3 : BitVec 3) (mj : BitVec 5) (e : BitVec 10) :
    (encI imm f3 (e.extractLsb' 5 5) (e.extractLsb' 0 5) mj w l).extractLsb' 7 10 = e := by
  ext i hi
  simp only [encI, BitVec.getElem_extractLsb', BitVec.getLsbD_append, BitVec.getLsbD_extractLsb']
  interval_cases i <;> simp

theorem encU_fields (imm : BitVec 20) (d mj : BitVec 5) :
    (encU imm d mj w l).extractLsb' 2 5 = mj ∧ (encU imm d mj w l).getLsbD 1 = w ∧ (encU imm d mj w l).getLsbD 0 = l ∧
    (encU imm d mj w l).extractLsb' 12 20 = imm ∧ (encU imm d mj w l).extractLsb' 7 5 = d := by
  simp [encU, encTail, extract_append_high, extract_append_low, bit_append_high, bit_append_low, BitVec.extractLsb'_eq_self,
    -BitVec.getLsbD_eq_getElem]

theorem encBR_fields (off : BitVec 12) (cnd : BitVec 3) (b a mj : BitVec 5) :
    (encBR off cnd b a mj w l).extractLsb' 2 5 = mj ∧ (encBR off cnd b a mj w l).getLsbD 1 = w ∧ (encBR off cnd b a mj w l).getLsbD 0 = l ∧
    (encBR off cnd b a mj w l).extractLsb' 20 12 = off ∧ (encBR off cnd b a mj w l).extractLsb' 17 3 = cnd ∧
    (encBR off cnd b a mj w l).extractLsb' 12 5 = b ∧ (encBR off cnd b a mj w l).extractLsb' 7 5 = a := by
  simp [encBR, encTail, extract_append_high, extract_append_low, bit_append_high, bit_append_low, BitVec.extractLsb'_eq_self,
    -BitVec.getLsbD_eq_getElem]

theorem encJ_eq_encU (off : BitVec 20) (d mj : BitVec 5) : encJ off d mj w l = encU off d mj w l := rfl

theorem encM_fields (off : BitVec 8) (scp ord : BitVec 2) (sz : BitVec 3) (a d mj : BitVec 5) :
    (encM off scp ord sz a d mj w l).extractLsb' 2 5 = mj ∧ (encM off scp ord sz a d mj w l).getLsbD 1 = w ∧
    (encM off scp ord sz a d mj w l).getLsbD 0 = l ∧ (∀ n, n ≤ 8 → (encM off scp ord sz a d mj w l).extractLsb' 24 n = off.extractLsb' 0 n) ∧
    (encM off scp ord sz a d mj w l).extractLsb' 22 2 = scp ∧ (encM off scp ord sz a d mj w l).extractLsb' 20 2 = ord ∧
    (encM off scp ord sz a d mj w l).extractLsb' 17 3 = sz ∧ (encM off scp ord sz a d mj w l).extractLsb' 12 5 = a ∧
    (encM off scp ord sz a d mj w l).extractLsb' 7 5 = d := by
  simp [encM, encTail, extract_append_high, extract_append_low, bit_append_high, bit_append_low, BitVec.extractLsb'_eq_self,
    -BitVec.getLsbD_eq_getElem]

theorem encV_fields (fn : BitVec 5) (ty : BitVec 2) (k : BitVec 3) (b a d mj : BitVec 5) :
    (encV fn ty k b a d mj w l).extractLsb' 2 5 = mj ∧ (encV fn ty k b a d mj w l).getLsbD 1 = w ∧ (encV fn ty k b a d mj w l).getLsbD 0 = l ∧
    (encV fn ty k b a d mj w l).extractLsb' 27 5 = fn ∧ (encV fn ty k b a d mj w l).extractLsb' 25 2 = ty ∧
    (encV fn ty k b a d mj w l).extractLsb' 22 3 = k ∧ (encV fn ty k b a d mj w l).getLsbD 17 = b.getLsbD 0 ∧
    (∀ j n, j + n ≤ 5 → (encV fn ty k b a d mj w l).extractLsb' (no_index (j + 17)) n = b.extractLsb' j n) ∧
    (∀ n, n ≤ 5 → (encV fn ty k b a d mj w l).extractLsb' 12 n = a.extractLsb' 0 n) ∧
    (∀ j n, j + n ≤ 5 → (encV fn ty k b a d mj w l).extractLsb' (no_index (j + 7)) n = d.extractLsb' j n) := by
  simp +contextual [encV, encTail, extract_append_high, extract_append_low, bit_append_high, bit_append_low, BitVec.extractLsb'_eq_self,
    -BitVec.getLsbD_eq_getElem]

theorem encP_fields (z : BitVec 3) (x c : Bool) (s p q r : BitVec 3) (f e : BitVec 4) (mj : BitVec 5) :
    (encP z (BitVec.ofBool x) (BitVec.ofBool c) s p q r f e mj w l).extractLsb' 2 5 = mj ∧ (encP z (BitVec.ofBool x) (BitVec.ofBool c) s p q r f e mj w l).getLsbD 1 = w ∧ (encP z (BitVec.ofBool x) (BitVec.ofBool c) s p q r f e mj w l).getLsbD 0 = l ∧ (encP z (BitVec.ofBool x) (BitVec.ofBool c) s p q r f e mj w l).getLsbD 28 = x ∧ (encP z (BitVec.ofBool x) (BitVec.ofBool c) s p q r f e mj w l).getLsbD 27 = c ∧ (encP z (BitVec.ofBool x) (BitVec.ofBool c) s p q r f e mj w l).extractLsb' 24 3 = s ∧
    (encP z (BitVec.ofBool x) (BitVec.ofBool c) s p q r f e mj w l).extractLsb' 21 3 = p ∧ (encP z (BitVec.ofBool x) (BitVec.ofBool c) s p q r f e mj w l).extractLsb' 18 3 = q ∧ (encP z (BitVec.ofBool x) (BitVec.ofBool c) s p q r f e mj w l).extractLsb' 15 3 = r ∧ (encP z (BitVec.ofBool x) (BitVec.ofBool c) s p q r f e mj w l).extractLsb' 11 4 = f ∧ (encP z (BitVec.ofBool x) (BitVec.ofBool c) s p q r f e mj w l).extractLsb' 7 4 = e := by
  simp [encP, encTail, extract_append_high, extract_append_low, bit_append_high, bit_append_low, BitVec.extractLsb'_eq_self,
    -BitVec.getLsbD_eq_getElem]

/-! Major and selector of a word. -/

theorem encR_mj (fn c b a d mj : BitVec 5) : (encR fn c b a d mj w l).extractLsb' 2 5 = mj := by simp only [encR_fields]
theorem encR_fn (fn c b a d mj : BitVec 5) : (encR fn c b a d mj w l).extractLsb' 27 5 = fn := by simp only [encR_fields]
theorem encI_mj (imm : BitVec 12) (f3 : BitVec 3) (a d mj : BitVec 5) : (encI imm f3 a d mj w l).extractLsb' 2 5 = mj := by simp only [encI_fields]
theorem encI_f3 (imm : BitVec 12) (f3 : BitVec 3) (a d mj : BitVec 5) : (encI imm f3 a d mj w l).extractLsb' 17 3 = f3 := by simp only [encI_fields]
theorem encU_mj (imm : BitVec 20) (d mj : BitVec 5) : (encU imm d mj w l).extractLsb' 2 5 = mj := by simp only [encU_fields]
theorem encJ_mj (off : BitVec 20) (d mj : BitVec 5) : (encJ off d mj w l).extractLsb' 2 5 = mj := encU_mj w l off d mj
theorem encBR_mj (off : BitVec 12) (cnd : BitVec 3) (b a mj : BitVec 5) : (encBR off cnd b a mj w l).extractLsb' 2 5 = mj := by
  simp only [encBR_fields]
theorem encBR_cnd (off : BitVec 12) (cnd : BitVec 3) (b a mj : BitVec 5) : (encBR off cnd b a mj w l).extractLsb' 17 3 = cnd := by
  simp only [encBR_fields]
theorem encM_mj (off : BitVec 8) (scp ord : BitVec 2) (sz : BitVec 3) (a d mj : BitVec 5) : (encM off scp ord sz a d mj w l).extractLsb' 2 5 = mj := by
  simp only [encM_fields]
theorem encM_sz (off : BitVec 8) (scp ord : BitVec 2) (sz : BitVec 3) (a d mj : BitVec 5) : (encM off scp ord sz a d mj w l).extractLsb' 17 3 = sz := by
  simp only [encM_fields]
theorem encV_mj (fn : BitVec 5) (ty : BitVec 2) (k : BitVec 3) (b a d mj : BitVec 5) : (encV fn ty k b a d mj w l).extractLsb' 2 5 = mj := by
  simp only [encV_fields]
theorem encV_fn (fn : BitVec 5) (ty : BitVec 2) (k : BitVec 3) (b a d mj : BitVec 5) : (encV fn ty k b a d mj w l).extractLsb' 27 5 = fn := by
  simp only [encV_fields]
theorem encP_mj (z : BitVec 3) (x c : Bool) (s p q r : BitVec 3) (f e : BitVec 4) (mj : BitVec 5) :
    (encP z (BitVec.ofBool x) (BitVec.ofBool c) s p q r f e mj w l).extractLsb' 2 5 = mj := by
  simp only [encP_fields]

end

/-! What the major of a word leaves to read (step 2 of R56). -/

/-- The reader of a major (R55); it reads nothing for a major that no instruction has. -/
def readerOf (mj : BitVec 5) : Word32 → Option Instr :=
  match mj with
  | 1#5 => readBR
  | 2#5 => readJAL
  | 3#5 => readJALR
  | 4#5 => readLD
  | 5#5 => readST
  | 6#5 => readVMEM
  | 7#5 => readAMO
  | 8#5 => readORD
  | 9#5 => readSYNC
  | 10#5 => readTIME
  | 11#5 => readQUEUE
  | 12#5 => readXFER
  | 13#5 => readMTX
  | 14#5 => readCOLL
  | 15#5 => readCSR
  | 16#5 => readSYS
  | 17#5 => readSTF
  | 18#5 => readLOOP
  | 19#5 => readPFX
  | 20#5 => readALU
  | 21#5 => readALUI
  | 22#5 => readLUI
  | 23#5 => readAUIPC
  | 24#5 => readFPU
  | 25#5 => readVEC
  | 26#5 => readVEC2
  | 27#5 => readMOM
  | _ => fun _ => none

/-- A word is the instruction that the reader of its major reads. -/
theorem readWord_of_readerOf {w : Word32} {i : Instr} (h : readerOf (w.extractLsb' 2 5) w = some i) : readWord w = .instr i := by
  unfold readWord
  generalize w.extractLsb' 2 5 = mj at *
  unfold readerOf at h
  split at h <;> simp_all

/-- The word of an instruction is read by the reader of its major, which finds the operands in the fields of the format. -/
theorem readerOf_encode {i : Instr} {w : Word32} (h : encode i = some w) : readerOf (w.extractLsb' 2 5) w = some i := by
  cases i <;> cases h
  case' beq | bne | blt | bge | bltu | bgeu | bbs | bbc =>
    rw [encBR_mj]; show readBR _ = _; rw [readBR, encBR_cnd]; show some _ = some _
  case' jal =>
    rw [encJ_mj]; show readJAL _ = _; rw [readJAL]
  case' jalr =>
    rw [encI_mj]; show readJALR _ = _; rw [readJALR, encI_f3]; show some _ = some _
  case' ldb | ldh | ldw | ldd | ldbu | ldhu | ldwu =>
    rw [encM_mj]; show readLD _ = _; rw [readLD, encM_sz]; show some _ = some _
  case' stb | sth | stw | std =>
    rw [encM_mj]; show readST _ = _; rw [readST, encM_sz]; show some _ = some _
  case' vld | vst | vlds | vsts | vldx | vstx | vldbc =>
    rw [encM_mj]; show readVMEM _ = _; rw [readVMEM, encM_sz]; show some _ = some _
  case' aadd | aand | aor | axor | amin | amax | aminu | amaxu | aswap | acas | acasf | afadd | afmin | afmax | avadd | avmax | aincw =>
    rw [encR_mj]; show readAMO _ = _; rw [readAMO, encR_fn]; show some _ = some _
  case' tldw | tldd | tstw | tstd | tldv | tstv =>
    rw [encM_mj]; show readORD _ = _; rw [readORD, encM_sz]; show some _ = some _
  case' fence | ifence | waita | gjoin | gleave | gbar | gqry | yield =>
    rw [encR_mj]; show readSYNC _ = _; rw [readSYNC, encR_fn]; show some _ = some _
  case' next | done | post | postp | tnow | lateq | twait =>
    rw [encR_mj]; show readTIME _ = _; rw [readTIME, encR_fn]; show some _ = some _
  case' enq | deq | enqv | deqv | enqn | deqn | qlen =>
    rw [encR_mj]; show readQUEUE _ = _; rw [readQUEUE, encR_fn]; show some _ = some _
  case' xshape | xcopy | xcopys | xgath | xscat | xfill | bseal | bwait | bstat | xmode =>
    rw [encR_mj]; show readXFER _ = _; rw [readXFER, encR_fn]; show some _ = some _
  case' leash | leashn | unleash | mxcfg | mxldb | mxrun | mxzero | mxwait | mxqry =>
    rw [encR_mj]; show readMTX _ = _; rw [readMTX, encR_fn]; show some _ = some _
  case' warm | wdisarm | wcnt | wadd | wwait | wstart =>
    rw [encR_mj]; show readCOLL _ = _; rw [readCOLL, encR_fn]; show some _ = some _
  case' csrrw | csrrs | csrrc | csrwi | csrsi | csrci =>
    rw [encI_mj]; show readCSR _ = _; rw [readCSR, encI_f3]; show some _ = some _
  case' hstart | hstop =>
    rw [encI_mj]; show readSYS _ = _; rw [readSYS, encI_f3]; show some _ = some _
  case' ecall | ebreak | tret | wfi | halt =>
    rw [encI_mj]; show readSYS _ = _; rw [readSYS, encI_f3]
  case' stfw | stfd | stfv =>
    rw [encR_mj]; show readSTF _ = _; rw [readSTF, encR_fn]; show some _ = some _
  case' loop | loopi | lbrk | lpop =>
    rw [encI_mj]; show readLOOP _ = _; rw [readLOOP, encI_f3]; show some _ = some _
  case' pfx =>
    rw [encP_mj]; show readPFX _ = _; rw [readPFX]
  case' add | sub | and | or | xor | sll | srl | sra | slt | sltu | mul | mulh | mulhu | div | divu | rem | remu | min | max | minu | maxu | clz |
      ctz | popc | rol | ror | addw | subw | sel =>
    rw [encR_mj]; show readALU _ = _; rw [readALU, encR_fn]; show some _ = some _
  case' addi | andi | ori | xori | slti | sltiu | addwi =>
    rw [encI_mj]; show readALUI _ = _; rw [readALUI, encI_f3]; show some _ = some _
  case' slli | srli | srai | rori =>
    rw [encI_mj]; show readALUI _ = _; rw [readALUI, encI_f3]
  case' lui =>
    rw [encU_mj]; show readLUI _ = _; rw [readLUI]
  case' auipc =>
    rw [encU_mj]; show readAUIPC _ = _; rw [readAUIPC]
  case' fadd | fsub | fmul | fdiv | fsqrt | fmin | fmax | fsgnj | fsgnjn | fsgnjx | feq | flt | fle | fclass | fcvti | fcvtf | fcvtff | fmas | fmad =>
    rw [encR_mj]; show readFPU _ = _; rw [readFPU, encR_fn]; show some _ = some _
  case' vadd | vsub | vmul | vfma | vmin | vmax | vabs | vneg | vand | vor | vxor | vshl | vshr | vsra | vceq | vclt | vcle | vsel | vcvt | vred |
      vsplat | vext | vins | vperm | vwfma | vdot | vlut | vpln | vupl | vrcp | vrsq | vexp =>
    rw [encV_mj]; show readVEC _ = _; rw [readVEC, encV_fn]; show some _ = some _
  case' kand | kor | kxor | knot | kpopc | vidx | vslide | vmov | vtanh | vrand | vpopc | vpdot | vcvts | vmulh | vsat =>
    rw [encV_mj]; show readVEC2 _ = _; rw [readVEC2, encV_fn]; show some _ = some _
  case' kmovKK | kmovKG | kmovGK =>
    rw [encV_mj]; show readVEC2 _ = _; rw [readVEC2, encV_fn]
  case' madd | msub | mmul | mscal | maddc | mrelu | mexp | msig | mpack | mcoll | mred | mmov | mzero | mchk =>
    rw [encV_mj]; show readMOM _ = _; rw [readMOM, encV_fn]; show some _ = some _
  all_goals
    simp (disch := decide) only [encR_fields, encI_fields, encI_end, encU_fields, encJ_eq_encU, encBR_fields, encM_fields, encV_fields, encP_fields,
      extract_append_high, extract_append_low, bit_append_high, bit_append_low, BitVec.extractLsb'_eq_self, BitVec.extractLsb'_zero,
      BitVec.reduceExtractLsb', BitVec.getLsbD_ofBool, Nat.reduceSub, Bool.true_and, decide_true]

theorem readWord_encode {i : Instr} {w : Word32} (h : encode i = some w) : readWord w = .instr i := readWord_of_readerOf (readerOf_encode h)

/-- The instructions with a word are those that harts issue. -/
theorem isSome_encode (i : Instr) : (encode i).isSome = i.isWord := by
  cases i <;> rfl

/-- A word that passes the checks of R54 decodes to its instruction. -/
theorem decodeWord_encode {i : Instr} {w : Word32} (h : encode i = some w) (hw : i.wellFormed = true) (hc : i.csrListed = true) : decodeWord w = .instr i := by
  simp [decodeWord, readWord_encode h, h, hw, hc]

/-- What a word decodes to has that word, and is one of the instructions that the manual lists. -/
theorem of_decodeWord {w : Word32} {i : Instr} (h : decodeWord w = .instr i) : encode i = some w ∧ i.wellFormed = true ∧ i.csrListed = true := by
  unfold decodeWord at h
  split at h
  · cases h
  · split at h
    · cases h
    · next hc =>
      split at h
      · next hw => cases h; exact ⟨hw.1, hw.2, by simpa using hc⟩
      · cases h

end Sys2Proof

namespace Sys2Proof.Machine

/-- Settles O55: a word is read back by its fields, and decoding keeps what it read only if it has the word read. -/
theorem decodeAndEncodeAgree : Obligations.DecodeAndEncodeAgree := by
  constructor
  · intro i hi hw hc
    obtain ⟨w, h⟩ := Option.isSome_iff_exists.mp ((isSome_encode i).trans hi)
    exact ⟨w, h, decodeWord_encode h hw hc⟩
  · intro w i h
    obtain ⟨he, hw, hc⟩ := of_decodeWord h
    have hi := isSome_encode i
    rw [he] at hi
    exact ⟨hi.symm, hw, hc, he⟩

end Sys2Proof.Machine
end

section
/-!
PROOF. Divides: their traps, their operation under way, and its result (R60, R117).
-/

namespace Sys2Proof.Machine

/-! Quotient and remainder -/

theorem sign_mul_sign_mul_natAbs_div (x y : Int) : Int.sign x * Int.sign y * ((x.natAbs / y.natAbs : Nat) : Int) = x.tdiv y := by
  have h := Int.sign_mul_natAbs (x.tdiv y)
  rw [Int.sign_tdiv, Int.natAbs_tdiv] at h
  rw [← h]
  split
  · next hlt => rw [Nat.div_eq_of_lt hlt]; simp
  · rfl

theorem quotient_false (x y : Int) : quotient x y false = BitVec.ofInt 64 (x.tdiv y) := by
  rw [quotient, sign_mul_sign_mul_natAbs_div]; rfl

theorem quotient_true (x y : Int) : quotient x y true = BitVec.ofInt 64 (x.tmod y) := by
  rw [quotient, sign_mul_sign_mul_natAbs_div, Int.tmod_def, mul_comm]; rfl

theorem quotient_ofNat_false (m n : Nat) : quotient m n false = BitVec.ofNat 64 (m / n) := by
  rw [quotient_false, ← Int.ofNat_tdiv, BitVec.ofInt_natCast]

theorem quotient_ofNat_true (m n : Nat) : quotient m n true = BitVec.ofNat 64 (m % n) := by
  rw [quotient_true, ← Int.ofNat_tmod, BitVec.ofInt_natCast]

theorem toInt_eq_zero_iff (b : W) : b.toInt = 0 ↔ b = 0 := by
  rw [← BitVec.toInt_zero (w := 64), BitVec.toInt_inj]; rfl

theorem natCast_toNat_eq_zero_iff (b : W) : (b.toNat : Int) = 0 ↔ b = 0 := by
  rw [Int.natCast_eq_zero, ← BitVec.toNat_inj]; rfl

/-! What a divide does -/

/-- A divide does what `State.divide` says with its divisor and its result. -/
theorem exec_of_divideOf {i : Instr} {s : State} {d : BitVec 5} {x y : Int} {r : Bool} (h : divideOf s i = some (d, x, y, r)) (hi : s.issues i = true) :
    ∃ b : W, (y = 0 ↔ b = 0) ∧ exec i s = .next (s.divide i d b (quotient x y r)) := by
  cases i <;> cases h
  case div b a w l => exact ⟨s.g b, toInt_eq_zero_iff _, quotient_false .. ▸ issue_of_issues hi⟩
  case divu b a w l => exact ⟨s.g b, natCast_toNat_eq_zero_iff _, quotient_ofNat_false .. ▸ issue_of_issues hi⟩
  case rem b a w l => exact ⟨s.g b, toInt_eq_zero_iff _, quotient_true .. ▸ issue_of_issues hi⟩
  case remu b a w l => exact ⟨s.g b, natCast_toNat_eq_zero_iff _, quotient_ofNat_true .. ▸ issue_of_issues hi⟩

theorem divideDue_zero {s : State} (i : Instr) (x : W) (hf : s.flow = .next) : s.divideDue i 0 x = s.retires :=
  complete_eq_retires s hf

/-- An operation added with the numbers that the hart is about to give out is put under way. -/
theorem bump_onHart_pend (s : State) {p : Pend} (hid : p.id = s.fresh) (hseq : p.seq = s.hart.nseq) :
    (s.onHart fun h => { h with pend := h.pend ++ [p] }).bump = s.underway p.op p.kind p.dsts p.precise := by
  obtain ⟨id, seq, op, kind, ds, pr⟩ := p
  subst hid hseq
  rw [State.underway, State.onHart_congr s _ _ rfl]
  rfl

theorem divideDue_eq_underway {s : State} (i : Instr) {d : BitVec 5} (x : W) (hd : d ≠ 0) (hf : s.flow = .next) :
    s.divideDue i d x = ((s.emptied (.g d)).underway i (.div d x) [] false).retires := by
  have hq : s.hart.nseq = (s.emptied (.g d)).hart.nseq := by simp [State.emptied]
  rw [State.divideDue, if_neg (by simpa using hd), markEmpty_eq_emptied]
  refine (complete_eq_retires _ (by exact hf)).trans ?_
  rw [bump_onHart_pend _ rfl hq]

/-- The result of a divide reaches its register. -/
theorem exec_divideResult {s : State} {c : CoreId} {h : HartId} {n : Nat} {p : Pend} {d : BitVec 5} {x : W}
    (hp : (s.hartAt c h).pend.find? (fun q => q.id == n) = some p) (hk : p.kind = .div d x) :
    exec (.divideResult c h n) s = .next { (s.onHartAt c h fun k =>
      { k with regs := k.regs.writeG d x, pend := k.pend.filter fun q => q.id != n }) with disp := .occurred } := by
  have hf : s.findPend c h n = some p := hp
  obtain ⟨id, seq, op, kind, ds, pr⟩ := p
  obtain rfl : kind = .div d x := hk
  show execDivideResult c h n s = _
  rw [execDivideResult, hf]
  simp [State.dropPend, State.fill, State.occur, Regs.write]

/-- Settles O3: a divide whose divisor is not zero is `State.divideDue`, and one whose divisor is zero is a fault of execution. -/
theorem dividesCompleteOrTrap : Obligations.DividesCompleteOrTrap := by
  refine ⟨fun i s d x y r h hi hy => ?_, fun i s d x r h hi hs => ?_, fun s c h n p d x => exec_divideResult⟩
  · obtain ⟨b, hb, he⟩ := exec_of_divideOf h hi
    have hd : s.divide i d b (quotient x y r) = s.divideDue i d (quotient x y r) := if_neg (by simpa using fun e => hy (hb.mpr e))
    have hf := flow_of_issues hi
    rw [he, hd]
    exact ⟨fun e => e ▸ congrArg _ (divideDue_zero i _ hf), fun e => congrArg _ (divideDue_eq_underway i _ e hf)⟩
  · obtain ⟨b, hb, he⟩ := exec_of_divideOf h hi
    rw [he, State.divide, if_pos (beq_iff_eq.mpr (hb.mp rfl)), fault_eq_trapped s _ _ _ hs]
    rfl

end Sys2Proof.Machine
end

section
/-!
PROOF. PFX: what a lone one gives is left pending, one in a C slot serves its pair (R64, R65, R68).
-/

namespace Sys2Proof.Machine

theorem complete_of_lone {s : State} (h : s.slot = .lone) : s.complete = s.retire := by
  rw [State.complete, h]; rfl

theorem complete_of_half {s : State} (h : s.slot ≠ .lone) : s.complete = { s with disp := .retired } := if_neg (by simpa using h)

/-- The retirement of a lone PFX moves its hart on by one word, with what it gives left pending. -/
theorem hart_retire_of_pfx {s : State} (hf : s.flow = .pfx) (hl : s.slot = .lone) :
    ∃ pc lo ar, s.retire.hart = s.hart.moved (s.hart.instret + 1) pc lo ar s.hart.pp := by
  have hr : ∃ f, s.retire = { s.onHart f with flow := .next, disp := .retired } ∧
      ∃ pc lo ar, f s.hart = s.hart.moved (s.hart.instret + 1) pc lo ar s.hart.pp := by
    refine ⟨_, rfl, ?_⟩
    rw [hf, hl]
    exact ⟨_, _, _, rfl⟩
  obtain ⟨f, e, hm⟩ := hr
  have hh : s.retire.hart = f s.hart := by rw [e]; exact State.hart_onHart s f
  exact hh ▸ hm

theorem prefixed_of_pending {s : State} (hl : s.slot = .lone) (hp : s.hart.pp = true) : s.prefixed = some s.hart.fields := by
  rw [State.prefixed, hl]
  exact if_pos hp

/-- A lone PFX has made its fields what its hart has pending, and is about to retire (R65, R68). -/
def State.leftPrefix (s : State) (f : BitVec 22) : State := { s.onHart (fun h => { h with pp := true, fields := f }) with flow := .pfx }

theorem State.hart_leftPrefix (s : State) (f : BitVec 22) : (s.leftPrefix f).hart = { s.hart with pp := true, fields := f } :=
  State.hart_onHart s fun h => { h with pp := true, fields := f }

/-- Settles O6: a lone PFX leaves its fields pending across its retirement, one in a C slot has no effect on its hart. -/
theorem prefixStaysPending : Obligations.PrefixStaysPending := by
  intro x c sc p q r f e w l s hi
  have he : exec (.pfx x c sc p q r f e w l) s =
      .next (if s.slot == .lone then (s.leftPrefix (pfxFields x c sc p q r f e)).complete else s.complete) := issue_of_issues hi
  refine ⟨fun hs => ?_, fun hs => ?_⟩
  · rw [he, if_neg (by simpa using hs), complete_of_half hs]
  · have hlone : (s.leftPrefix (pfxFields x c sc p q r f e)).slot = .lone := hs
    obtain ⟨pc, lo, ar, hm⟩ := hart_retire_of_pfx rfl hlone
    rw [State.hart_leftPrefix] at hm
    rw [he, if_pos (by simpa using hs), complete_of_lone hlone]
    refine ⟨_, rfl, rfl, ?_, ?_, prefixed_of_pending hs ?_, ?_, ?_, rfl⟩ <;> rw [hm] <;> rfl

end Sys2Proof.Machine
end

section
/-!
PROOF. Words written out from the manual: each decodes by evaluation of the decoder (R46, R48, R52 to R54).
-/

namespace Sys2Proof.Machine

/-- Settles O56: the decoder evaluated at each word. -/
theorem sampleWordsDecode : Obligations.SampleWordsDecode := by
  refine ⟨?_, ?_, ?_, ?_, ?_, ?_, ?_, ?_, ?_, ?_, ?_, ?_, ?_, ?_, ?_, ?_, ?_, ?_⟩ <;> rfl

end Sys2Proof.Machine
end

section
/-!
PROOF. Nothing stops the machine: every meaning answers a next state, and so does every turn (R56, R71, R94). What differs between the
meanings is only how many branches each has; where one hands on to an operation of several meanings, that one is taken first.
-/

namespace Sys2Proof.Machine

/-- The outcome is a next state. -/
def Answers (o : Out) : Prop := ∃ t, o = .next t

@[simp] theorem answers_next (s : State) : Answers (.next s) := ⟨s, rfl⟩

@[simp] theorem answers_occur (s : State) : Answers s.occur := ⟨_, rfl⟩

@[simp] theorem answers_idle (s : State) : Answers s.idle := ⟨_, rfl⟩

theorem answers_ite (p : Prop) [Decidable p] {x y : Out} (hx : Answers x) (hy : Answers y) : Answers (if p then x else y) := by
  split <;> assumption

theorem answers_getD_map_occur (o : Option State) (s : State) : Answers ((o.map State.occur).getD s.idle) := by
  cases o <;> exact ⟨_, rfl⟩

/-! Operations that several meanings share -/

@[simp] theorem answers_waited (s t : State) : Answers (s.waited t) := answers_ite _ ⟨_, rfl⟩ ⟨_, rfl⟩

@[simp] theorem answers_turnedAway (s : State) (n k : Nat) : Answers (s.turnedAway n k) := by
  fun_cases s.turnedAway n k <;> exact ⟨_, rfl⟩

theorem answers_takeAnswer (s : State) (n k : Nat) {o : Out} (h : Answers o) : Answers (s.takeAnswer n k o) := by
  fun_cases s.takeAnswer n k o <;> simp [h]

@[simp] theorem answers_request (s : State) (n k : Nat) (want : AccKind → Bool) : Answers (s.request n k want) := by
  fun_cases s.request n k want <;> simp

@[simp] theorem answers_answer (s : State) (n k : Nat) (data : Bool) : Answers (s.answer n k data) := by
  fun_cases s.answer n k data
  any_goals exact answers_takeAnswer _ _ _ ⟨_, rfl⟩
  all_goals exact ⟨_, rfl⟩

@[simp] theorem answers_sliceDone (s : State) (n : Nat) : Answers (s.sliceDone n) := by
  fun_cases s.sliceDone n <;> exact ⟨_, rfl⟩

@[simp] theorem answers_movePieces (s : State) (c : Cmd) (p : Piece) : Answers (s.movePieces c p) := by
  fun_cases s.movePieces c p
  any_goals exact answers_waited _ _
  all_goals exact ⟨_, rfl⟩

@[simp] theorem answers_bump1 (s : State) (c : Cmd) (x : Shape) (key i bi : Nat) : Answers (s.bump1 c x key i bi) := by
  fun_cases s.bump1 c x key i bi
  any_goals exact answers_waited _ _
  all_goals exact ⟨_, rfl⟩

@[simp] theorem answers_poll (s : State) (c : CoreId) (h : HartId) (limit : Bool) : Answers (s.poll c h limit) := by
  fun_cases s.poll c h limit <;> exact ⟨_, rfl⟩

@[simp] theorem answers_completeOp (s : State) (c : CoreId) (h : HartId) (moment : Bool) : Answers (s.completeOp c h moment) := by
  fun_cases s.completeOp c h moment <;> exact ⟨_, rfl⟩

/-! Meanings with several branches -/

theorem answers_execInterruptEntry (c : BitVec 12) (h : BitVec 2) (s : State) : Answers (execInterruptEntry c h s) := by
  fun_cases execInterruptEntry c h s <;> exact ⟨_, rfl⟩

theorem answers_execVectorAccept (c : BitVec 12) (s : State) : Answers (execVectorAccept c s) := by
  fun_cases execVectorAccept c s <;> exact ⟨_, rfl⟩

theorem answers_execMomentAccept (c : BitVec 12) (s : State) : Answers (execMomentAccept c s) := by
  fun_cases execMomentAccept c s <;> exact ⟨_, rfl⟩

theorem answers_execDivideResult (c : BitVec 12) (h : BitVec 2) (n : Nat) (s : State) : Answers (execDivideResult c h n s) := by
  fun_cases execDivideResult c h n s <;> exact ⟨_, rfl⟩

theorem answers_execFdivFsqrtResult (c : BitVec 12) (h : BitVec 2) (n : Nat) (s : State) : Answers (execFdivFsqrtResult c h n s) := by
  fun_cases execFdivFsqrtResult c h n s <;> exact ⟨_, rfl⟩

theorem answers_execLocalLoadComplete (c : BitVec 12) (h : BitVec 2) (n : Nat) (s : State) : Answers (execLocalLoadComplete c h n s) := by
  fun_cases execLocalLoadComplete c h n s <;> exact ⟨_, rfl⟩

theorem answers_execTwaitExpiry (c : BitVec 12) (h : BitVec 2) (s : State) : Answers (execTwaitExpiry c h s) := by
  fun_cases execTwaitExpiry c h s <;> exact ⟨_, rfl⟩

theorem answers_execGroupJoinConfirm (c : BitVec 12) (h : BitVec 2) (s : State) : Answers (execGroupJoinConfirm c h s) := by
  fun_cases execGroupJoinConfirm c h s <;> exact ⟨_, rfl⟩

theorem answers_execBarrierEpisodeComplete (g : BitVec 12) (s : State) : Answers (execBarrierEpisodeComplete g s) := by
  fun_cases execBarrierEpisodeComplete g s <;> exact ⟨_, rfl⟩

theorem answers_execLeaseGrant (a : BitVec 7) (s : State) : Answers (execLeaseGrant a s) := by
  fun_cases execLeaseGrant a s <;> exact ⟨_, rfl⟩

theorem answers_execLeaseExpiry (a : BitVec 7) (s : State) : Answers (execLeaseExpiry a s) := by
  fun_cases execLeaseExpiry a s <;> exact ⟨_, rfl⟩

theorem answers_execHartStartCommand (n : Nat) (s : State) : Answers (execHartStartCommand n s) := by
  fun_cases execHartStartCommand n s <;> simp

theorem answers_execHartStopCommand (n : Nat) (s : State) : Answers (execHartStopCommand n s) := by
  fun_cases execHartStopCommand n s <;> simp

theorem answers_execArrayLoadBTile (a : BitVec 7) (s : State) : Answers (execArrayLoadBTile a s) := by
  fun_cases execArrayLoadBTile a s <;> exact ⟨_, rfl⟩

theorem answers_execRunAccept (a : BitVec 7) (s : State) : Answers (execRunAccept a s) := by
  fun_cases execRunAccept a s <;> exact ⟨_, rfl⟩

theorem answers_execArrayRowCompute (a : BitVec 7) (s : State) : Answers (execArrayRowCompute a s) := by
  fun_cases execArrayRowCompute a s
  any_goals exact answers_waited _ _
  any_goals exact answers_ite _ ⟨_, rfl⟩ ⟨_, rfl⟩
  all_goals exact ⟨_, rfl⟩

theorem answers_execMxzeroAccept (a : BitVec 7) (s : State) : Answers (execMxzeroAccept a s) := by
  fun_cases execMxzeroAccept a s <;> exact ⟨_, rfl⟩

theorem answers_execPartialSums (n : Nat) (s : State) : Answers (execPartialSums n s) := by
  fun_cases execPartialSums n s <;> simp

theorem answers_execRunComplete (a : BitVec 7) (s : State) : Answers (execRunComplete a s) := by
  fun_cases execRunComplete a s <;> exact ⟨_, rfl⟩

theorem answers_execAtomicRequest (n k : Nat) (s : State) : Answers (execAtomicRequest n k s) := by
  fun_cases execAtomicRequest n k s <;> simp

theorem answers_execNegativeAcknowledgement (n k : Nat) (s : State) : Answers (execNegativeAcknowledgement n k s) := by
  fun_cases execNegativeAcknowledgement n k s
  any_goals exact answers_takeAnswer _ _ _ (answers_ite _ ⟨_, rfl⟩ ⟨_, rfl⟩)
  all_goals exact ⟨_, rfl⟩

theorem answers_execTicket (n k : Nat) (s : State) : Answers (execTicket n k s) := by
  fun_cases execTicket n k s <;> exact ⟨_, rfl⟩

theorem answers_execReplayNotice (slice : BitVec 6) (num : BitVec 16) (s : State) : Answers (execReplayNotice slice num s) := by
  fun_cases execReplayNotice slice num s <;> exact ⟨_, rfl⟩

theorem answers_execTicketFault (slice : BitVec 6) (num : BitVec 16) (s : State) : Answers (execTicketFault slice num s) := by
  fun_cases execTicketFault slice num s <;> exact ⟨_, rfl⟩

theorem answers_execTicketTimeout (c : BitVec 12) (h : BitVec 2) (s : State) : Answers (execTicketTimeout c h s) := by
  fun_cases execTicketTimeout c h s <;> exact ⟨_, rfl⟩

theorem answers_execTaggedMessage (n : Nat) (s : State) : Answers (execTaggedMessage n s) := by
  fun_cases execTaggedMessage n s <;> simp

theorem answers_execInboxResend (n : Nat) (s : State) : Answers (execInboxResend n s) := by
  fun_cases execInboxResend n s <;> exact ⟨_, rfl⟩

theorem answers_execNextDelivery (c : BitVec 12) (s : State) : Answers (execNextDelivery c s) := by
  fun_cases execNextDelivery c s <;> exact ⟨_, rfl⟩

theorem answers_execHorizonPublish (x : BitVec 16) (s : State) : Answers (execHorizonPublish x s) := by
  fun_cases execHorizonPublish x s <;> exact ⟨_, rfl⟩

theorem answers_execReactionAbort (c : BitVec 12) (n : Nat) (s : State) : Answers (execReactionAbort c n s) := by
  fun_cases execReactionAbort c n s <;> exact ⟨_, rfl⟩

theorem answers_execChannelMessage (n : Nat) (s : State) : Answers (execChannelMessage n s) := by
  fun_cases execChannelMessage n s <;> simp

theorem answers_execChannelHeldResend (n : Nat) (s : State) : Answers (execChannelHeldResend n s) := by
  fun_cases execChannelHeldResend n s <;> exact ⟨_, rfl⟩

theorem answers_execDeqTake (c : BitVec 12) (q : BitVec 5) (s : State) : Answers (execDeqTake c q s) := by
  fun_cases execDeqTake c q s <;> exact ⟨_, rfl⟩

theorem answers_execStreamerCommand (n : Nat) (s : State) : Answers (execStreamerCommand n s) := by
  fun_cases execStreamerCommand n s <;> simp +zetaDelta

theorem answers_execBulkPiece (n k : Nat) (s : State) : Answers (execBulkPiece n k s) := by
  fun_cases execBulkPiece n k s <;> simp

theorem answers_execBinBump (n : Nat) (s : State) : Answers (execBinBump n s) := by
  unfold execBinBump
  split
  · exact ⟨_, rfl⟩
  · split
    · split
      · exact ⟨_, rfl⟩
      · extract_lets
        repeat' split
        any_goals exact answers_waited _ _
        any_goals exact answers_bump1 _ _ _ _ _ _
        all_goals exact ⟨_, rfl⟩
    · exact ⟨_, rfl⟩

theorem answers_execStreamerCommandComplete (n : Nat) (s : State) : Answers (execStreamerCommandComplete n s) := by
  fun_cases execStreamerCommandComplete n s <;> exact ⟨_, rfl⟩

theorem answers_execBatchFinish (c : BitVec 12) (h : BitVec 2) (s : State) : Answers (execBatchFinish c h s) := by
  fun_cases execBatchFinish c h s <;> exact ⟨_, rfl⟩

theorem answers_execStfFlagIncrement (n : Nat) (s : State) : Answers (execStfFlagIncrement n s) := by
  fun_cases execStfFlagIncrement n s <;> simp

theorem answers_execEventRecord (n : Nat) (s : State) : Answers (execEventRecord n s) := by
  fun_cases execEventRecord n s <;> simp

theorem answers_execCollectiveWave (n : Nat) (s : State) : Answers (execCollectiveWave n s) := by
  fun_cases execCollectiveWave n s <;> simp

theorem answers_execMalformedPacket (n : Nat) (s : State) : Answers (execMalformedPacket n s) := by
  fun_cases execMalformedPacket n s <;> exact ⟨_, rfl⟩

theorem answers_execReassemblyTimeout (n : Nat) (s : State) : Answers (execReassemblyTimeout n s) := by
  fun_cases execReassemblyTimeout n s <;> exact ⟨_, rfl⟩

theorem answers_execResendTimeout (n : Nat) (s : State) : Answers (execResendTimeout n s) := by
  fun_cases execResendTimeout n s <;> exact ⟨_, rfl⟩

theorem answers_execResendLimit (n : Nat) (s : State) : Answers (execResendLimit n s) := by
  fun_cases execResendLimit n s <;> exact ⟨_, rfl⟩

theorem answers_execLinkFrame (n : Nat) (k : Bool) (s : State) : Answers (execLinkFrame n k s) := by
  fun_cases execLinkFrame n k s <;> exact ⟨_, rfl⟩

theorem answers_execReachLinkDownTimeout (p : BitVec 3) (s : State) : Answers (execReachLinkDownTimeout p s) := by
  fun_cases execReachLinkDownTimeout p s <;> exact ⟨_, rfl⟩

theorem answers_execSliceWalk (n k : Nat) (s : State) : Answers (execSliceWalk n k s) := by
  fun_cases execSliceWalk n k s <;> simp

theorem answers_execAtsCompletion (n k : Nat) (o : Bool) (a : BitVec 64) (r w : Bool) (z : BitVec 2) (s : State) :
    Answers (execAtsCompletion n k o a r w z s) := by
  fun_cases execAtsCompletion n k o a r w z s <;> simp

theorem answers_execPriPageGroupResponse (slice : BitVec 6) (num : BitVec 16) (o : BitVec 2) (s : State) :
    Answers (execPriPageGroupResponse slice num o s) := by
  fun_cases execPriPageGroupResponse slice num o s <;> exact ⟨_, rfl⟩

theorem answers_execInvalidationCompletion (p : BitVec 20) (v : BitVec 36) (z : BitVec 2) (s : State) :
    Answers (execInvalidationCompletion p v z s) := by
  fun_cases execInvalidationCompletion p v z s <;> exact ⟨_, rfl⟩

theorem answers_execTlbinvDrainComplete (c : BitVec 12) (h : BitVec 2) (s : State) : Answers (execTlbinvDrainComplete c h s) := by
  fun_cases execTlbinvDrainComplete c h s <;> exact ⟨_, rfl⟩

theorem answers_execMemoryServiceTicket (slice : BitVec 6) (num : BitVec 16) (f : BitVec 36) (s : State) :
    Answers (execMemoryServiceTicket slice num f s) := by
  fun_cases execMemoryServiceTicket slice num f s <;> exact ⟨_, rfl⟩

theorem answers_execStackRetirement (k : BitVec 4) (s : State) : Answers (execStackRetirement k s) := by
  fun_cases execStackRetirement k s <;> exact ⟨_, rfl⟩

theorem answers_execDeviceRegisterWrite (c : BitVec 12) (h : BitVec 2) (a : BitVec 48) (z : BitVec 2) (x : BitVec 64) (s : State) :
    Answers (execDeviceRegisterWrite c h a z x s) := by
  fun_cases execDeviceRegisterWrite c h a z x s <;> exact ⟨_, rfl⟩

theorem answers_execUncorrectableError (d : BitVec 3) (c : BitVec 12) (h : BitVec 2) (a : BitVec 64) (k : BitVec 2) (s : State) :
    Answers (execUncorrectableError d c h a k s) := by
  fun_cases execUncorrectableError d c h a k s
  any_goals exact answers_getD_map_occur _ _
  all_goals exact ⟨_, rfl⟩

theorem answers_execCorrectedError (d k : BitVec 3) (c : BitVec 12) (a : BitVec 64) (s : State) : Answers (execCorrectedError d k c a s) := by
  fun_cases execCorrectedError d k c a s
  any_goals exact answers_getD_map_occur _ _
  all_goals exact ⟨_, rfl⟩

theorem answers_execLaunchReplay (x : BitVec 16) (s : State) : Answers (execLaunchReplay x s) := by
  fun_cases execLaunchReplay x s <;> exact ⟨_, rfl⟩

theorem answers_execCoreRetirement (c : BitVec 12) (s : State) : Answers (execCoreRetirement c s) := by
  fun_cases execCoreRetirement c s <;> exact ⟨_, rfl⟩

theorem answers_execPurgeConfirmed (s : State) : Answers (execPurgeConfirmed s) := by
  fun_cases execPurgeConfirmed s <;> simp

theorem answers_execLaunchCheck (q : Nat) (s : State) : Answers (execLaunchCheck q s) := by
  fun_cases execLaunchCheck q s <;> simp

theorem answers_execLaunchBind (n : Nat) (s : State) : Answers (execLaunchBind n s) := by
  fun_cases execLaunchBind n s <;> simp

theorem answers_execLaunchComplete (n : Nat) (s : State) : Answers (execLaunchComplete n s) := by
  fun_cases execLaunchComplete n s <;> simp

theorem answers_execIllegalInstruction (c : BitVec 12) (h : BitVec 2) (s : State) : Answers (execIllegalInstruction c h s) := by
  fun_cases execIllegalInstruction c h s <;> exact ⟨_, rfl⟩

theorem answers_execInstructionFetchFault (c : BitVec 12) (h : BitVec 2) (s : State) : Answers (execInstructionFetchFault c h s) := by
  fun_cases execInstructionFetchFault c h s <;> exact ⟨_, rfl⟩

/-- Every meaning answers a next state. -/
theorem answers_exec (i : Instr) (s : State) : Answers (exec i s) := by
  cases i with
  | interruptEntry c h => exact answers_execInterruptEntry c h s
  | vectorAccept c => exact answers_execVectorAccept c s
  | vectorComplete c h => exact answers_completeOp s c h false
  | momentAccept c => exact answers_execMomentAccept c s
  | momentComplete c h => exact answers_completeOp s c h true
  | divideResult c h n => exact answers_execDivideResult c h n s
  | fdivFsqrtResult c h n => exact answers_execFdivFsqrtResult c h n s
  | localLoadComplete c h n => exact answers_execLocalLoadComplete c h n s
  | waitaPoll c h => exact answers_poll s c h false
  | waitaLimitExpiry c h => exact answers_poll s c h true
  | twaitExpiry c h => exact answers_execTwaitExpiry c h s
  | groupJoinConfirm c h => exact answers_execGroupJoinConfirm c h s
  | barrierEpisodeComplete g => exact answers_execBarrierEpisodeComplete g s
  | leaseGrant a => exact answers_execLeaseGrant a s
  | leaseExpiry a => exact answers_execLeaseExpiry a s
  | hartStartCommand n => exact answers_execHartStartCommand n s
  | hartStopCommand n => exact answers_execHartStopCommand n s
  | arrayLoadBTile a => exact answers_execArrayLoadBTile a s
  | runAccept a => exact answers_execRunAccept a s
  | arrayRowCompute a => exact answers_execArrayRowCompute a s
  | mxzeroAccept a => exact answers_execMxzeroAccept a s
  | partialSums n => exact answers_execPartialSums n s
  | runComplete a => exact answers_execRunComplete a s
  | loadRequest n k => exact answers_request s n k fun x => x == .load
  | storeRequest n k => exact answers_request s n k fun x => x == .store
  | atomicRequest n k => exact answers_execAtomicRequest n k s
  | dataResponse n k => exact answers_answer s n k true
  | acknowledgement n k => exact answers_answer s n k false
  | negativeAcknowledgement n k => exact answers_execNegativeAcknowledgement n k s
  | ticket n k => exact answers_execTicket n k s
  | replayNotice slice num => exact answers_execReplayNotice slice num s
  | ticketFault slice num => exact answers_execTicketFault slice num s
  | ticketTimeout c h => exact answers_execTicketTimeout c h s
  | taggedMessage n => exact answers_execTaggedMessage n s
  | inboxResend n => exact answers_execInboxResend n s
  | nextDelivery c => exact answers_execNextDelivery c s
  | horizonPublish x => exact answers_execHorizonPublish x s
  | reactionAbort c n => exact answers_execReactionAbort c n s
  | channelMessage n => exact answers_execChannelMessage n s
  | channelHeldResend n => exact answers_execChannelHeldResend n s
  | deqTake c q => exact answers_execDeqTake c q s
  | streamerCommand n => exact answers_execStreamerCommand n s
  | bulkPiece n k => exact answers_execBulkPiece n k s
  | binBump n => exact answers_execBinBump n s
  | streamerCommandComplete n => exact answers_execStreamerCommandComplete n s
  | batchFinish c h => exact answers_execBatchFinish c h s
  | stfFlagIncrement n => exact answers_execStfFlagIncrement n s
  | eventRecord n => exact answers_execEventRecord n s
  | collectiveWave n => exact answers_execCollectiveWave n s
  | malformedPacket n => exact answers_execMalformedPacket n s
  | reassemblyTimeout n => exact answers_execReassemblyTimeout n s
  | resendTimeout n => exact answers_execResendTimeout n s
  | resendLimit n => exact answers_execResendLimit n s
  | linkFrame n k => exact answers_execLinkFrame n k s
  | reachLinkDownTimeout p => exact answers_execReachLinkDownTimeout p s
  | sliceWalk n k => exact answers_execSliceWalk n k s
  | atsCompletion n k o a r w z => exact answers_execAtsCompletion n k o a r w z s
  | priPageGroupResponse slice num o => exact answers_execPriPageGroupResponse slice num o s
  | invalidationCompletion p v z => exact answers_execInvalidationCompletion p v z s
  | tlbinvDrainComplete c h => exact answers_execTlbinvDrainComplete c h s
  | memoryServiceTicket slice num f => exact answers_execMemoryServiceTicket slice num f s
  | stackRetirement k => exact answers_execStackRetirement k s
  | deviceRegisterWrite c h a z x => exact answers_execDeviceRegisterWrite c h a z x s
  | uncorrectableError d c h a k => exact answers_execUncorrectableError d c h a k s
  | correctedError d k c a => exact answers_execCorrectedError d k c a s
  | launchReplay x => exact answers_execLaunchReplay x s
  | coreRetirement c => exact answers_execCoreRetirement c s
  | purgeConfirmed => exact answers_execPurgeConfirmed s
  | launchCheck q => exact answers_execLaunchCheck q s
  | launchBind n => exact answers_execLaunchBind n s
  | launchComplete n => exact answers_execLaunchComplete n s
  | illegalInstruction c h => exact answers_execIllegalInstruction c h s
  | instructionFetchFault c h => exact answers_execInstructionFetchFault c h s
  | timeTreeReference | wfiWake | yieldPauseEnd | ticketRewind | reactionAbortRestart | generationComplete | linkRetrain | linkRetrainComplete
    | rpstatTrain | reachTrainingComplete | reachPeerReset | tlbinv | migrationBlockMove | migrationBounce | memcapWrite | hostCxlMemRequest |
    ltbaseWrite | elogbaseWrite | kennelRestart | frameQuarantineScrub | heelcfgGo | heelcfgRel | partitionStopped | recallGo |
    recallFloodArrival | recallSweepEnd | switchtWrite | switchTimeReached | switchDrainDone | spillSweepEnd | resumeReinjectDone |
    powerArbiterRecompute | coldPlateLimit | reachLinkDown => exact answers_ite _ ⟨_, rfl⟩ ⟨_, rfl⟩
  | _ => exact ⟨_, rfl⟩

/-! From the meanings to the step -/

theorem answers_issuePair (s : State) (c : CoreId) (h : HartId) (ic ia : Instr) : Answers (issuePair s c h ic ia) := by
  obtain ⟨x, hx⟩ := answers_exec ic (s.issuing c h .cHalf)
  obtain ⟨y, hy⟩ := answers_exec ia (s.issuingA c h ic)
  obtain ⟨z, hz⟩ := answers_exec ia (s.issuingA c h ic).clearFlags
  rw [issuePair, hx, hy, hz]
  exact ⟨_, rfl⟩

theorem answers_watchFetch (s : State) (c : CoreId) (h : HartId) (n : Nat) {o : Out} (ho : Answers o) : Answers (watchFetch s c h n o) := by
  obtain ⟨t, rfl⟩ := ho
  unfold watchFetch
  refine answers_ite _ ⟨_, rfl⟩ ?_
  split <;> exact ⟨_, rfl⟩

theorem answers_issueHart (s : State) (c : CoreId) (h : HartId) : Answers (issueHart s c h) := by
  refine answers_ite _ (answers_execInterruptEntry c h s) ?_
  split
  next i _ => exact answers_watchFetch _ c h 4 (answers_exec i _)
  next ic ia _ => exact answers_watchFetch _ c h 8 (answers_issuePair _ c h ic ia)
  any_goals exact answers_execIllegalInstruction ..
  any_goals exact answers_execInstructionFetchFault ..
  all_goals exact ⟨_, rfl⟩

theorem answers_coreCycle (s : State) (c : CoreId) : Answers (coreCycle s c).1 := by
  unfold coreCycle
  dsimp only
  split
  · exact ⟨_, rfl⟩
  next h _ =>
    obtain ⟨t, ht⟩ := answers_issueHart (readyOrPaused s c).1 c h
    rw [ht]
    exact ⟨_, rfl⟩

/-- A candidate step that is taken has answered a next state. -/
theorem answers_of_tryWork {s : State} {l : List (State → Out)} {o : Out} (h : tryWork s l = some o) : Answers o := by
  fun_induction tryWork s l with
  | case1 => cases h
  | case2 e t s' he hd => cases h; exact ⟨_, rfl⟩
  | case3 e t s' he hd ih => exact ih h
  | case4 e t he ih => exact ih h

theorem answers_timePasses (s : State) (n : Nat) : Answers (timePasses s n) := answers_ite _ ⟨_, rfl⟩ ⟨_, rfl⟩

theorem answers_packageTurn (n : Nat) (s : State) : Answers (packageTurn n s) := by
  unfold packageTurn
  split
  next r h => exact answers_of_tryWork h
  · split <;> exact answers_timePasses ..

theorem answers_homeTurn (s : State) {idle : State → Out} (h : ∀ t, Answers (idle t)) : Answers (homeTurn s idle) := by
  obtain ⟨t, ht⟩ := answers_coreCycle s s.home
  unfold homeTurn
  dsimp only
  rw [ht]
  exact answers_ite _ ⟨_, rfl⟩ (h t)

theorem answers_defaultTurn (s : State) : Answers (defaultTurn s) :=
  answers_ite _ (answers_packageTurn ..) (answers_homeTurn _ fun _ => answers_packageTurn ..)

theorem answers_turnOf (s : State) : Answers (turnOf s) := by
  unfold turnOf
  split
  · exact answers_ite _ ⟨_, rfl⟩ (answers_coreCycle ..)
  · exact answers_ite _ ⟨_, rfl⟩ (answers_exec ..)
  · exact answers_ite _ (answers_timePasses ..) (answers_defaultTurn s)

theorem answers_step (s : State) : Answers (step s) := by
  obtain ⟨t, ht⟩ := answers_turnOf s
  rw [step, turn, ht]
  exact ⟨_, rfl⟩

/-- Settles O58: every meaning answers a next state, and so does the turn that runs it. -/
theorem nothingStopsTheMachine : Obligations.NothingStopsTheMachine := ⟨answers_exec, answers_step⟩

end Sys2Proof.Machine
end

section
/-!
PROOF. The machine at boot: harts, registers, CSRs and the package after reset (R60, R89, R97, R205, R326, R375).
-/

namespace Sys2Proof.Machine

/-- The state after reset with this hart as the executing one. -/
def atBoot (c : CoreId) (h : HartId) : State := { State.reset with cur := c, curHart := h }

theorem core_reset (c : CoreId) : State.reset.core c = Core.reset c := rfl

theorem hart_reset (c : CoreId) (h : HartId) : (Core.reset c).hart h = Hart.reset c h := by
  match h with
  | 0 | 1 | 2 | 3 => rfl

theorem hartAt_reset (c : CoreId) (h : HartId) : State.reset.hartAt c h = Hart.reset c h := hart_reset c h

theorem hart_atBoot (c : CoreId) (h : HartId) : (atBoot c h).hart = Hart.reset c h := hart_reset c h

theorem cycleOf_atBoot (c : CoreId) (h : HartId) : (atBoot c h).cycleOf c h = 0 := by
  rw [State.cycleOf, show (atBoot c h).hartAt c h = _ from hart_reset c h]; rfl

theorem ltp_reset (c : CoreId) (h : HartId) : (Core.reset c).ltp h = false := by
  simp [Core.ltp, Core.reset, Tags.reset, Tags.lateWaiting]

theorem ipend_atBoot (c : CoreId) (h : HartId) : (atBoot c h).ipend c h = (atBoot 0 0).ipend 0 0 := by
  unfold State.ipend
  rw [show (atBoot c h).core c = _ from core_reset c, show (atBoot 0 0).core 0 = _ from core_reset 0]
  simp only [hart_reset, ltp_reset]
  rfl

theorem hstat_atBoot (c : CoreId) (h : HartId) : (atBoot c h).hstat = if firmwareAtReset c then 3 else 1 := by
  have hl : (atBoot c h).self.ltp (atBoot c h).curHart = false := ltp_reset c h
  unfold State.hstat
  rw [hart_atBoot, hl]
  cases hf : firmwareAtReset c <;> simp [Hart.reset, hf, Loops.reset, bitW]

theorem logUse_atBoot (c d : CoreId) (h i : HartId) : (atBoot c h).logUse d i = 0 := by
  rw [State.logUse, show (atBoot c h).hartAt d i = _ from hart_reset d i]; rfl

theorem mxstat_atBoot (c : CoreId) (h : HartId) : (atBoot c h).mxstat = (atBoot 0 0).mxstat := by
  unfold State.mxstat State.blost
  rw [hart_atBoot, hart_atBoot]
  rfl

theorem csrReadHart_atBoot (c : CoreId) (h : HartId) {n : Nat} (h0 : (n == 0x000) = false) (h1 : (n == 0x001) = false)
    (h13 : (n == 0x013) = false) (h18 : (n == 0x018) = false) : csrReadHart (atBoot c h) n = csrReadHart (atBoot 0 0) n := by
  have hi : (atBoot c h).ipend (atBoot c h).cur (atBoot c h).curHart = _ := ipend_atBoot c h
  have hy : (atBoot c h).cycleOf (atBoot c h).cur (atBoot c h).curHart = 0 := cycleOf_atBoot c h
  have hy' : (atBoot 0 0).cycleOf (atBoot 0 0).cur (atBoot 0 0).curHart = 0 := cycleOf_atBoot 0 0
  unfold csrReadHart
  rw [hart_atBoot, hart_atBoot, h0, h1, h13, h18, hi, hy, hy']
  simp only [Bool.false_eq_true, if_false]
  rfl

theorem csrRead_id_atBoot (c : CoreId) (h : HartId) : (atBoot c h).csrRead 0x001 = (h ++ c).setWidth 64 := by
  simp [State.csrRead, csrReadHart, atBoot]

theorem csrRead_deleg_atBoot (c : CoreId) (h : HartId) : (atBoot c h).csrRead 0x018 = 0 := by
  simp [State.csrRead, csrReadHart, hart_atBoot, Hart.reset, TrapRegs.reset]

theorem csrReadArith_atBoot (c : CoreId) (h : HartId) (n : Nat) : csrReadArith (atBoot c h) n = csrReadArith (atBoot 0 0) n := by
  unfold csrReadArith
  rw [hart_atBoot, hart_atBoot, mxstat_atBoot]
  rfl

theorem csrReadMem_atBoot (c : CoreId) (h : HartId) (n : Nat) : csrReadMem (atBoot c h) n = csrReadMem (atBoot 0 0) n := by
  unfold csrReadMem
  rw [hart_atBoot, hart_atBoot, logUse_atBoot, logUse_atBoot]
  rfl

theorem csrReadTime_atBoot (c : CoreId) (h : HartId) (n : Nat) : csrReadTime (atBoot c h) n = csrReadTime (atBoot 0 0) n := by
  unfold csrReadTime
  rw [hart_atBoot, hart_atBoot]
  rfl

theorem elogOf_atBoot (c : CoreId) (h : HartId) (d : BitVec 2) : (atBoot c h).elogOf d = 0 := Vector.getElem_replicate ..

theorem csrReadSys_atBoot (c : CoreId) (h : HartId) {n : Nat} (hn : (n == 0x384) = false) :
    csrReadSys (atBoot c h) n = csrReadSys (atBoot 0 0) n := by
  unfold csrReadSys
  rw [hart_atBoot, hart_atBoot, hn, elogOf_atBoot, elogOf_atBoot]
  rfl

/-- The CSRs whose value after reset depends on the core or hart that reads them, or that boot sets. -/
def csrsOfPlace : List Nat := [0x000, 0x001, 0x013, 0x018, 0x384]

/-- Every other CSR reads the same for every hart. -/
theorem csrRead_atBoot (c : CoreId) (h : HartId) {n : Nat} (hn : n ∉ csrsOfPlace) : (atBoot c h).csrRead n = (atBoot 0 0).csrRead n := by
  simp only [csrsOfPlace, List.mem_cons, List.not_mem_nil, or_false, not_or] at hn
  obtain ⟨h0, h1, h13, h18, h384⟩ := hn
  unfold State.csrRead
  rw [csrReadHart_atBoot c h (beq_false_of_ne h0) (beq_false_of_ne h1) (beq_false_of_ne h13) (beq_false_of_ne h18),
    csrReadArith_atBoot, csrReadMem_atBoot, csrReadTime_atBoot, csrReadSys_atBoot c h (beq_false_of_ne h384)]

theorem csrAtReset_of_ne (c : CoreId) (h : HartId) {n : Nat} (h0 : n ≠ 0x000) (h1 : n ≠ 0x001) : csrAtReset c h n = csrAtReset 0 0 n := by
  simp [csrAtReset, h0, h1]

/-- For one hart, the map evaluated at every CSR. -/
theorem csrRead_atBoot_zero : ∀ n ∈ csrNumbers, n ∉ csrsOfPlace → (atBoot 0 0).csrRead n = csrAtReset 0 0 n := by
  decide +kernel

theorem csrRead_eq_csrAtReset (c : CoreId) (h : HartId) {n : Nat} (hn : n ∈ csrNumbers) (h13 : n ≠ 0x013) (h384 : n ≠ 0x384) :
    (atBoot c h).csrRead n = csrAtReset c h n := by
  by_cases hp : n ∈ csrsOfPlace
  · simp only [csrsOfPlace, List.mem_cons, List.not_mem_nil, or_false, false_or, h13, h384] at hp
    obtain rfl | rfl | rfl := hp
    · exact hstat_atBoot c h
    · exact csrRead_id_atBoot c h
    · exact csrRead_deleg_atBoot c h
  · have h0 : n ≠ 0x000 := fun e => hp (by simp [e, csrsOfPlace])
    have h1 : n ≠ 0x001 := fun e => hp (by simp [e, csrsOfPlace])
    rw [csrRead_atBoot c h hp, csrRead_atBoot_zero n hn hp, csrAtReset_of_ne c h h0 h1]

theorem readByte_reset (a : Nat) : readByte State.reset.mem a = 0 := rfl

theorem stopped_reset (c : CoreId) (h : HartId) : (Hart.reset c h).stopped = false ↔ h = 0 ∧ c.extractLsb' 0 10 = 31 := by
  simp [Hart.reset, bootHart, and_comm]

/-- A boot hart stands in column 31, and so in M. -/
theorem mode_reset_of_running {c : CoreId} {h : HartId} (hr : (Hart.reset c h).stopped = false) : (Hart.reset c h).mode = 3 := by
  have hc : c.extractLsb' 0 10 = 31#10 := ((stopped_reset c h).mp hr).2
  have hf : firmwareAtReset c = true := by
    have h5 : c.extractLsb' 0 5 = (c.extractLsb' 0 10).extractLsb' 0 5 := by
      apply BitVec.eq_of_getLsbD_eq
      intro i hi
      simp
    rw [firmwareAtReset, h5, hc]; rfl
  exact if_pos hf

theorem readG_reset (d : BitVec 5) : Regs.reset.readG d = 0 := by
  simp [Regs.readG, Regs.reset]

theorem readV_reset (d : BitVec 5) : Regs.reset.readV d = 0 := Vector.getElem_replicate ..

theorem readM_reset (d : BitVec 4) : Regs.reset.readM d = 0 := Vector.getElem_replicate ..

theorem readK_reset (d : BitVec 3) : Regs.reset.readK d = if d = 0 then BitVec.allOnes 64 else 0 := by
  simp [Regs.readK, Regs.reset]

theorem full_reset (r : RegRef) : Regs.reset.full r = true := by
  cases r with
  | g i => simp only [Regs.full, Regs.reset, BitVec.getLsbD_allOnes, decide_eq_true i.isLt, Bool.or_true]
  | v i | m i => simp only [Regs.full, Regs.reset, BitVec.getLsbD_allOnes, decide_eq_true i.isLt]
  | k _ => rfl

theorem unfinished_reset : Batch.reset.unfinished = 0 := by decide

theorem portState_reset (p : BitVec 3) : State.reset.portState p = 0 := Vector.getElem_replicate ..

/-- Settles O60: the state after reset read field by field, and its CSRs against their map. -/
theorem resetLeavesTheMachineAtBoot : Obligations.ResetLeavesTheMachineAtBoot := by
  refine ⟨reset_canonical, readByte_reset, fun c h => ?_, rfl, rfl, rfl, portState_reset, rfl, rfl, rfl, rfl, rfl, rfl⟩
  rw [hartAt_reset]
  exact ⟨stopped_reset c h, mode_reset_of_running, rfl, fun d => ⟨readG_reset d, readV_reset d, full_reset _, full_reset _⟩,
    fun d => ⟨readM_reset d, full_reset _⟩, readK_reset, fun n hn => csrRead_eq_csrAtReset c h hn, rfl, rfl, rfl, rfl, rfl, unfinished_reset⟩

end Sys2Proof.Machine
end

section
/-!
PROOF. Answers reach the registers and the waits of their hart (R60, R217, R249).
-/

namespace Sys2Proof.Machine

/-! What stays of the accesses while an answer is taken in -/

/-- Every access that `t` lists is one of `s` in what its hart and its answers are concerned. -/
def State.listsWithin (t s : State) : Prop :=
  ∀ b ∈ t.net.accs, ∃ a ∈ s.net.accs, b.id = a.id ∧ b.core = a.core ∧ b.hart = a.hart ∧ b.parts = a.parts

theorem listsWithin_of_subset {s t : State} (h : ∀ b ∈ t.net.accs, b ∈ s.net.accs) : t.listsWithin s :=
  fun b hb => ⟨b, h b hb, rfl, rfl, rfl, rfl⟩

theorem State.listsWithin.trans {s t u : State} (h : u.listsWithin t) (g : t.listsWithin s) : u.listsWithin s := by
  intro c hc
  obtain ⟨b, hb, hi, hk, hh, hp⟩ := h c hc
  obtain ⟨a, ha, gi, gk, gh, gp⟩ := g b hb
  exact ⟨a, ha, hi.trans gi, hk.trans gk, hh.trans gh, hp.trans gp⟩

theorem listsWithin_reap (s : State) (c : CoreId) (h : HartId) : (s.reap c h).listsWithin s :=
  listsWithin_of_subset fun _ hb => (List.mem_filter.mp hb).1

theorem listsWithin_landLoad (s : State) (a : Access) (r : OpResult) : (s.landLoad a r).listsWithin s := by
  intro b hb
  obtain ⟨a', ha, rfl⟩ := List.mem_map.mp hb
  refine ⟨a', ha, ?_⟩
  split <;> exact ⟨rfl, rfl, rfl, rfl⟩

@[simp] theorem State.takeResult_net (s : State) (i : Instr) (r : OpResult) : (s.takeResult i r).net = s.net := by
  obtain ⟨f, _, e, -⟩ := takeResult_eq_onHart s i r
  rw [e]
  rfl

@[simp] theorem State.finishWait_net (s : State) (c : CoreId) (h : HartId) (r : OpResult) : (s.finishWait c h r).net = s.net := by
  unfold State.finishWait
  split
  · rfl
  · split
    · rw [State.complete_net, State.takeResult_net]; rfl
    · rfl

/-- What retirement frees leaves the hart as it is but for its log. -/
theorem hartAt_reap (s : State) (c : CoreId) (h : HartId) : ∃ l, (s.reap c h).hartAt c h = { s.hartAt c h with log := l } := by
  obtain ⟨f, v, e, l, hf⟩ : ∃ f v, s.reap c h = { s.onHartAt c h f with net := v } ∧
      ∃ l, f (s.hartAt c h) = { s.hartAt c h with log := l } :=
    ⟨_, _, rfl, _, rfl⟩
  refine ⟨l, ?_⟩
  rw [e]
  exact (State.hartAt_onHartAt_same s c h f).trans hf

theorem untroubled_of_listsWithin {s t : State} {c : CoreId} {h : HartId} (hs : s.untroubled c h) (hl : t.listsWithin s)
    (ht : (t.hartAt c h).tkp = (s.hartAt c h).tkp) : t.untroubled c h := by
  refine ⟨ht.trans hs.1, fun b hb hc hh q hq => ?_⟩
  obtain ⟨a, ha, -, ec, eh, ep⟩ := hl b hb
  exact hs.2 a ha (ec ▸ hc) (eh ▸ hh) q (ep ▸ hq)

theorem confirms_of_listsWithin {s t : State} {n : Nat} (hs : s.confirms n) (hl : t.listsWithin s) : t.confirms n := by
  intro b hb hn
  obtain ⟨a, ha, ei, -, -, ep⟩ := hl b hb
  rw [Access.confirmed, ep]
  exact hs a ha (ei ▸ hn)

theorem oldest_nil_of_untroubled {s : State} {c : CoreId} {h : HartId} (hs : s.untroubled c h) (n : Nat) :
    (s.live c h).filter (fun a => decide (a.seq < n) && a.parts.any fun p => p.stage.stuck) = [] := by
  rw [List.filter_eq_nil_iff]
  intro b hb
  obtain ⟨hm, hlive⟩ := List.mem_filter.mp hb
  simp only [Bool.and_eq_true, beq_iff_eq] at hlive
  obtain ⟨⟨⟨hc, hh⟩, -⟩, -⟩ := hlive
  simpa using fun _ => hs.2 b hm hc hh

/-- A hart with nothing to go back to does not move when an answer settles. -/
theorem settle_of_untroubled {s : State} {c : CoreId} {h : HartId} (hs : s.untroubled c h) : s.settle c h = s := by
  unfold State.settle
  dsimp only
  rw [oldest_nil_of_untroubled hs, oldest]
  dsimp only
  rw [if_pos (by rw [hs.1]; rfl)]

/-! The answer of a part -/

section
variable {s : State} {n k : Nat} {a : Access} {p : Part} {x : BitVec 512}

theorem stageAt_done_parts (hp : a.parts = [p]) (hk : p.n = k) : (a.stageAt k (.done x)).parts = [{ p with stage := .done x }] := by
  simp [Access.stageAt, hp, hk]

/-- The answered part done, every access of its number is confirmed. -/
theorem confirms_stageAt_done (hp : a.parts = [p]) (hk : p.n = k) (hu : ∀ b ∈ s.net.accs, b.id = n → b = a) :
    (s.stageAt n k (.done x)).confirms n := by
  intro b hb hn
  obtain ⟨c, hc, rfl⟩ := List.mem_map.mp hb
  by_cases hi : c.id = n
  · obtain rfl := hu c hc hi
    rw [if_pos (by simpa using hi), Access.confirmed, stageAt_done_parts hp hk]
    rfl
  · rw [if_neg (by simpa using hi)] at hn
    exact absurd hn hi

/-- An answered part that is taken in leaves no access of an untroubled hart held. -/
theorem untroubled_stageAt_done {c : CoreId} {h : HartId} (hs : s.untroubled c h) : (s.stageAt n k (.done x)).untroubled c h := by
  refine ⟨hs.1, fun b hb hc hh q hq => ?_⟩
  obtain ⟨d, hd, rfl⟩ := List.mem_map.mp hb
  split at hq
  · next hi =>
    rw [if_pos hi] at hc hh
    obtain ⟨q', hq', rfl⟩ := List.mem_map.mp hq
    split
    · rfl
    · exact hs.2 d hd hc hh q' hq'
  · next hi =>
    rw [if_neg hi] at hc hh
    exact hs.2 d hd hc hh q hq

theorem takeAnswer_of_ready (hr : s.answerReady n k = true) (t : Out) : s.takeAnswer n k t = t := by
  unfold State.answerReady at hr
  unfold State.takeAnswer
  cases hf : s.flight n k with
  | none => rfl
  | some f =>
    rw [hf] at hr
    dsimp only at hr ⊢
    cases ha : f.answers with
    | nil => rw [ha] at hr; exact if_neg (by simpa using hr)
    | cons b l =>
      rw [ha] at hr
      obtain rfl : b = false := by simpa using hr
      rfl

/-- The answer to the only part of an access: the access is done, and its hart goes on as far as that allows. -/
theorem answer_of_answered (ha : s.acc n = some a) (hp : a.parts = [p]) (hk : p.n = k) (hx : p.stage = .answered x)
    (hr : s.answerReady n k = true) :
    s.answer n k a.op.returnsData =
      (((s.stageAt n k (.done x)).accDone (a.stageAt k (.done x))).settle a.core a.hart).occur := by
  have hpart : a.part k = some p := by simp [Access.part, hp, hk]
  have hdone : partsDone (a.stageAt k (.done x)).parts = true := by rw [stageAt_done_parts hp hk]; rfl
  unfold State.answer
  rw [ha]
  dsimp only
  rw [hpart]
  dsimp only
  rw [hx]
  dsimp only
  rw [if_neg (by simp), if_pos hdone, takeAnswer_of_ready hr]

/-- The answer to the only part of an access of an untroubled hart: `u` is the state once the result has reached the hart. -/
theorem answer_of_accDone {u : State} (ha : s.acc n = some a) (hp : a.parts = [p]) (hk : p.n = k) (hx : p.stage = .answered x)
    (hr : s.answerReady n k = true) (hs : s.untroubled a.core a.hart) (hu : ∀ b ∈ s.net.accs, b.id = n → b = a)
    (he : (s.stageAt n k (.done x)).accDone (a.stageAt k (.done x)) = u.reap a.core a.hart) (hl : u.listsWithin (s.stageAt n k (.done x)))
    (ht : (u.hartAt a.core a.hart).tkp = (s.hartAt a.core a.hart).tkp) :
    ∃ t l, s.answer n k a.op.returnsData = .next t ∧ t.disp = .occurred ∧ t.mem = u.mem ∧
      t.hartAt a.core a.hart = { u.hartAt a.core a.hart with log := l } ∧ t.confirms n := by
  have hw := (listsWithin_reap u a.core a.hart).trans hl
  obtain ⟨l, hh⟩ := hartAt_reap u a.core a.hart
  have hq : (u.reap a.core a.hart).untroubled a.core a.hart :=
    untroubled_of_listsWithin (untroubled_stageAt_done hs) hw (by rw [hh]; exact ht)
  refine ⟨{ u.reap a.core a.hart with disp := .occurred }, l, ?_, rfl, rfl, hh, confirms_of_listsWithin (confirms_stageAt_done hp hk hu) hw⟩
  rw [answer_of_answered ha hp hk hx hr, he, settle_of_untroubled hq]
  rfl

end

/-! Loads, atomics, and accesses without a result -/

theorem signed_eq_signedLow (w x : Nat) : signed w x = signedLow w x := by
  unfold signed signedLow
  split_ifs <;> omega

theorem write_g_setWidth (r : Regs) (d : BitVec 5) (x : W) : r.write (x.setWidth 1024) (.g d) = r.writeG d x := by
  simp [Regs.write]

theorem loadResult_load (lo hi : W) (d : BitVec 5) (sx : Bool) (size : Nat) (x : BitVec 512) :
    loadResult lo hi (.load d sx) size [x] =
      some (.g d, (BitVec.ofInt 64 (if sx then signedLow (8 * size) x.toNat else x.toNat)).setWidth 1024, 0) := by
  cases sx with
  | true => rw [if_pos rfl, ← signed_eq_signedLow]; rfl
  | false => rfl

/-- A load whose part is done lands in its register. -/
theorem accDone_load {s : State} {b : Access} {q : Part} {d : BitVec 5} {sx : Bool} (hop : b.op = .load d sx) (hp : b.parts = [q])
    (hm : b.mute = false) (ho : b.orphan = false) : s.accDone b = (s.landLoad b (oneWrite (.g d)
      ((BitVec.ofInt 64 (if sx then signedLow (8 * q.size) q.value.toNat else q.value.toNat)).setWidth 1024))).reap b.core b.hart := by
  unfold State.accDone
  rw [hm, ho, hop, hp]
  simp only [Bool.false_eq_true, if_false, List.map_cons, List.map_nil, List.head?_cons, Option.map_some, Option.getD_some, loadResult_load]
  rfl

/-- An atomic whose part is done ends the wait for it. -/
theorem accDone_atomic {s : State} {b : Access} {q : Part} {fn : BitVec 5} {r : RegRef} {y : BitVec 512} {cmp : W} (hop : b.op = .atomic fn r y cmp)
    (hp : b.parts = [q]) (hm : b.mute = false) (ho : b.orphan = false) (hw : s.waitsFor b = true) :
    s.accDone b = (s.finishWait b.core b.hart (atomicResult r q.size q.value)).reap b.core b.hart := by
  unfold State.accDone
  rw [hm, ho, hop, hp]
  simp only [Bool.false_eq_true, if_false, hw, if_true]
  rfl

theorem accDone_confirmed {s : State} {b : Access} (hop : b.op = .store ∨ b.op = .vstore ∨ b.op = .message none)
    (hm : b.mute = false) (ho : b.orphan = false) : s.accDone b = s.reap b.core b.hart := by
  unfold State.accDone
  rw [hm, ho]
  rcases hop with h | h | h <;> rw [h] <;> rfl

theorem hartAt_landLoad (s : State) (a : Access) (r : OpResult) :
    (s.landLoad a r).hartAt a.core a.hart = Hart.land r (s.hartAt a.core a.hart) :=
  State.hartAt_onHartAt_same s a.core a.hart (Hart.land r)

theorem tkp_finishWait {s : State} {c : CoreId} {h : HartId} {w : WaitAt} (r : OpResult) (hw : (s.hartAt c h).waitAt = some w) :
    ((s.finishWait c h r).hartAt c h).tkp = (s.hartAt c h).tkp := by
  by_cases hl : w.slot = .lone
  · obtain ⟨l, e⟩ := hartAt_finishWait_lone r hw hl
    rw [e]; rfl
  · rw [hartAt_finishWait_half r hw hl]

/-- What a hart has concluded does not depend on its log. -/
theorem concluded_of_log {s t u : State} {c : CoreId} {h : HartId} {w : WaitAt} {r : OpResult} {l : List LogRec}
    (ht : s.concluded t c h w r) (hu : u.hartAt c h = { t.hartAt c h with log := l }) : s.concluded u c h w r := by
  unfold State.concluded
  rw [hu]
  exact ht

/-- Settles O19: the access is done, its untroubled hart goes on, and its result is a register, the end of a wait, or nothing. -/
theorem answersReachTheirHart : Obligations.AnswersReachTheirHart := by
  intro s n k a p x ha hp hk hx ho hm hr hs hu
  have hq : (a.stageAt k (.done x)).parts = [{ p with stage := .done x }] := stageAt_done_parts hp hk
  refine ⟨fun d sx hop => ?_, fun fn r b cmp w hop hw hat => ?_, fun hop => ?_⟩
  · have hh := hartAt_landLoad (s.stageAt n k (.done x)) (a.stageAt k (.done x))
    obtain ⟨t, l, he, hd, hmem, ht, hc⟩ := answer_of_accDone ha hp hk hx hr hs hu (accDone_load hop hq hm ho) (listsWithin_landLoad _ _ _)
      ((congrArg Hart.tkp (hh _)).trans rfl)
    refine ⟨t, by rw [← he, hop]; rfl, hd, hmem, ?_, hc⟩
    rw [ht, show State.hartAt _ a.core a.hart = _ from hh _]
    exact write_g_setWidth _ d _
  · have hd : (s.stageAt n k (.done x)).concluded _ a.core a.hart w (atomicResult r p.size x) := finishWait_concluded _ hat
    obtain ⟨t, l, he, hocc, -, ht, -⟩ := answer_of_accDone ha hp hk hx hr hs hu (accDone_atomic hop hq hm ho hw)
      (listsWithin_of_subset fun b hb => by simpa using hb) (tkp_finishWait _ hat)
    exact ⟨t, by rw [← he, hop]; rfl, hocc, concluded_of_log hd ht⟩
  · obtain ⟨t, l, he, hd, hmem, ht, hc⟩ := answer_of_accDone ha hp hk hx hr hs hu (accDone_confirmed hop hm ho)
      (listsWithin_of_subset fun _ hb => hb) rfl
    refine ⟨t, ?_, hd, hmem, by rw [ht]; rfl, hc⟩
    rw [← he]
    rcases hop with h | h | h <;> rw [h] <;> rfl

end Sys2Proof.Machine
end

section
/-!
PROOF. A step runs what the bytes at the pc decode to (R46, R47, R50, R94 to R96, R239, R323, R377).
-/

namespace Sys2Proof.Machine

/-! Numbers in memory -/

theorem readNat_succ (m : Memory) (a n : Nat) : readNat m a (n + 1) = (readByte m a).toNat + 256 * readNat m (a + 1) n := rfl

theorem readNat_lt (m : Memory) (a n : Nat) : readNat m a n < 2 ^ (8 * n) := by
  induction n generalizing a with
  | zero => exact Nat.one_pos
  | succ n ih =>
    have hb : (readByte m a).toNat < 256 := (readByte m a).isLt
    have := ih (a + 1)
    rw [readNat_succ, Nat.mul_succ, pow_add]
    omega

theorem readNat_add (m : Memory) (a i n : Nat) : readNat m a (i + n) = readNat m a i + 2 ^ (8 * i) * readNat m (a + i) n := by
  induction i generalizing a with
  | zero => simp [readNat, readBytes, leNat]
  | succ i ih =>
    rw [Nat.add_right_comm, readNat_succ, readNat_succ, ih, Nat.add_right_comm a 1 i, ← Nat.add_assoc a i 1, Nat.mul_succ, pow_add]
    ring

/-- The number in `n` bytes within a longer run of bytes. -/
theorem readNat_window (m : Memory) (a i n r : Nat) :
    readNat m a (i + n + r) / 2 ^ (8 * i) % 2 ^ (8 * n) = readNat m (a + i) n := by
  rw [readNat_add, readNat_add, Nat.mul_add, pow_add, Nat.add_assoc, Nat.mul_assoc, ← Nat.mul_add,
    Nat.add_mul_div_left _ _ (Nat.two_pow_pos _), Nat.div_eq_of_lt (readNat_lt m a i), Nat.zero_add, Nat.add_mul_mod_self_left,
    Nat.mod_eq_of_lt (readNat_lt m (a + i) n)]

theorem toNat_extractLsb'_ofNat {w x : Nat} (h : x < 2 ^ w) (i n : Nat) :
    ((BitVec.ofNat w x).extractLsb' i n).toNat = x / 2 ^ i % 2 ^ n := by
  rw [BitVec.extractLsb'_toNat, BitVec.toNat_ofNat, Nat.mod_eq_of_lt h, Nat.shiftRight_eq_div_pow]

/-- A word at an aligned place of a fetch block is the word of memory there (R239). -/
theorem extract_blockAt {key : Nat} (m : Memory) (h : key % 4 = 0) :
    (blockAt m (key / 64)).bytes.extractLsb' (8 * (key % 64)) 32 = wordAt m key := by
  have hw := readNat_window m (64 * (key / 64)) (key % 64) 4 (64 - (key % 64 + 4))
  rw [Nat.add_sub_cancel' (by omega), Nat.div_add_mod] at hw
  have hlt := readNat_lt m (64 * (key / 64)) 64
  rw [show 8 * 64 = 512 from rfl] at hlt
  rw [show 8 * 4 = 32 from rfl] at hw
  apply BitVec.eq_of_toNat_eq
  rw [blockAt, toNat_extractLsb'_ofNat hlt, wordAt, BitVec.toNat_ofNat, ← hw, Nat.mod_mod]

/-- Four bytes as a word, the least significant first (R46). -/
theorem wordAt_eq_append (m : Memory) (a : Nat) :
    wordAt m a = readByte m (a + 1 + 1 + 1) ++ readByte m (a + 1 + 1) ++ readByte m (a + 1) ++ readByte m a := by
  apply BitVec.eq_of_toNat_eq
  have h0 := (readByte m a).isLt
  have h1 := (readByte m (a + 1)).isLt
  have h2 := (readByte m (a + 1 + 1)).isLt
  have h3 := (readByte m (a + 1 + 1 + 1)).isLt
  simp only [wordAt, readNat, readBytes, leNat, BitVec.toNat_ofNat, BitVec.toNat_append]
  rw [← Nat.shiftLeft_add_eq_or_of_lt h0, ← Nat.shiftLeft_add_eq_or_of_lt h1, ← Nat.shiftLeft_add_eq_or_of_lt h2]
  simp only [Nat.shiftLeft_eq]
  omega

theorem getLsbD_wordAt_zero (m : Memory) (a : Nat) : (wordAt m a).getLsbD 0 = (readByte m a).getLsbD 0 := by
  rw [wordAt_eq_append, BitVec.getLsbD_append]
  rfl

theorem decodeWord_of_decodeBytes {m : Memory} {a : Nat} {i : Instr} (h : decodeBytes (readBytes m a 4) = some (i, [])) :
    decodeWord (wordAt m a) = .instr i := by
  rw [wordAt_eq_append]
  simp only [decodeBytes, readBytes] at h
  split at h
  · next hd => cases h; exact hd
  · cases h

/-! Fetch -/

theorem localKey_mod_four (c : CoreId) {a : Nat} (h : a % 4 = 0) : localKey c a % 4 = 0 := by
  unfold localKey Config.localSize
  omega

/-- No migration reaches a local store (R205, R207). -/
theorem migrationHolds_localKey (cap : Capacity) (c : CoreId) (a : Nat) : migrationHolds cap (localKey c a) = false := by
  have h : ¬ localKey c a < Config.hbmLimit := by
    unfold localKey Config.hbmLimit
    omega
  simp [migrationHolds, h]

/-- A fetch from the hart's own store within its guards is one at its key. -/
theorem fetchWord_loc {s : State} {c : CoreId} {h : HartId} {va : W} (hs : spaceOf va = .loc)
    (hg : guardOk (s.core c).mem.lguard (s.hartAt c h).mode .fetch va.toNat 4 = true) :
    fetchWord s c h va = fetchKey s c h 0 (localKey c va.toNat) := by
  unfold fetchWord
  rw [hs]
  exact if_neg (by rw [show ((s.core c).hart h).mode = (s.hartAt c h).mode from rfl, hg]; decide)

/-- A word in the hart's fetch block is fetched from it. -/
theorem fetchKey_of_block {s : State} {c : CoreId} {h : HartId} {b : Block} {key : Nat} (n : Nat) (hb : (s.hartAt c h).block = some b)
    (hl : b.line = key / 64) : fetchKey s c h n key = .word (b.bytes.extractLsb' (8 * (key % 64)) 32) key := by
  unfold fetchKey
  rw [hb]
  exact if_pos (by rw [hl]; exact beq_self_eq_true _)

/-- A word outside the hart's fetch block is fetched from memory. -/
theorem fetchKey_of_memory {s : State} {c : CoreId} {h : HartId} {key : Nat} (n : Nat) (hb : s.hasBlock c h key = false)
    (hp : poisoned s key 4 = false) (hm : migrationHolds s.cap key = false) : fetchKey s c h n key = .word (wordAt s.mem key) key := by
  unfold State.hasBlock at hb
  unfold fetchKey
  cases hk : (s.hartAt c h).block with
  | none => simp [hp, hm]
  | some b =>
    have hl : (b.line == key / 64) = false := by simpa [hk] using hb
    simp [hl, hp, hm]

theorem atPc_of_word {s : State} {c : CoreId} {h : HartId} {w : Word32} {key : Nat} {i : Instr}
    (hf : fetchWord s c h (s.hartAt c h).pc = .word w key) (hl : w.getLsbD 0 = true) (hd : decodeWord w = .instr i) : atPc s c h = .lone i := by
  unfold atPc
  dsimp only
  rw [hf]
  dsimp only
  rw [if_pos hl, hd]

theorem hasBlock_of_block {s : State} {c : CoreId} {h : HartId} {b : Block} {key : Nat} (hb : (s.hartAt c h).block = some b)
    (hl : b.line = key / 64) : s.hasBlock c h key = true := by
  simp [State.hasBlock, hb, hl]

/-- What stands in the hart's fetch block is what it finds at its pc. -/
theorem atPc_of_block {s : State} {c : CoreId} {h : HartId} {b : Block} {i : Instr} (hs : spaceOf (s.hartAt c h).pc = .loc)
    (hg : guardOk (s.core c).mem.lguard (s.hartAt c h).mode .fetch (s.hartAt c h).pc.toNat 4 = true) (hb : (s.hartAt c h).block = some b)
    (hk : b.line = localKey c (s.hartAt c h).pc.toNat / 64)
    (hd : decodeWord (b.bytes.extractLsb' (8 * (localKey c (s.hartAt c h).pc.toNat % 64)) 32) = .instr i)
    (hl : (b.bytes.extractLsb' (8 * (localKey c (s.hartAt c h).pc.toNat % 64)) 32).getLsbD 0 = true) :
    s.fetched c h = s ∧ atPc s c h = .lone i := by
  have hf : fetchWord s c h (s.hartAt c h).pc = _ := (fetchWord_loc hs hg).trans (fetchKey_of_block 0 hb hk)
  refine ⟨?_, atPc_of_word hf hl hd⟩
  unfold State.fetched
  rw [hf]
  exact if_pos (hasBlock_of_block hb hk)

/-- The line of memory at the pc becomes the fetch block, and the word in it is what stands at the pc. -/
theorem atPc_fetched_of_memory {s : State} {c : CoreId} {h : HartId} {i : Instr} (hs : spaceOf (s.hartAt c h).pc = .loc)
    (ha : (s.hartAt c h).pc.toNat % 4 = 0)
    (hg : guardOk (s.core c).mem.lguard (s.hartAt c h).mode .fetch (s.hartAt c h).pc.toNat 4 = true)
    (hn : s.hasBlock c h (localKey c (s.hartAt c h).pc.toNat) = false) (hp : poisoned s (localKey c (s.hartAt c h).pc.toNat) 4 = false)
    (hd : decodeWord (wordAt s.mem (localKey c (s.hartAt c h).pc.toNat)) = .instr i)
    (hl : (wordAt s.mem (localKey c (s.hartAt c h).pc.toNat)).getLsbD 0 = true) : atPc (s.fetched c h) c h = .lone i := by
  have hk := localKey_mod_four c ha
  have hf := (fetchWord_loc hs hg).trans (fetchKey_of_memory 0 hn hp (migrationHolds_localKey s.cap c _))
  have ht : s.fetched c h = s.onHartAt c h fun x => { x with block := some (blockAt s.mem (localKey c (s.hartAt c h).pc.toNat / 64)) } := by
    unfold State.fetched
    rw [hf]
    exact if_neg (by rw [hn]; decide)
  have hx : (s.fetched c h).hartAt c h = { s.hartAt c h with block := some (blockAt s.mem (localKey c (s.hartAt c h).pc.toNat / 64)) } := by
    rw [ht]
    exact State.hartAt_onHartAt_same s c h _
  have hm : ((s.fetched c h).core c).mem = (s.core c).mem := by
    rw [ht]
    simp [State.onHartAt, Core.setHart]
  refine (atPc_of_block (b := blockAt s.mem (localKey c (s.hartAt c h).pc.toNat / 64)) ?_ ?_ ?_ ?_ ?_ ?_).2 <;> rw [hx]
  · exact hs
  · rw [hm]; exact hg
  · rfl
  · rw [extract_blockAt _ hk, hd]
  · rw [extract_blockAt _ hk, hl]

/-- What a fetch changes of its hart is the block that it holds. -/
theorem hartAt_fetched (s : State) (c : CoreId) (h : HartId) : ∃ b, (s.fetched c h).hartAt c h = { s.hartAt c h with block := b } := by
  unfold State.fetched
  split
  · split
    · exact ⟨(s.hartAt c h).block, rfl⟩
    · exact ⟨_, State.hartAt_onHartAt_same s c h _⟩
  · exact ⟨(s.hartAt c h).block, rfl⟩

/-! The issue slot -/

theorem watchFetch_of_unwatched {s : State} {c : CoreId} {h : HartId} {n : Nat} (r : State)
    (hw : (s.hartAt c h).watched .fetch (s.hartAt c h).pc.toNat n = none) : watchFetch s c h n (.next r) = .next r := by
  unfold watchFetch
  exact if_pos (by simp [hw])

theorem watched_fetched {s : State} {c : CoreId} {h : HartId} {n : Nat} (hw : (s.hartAt c h).watched .fetch (s.hartAt c h).pc.toNat n = none) :
    ((s.fetched c h).hartAt c h).watched .fetch ((s.fetched c h).hartAt c h).pc.toNat n = none := by
  obtain ⟨b, hb⟩ := hartAt_fetched s c h
  rw [hb]
  exact hw

/-- A hart that gets the slot at a lone word executes it (R47, R94). -/
theorem issueHart_of_word {s t : State} {c : CoreId} {h : HartId} {i : Instr} (hs : s.standsAtWord c h i)
    (he : exec i ((s.fetched c h).issuing c h .lone) = .next t) : issueHart s c h = .next t := by
  obtain ⟨hint, hat, hw⟩ := hs
  unfold issueHart
  dsimp only
  rw [hint, hat, if_neg (by decide)]
  dsimp only
  rw [he, watchFetch_of_unwatched t (watched_fetched hw)]

/-- A hart that gets the slot at a pair executes both halves as one (R50). -/
theorem issueHart_of_pair {s x y z : State} {c : CoreId} {h : HartId} {ic ia : Instr} (hint : s.interruptDue c h = false)
    (hat : atPc (s.fetched c h) c h = .pair ic ia) (hw : (s.hartAt c h).watched .fetch (s.hartAt c h).pc.toNat 8 = none)
    (hx : exec ic ((s.fetched c h).issuing c h .cHalf) = .next x) (hy : exec ia ((s.fetched c h).issuingA c h ic) = .next y)
    (hz : exec ia ((s.fetched c h).issuingA c h ic).clearFlags = .next z) :
    issueHart s c h = .next (joinPair (info ia).writes ((s.fetched c h).issuing c h .cHalf) x y z) := by
  have hp : issuePair (s.fetched c h) c h ic ia = .next (joinPair (info ia).writes ((s.fetched c h).issuing c h .cHalf) x y z) := by
    unfold issuePair
    dsimp only
    rw [hx, hy, hz]
  unfold issueHart
  dsimp only
  rw [hint, hat, if_neg (by decide)]
  dsimp only
  rw [hp, watchFetch_of_unwatched _ (watched_fetched hw)]

/-- One hart is tried for the slot: what `readyHarts` does with each in turn. -/
def tryHart (c : CoreId) (a : State × List HartId) (h : HartId) : State × List HartId :=
  if contends a.1 c h then
    match issueHart a.1 c h with
    | .next t => if t.disp == .held then (t, a.2) else (a.1, a.2 ++ [h])
    | _ => (a.1, a.2 ++ [h])
  else a

theorem readyHarts_eq_foldl (s : State) (c : CoreId) : readyHarts s c = hartIds.foldl (tryHart c) (s, []) := rfl

theorem foldl_tryHart_of_idle {s : State} {c : CoreId} (r : List HartId) {l : List HartId} (h : ∀ k ∈ l, contends s c k = false) :
    l.foldl (tryHart c) (s, r) = (s, r) := by
  induction l with
  | nil => rfl
  | cons k l ih =>
    have hk : tryHart c (s, r) k = (s, r) := if_neg (by rw [h k (List.mem_cons_self ..)]; decide)
    rw [List.foldl_cons, hk, ih fun j hj => h j (List.mem_cons_of_mem k hj)]

theorem tryHart_of_ready {s t : State} {c : CoreId} {h : HartId} (r : List HartId) (hc : contends s c h = true) (he : issueHart s c h = .next t)
    (hd : t.disp ≠ .held) : tryHart c (s, r) h = (s, r ++ [h]) := by
  unfold tryHart
  rw [if_pos hc]
  dsimp only
  rw [he]
  exact if_neg (by simpa using hd)

theorem hartIds_split (h : HartId) : ∃ l r, hartIds = l ++ h :: r ∧ (∀ k ∈ l, k ≠ h) ∧ ∀ k ∈ r, k ≠ h := by
  match h with
  | 0 => exact ⟨[], [1, 2, 3], by decide⟩
  | 1 => exact ⟨[0], [2, 3], by decide⟩
  | 2 => exact ⟨[0, 1], [3], by decide⟩
  | 3 => exact ⟨[0, 1, 2], [], by decide⟩

/-- The one hart that contends is the one that is ready. -/
theorem readyHarts_of_sole {s t : State} {c : CoreId} {h : HartId} (hs : s.soleHart c h) (he : issueHart s c h = .next t) (hd : t.disp ≠ .held) :
    readyHarts s c = (s, [h]) := by
  obtain ⟨hc, ho, -⟩ := hs
  obtain ⟨l, r, e, hl, hr⟩ := hartIds_split h
  rw [readyHarts_eq_foldl, e, List.foldl_append, foldl_tryHart_of_idle _ fun k hk => ho k (hl k hk), List.foldl_cons,
    tryHart_of_ready _ hc he hd, foldl_tryHart_of_idle _ fun k hk => ho k (hr k hk), List.nil_append]

theorem readyOrPaused_of_sole {s t : State} {c : CoreId} {h : HartId} (hs : s.soleHart c h) (he : issueHart s c h = .next t) (hd : t.disp ≠ .held) :
    readyOrPaused s c = (s, [h]) := by
  unfold readyOrPaused
  rw [readyHarts_of_sole hs he hd]
  rfl

theorem roundRobin_of_one (h : HartId) (last : Option HartId) : roundRobin [h] last = some h := by
  cases last with
  | none => rfl
  | some p => by_cases hp : p.toNat < h.toNat <;> simp [roundRobin, hp]

/-- The one hart that is ready gets the slot (R95). -/
theorem winner_of_one (k : Core) (h : HartId) : winner k [h] = some h := by
  have hz (n : Nat) : max 0 n = n := Nat.zero_max n
  unfold winner
  by_cases hd : 2 * priorityRank k h ≤ (k.hart h).lost
  · simp [hd]
  · simp [hd, roundRobin_of_one]

/-- The core cycle of a hart that is alone ready (R94 to R96). -/
theorem coreCycle_of_sole {s t : State} {c : CoreId} {h : HartId} (hs : s.soleHart c h) (he : issueHart s c h = .next t) (hd : t.disp ≠ .held) :
    coreCycle s c = (.next (t.cycleEnds c h (s.hartAt c h).prio), true) := by
  unfold coreCycle
  dsimp only
  rw [readyOrPaused_of_sole hs he hd, winner_of_one]
  dsimp only
  rw [he]
  rfl

/-! A turn -/

theorem step_of_turnOf {s t : State} (h : turnOf s = .next t) : step s = .next t.noteFlights := by
  rw [step, turn, h]

/-- A turn of the agenda gives a core its cycle. -/
theorem turnOf_issue {s r : State} {c : CoreId} {l : List Turn} {b : Bool} (ha : s.agenda = .issue c :: l) (hb : s.pkg.boot ≠ .noFirmware)
    (hc : coreCycle { s with agenda := l } c = (.next r, b)) : turnOf s = .next r := by
  unfold turnOf
  rw [ha]
  dsimp only
  rw [if_neg (by simpa using hb), hc]

/-- Without firmware no core gets a cycle (R377). -/
theorem turnOf_issue_of_noFirmware {s : State} {c : CoreId} {l : List Turn} (ha : s.agenda = .issue c :: l) (hb : s.pkg.boot = .noFirmware) :
    turnOf s = .next { s with agenda := l, disp := .idle } := by
  unfold turnOf
  rw [ha]
  dsimp only
  rw [if_pos (by simpa using hb)]
  rfl

/-- An event of the agenda takes place. -/
theorem turnOf_event {s t : State} {e : Instr} {l : List Turn} (ha : s.agenda = .event e :: l)
    (hb : s.pkg.boot ≠ .noFirmware ∨ worksUnbooted e = true) (he : exec e { s with agenda := l } = .next t) : turnOf s = .next t := by
  unfold turnOf
  rw [ha]
  dsimp only
  rw [if_neg, he]
  rcases hb with hb | hb <;> simp [hb]

/-- A turn that no agenda gives is the home core's, when one of its harts gets the slot. -/
theorem turnOf_home {s r : State} (ha : s.agenda = []) (hb : s.pkg.boot ≠ .noFirmware) (hz : s.beat + 1 ≠ 0)
    (hc : coreCycle { s with beat := s.beat + 1 } s.home = (.next r, true)) : turnOf s = .next (passHome r) := by
  unfold turnOf
  rw [ha]
  dsimp only
  rw [if_neg (by simpa using hb)]
  unfold defaultTurn
  dsimp only
  rw [if_neg (by simpa using hz)]
  unfold homeTurn
  dsimp only
  rw [hc]
  rfl

/-! What the interfaces note -/

/-- `t` has the harts, the memory and the accesses of `s`. -/
structure State.SameBut (s t : State) : Prop where
  mem : t.mem = s.mem
  poison : t.poison = s.poison
  accs : t.net.accs = s.net.accs
  harts : ∀ c h, t.hartAt c h = s.hartAt c h

theorem State.SameBut.refl (s : State) : s.SameBut s := ⟨rfl, rfl, rfl, fun _ _ => rfl⟩

theorem State.SameBut.trans {s t u : State} (h : s.SameBut t) (g : t.SameBut u) : s.SameBut u :=
  ⟨g.mem.trans h.mem, g.poison.trans h.poison, g.accs.trans h.accs, fun c k => (g.harts c k).trans (h.harts c k)⟩

theorem sameBut_fabCount (s : State) (c : CoreId) (i : Nat) : s.SameBut (s.fabCount c i) :=
  ⟨rfl, rfl, rfl, fun d h => State.fabCount_hartAt s c d h i⟩

theorem sameBut_countAt (s : State) (f : Flight) (i : Nat) : s.SameBut (s.countAt f i) :=
  ⟨State.countAt_mem .., State.countAt_poison .., by rw [State.countAt_net], State.countAt_hartAt s f i⟩

theorem sameBut_metPacket (s : State) (f : Flight) : s.SameBut (s.metPacket f) := ⟨rfl, rfl, rfl, fun _ _ => rfl⟩

/-- A fold of changes of this kind is one. -/
theorem sameBut_foldl {α : Type} {g : State → α → State} (hg : ∀ (s : State) (x : α), s.SameBut (g s x)) (l : List α) (s : State) :
    s.SameBut (l.foldl g s) := by
  induction l generalizing s with
  | nil => exact .refl s
  | cons x l ih => exact (hg s x).trans (ih (g s x))

theorem sameBut_countCopies (s : State) (f : Flight) : s.SameBut (s.countCopies f) := sameBut_foldl (fun t _ => sameBut_countAt t f _) _ s

theorem sameBut_closeFlight (s : State) (f : Flight) : s.SameBut (s.closeFlight f).1 := by
  unfold State.closeFlight
  split
  · exact .refl s
  · split
    · exact sameBut_countCopies ..
    · exact (sameBut_metPacket s f).trans (sameBut_countCopies ..)
  · split
    · exact sameBut_metPacket s f
    · split
      · exact .refl s
      · split
        · exact .refl s
        · exact sameBut_fabCount ..
        · exact sameBut_countCopies ..

theorem sameBut_openFlight (s : State) (x : Nat × Nat × Packet) : s.SameBut (s.openFlight x) := by
  fun_cases s.openFlight x
  · exact .refl s
  · exact ⟨rfl, rfl, rfl, fun _ _ => rfl⟩

theorem sameBut_closeFlights (s : State) : s.SameBut s.closeFlights := by
  have h (l : List Flight) (x : State × List Flight) (hx : s.SameBut x.1) :
      s.SameBut (l.foldl (fun (x : State × List Flight) f => ((x.1.closeFlight f).1, x.2 ++ (x.1.closeFlight f).2.toList)) x).1 := by
    induction l generalizing x with
    | nil => exact hx
    | cons f l ih => exact ih _ (hx.trans (sameBut_closeFlight x.1 f))
  obtain ⟨hm, hp, ha, hh⟩ := h s.net.flights (s, []) (.refl s)
  exact ⟨hm, hp, ha, hh⟩

/-- After a turn the interfaces note what they know, and nothing else changes (R323). -/
theorem sameBut_noteFlights (s : State) : s.SameBut s.noteFlights :=
  (sameBut_closeFlights s).trans (sameBut_foldl sameBut_openFlight _ _)

/-- Settles O57: the fetch, the issue slot, the turn and the notes behind it, each by the lemmas above. -/
theorem stepRunsTheDecodedInstruction : Obligations.StepRunsTheDecodedInstruction := by
  refine ⟨fun s c h i => ?_, fun s c h ic ia x y z hint hat hw => issueHart_of_pair hint hat hw, fun s t c h i hs hw hb he hd => ?_,
    fun s t e l ha hb he => step_of_turnOf (turnOf_event ha hb he), fun s c l hb ha => step_of_turnOf (turnOf_issue_of_noFirmware ha hb),
    fun s => ?_⟩
  · refine fun hs ha hg => ⟨fun hn hp hd hl => ?_, fun b hb hk hd hl => atPc_of_block hs hg hb hk hd hl⟩
    exact atPc_fetched_of_memory hs ha hg hn hp (decodeWord_of_decodeBytes hd) ((getLsbD_wordAt_zero ..).trans hl)
  · have hc := coreCycle_of_sole hs (issueHart_of_word hw he) hd
    refine ⟨fun z l ha hz => ?_, fun z ha hh hn hz => ?_⟩
    · subst hz
      exact step_of_turnOf (turnOf_issue ha hb hc)
    · subst hz
      subst hh
      exact step_of_turnOf (turnOf_home ha hb hn hc)
  · obtain ⟨hm, hp, ha, hh⟩ := sameBut_noteFlights s
    exact ⟨hm, hp, ha, hh⟩

end Sys2Proof.Machine
end

section
/-!
PROOF. What the memory instructions ask of memory is what the tables of the memory chapter say (R211, R213, R216, R218, R237).
-/

namespace Sys2Proof.Machine

/-! Addresses and data -/

theorem addressFrom_eq (s : State) (a : BitVec 5) (o : BitVec 8) (unit : Nat) :
    addressFrom s a o unit = s.g a + o.signExtend 64 * BitVec.ofNat 64 unit := by
  rw [addressFrom, BitVec.ofInt_add, BitVec.ofInt_toInt, BitVec.ofInt_mul, BitVec.ofInt_natCast]
  rfl

theorem blockAddr_eq (s : State) (a : BitVec 5) (o : BitVec 8) : s.blockAddr a o = addressFrom s a o 64 := (addressFrom_eq s a o 64).symm

theorem indexAddr_eq (s : State) (a x : BitVec 5) :
    s.indexAddr a x = fun i => BitVec.ofInt 64 ((s.g a).toInt + ((s.v x).extractLsb' (32 * i) 32).toInt) := by
  funext i
  have hl : BitVec.ofNat 32 (laneBits (s.v x).toNat 32 i) = (s.v x).extractLsb' (32 * i) 32 := by
    apply BitVec.eq_of_toNat_eq
    rw [BitVec.toNat_ofNat, BitVec.extractLsb'_toNat, Nat.shiftRight_eq_div_pow, laneBits, Nat.mod_mod]
  rw [State.indexAddr, hl, BitVec.ofInt_add, BitVec.ofInt_toInt]
  rfl

theorem setWidth_eq_ofNat {w : Nat} (x : BitVec w) (n : Nat) : x.setWidth n = BitVec.ofNat n x.toNat := by
  apply BitVec.eq_of_toNat_eq
  simp

theorem lowWord_eq (x : W) : (x.setWidth 32).setWidth 512 = BitVec.ofNat 512 (x.toNat % 2 ^ 32) := by
  rw [setWidth_eq_ofNat, BitVec.toNat_setWidth]

theorem scalarAsk_load (s : State) (o : BitVec 8) (r : BitVec 2) (a d : BitVec 5) (size : Nat) (sx : Bool) :
    scalarAsk (.load d sx) .load (s.offsetAddr a o size) size 0 r = loadAsk s o r a d size sx := by
  simp [scalarAsk, loadAsk, State.offsetAddr, addressFrom_eq]

theorem scalarAsk_store (s : State) (o : BitVec 8) (r : BitVec 2) (a d : BitVec 5) {size : Nat} (h : size ≤ 8) :
    scalarAsk .store .store (s.offsetAddr a o size) size (BitVec.ofNat 64 ((s.g d).toNat % 2 ^ (8 * size))) r = storeAsk s o r a d size := by
  have hx : (s.g d).toNat % 2 ^ (8 * size) < 2 ^ 64 :=
    (Nat.mod_lt _ (Nat.two_pow_pos _)).trans_le (Nat.pow_le_pow_right (by decide) (by omega))
  have hk : (AccKind.store == AccKind.load) = false := rfl
  rw [scalarAsk, storeAsk, State.offsetAddr, addressFrom_eq, setWidth_eq_ofNat, BitVec.toNat_ofNat, Nat.mod_eq_of_lt hx, hk, Bool.and_false]

/-! Each instruction's access -/

section
variable {i : Instr} {s : State}

theorem exec_load {d : RegRef} {q : Ask} (h : loadOf s i = some (d, q)) (hi : s.issues i = true) : exec i s = .next (s.access i q) := by
  have hv (u : State) : issue i s (s.preciseOr i u) = .next u := by rw [issue_of_issues hi, preciseOr_of_issues hi]
  have hs (o : BitVec 8) (r : BitVec 2) (a e : BitVec 5) (size : Nat) (sx : Bool) :
      issue i s (s.loadG i o r a e size sx) = .next (s.access i (loadAsk s o r a e size sx)) := by
    rw [issue_of_issues hi, State.loadG, scalarAsk_load]
  cases i <;> cases h
  case ldb | ldh | ldw | ldd | ldbu | ldhu | ldwu => exact hs ..
  case vlds => exact hv _
  case vld o a e w l | vldbc o a e w l => exact (hv _).trans (by rw [blockAddr_eq]; rfl)
  case vldx x a e w l =>
    exact (hv _).trans (by rw [indexAddr_eq]; rfl)

theorem exec_flagStore {q : Ask} (h : flagStoreOf s i = some q) (hi : s.issues i = true) : exec i s = .next (s.access i q) := by
  cases i <;> cases h
  case stfw c b a d w l =>
    refine (issue_of_issues hi).trans ?_
    rw [lowWord_eq]
    rfl
  case stfd c b a d w l =>
    refine (issue_of_issues hi).trans ?_
    rw [setWidth_eq_ofNat]
    rfl
  case stfv => exact issue_of_issues hi

theorem exec_atomic {q : Ask} {f : Nat → Nat} (h : atomicOf s i = some (q, f)) (hi : s.issues i = true) : exec i s = .next (s.access i q) := by
  have hv (u : State) : issue i s (s.preciseOr i u) = .next u := by rw [issue_of_issues hi, preciseOr_of_issues hi]
  have hs (fn : BitVec 5) (r : BitVec 2) (size : Nat) (b a d : BitVec 5) :
      issue i s (s.amo i fn r size b a d) = .next (s.access i (atomicAsk s fn r size b a d)) := by
    refine (hv _).trans ?_
    rw [setWidth_eq_ofNat]; rfl
  cases i <;> cases h
  case avadd | avmax => exact hv _
  all_goals exact hs ..

/-- A vector store that has been made ORs the flags of its conversion into FPSTAT when it retires (R40, R214). -/
def State.storeFlagged (t : State) (fl : BitVec 5) : State :=
  if t.disp == .retired then t.onHart fun h => { h with arith := { h.arith with fpstat := fpOr h.arith.fpstat fl } } else t

/-- `t` is what a memory instruction leaves that has made the access `q`. -/
def State.Accessed (s : State) (i : Instr) (q : Ask) (t : State) : Prop :=
  ∃ u, (u = s ∨ u = s.freed) ∧ (t = u.access i q ∨ ∃ fl, t = (u.access i q).storeFlagged fl)

theorem accessed_self (s : State) (i : Instr) (q : Ask) : s.Accessed i q (s.access i q) := ⟨s, .inl rfl, .inl rfl⟩

/-- A store, whose conversion traps nothing. -/
theorem exec_store {q : Ask} {fl : BitVec 5} (h : storeOf s i = some (q, fl)) (hi : s.issues i = true)
    (hf : s.hart.arith.fpstat.extractLsb' 8 5 &&& fl = 0) : ∃ t, exec i s = .next t ∧ s.Accessed i q t := by
  have hs (o : BitVec 8) (r : BitVec 2) (a d : BitVec 5) (size : Nat) (hz : size ≤ 8) :
      issue i s (s.storeG i o r a d size) = .next (s.access i (storeAsk s o r a d size)) := by
    rw [issue_of_issues hi, State.storeG, scalarAsk_store s o r a d hz]
  have hv (f : VForm) (els : List El) : ∃ t, issue i s (s.vstore i f fl els) = .next t ∧
      s.Accessed i { op := .vstore, els := els, vec := true, plain := false, acq := false } t := by
    rw [issue_of_issues hi, State.vstore, fpTraps_eq_false hf]
    refine ⟨_, rfl, if f.usesFree then s.freed else s, ?_, .inr ⟨fl, rfl⟩⟩
    split
    · exact .inr rfl
    · exact .inl rfl
  cases i <;> cases h
  case stb | sth | stw | std => exact ⟨_, hs _ _ _ _ _ (by decide), accessed_self ..⟩
  case vsts => exact hv _ _
  case vst o a d w l =>
    have he := hv s.storeForm [⟨s.blockAddr a o, s.storeForm.blockBytes,
      BitVec.ofNat 512 (joinEls s.storeForm.memWidth ((s.storeEls s.storeForm (s.v d)).1.map fun y => BitVec.ofNat 512 y)), .store⟩]
    rw [blockStoreAsk, ← blockAddr_eq]
    exact he
  case vstx x a d w l =>
    rw [← indexAddr_eq]
    exact hv _ _

/-- An ordered access whose address is aligned. -/
theorem exec_ordered {q : Ask} (h : orderedOf s i = some q) (hi : s.issues i = true) (ha : ∀ e ∈ q.els, e.va.toNat % e.size = 0) :
    exec i s = .next (s.access i q) := by
  have hl (o : BitVec 8) (a : BitVec 5) (r : RegRef) (size : Nat) : issue i s (s.orderedLoad i o a r size) =
      .next (s.access i (orderedOf.ask (.tload r true s.reactionTag) (addressFrom s a o size) size 0)) := by
    rw [issue_of_issues hi, State.orderedLoad, State.orderedAddr, ← addressFrom_eq]
    rfl
  have hs (o : BitVec 8) (a : BitVec 5) (x : BitVec 512) (size : Nat)
      (hq : (s.reactionTag.map fun t => orderedOf.ask (orderedOf.store s t) (addressFrom s a o size) size x) = some q) :
      issue i s (s.orderedStore i o a x size) = .next (s.access i q) := by
    obtain ⟨⟨t, m, rid⟩, ht, rfl⟩ := Option.map_eq_some_iff.mp hq
    rw [issue_of_issues hi, State.orderedStore, State.orderedAddr, ← addressFrom_eq]
    rw [if_neg (by simpa using ha _ (List.mem_singleton_self _)), ht]
    rfl
  cases i
  case tldw | tldd | tldv => cases h; exact hl ..
  case tstw o a d w l => exact (hs o a _ 4 (by rw [lowWord_eq]; exact h))
  case tstd o a d w l => exact (hs o a _ 8 (by rw [setWidth_eq_ofNat]; exact h))
  case tstv o a d w l => exact (hs o a _ 64 h)
  all_goals cases h

/-- A memory instruction stands in one of the tables. -/
theorem memoryOf_cases {q : Ask} (h : memoryOf s i = some q) : (∃ d, loadOf s i = some (d, q)) ∨ (∃ fl, storeOf s i = some (q, fl)) ∨
    flagStoreOf s i = some q ∨ (∃ f, atomicOf s i = some (q, f)) ∨ orderedOf s i = some q := by
  have ho (x y : Option Ask) (e : (x <|> y) = some q) : x = some q ∨ y = some q := by
    cases x with
    | none => exact .inr e
    | some z => exact .inl e
  rcases ho _ _ h with h | h
  · obtain ⟨⟨d, _⟩, hl, rfl⟩ := Option.map_eq_some_iff.mp h
    exact .inl ⟨d, hl⟩
  rcases ho _ _ h with h | h
  · obtain ⟨⟨_, fl⟩, hs, rfl⟩ := Option.map_eq_some_iff.mp h
    exact .inr (.inl ⟨fl, hs⟩)
  rcases ho _ _ h with h | h
  · exact .inr (.inr (.inl h))
  rcases ho _ _ h with h | h
  · obtain ⟨⟨_, f⟩, hm, rfl⟩ := Option.map_eq_some_iff.mp h
    exact .inr (.inr (.inr (.inl ⟨f, hm⟩)))
  · exact .inr (.inr (.inr (.inr h)))

/-- Every memory instruction makes the access that its tables ask for, if its address is aligned and its conversion traps nothing. -/
theorem exec_of_memoryOf {q : Ask} (h : memoryOf s i = some q) (hi : s.issues i = true) (ha : ∀ e ∈ q.els, e.va.toNat % e.size = 0)
    (hf : ∀ fl, storeOf s i = some (q, fl) → s.hart.arith.fpstat.extractLsb' 8 5 &&& fl = 0) :
    ∃ t, exec i s = .next t ∧ s.Accessed i q t := by
  rcases memoryOf_cases h with ⟨d, hl⟩ | ⟨fl, hs⟩ | hg | ⟨f, hm⟩ | ho
  · exact ⟨_, exec_load hl hi, accessed_self ..⟩
  · exact exec_store hs hi (hf fl hs)
  · exact ⟨_, exec_flagStore hg hi, accessed_self ..⟩
  · exact ⟨_, exec_atomic hm hi, accessed_self ..⟩
  · exact ⟨_, exec_ordered ho hi ha, accessed_self ..⟩

end

end Sys2Proof.Machine
end

section
/-!
PROOF. What the requester finds of the elements of an access, and the parts that it makes of them (R195 to R202, R211, R213).
-/

namespace Sys2Proof.Machine

/-- The memory instructions' accesses: one element of a scalar, a lane atomic or an ordered access, the elements of a vector access, or an STF's two. -/
inductive Ask.Shape (q : Ask) : Prop where
  | load (d : BitVec 5) (sx : Bool) (e : El) (hop : q.op = .load d sx) (hels : q.els = [e])
  | store (e : El) (hop : q.op = .store) (hels : q.els = [e])
  | atomic (fn : BitVec 5) (r : RegRef) (b : BitVec 512) (cmp : W) (e : El) (hop : q.op = .atomic fn r b cmp) (hels : q.els = [e])
  | tload (r : RegRef) (sx : Bool) (tag : Option (W × BitVec 32 × Nat)) (e : El) (hop : q.op = .tload r sx tag) (hels : q.els = [e])
  | tstore (t : W) (m : BitVec 32) (rid : Nat) (cause : BitVec 9) (e : El) (hop : q.op = .tstore t m rid cause) (hels : q.els = [e])
  | vload (d : BitVec 5) (ff tf : BitVec 4) (bc : Bool) (hop : q.op = .vload d ff tf bc) (hels : q.els ≠ [])
  | vstore (hop : q.op = .vstore) (hels : q.els ≠ []) (hkind : ∀ e ∈ q.els, e.kind = .store)
  | stf (e f : El) (hop : q.op = .stf) (hels : q.els = [e, f]) (he : e.kind = .store) (hf : f.kind = .atomic)

theorem lanes_pos (f : VForm) : 0 < f.lanes := by
  have h : f.laneWidth = 16 ∨ f.laneWidth = 32 := by
    unfold VForm.laneWidth tyWidth
    split
    · exact .inr rfl
    · split
      · exact .inl rfl
      · exact .inr rfl
  unfold VForm.lanes
  rcases h with h | h <;> rw [h] <;> decide

theorem gatherAsk_els_ne_nil {f : VForm} {d : BitVec 5} {bc : Bool} {n size : Nat} {at' : Nat → W} (h : 0 < n) :
    (gatherAsk f d bc n size at').els ≠ [] := by
  simpa [gatherAsk] using h.ne'

theorem spreadAsk_shape (f : VForm) {xs : List Nat} (at' : Nat → W) (h : xs ≠ []) : (spreadAsk f xs at').Shape := by
  refine .vstore rfl (by simpa [spreadAsk] using h) fun e he => ?_
  obtain ⟨x, -, rfl⟩ := List.mem_map.mp he
  rfl

theorem storeEls_ne_nil (s : State) (f : VForm) (x : VReg) : (s.storeEls f x).1 ≠ [] := by
  simpa [State.storeEls] using (lanes_pos f).ne'

section
variable {s : State} {i : Instr} {q : Ask}

theorem shape_of_loadOf {d : RegRef} (h : loadOf s i = some (d, q)) : q.Shape := by
  cases i <;> cases h
  case ldb | ldh | ldw | ldd | ldbu | ldhu | ldwu => exact .load _ _ _ rfl rfl
  case vlds => exact .vload _ _ _ _ rfl (gatherAsk_els_ne_nil (lanes_pos _))
  case vldx => exact .vload _ _ _ _ rfl (gatherAsk_els_ne_nil (by decide))
  case vld | vldbc => exact .vload _ _ _ _ rfl (List.cons_ne_nil _ _)

theorem shape_of_storeOf {fl : BitVec 5} (h : storeOf s i = some (q, fl)) : q.Shape := by
  cases i <;> cases h
  case stb | sth | stw | std => exact .store _ rfl rfl
  case vst => exact .vstore rfl (List.cons_ne_nil _ _) fun e he => by rw [List.mem_singleton.mp he]
  all_goals exact spreadAsk_shape _ _ (storeEls_ne_nil _ _ _)

theorem shape_of_flagStoreOf (h : flagStoreOf s i = some q) : q.Shape := by
  cases i <;> cases h
  all_goals exact .stf _ _ rfl rfl rfl rfl

theorem shape_of_atomicOf {f : Nat → Nat} (h : atomicOf s i = some (q, f)) : q.Shape := by
  cases i <;> cases h
  all_goals exact .atomic _ _ _ _ _ rfl rfl

theorem shape_of_orderedOf (h : orderedOf s i = some q) : q.Shape := by
  cases i
  case tldw | tldd | tldv => cases h; exact .tload _ _ _ _ rfl rfl
  case tstw | tstd | tstv => obtain ⟨t, -, rfl⟩ := Option.map_eq_some_iff.mp h; exact .tstore _ _ _ _ _ rfl rfl
  all_goals cases h

theorem shape_of_memoryOf (h : memoryOf s i = some q) : q.Shape := by
  rcases memoryOf_cases h with ⟨d, hl⟩ | ⟨fl, hs⟩ | hg | ⟨f, hm⟩ | ho
  · exact shape_of_loadOf hl
  · exact shape_of_storeOf hs
  · exact shape_of_flagStoreOf hg
  · exact shape_of_atomicOf hm
  · exact shape_of_orderedOf ho

theorem Ask.Shape.els_ne_nil (h : q.Shape) : q.els ≠ [] := by
  cases h with
  | vload _ _ _ _ _ hels => exact hels
  | vstore _ hels => exact hels
  | load _ _ _ _ hels | store _ _ hels | atomic _ _ _ _ _ _ hels | tload _ _ _ _ _ hels | tstore _ _ _ _ _ _ hels | stf _ _ _ hels =>
    rw [hels]
    exact List.cons_ne_nil _ _

/-- An access of one element is local or remote. -/
theorem isLocal_or_isRemote_of_single {e : El} (h : q.els = [e]) : q.isLocal = true ∨ q.isRemote = true := by
  unfold Ask.isLocal Ask.isRemote
  cases hs : spaceOf e.va <;> simp [h, hs]

/-- A remote access has an element, and it lies elsewhere. -/
theorem Ask.Shape.not_isLocal (h : q.Shape) (hr : q.isRemote = true) : q.isLocal = false := by
  obtain ⟨e, l, he⟩ := List.exists_cons_of_ne_nil h.els_ne_nil
  unfold Ask.isRemote at hr
  unfold Ask.isLocal
  rw [he, List.all_cons, Bool.and_eq_true, bne_iff_ne] at hr
  rw [he, List.all_cons, beq_false_of_ne hr.1, Bool.false_and]

end

/-! One element -/

section
variable {s : State} {op : AccOp} {plain : Bool} {e : El} {st : Stage}

theorem aligned_of_reach (h : s.reach op plain e = .go st) : e.va.toNat % e.size = 0 := by
  by_contra hn
  unfold State.reach at h
  rw [if_pos (by simpa using hn)] at h
  cases h

/-- The stage is that of an element in the hart's own store. -/
def Stage.isOwn : Stage → Bool
  | .sent (.own _) => true
  | _ => false

theorem isOwn_eq_false_iff {st : Stage} : st.isOwn = false ↔ ∀ off, st ≠ .sent (.own off) := by
  unfold Stage.isOwn
  split
  · simp
  · next h => simpa using h

theorem isOwn_reachPhys {k : AccKind} {mode page : BitVec 2} {pa : BitVec 48} {size : Nat}
    (h : s.reachPhys op k plain mode pa page size = .go st) : st.isOwn = false := by
  unfold State.reachPhys at h
  split at h
  · cases h
  split at h
  · cases h; rfl
  split at h <;> cases h <;> rfl

theorem isOwn_reachEntry {k : AccKind} {mode : BitVec 2} {t : TlbEntry} {va : W} {size : Nat}
    (h : s.reachEntry op k plain mode t va size = .go st) : st.isOwn = false := by
  unfold State.reachEntry at h
  split at h
  · exact isOwn_reachPhys h
  · cases h

theorem reach_of_loc (h : s.reach op plain e = .go st) (hl : spaceOf e.va = .loc) : st = .sent (.own e.va.toNat) := by
  unfold State.reach at h
  rw [if_neg (by simpa using aligned_of_reach h), hl] at h
  dsimp only at h
  split at h
  · cases h
  split at h
  · cases h
  · cases h; rfl

theorem reach_of_not_loc (h : s.reach op plain e = .go st) (hl : spaceOf e.va ≠ .loc) : st.isOwn = false := by
  unfold State.reach at h
  rw [if_neg (by simpa using aligned_of_reach h)] at h
  cases hv : spaceOf e.va <;> rw [hv] at h <;> dsimp only at h
  case loc => exact absurd hv hl
  case beyond | wild => cases h
  case peer =>
    split at h
    · cases h
    split at h
    · cases h
    · cases h; rfl
  case global =>
    split at h
    · cases h; rfl
    split at h
    · cases h; rfl
    · exact isOwn_reachEntry h

end

/-! The parts -/

section
variable {s : State} {q : Ask}

/-- The part that the requester makes of element `n`. -/
def madePart (s : State) (q : Ask) (e : El) (n : Nat) : Part where
  n := n
  va := e.va
  size := e.size
  data := e.data
  stage := match s.reach q.op q.plain e with
    | .go st => st
    | .stop .. => .undone

theorem makeParts_cons (e : El) (l : List El) (n : Nat) : makeParts s q (e :: l) n = madePart s q e n :: makeParts s q l (n + 1) := rfl

theorem getElem?_makeParts (l : List El) (n j : Nat) : (makeParts s q l n)[j]? = l[j]?.map fun e => madePart s q e (n + j) := by
  induction l generalizing n j with
  | nil => rfl
  | cons e l ih =>
    rw [makeParts_cons]
    cases j with
    | zero => rfl
    | succ j => rw [List.getElem?_cons_succ, List.getElem?_cons_succ, ih, Nat.add_right_comm, Nat.add_assoc]

theorem length_makeParts (l : List El) (n : Nat) : (makeParts s q l n).length = l.length := by
  induction l generalizing n with
  | nil => rfl
  | cons e l ih => rw [makeParts_cons, List.length_cons, ih, List.length_cons]

/-- If no element is refused, each goes somewhere. -/
theorem reach_of_firstStop {l : List El} {n : Nat} (h : firstStop s q l n = none) {e : El} (he : e ∈ l) (m : Nat) :
    s.reach q.op q.plain e = .go (madePart s q e m).stage := by
  induction l generalizing n with
  | nil => cases he
  | cons x l ih =>
    unfold firstStop at h
    split at h
    · cases h
    · next st hst =>
      rcases List.mem_cons.mp he with rfl | he
      · unfold madePart; rw [hst]
      · exact ih h he

theorem isOwn_madePart {e : El} {n : Nat} (h : s.reach q.op q.plain e = .go (madePart s q e n).stage) :
    (madePart s q e n).stage.isOwn = (spaceOf e.va == .loc) := by
  by_cases hl : spaceOf e.va = .loc
  · rw [reach_of_loc h hl, hl]; rfl
  · rw [reach_of_not_loc h hl, beq_false_of_ne hl]

theorem allOwn_eq (ps : List Part) : allOwn ps = ps.all fun p => p.stage.isOwn := rfl

theorem allOwn_makeParts {l : List El} (n : Nat) (h : ∀ e ∈ l, ∃ st, s.reach q.op q.plain e = .go st) :
    allOwn (makeParts s q l n) = l.all fun e => spaceOf e.va == .loc := by
  induction l generalizing n with
  | nil => rfl
  | cons e l ih =>
    have he : s.reach q.op q.plain e = .go (madePart s q e n).stage := by
      obtain ⟨st, hst⟩ := h e List.mem_cons_self
      unfold madePart; rw [hst]
    rw [makeParts_cons, allOwn_eq, List.all_cons, List.all_cons, isOwn_madePart he, ← allOwn_eq, ih (n + 1) fun x hx => h x (List.mem_cons_of_mem _ hx)]

theorem makeParts_congr {u : State} (h : u.reach = s.reach) (l : List El) (n : Nat) : makeParts u q l n = makeParts s q l n := by
  induction l generalizing n with
  | nil => rfl
  | cons e l ih => rw [makeParts_cons, makeParts_cons, ih, madePart, h]; rfl

end

end Sys2Proof.Machine
end

section
/-!
PROOF. A new access that nothing stops at the requester is launched (R212, R245, R249, R252), and how its entry leaves its hart (R60, R130, R217).
-/

namespace Sys2Proof.Machine

/-! A hart that is left as it is -/

@[simp] theorem Core.setHart_hart (k : Core) (h : HartId) : k.setHart h (k.hart h) = k := by
  simp [Core.setHart, Core.hart]

section
variable {s : State} {f : Hart → Hart}

theorem core_onHart_of_eq (h : f s.hart = s.hart) (c : CoreId) : (s.onHart f).core c = s.core c := by
  by_cases hc : c = s.cur
  · subst hc
    exact (State.core_onCore_same s s.cur _).trans ((congrArg _ h).trans (Core.setHart_hart ..))
  · exact State.core_onCore_other s s.cur c _ hc

theorem mem_of_findCore {c : CoreId} {x : Core} {l : List (CoreId × Core)} (h : findCore c l = some x) : (c, x) ∈ l := by
  induction l with
  | nil => cases h
  | cons k l ih =>
    obtain ⟨k, y⟩ := k
    unfold findCore at h
    split at h
    · next hk => cases h; rw [beq_iff_eq.mp hk]; exact List.mem_cons_self
    · exact List.mem_cons_of_mem _ (ih h)

/-- A core that is listed as it stood adds nothing to what holds of some listed core, if that does not hold of it unlisted. -/
theorem any_putCore {p : CoreId × Core → Bool} {c : CoreId} {x : Core} (l : List (CoreId × Core)) (hs : ∀ y, findCore c l = some y → x = y)
    (hn : findCore c l = none → p (c, x) = false) : (putCore c x l).any p = l.any p := by
  induction l with
  | nil => simp [putCore, hn rfl]
  | cons k l ih =>
    obtain ⟨k, y⟩ := k
    unfold findCore at hs hn
    unfold putCore
    by_cases hk : k = c
    · subst hk
      rw [if_pos (beq_self_eq_true k)] at hs ⊢
      rw [hs y rfl]
    · have hb : (k == c) = false := beq_false_of_ne hk
      rw [hb] at hs hn ⊢
      have hi := ih hs hn
      rw [if_neg Bool.false_ne_true]
      split
      · cases hl : findCore c l with
        | none => rw [List.any_cons, hn hl, Bool.false_or]
        | some z =>
          obtain rfl := hs z hl
          have hm : (c, x) ∈ (k, y) :: l := List.mem_cons_of_mem _ (mem_of_findCore hl)
          rw [List.any_cons]
          cases hp : p (c, x) with
          | false => rw [Bool.false_or]
          | true => rw [Bool.true_or, List.any_eq_true.mpr ⟨_, hm, hp⟩]
      · rw [List.any_cons, List.any_cons, hi]

theorem replaying_onHart_of_eq (h : f s.hart = s.hart) (x : BitVec 16) : (s.onHart f).replaying x = s.replaying x := by
  have hc : (s.onHart f).cores = putCore s.cur (s.core s.cur) s.cores := by
    refine congrArg (putCore s.cur · s.cores) ?_
    exact (congrArg _ h).trans (Core.setHart_hart ..)
  unfold State.replaying
  rw [hc]
  refine any_putCore s.cores (fun y hy => by rw [State.core, hy]; rfl) fun hn => ?_
  have hl : (s.unlisted s.cur).sys.lrstat = 0 := by unfold State.unlisted; split <;> rfl
  rw [State.core, hn, Option.getD_none, hl]
  exact Bool.and_false _

theorem reach_onHart_of_eq (h : f s.hart = s.hart) : (s.onHart f).reach = s.reach := by
  funext op plain e
  have hh : (s.onHart f).hart = s.hart := (State.hart_onHart s f).trans h
  have hs : (s.onHart f).self = s.self := core_onHart_of_eq h s.cur
  unfold State.reach State.needsShadow
  simp only [hh, hs, replaying_onHart_of_eq h]
  rfl

end

section
variable {s : State} {q : Ask}

/-! The checks of a new access -/

theorem ownEntry_of_isNew (h : s.isNew = true) : s.ownEntry = none ∧ s.ownRecord = none := by
  simpa [State.isNew] using h

theorem allows_iff : s.allows q = true ↔ firstStop s q q.els 0 = none ∧ watchOn s.hart q 0 = none ∧ watchOn s.hart q 1 = none ∧ s.ownOwed q = false := by
  simp [State.allows, and_assoc]

theorem useSkips_of_allows (h : s.allows q = true) : useSkips s.hart q = s.hart := by
  obtain ⟨-, h0, h1, -⟩ := allows_iff.mp h
  simp [useSkips, Hart.usingSkips, h0, h1]

theorem gate_of_allows (i : Instr) (h : s.allows q = true) : s.gate i q = none := by
  obtain ⟨hf, h0, h1, -⟩ := allows_iff.mp h
  have hw : watchTrap s.hart q = none := by simp [watchTrap, Hart.trapping, h0, h1, joinWatches]
  rw [State.gate, hf, hw]

theorem aligned_of_allows (h : s.allows q = true) : ∀ e ∈ q.els, e.va.toNat % e.size = 0 := by
  obtain ⟨hf, -⟩ := allows_iff.mp h
  exact fun e he => aligned_of_reach (reach_of_firstStop hf he 0)

theorem allOwn_of_allows (h : s.allows q = true) : allOwn (makeParts s q q.els 0) = q.isLocal := by
  obtain ⟨hf, -⟩ := allows_iff.mp h
  exact allOwn_makeParts 0 fun e he => ⟨_, reach_of_firstStop hf he 0⟩

/-- The state in which the parts of an access that nothing stops are performed and sent: no watch is used up. -/
def State.launching (s : State) (q : Ask) : State := s.onHart fun h => useSkips h q

theorem hart_launching (h : s.allows q = true) : (s.launching q).hart = s.hart := (State.hart_onHart s _).trans (useSkips_of_allows h)

/-- A new access that is allowed, with an element elsewhere, is sent with its parts, those in the hart's own store performed. -/
theorem access_eq_sendOut (i : Instr) (hn : s.isNew = true) (ha : s.allows q = true) (hl : q.isLocal = false) (he : s.entryFree = true)
    (hc : s.convertsNow q = true) :
    s.access i q = (performOwn (s.launching q) q.op (makeParts s q q.els 0) true).1.sendOut i q
      (performOwn (s.launching q) q.op (makeParts s q q.els 0) true).2 := by
  obtain ⟨hoe, hor⟩ := ownEntry_of_isNew hn
  obtain ⟨-, -, -, ho⟩ := allows_iff.mp ha
  have hown := (allOwn_of_allows ha).trans hl
  have hm : s.mayConvert q = true := hc
  have hready : s.entryReady = true := by rw [State.entryReady, he, Bool.or_true]
  have hparts : makeParts (s.launching q) q q.els 0 = makeParts s q q.els 0 := makeParts_congr (reach_onHart_of_eq (useSkips_of_allows ha)) _ _
  have hlaunch : s.launch i q = (performOwn (s.launching q) q.op (makeParts s q q.els 0) true).1.sendOut i q
      (performOwn (s.launching q) q.op (makeParts s q q.els 0) true).2 := by
    unfold State.launch
    dsimp only
    rw [show (s.onHart fun h => useSkips h q) = s.launching q from rfl, hparts, hown]
    rfl
  have hattempt : s.attempt i q = s.launch i q := by
    rw [State.attempt, gate_of_allows i ha, ho, hready, hm]
    simp
  rw [State.access, hoe, hor]
  exact hattempt.trans hlaunch

end

/-! The entry -/

/-- The entry that an access takes (R249). -/
def State.newAccess (s : State) (q : Ask) (ps : List Part) : Access where
  id := s.fresh
  core := s.cur
  hart := s.curHart
  seq := s.hart.nseq
  mark := s.hart.resume
  ctx := s.self.mem.ctxid
  agid := s.hart.agid
  mode := s.hart.mode
  op := q.op
  vec := q.vec
  plain := q.plain
  acq := q.acq
  orphan := false
  mute := false
  parts := ps
  frozen := 0
  since := 0

/-- An entry is taken. -/
def State.entered (s : State) (a : Access) : State := State.bump { s with net := { s.net with accs := s.net.accs ++ [a] } }

/-- `t` is what is left after the access `q` has taken the entry `a` with the parts `ps`, with memory at `m`. -/
structure State.SentAs (s : State) (q : Ask) (ps : List Part) (m : Memory) (t : State) (a : Access) : Prop where
  accs : t.net.accs = s.net.accs ++ [a]
  mem : t.mem = m
  nseq : t.hart.nseq = s.hart.nseq + 1
  id : a.id = s.fresh
  core : a.core = s.cur
  hart : a.hart = s.curHart
  seq : a.seq = s.hart.nseq
  pc : a.mark.pc = s.hart.pc
  op : a.op = q.op
  parts : a.parts = ps
  frozen : a.frozen = 0
  orphan : a.orphan = false
  waits : q.op.awaited s.hart = true → t.disp = .waiting ∧ t.hart.wait = .access a.id ∧ t.hart.pc = s.hart.pc
  retires : q.op.awaited s.hart = false → t.disp = .retired
  empties : ∀ r, q.op.dst = some r → t.hart.regs = s.hart.regs.empty r
  keeps : q.op.dst = none → t.hart.regs = s.hart.regs

theorem regs_complete (s : State) : s.complete.hart.regs = s.hart.regs := by
  rcases hart_complete_cases s with h | ⟨n, pc, lo, ar, p, h⟩ <;> rw [h]
  rfl

theorem nseq_complete (s : State) : s.complete.hart.nseq = s.hart.nseq := by
  rcases hart_complete_cases s with h | ⟨n, pc, lo, ar, p, h⟩ <;> rw [h]
  rfl

section
variable {s : State} {q : Ask} {ps : List Part}

section
variable {f : Hart → Hart}

/-- An access that its instruction does not wait for. -/
theorem sentAs_complete (hn : (f s.hart).nseq = s.hart.nseq + 1) (hw : q.op.awaited s.hart = false)
    (he : ∀ r, q.op.dst = some r → (f s.hart).regs = s.hart.regs.empty r) (hk : q.op.dst = none → (f s.hart).regs = s.hart.regs) :
    s.SentAs q ps s.mem ((s.entered (s.newAccess q ps)).onHart f).complete (s.newAccess q ps) := by
  have hh : ((s.entered (s.newAccess q ps)).onHart f).hart = f s.hart := State.hart_onHart ..
  exact {
    accs := by rw [State.complete_net]; rfl
    mem := by rw [State.complete_mem]; rfl
    nseq := by rw [nseq_complete, hh, hn]
    id := rfl, core := rfl, hart := rfl, seq := rfl, pc := rfl, op := rfl, parts := rfl, frozen := rfl, orphan := rfl
    waits := fun h => absurd h (by rw [hw]; decide)
    retires := fun _ => State.complete_disp _
    empties := fun r hr => by rw [regs_complete, hh, he r hr]
    keeps := fun hd => by rw [regs_complete, hh, hk hd] }

/-- An access that its instruction waits for. -/
theorem sentAs_waitIn (i : Instr) (hn : (f s.hart).nseq = s.hart.nseq + 1) (hp : (f s.hart).pc = s.hart.pc) (hw : q.op.awaited s.hart = true)
    (he : ∀ r, q.op.dst = some r → (f s.hart).regs = s.hart.regs.empty r) (hk : q.op.dst = none → (f s.hart).regs = s.hart.regs) :
    s.SentAs q ps s.mem (((s.entered (s.newAccess q ps)).onHart f).waitIn i (.access s.fresh)) (s.newAccess q ps) := by
  have hh : ((s.entered (s.newAccess q ps)).onHart f).hart = f s.hart := State.hart_onHart ..
  exact {
    accs := rfl
    mem := rfl
    nseq := by rw [State.hart_waitIn, hh, ← hn]
    id := rfl, core := rfl, hart := rfl, seq := rfl, pc := rfl, op := rfl, parts := rfl, frozen := rfl, orphan := rfl
    waits := fun _ => ⟨rfl, by rw [State.hart_waitIn]; rfl, by rw [State.hart_waitIn, hh, ← hp]⟩
    retires := fun h => absurd h (by rw [hw]; decide)
    empties := fun r hr => by rw [State.hart_waitIn, hh, ← he r hr]
    keeps := fun hd => by rw [State.hart_waitIn, hh, ← hk hd] }

end

/-- What the log notes of a destination leaves the rest of the hart. -/
theorem logReg_regs (own : Bool) (r : RegRef) (b : Bool) (h : Hart) : (logReg own r b h).regs = h.regs := by
  unfold logReg; split <;> rfl

theorem logReg_nseq (own : Bool) (r : RegRef) (b : Bool) (h : Hart) : (logReg own r b h).nseq = h.nseq := by
  unfold logReg; split <;> rfl

theorem logReg_pc (own : Bool) (r : RegRef) (b : Bool) (h : Hart) : (logReg own r b h).pc = h.pc := by
  unfold logReg; split <;> rfl

/-- A hart's log notes its destination, and the access takes the hart's next number. -/
def Hart.noted (r : RegRef) (h : Hart) : Hart := { logReg true r true h with nseq := h.nseq + 1 }

/-- Besides, the destination becomes empty. -/
def Hart.awaiting (r : RegRef) (h : Hart) : Hart := { logReg true r true h with nseq := h.nseq + 1, regs := h.regs.empty r }

theorem logOwn_numbered (u : State) (r : RegRef) : (u.logOwn r true).numbered = u.onHart (Hart.noted r) := by
  simp only [State.logOwn, State.numbered, State.onHart_onHart, Bool.true_or]
  exact State.onHart_congr _ _ _ (by rw [Hart.noted, logReg_nseq])

theorem logOwn_empty_numbered (u : State) (r : RegRef) :
    ((u.logOwn r true).onHart fun h => { h with regs := h.regs.empty r }).numbered = u.onHart (Hart.awaiting r) := by
  simp only [State.logOwn, State.numbered, State.onHart_onHart, Bool.true_or]
  exact State.onHart_congr _ _ _ (by rw [Hart.awaiting, logReg_nseq, logReg_regs])

section
variable (i : Instr) (hn : s.ownEntry = none)
include hn

theorem sendOut_plain (hop : q.op = .store ∨ q.op = .vstore ∨ q.op = .stf ∨ ∃ t m rid cause, q.op = .tstore t m rid cause) :
    s.sendOut i q ps = ((s.entered (s.newAccess q ps)).onHart fun h => { h with nseq := h.nseq + 1 }).complete := by
  unfold State.ownEntry at hn
  obtain ⟨op, els, vec, plain, acq⟩ := q
  rcases hop with rfl | rfl | rfl | ⟨t, m, rid, cause, rfl⟩
  all_goals
    simp only [State.sendOut, hn]
    rfl

theorem sendOut_atomic {fn : BitVec 5} {r : RegRef} {b : BitVec 512} {cmp : W} (hop : q.op = .atomic fn r b cmp) :
    s.sendOut i q ps = ((s.entered (s.newAccess q ps)).onHart (Hart.noted r)).waitIn i (.access s.fresh) := by
  unfold State.ownEntry at hn
  rw [← logOwn_numbered]
  obtain ⟨op, els, vec, plain, acq⟩ := q
  obtain rfl := hop
  simp only [State.sendOut, hn]
  rfl

theorem sendOut_load {r : RegRef} (hop : (∃ d sx, q.op = .load d sx ∧ r = .g d) ∨ ∃ sx tag, q.op = .tload r sx tag) :
    s.sendOut i q ps = ((s.entered (s.newAccess q ps)).onHart (Hart.awaiting r)).complete := by
  unfold State.ownEntry at hn
  rw [← logOwn_empty_numbered]
  obtain ⟨op, els, vec, plain, acq⟩ := q
  rcases hop with ⟨d, sx, rfl, rfl⟩ | ⟨sx, tag, rfl⟩
  all_goals
    simp only [State.sendOut, hn]
    rfl

theorem sendOut_vload {d : BitVec 5} {ff tf : BitVec 4} {bc : Bool} (hop : q.op = .vload d ff tf bc) :
    s.sendOut i q ps =
      let u := (s.entered (s.newAccess q ps)).onHart (Hart.awaiting (.v d))
      if fpPrecise s.hart.arith.fpstat then u.waitIn i (.access s.fresh) else u.complete := by
  unfold State.ownEntry at hn
  rw [← logOwn_empty_numbered]
  obtain ⟨op, els, vec, plain, acq⟩ := q
  obtain rfl := hop
  simp only [State.sendOut, hn]
  rfl

end

/-- A new access of a memory instruction takes an entry, and its instruction waits for it or retires. -/
theorem sendOut_sentAs (i : Instr) (hs : q.Shape) (hn : s.ownEntry = none) : s.SentAs q ps s.mem (s.sendOut i q ps) (s.newAccess q ps) := by
  have hplain (hop : q.op = .store ∨ q.op = .vstore ∨ q.op = .stf ∨ ∃ t m rid cause, q.op = .tstore t m rid cause) :
      s.SentAs q ps s.mem (s.sendOut i q ps) (s.newAccess q ps) := by
    have hd : q.op.dst = none ∧ q.op.awaited s.hart = false := by
      rcases hop with h | h | h | ⟨t, m, rid, cause, h⟩ <;> rw [h] <;> exact ⟨rfl, rfl⟩
    rw [sendOut_plain i hn hop]
    exact sentAs_complete rfl hd.2 (fun r hr => absurd (hd.1.symm.trans hr) nofun) fun _ => rfl
  have hload (r : RegRef) (hop : (∃ d sx, q.op = .load d sx ∧ r = .g d) ∨ ∃ sx tag, q.op = .tload r sx tag) :
      s.SentAs q ps s.mem (s.sendOut i q ps) (s.newAccess q ps) := by
    have hd : q.op.dst = some r ∧ q.op.awaited s.hart = false := by
      rcases hop with ⟨d, sx, h, rfl⟩ | ⟨sx, tag, h⟩ <;> rw [h] <;> exact ⟨rfl, rfl⟩
    rw [sendOut_load i hn hop]
    exact sentAs_complete rfl hd.2 (fun r' hr => by rw [← Option.some.inj (hd.1.symm.trans hr)]; rfl) fun h => absurd (hd.1.symm.trans h) nofun
  cases hs with
  | load d sx e hop => exact hload _ (.inl ⟨d, sx, hop, rfl⟩)
  | tload r sx tag e hop => exact hload r (.inr ⟨sx, tag, hop⟩)
  | store e hop => exact hplain (.inl hop)
  | vstore hop => exact hplain (.inr (.inl hop))
  | stf e f hop => exact hplain (.inr (.inr (.inl hop)))
  | tstore t m rid cause e hop => exact hplain (.inr (.inr (.inr ⟨t, m, rid, cause, hop⟩)))
  | atomic fn r b cmp e hop =>
    rw [sendOut_atomic i hn hop]
    have hd : q.op.dst = none ∧ q.op.awaited s.hart = true := by rw [hop]; exact ⟨rfl, rfl⟩
    exact sentAs_waitIn i rfl (logReg_pc ..) hd.2 (fun r hr => absurd (hd.1.symm.trans hr) nofun) fun _ => logReg_regs ..
  | vload d ff tf bc hop =>
    have hd : q.op.dst = some (.v d) := by rw [hop]; rfl
    have hw : q.op.awaited s.hart = fpPrecise s.hart.arith.fpstat := by rw [hop]; rfl
    have he (r : RegRef) (hr : q.op.dst = some r) : (s.hart.awaiting (.v d)).regs = s.hart.regs.empty r := by
      rw [← Option.some.inj (hd.symm.trans hr)]; rfl
    have hk (h : q.op.dst = none) : (s.hart.awaiting (.v d)).regs = s.hart.regs := absurd (hd.symm.trans h) nofun
    rw [sendOut_vload i hn hop]
    dsimp only
    split
    · next h => exact sentAs_waitIn i rfl (logReg_pc ..) (hw.trans h) he hk
    · next h => exact sentAs_complete rfl (hw.trans (Bool.eq_false_of_not_eq_true h)) he hk

end

end Sys2Proof.Machine
end

section
/-!
PROOF. What the parts of an access in its hart's own store read and write when it issues (R212, R213, R217, R218).
-/

namespace Sys2Proof.Machine

/-! Bytes -/

theorem bytesValue_eq_readNat (m : Memory) (key n : Nat) : bytesValue m key n = readNat m key n := by
  induction n generalizing key with
  | zero => rfl
  | succ n ih => rw [bytesValue, ih]; rfl

theorem getElem_natLe {n x j : Nat} (h : j < (natLe n x).length) : (natLe n x)[j] = BitVec.ofNat 8 (x / 2 ^ (8 * j)) := by
  induction n generalizing x j with
  | zero => cases h
  | succ n ih =>
    cases j with
    | zero => simp [natLe]
    | succ j =>
      have hp : 2 ^ (8 * (j + 1)) = 256 * 2 ^ (8 * j) := by rw [Nat.mul_add, Nat.pow_add, Nat.mul_comm]
      simp only [natLe, List.getElem_cons_succ]
      rw [ih, Nat.div_div_eq_div_mul, hp]

/-- A byte after a number has been written: of the number inside its range, as before elsewhere. -/
theorem readByte_storeBytes_natLe {s : State} (hs : s.Canonical) (key size x a : Nat) :
    readByte (storeBytes s key (natLe size x)).mem a =
      if key ≤ a ∧ a < key + size then BitVec.ofNat 8 (x / 2 ^ (8 * (a - key))) else readByte s.mem a := by
  split
  · next h =>
    have hlt : a - key < (natLe size x).length := by rw [length_natLe]; omega
    have hr := readByte_writeBytes_same (a := key) hlt hs
    rw [Nat.add_sub_cancel' h.1, getElem_natLe] at hr
    exact hr
  · next h => exact readByte_writeBytes_other (by rw [length_natLe]; omega) hs

/-- `storedByte` from a byte that is known before the elements. -/
def storedOver (c : CoreId) (a : Nat) (els : List El) (r : Option Byte) : Option Byte :=
  els.foldl (fun r e => if localKey c e.va.toNat ≤ a ∧ a < localKey c e.va.toNat + e.size then
    some (BitVec.ofNat 8 (e.data.toNat / 2 ^ (8 * (a - localKey c e.va.toNat)))) else r) r

theorem storedByte_eq (c : CoreId) (els : List El) (a : Nat) : storedByte c els a = storedOver c a els none := rfl

theorem storedOver_cons (c : CoreId) (a : Nat) (e : El) (l : List El) (r : Option Byte) :
    storedOver c a (e :: l) r = storedOver c a l (if localKey c e.va.toNat ≤ a ∧ a < localKey c e.va.toNat + e.size then
      some (BitVec.ofNat 8 (e.data.toNat / 2 ^ (8 * (a - localKey c e.va.toNat)))) else r) := rfl

/-! The parts in the hart's own store -/

theorem exists_of_isOwn {st : Stage} (h : st.isOwn = true) : ∃ off, st = .sent (.own off) := by
  unfold Stage.isOwn at h
  split at h
  · next off => exact ⟨off, rfl⟩
  · cases h

section
variable {s : State} {op : AccOp} {p : Part} {ps : List Part} {b : Bool}

/-- A part in the hart's own store is performed, unless it is the flag of an STF whose data go elsewhere. -/
theorem performOwn_own {off : Nat} (h : p.stage = .sent (.own off)) (hf : (op == .stf && !b) = false) :
    performOwn s op (p :: ps) b =
      let x := s.perform op p.n (localKey s.cur off) p.size p.data
      ((performOwn x.1 op ps b).1, { p with stage := .done x.2 } :: (performOwn x.1 op ps b).2) := by
  rw [performOwn, h]
  dsimp only
  rw [hf]
  rfl

theorem performOwn_flag {off : Nat} (h : p.stage = .sent (.own off)) :
    performOwn s .stf (p :: ps) false = ((performOwn s .stf ps false).1, p :: (performOwn s .stf ps false).2) := by
  rw [performOwn, h]
  rfl

theorem performOwn_elsewhere (h : p.stage.isOwn = false) :
    performOwn s op (p :: ps) b = ((performOwn s op ps false).1, p :: (performOwn s op ps false).2) := by
  rw [performOwn]
  split
  · next off ho => exact absurd ho (isOwn_eq_false_iff.mp h off)
  · rfl

/-- Parts that all lie elsewhere stay as they are. -/
theorem performOwn_remote (h : ∀ p ∈ ps, p.stage.isOwn = false) : performOwn s op ps b = (s, ps) := by
  induction ps generalizing b with
  | nil => rfl
  | cons p ps ih => rw [performOwn_elsewhere (h p List.mem_cons_self), ih fun x hx => h x (List.mem_cons_of_mem _ hx)]

end

/-- The states differ in memory and in the lines that it poisons alone. -/
def State.SameButMemory (s t : State) : Prop := t = { s with mem := t.mem, poison := t.poison }

theorem sameButMemory_perform (s : State) (op : AccOp) (n key size : Nat) (x : BitVec 512) : s.SameButMemory (s.perform op n key size x).1 := by
  unfold State.perform
  split <;> rfl

/-- What becomes of a part when the own parts are performed: nothing, or, of one in the hart's own store, that it is done. -/
def Part.Served (p p' : Part) : Prop := p' = p ∨ (p.stage.isOwn = true ∧ ∃ x, p' = { p with stage := .done x })

theorem performOwn_served (s : State) (op : AccOp) (ps : List Part) (b : Bool) :
    s.SameButMemory (performOwn s op ps b).1 ∧ List.Forall₂ Part.Served ps (performOwn s op ps b).2 := by
  induction ps generalizing s b with
  | nil => exact ⟨rfl, .nil⟩
  | cons p ps ih =>
    cases ho : p.stage.isOwn with
    | false =>
      rw [performOwn_elsewhere ho]
      exact ⟨(ih s false).1, .cons (.inl rfl) (ih s false).2⟩
    | true =>
      obtain ⟨off, hoff⟩ := exists_of_isOwn ho
      cases hf : (op == .stf && !b) with
      | true =>
        obtain ⟨hop, hb⟩ := Bool.and_eq_true_iff.mp hf
        obtain rfl : op = .stf := eq_of_beq hop
        obtain rfl : b = false := by simpa using hb
        rw [performOwn_flag hoff]
        exact ⟨(ih s false).1, .cons (.inl rfl) (ih s false).2⟩
      | false =>
        rw [performOwn_own hoff hf]
        obtain ⟨hm, hp⟩ := ih (s.perform op p.n (localKey s.cur off) p.size p.data).1 b
        refine ⟨?_, .cons (.inr ⟨ho, _, rfl⟩) hp⟩
        have h1 := sameButMemory_perform s op p.n (localKey s.cur off) p.size p.data
        unfold State.SameButMemory at hm h1 ⊢
        rw [hm, h1]

/-! Loads -/

/-- A part as a vector load has it sent: one in the hart's own store has been read. -/
def Part.read (s : State) (p : Part) : Part :=
  match p.stage with
  | .sent (.own off) => { p with stage := .done (s.bytesAt (localKey s.cur off) p.size) }
  | _ => p

theorem Part.read_own {s : State} {p : Part} {off : Nat} (h : p.stage = .sent (.own off)) :
    p.read s = { p with stage := .done (s.bytesAt (localKey s.cur off) p.size) } := by
  unfold Part.read
  rw [h]

theorem Part.read_elsewhere {s : State} {p : Part} (h : p.stage.isOwn = false) : p.read s = p := by
  unfold Part.read
  split
  · next off ho => exact absurd ho (isOwn_eq_false_iff.mp h off)
  · rfl

theorem performOwn_vload {s : State} {d : BitVec 5} {ff tf : BitVec 4} {bc : Bool} (ps : List Part) (b : Bool) :
    performOwn s (.vload d ff tf bc) ps b = (s, ps.map (Part.read s)) := by
  induction ps generalizing b with
  | nil => rfl
  | cons p ps ih =>
    cases ho : p.stage.isOwn with
    | false => rw [performOwn_elsewhere ho, ih, List.map_cons, Part.read_elsewhere ho]
    | true =>
      obtain ⟨off, hoff⟩ := exists_of_isOwn ho
      rw [performOwn_own hoff rfl, List.map_cons, Part.read_own hoff]
      show ((performOwn s _ ps b).1, _ :: (performOwn s _ ps b).2) = _
      rw [ih]
      rfl

/-! Stores -/

/-- The elements of an access that store in the hart's own store. -/
def localStores (l : List El) : List El := l.filter fun e => spaceOf e.va == .loc && e.kind == .store

theorem localStores_cons_pos {e : El} (l : List El) (hl : spaceOf e.va = .loc) (hk : e.kind = .store) : localStores (e :: l) = e :: localStores l :=
  List.filter_cons_of_pos (by rw [hl, hk]; rfl)

theorem localStores_cons_neg {e : El} (l : List El) (h : spaceOf e.va ≠ .loc ∨ e.kind ≠ .store) : localStores (e :: l) = localStores l := by
  refine List.filter_cons_of_neg ?_
  rw [Bool.and_eq_true, beq_iff_eq, beq_iff_eq]
  tauto

section
variable {s u : State} {q : Ask}

/-- A stored element: its bytes are over what was known of the byte before. -/
theorem readByte_perform_store {op : AccOp} {n : Nat} (hs : s.Canonical) (hp : op.partKind n = .store) (e : El) (a : Nat) {r : Option Byte} {y : Byte}
    (hy : readByte s.mem a = r.getD y) :
    readByte (s.perform op n (localKey s.cur e.va.toNat) e.size e.data).1.mem a = (storedOver s.cur a [e] r).getD y := by
  have hx : (s.perform op n (localKey s.cur e.va.toNat) e.size e.data).1 = storeBytes s (localKey s.cur e.va.toNat) (natLe e.size e.data.toNat) := by
    unfold State.perform
    rw [hp]
  rw [hx, readByte_storeBytes_natLe hs, storedOver_cons]
  split
  · rfl
  · exact hy

theorem perform_canonical {op : AccOp} {n key size : Nat} {x : BitVec 512} (hs : s.Canonical) : (s.perform op n key size x).1.Canonical := by
  unfold State.perform
  split
  · exact hs
  · exact hs
  · exact storeBytes_canonical hs
  · exact storeBytes_canonical hs

theorem stage_madePart {e : El} (h : ∃ st, u.reach q.op q.plain e = .go st) (n : Nat) : u.reach q.op q.plain e = .go (madePart u q e n).stage := by
  obtain ⟨st, hst⟩ := h
  unfold madePart
  rw [hst]

/-- A vector store that issues has stored its elements in the hart's own store, in ascending order. -/
theorem readByte_performOwn_vstore (hs : s.Canonical) (l : List El) (n : Nat) (b : Bool) (a : Nat) {r : Option Byte} {y : Byte}
    (hgo : ∀ e ∈ l, ∃ st, u.reach q.op q.plain e = .go st) (hk : ∀ e ∈ l, e.kind = .store) (hy : readByte s.mem a = r.getD y) :
    readByte (performOwn s .vstore (makeParts u q l n) b).1.mem a = (storedOver s.cur a (localStores l) r).getD y := by
  induction l generalizing s n b r with
  | nil => exact hy
  | cons e l ih =>
    have hgo' (x : El) (hx : x ∈ l) := hgo x (List.mem_cons_of_mem _ hx)
    have hk' (x : El) (hx : x ∈ l) := hk x (List.mem_cons_of_mem _ hx)
    have hst := stage_madePart (hgo e List.mem_cons_self) n
    rw [makeParts_cons]
    by_cases hl : spaceOf e.va = .loc
    · rw [performOwn_own (reach_of_loc hst hl) rfl, localStores_cons_pos l hl (hk e List.mem_cons_self)]
      exact ih (perform_canonical hs) (n + 1) b hgo' hk' (readByte_perform_store hs rfl e a hy)
    · rw [performOwn_elsewhere (reach_of_not_loc hst hl), localStores_cons_neg l (.inl hl)]
      exact ih hs (n + 1) false hgo' hk' hy

/-- An STF that issues with its flag or its data elsewhere has stored its data if they lie in the hart's own store, and no flag. -/
theorem readByte_performOwn_stf {e f : El} (hs : s.Canonical) (hgo : ∀ x ∈ [e, f], ∃ st, u.reach q.op q.plain x = .go st) (he : e.kind = .store)
    (hf : f.kind = .atomic) (hm : spaceOf e.va = .loc → spaceOf f.va ≠ .loc) (a : Nat) :
    readByte (performOwn s .stf (makeParts u q [e, f] 0) true).1.mem a = (storedByte s.cur (localStores [e, f]) a).getD (readByte s.mem a) := by
  have hste := stage_madePart (hgo e List.mem_cons_self) 0
  have hstf := stage_madePart (hgo f (List.mem_cons_of_mem _ List.mem_cons_self)) 1
  have hfl : localStores [f] = [] := localStores_cons_neg [] (.inr (by rw [hf]; decide))
  rw [makeParts_cons, makeParts_cons]
  by_cases hl : spaceOf e.va = .loc
  · rw [performOwn_own (reach_of_loc hste hl) rfl, localStores_cons_pos _ hl he, hfl]
    dsimp only
    rw [performOwn_elsewhere (reach_of_not_loc hstf (hm hl))]
    exact readByte_perform_store (r := none) hs rfl e a rfl
  · rw [performOwn_elsewhere (reach_of_not_loc hste hl), localStores_cons_neg _ (.inl hl), hfl]
    by_cases hfloc : spaceOf f.va = .loc
    · rw [performOwn_flag (reach_of_loc hstf hfloc)]
      rfl
    · rw [performOwn_elsewhere (reach_of_not_loc hstf hfloc)]
      rfl

end

end Sys2Proof.Machine
end

section
/-!
PROOF. Accesses with an element outside their hart's own store set out (R60, R130, R212, R213, R217, R218, R236, R249).
-/

namespace Sys2Proof.Machine

section
variable {s u : State} {q : Ask} {ps : List Part} {m : Memory} {t : State} {a : Access}

/-- An entry is taken alike in states that differ in nothing that it notes. -/
theorem State.SentAs.congr (hh : u.hart = s.hart) (hc : u.cur = s.cur) (hx : u.curHart = s.curHart) (hf : u.fresh = s.fresh)
    (hn : u.net.accs = s.net.accs) (h : u.SentAs q ps m t a) : s.SentAs q ps m t a where
  accs := hn ▸ h.accs
  mem := h.mem
  nseq := hh ▸ h.nseq
  id := hf ▸ h.id
  core := hc ▸ h.core
  hart := hx ▸ h.hart
  seq := hh ▸ h.seq
  pc := hh ▸ h.pc
  op := h.op
  parts := h.parts
  frozen := h.frozen
  orphan := h.orphan
  waits := hh ▸ h.waits
  retires := hh ▸ h.retires
  empties := hh ▸ h.empties
  keeps := hh ▸ h.keeps

/-- The flags that a vector store leaves in FPSTAT change nothing of this. -/
theorem State.SentAs.storeFlagged (fl : BitVec 5) (h : s.SentAs q ps m t a) : s.SentAs q ps m (t.storeFlagged fl) a := by
  unfold State.storeFlagged
  split
  · next hd =>
    let f : Hart → Hart := fun h => { h with arith := { h.arith with fpstat := fpOr h.arith.fpstat fl } }
    have ht : (t.onHart f).hart = f t.hart := State.hart_onHart t f
    have hw : q.op.awaited s.hart ≠ true := fun hw => by rw [(h.waits hw).1] at hd; cases hd
    exact { h with
      nseq := (congrArg Hart.nseq ht).trans h.nseq
      waits := fun e => absurd e hw
      empties := fun r hr => (congrArg Hart.regs ht).trans (h.empties r hr)
      keeps := fun hr => (congrArg Hart.regs ht).trans (h.keeps hr) }
  · exact h

theorem firstStop_congr (h : u.reach = s.reach) (l : List El) (n : Nat) : firstStop u q l n = firstStop s q l n := by
  induction l generalizing n with
  | nil => rfl
  | cons e l ih => rw [firstStop, firstStop, h, ih]

theorem allows_freed : s.freed.allows q = s.allows q := by
  rw [State.allows, firstStop_congr (u := s.freed) (s := s) rfl]
  rfl

/-- A new access that nothing stops, with an element outside its hart's own store, takes an entry with its parts, those in the store served. -/
theorem access_sentAs (i : Instr) (hs : q.Shape) (hn : s.isNew = true) (ha : s.allows q = true) (hl : q.isLocal = false)
    (he : s.entryFree = true) (hc : s.convertsNow q = true) :
    let r := performOwn (s.launching q) q.op (makeParts s q q.els 0) true
    ∃ a, s.SentAs q r.2 r.1.mem (s.access i q) a := by
  intro r
  have hh := hart_launching ha
  have hr : r.1 = { s.launching q with mem := r.1.mem, poison := r.1.poison } := (performOwn_served _ _ _ _).1
  have hrh : r.1.hart = s.hart := by rw [hr]; exact hh
  have hrn : r.1.ownEntry = none := by
    rw [State.ownEntry, hrh, hr]
    exact (ownEntry_of_isNew hn).1
  refine ⟨r.1.newAccess q r.2, ?_⟩
  rw [access_eq_sendOut i hn ha hl he hc]
  exact (sendOut_sentAs i hs hrn).congr hrh (by rw [hr]; rfl) (by rw [hr]; rfl) (by rw [hr]; rfl) (by rw [hr]; rfl)

/-- A memory instruction whose access is new and nothing stops, with an element outside its hart's own store. The parts in the store are served
in a state `v` with the memory of `s`. -/
theorem exec_sentAs {i : Instr} (h : memoryOf s i = some q) (hi : s.issues i = true) (hn : s.isNew = true) (ha : s.allows q = true)
    (hl : q.isLocal = false) (he : s.entryFree = true) (hc : s.convertsNow q = true)
    (hf : ∀ fl, storeOf s i = some (q, fl) → s.hart.arith.fpstat.extractLsb' 8 5 &&& fl = 0) :
    ∃ v t a, v.cur = s.cur ∧ v.mem = s.mem ∧ exec i s = .next t ∧
      s.SentAs q (performOwn v q.op (makeParts s q q.els 0) true).2 (performOwn v q.op (makeParts s q q.els 0) true).1.mem t a := by
  have hs := shape_of_memoryOf h
  obtain ⟨t, ht, u, hu, hacc⟩ := exec_of_memoryOf h hi (aligned_of_allows ha) hf
  have hsent : ∃ v a, v.cur = s.cur ∧ v.mem = s.mem ∧
      s.SentAs q (performOwn v q.op (makeParts s q q.els 0) true).2 (performOwn v q.op (makeParts s q q.els 0) true).1.mem (u.access i q) a := by
    rcases hu with rfl | rfl
    · obtain ⟨a, h⟩ := access_sentAs i hs hn ha hl he hc
      exact ⟨u.launching q, a, rfl, rfl, h⟩
    · obtain ⟨a, h⟩ := access_sentAs (s := s.freed) i hs hn (allows_freed.trans ha) hl he hc
      rw [makeParts_congr (u := s.freed) (s := s) rfl] at h
      exact ⟨s.freed.launching q, a, rfl, rfl, State.SentAs.congr (u := s.freed) rfl rfl rfl rfl rfl h⟩
  obtain ⟨v, a, hvc, hvm, hv⟩ := hsent
  rcases hacc with rfl | ⟨fl, rfl⟩
  · exact ⟨v, _, a, hvc, hvm, ht, hv⟩
  · exact ⟨v, _, a, hvc, hvm, ht, hv.storeFlagged fl⟩

/-! Remote accesses, and those with elements both in the store and elsewhere -/

theorem isOwn_of_isRemote (ha : s.allows q = true) (hr : q.isRemote = true) : ∀ p ∈ makeParts s q q.els 0, p.stage.isOwn = false := by
  obtain ⟨hf, -⟩ := allows_iff.mp ha
  intro p hp
  obtain ⟨j, hj⟩ := List.mem_iff_getElem?.mp hp
  rw [getElem?_makeParts] at hj
  obtain ⟨e, he, rfl⟩ := Option.map_eq_some_iff.mp hj
  have hm := List.mem_of_getElem? he
  have hl : spaceOf e.va ≠ .loc := bne_iff_ne.mp (List.all_eq_true.mp hr e hm)
  exact reach_of_not_loc (reach_of_firstStop hf hm _) hl

/-- An access with elements both in the hart's own store and elsewhere is a vector load, a vector store or an STF. -/
theorem Ask.Shape.mixed_cases (h : q.Shape) (hl : q.isLocal = false) (hr : q.isRemote = false) :
    (∃ d ff tf bc, q.op = .vload d ff tf bc) ∨ (q.op = .vstore ∧ ∀ e ∈ q.els, e.kind = .store) ∨
      ∃ e f, q.op = .stf ∧ q.els = [e, f] ∧ e.kind = .store ∧ f.kind = .atomic := by
  have hone (e : El) (he : q.els = [e]) : False := by
    rcases isLocal_or_isRemote_of_single he with h | h
    · rw [hl] at h; cases h
    · rw [hr] at h; cases h
  cases h with
  | load _ _ e _ hels | store e _ hels | atomic _ _ _ _ e _ hels | tload _ _ _ e _ hels | tstore _ _ _ _ e _ hels => exact (hone e hels).elim
  | vload d ff tf bc hop => exact .inl ⟨d, ff, tf, bc, hop⟩
  | vstore hop _ hk => exact .inr (.inl ⟨hop, hk⟩)
  | stf e f hop hels he hf => exact .inr (.inr ⟨e, f, hop, hels, he, hf⟩)

/-- Each part of an access is of its element, and one that lies elsewhere goes where the requester's checks send it. -/
theorem performOwn_part {v : State} (ha : s.allows q = true) {b : Bool} {j : Nat} {e : El} {p : Part} (he : q.els[j]? = some e)
    (hp : (performOwn v q.op (makeParts s q q.els 0) b).2[j]? = some p) :
    p.n = j ∧ p.va = e.va ∧ p.size = e.size ∧ p.data = e.data ∧ (spaceOf e.va ≠ .loc → s.reach q.op q.plain e = .go p.stage) := by
  obtain ⟨hf, -⟩ := allows_iff.mp ha
  have hgo := reach_of_firstStop hf (List.mem_of_getElem? he) (0 + j)
  have hj : (makeParts s q q.els 0)[j]? = some (madePart s q e (0 + j)) := by rw [getElem?_makeParts, he]; rfl
  have hserved : Part.Served (madePart s q e (0 + j)) p := by
    have hall := (performOwn_served v q.op (makeParts s q q.els 0) b).2
    obtain ⟨h1, e1⟩ := List.getElem?_eq_some_iff.mp hj
    obtain ⟨h2, e2⟩ := List.getElem?_eq_some_iff.mp hp
    exact e1 ▸ e2 ▸ hall.get h1 h2
  rcases hserved with rfl | ⟨ho, x, rfl⟩
  · exact ⟨Nat.zero_add j, rfl, rfl, rfl, fun _ => hgo⟩
  · refine ⟨Nat.zero_add j, rfl, rfl, rfl, fun hl => ?_⟩
    rw [reach_of_not_loc hgo hl] at ho
    cases ho

/-- A part of a vector load in the hart's own store has read its bytes. -/
theorem performOwn_vload_part {v : State} (hvc : v.cur = s.cur) (hvm : v.mem = s.mem) (ha : s.allows q = true) {d : BitVec 5} {ff tf : BitVec 4}
    {bc b : Bool} (hop : q.op = .vload d ff tf bc) {j : Nat} {e : El} {p : Part} (he : q.els[j]? = some e)
    (hp : (performOwn v q.op (makeParts s q q.els 0) b).2[j]? = some p) (hl : spaceOf e.va = .loc) :
    p.stage = .done (BitVec.ofNat 512 (bytesValue s.mem (localKey s.cur e.va.toNat) e.size)) := by
  obtain ⟨hf, -⟩ := allows_iff.mp ha
  have hgo := reach_of_firstStop hf (List.mem_of_getElem? he) (0 + j)
  rw [hop, performOwn_vload, List.getElem?_map, getElem?_makeParts, he] at hp
  obtain rfl := Option.some.inj hp
  rw [Part.read_own (reach_of_loc hgo hl), bytesValue_eq_readNat, ← hvc, ← hvm]
  rfl

/-- An access that fills no register has stored, as it sets out, what lies in its hart's own store, and no flag of an STF. -/
theorem readByte_performOwn_mixed {v : State} (hvc : v.cur = s.cur) (hvm : v.mem = s.mem) (hs : q.Shape) (hcan : s.Canonical)
    (ha : s.allows q = true) (hl : q.isLocal = false) (hr : q.isRemote = false) (hd : q.op.dst = none) (a : Nat) :
    readByte (performOwn v q.op (makeParts s q q.els 0) true).1.mem a =
      (storedByte s.cur (localStores q.els) a).getD (readByte s.mem a) := by
  obtain ⟨hf, -⟩ := allows_iff.mp ha
  have hgo (e : El) (he : e ∈ q.els) : ∃ st, s.reach q.op q.plain e = .go st := ⟨_, reach_of_firstStop hf he 0⟩
  have hv : v.Canonical := by unfold State.Canonical; rw [hvm]; exact hcan
  rw [← hvc, ← hvm]
  rcases hs.mixed_cases hl hr with ⟨d, ff, tf, bc, hop⟩ | ⟨hop, hk⟩ | ⟨e, f, hop, hels, he, hfk⟩
  · rw [hop] at hd; cases hd
  · rw [hop]
    exact readByte_performOwn_vstore (r := none) hv q.els 0 true a hgo hk rfl
  · rw [hels] at hgo
    rw [hop, hels]
    refine readByte_performOwn_stf hv hgo he hfk (fun h1 h2 => ?_) a
    rw [Ask.isLocal, hels, List.all_cons, List.all_cons, h1, h2] at hl
    cases hl

theorem remote_accesses_set_out (i : Instr) (s : State) (q : Ask) (h : memoryOf s i = some q) (hi : s.issues i = true) (hn : s.isNew = true)
    (ha : s.allows q = true) (hr : q.isRemote = true) (he : s.entryFree = true) (hc : s.convertsNow q = true)
    (hf : ∀ fl, storeOf s i = some (q, fl) → s.hart.arith.fpstat.extractLsb' 8 5 &&& fl = 0) :
    ∃ t a, exec i s = .next t ∧ s.SentAs q (makeParts s q q.els 0) s.mem t a := by
  have hl := (shape_of_memoryOf h).not_isLocal hr
  obtain ⟨v, t, a, -, hvm, ht, hsent⟩ := exec_sentAs h hi hn ha hl he hc hf
  rw [performOwn_remote (isOwn_of_isRemote ha hr), hvm] at hsent
  exact ⟨t, a, ht, hsent⟩

end

/-- Settles O12: the two clauses are `remote_accesses_set_out`, and `exec_sentAs` with what `performOwn` makes of the parts in the store. -/
theorem otherAccessesSetOut : Obligations.OtherAccessesSetOut := by
  constructor
  · intro i s q h hi hn ha hr he hc hf
    obtain ⟨t, a, ht, hs⟩ := remote_accesses_set_out i s q h hi hn ha hr he hc hf
    refine ⟨t, a, ht, hs.accs, hs.mem, hs.nseq, hs.id, hs.core, hs.hart, hs.seq, hs.pc, hs.op, hs.parts, hs.frozen, hs.orphan, hs.waits, hs.retires,
      fun fn r b cmp hop => hs.keeps (by rw [hop]; rfl), fun r hd _ => hs.empties r hd, hs.keeps⟩
  · intro i s q h hi hn ha hl hr he hc hf
    have hshape := shape_of_memoryOf h
    obtain ⟨v, t, a, hvc, hvm, ht, hs⟩ := exec_sentAs h hi hn ha hl he hc hf
    have hlen : a.parts.length = q.els.length := by
      rw [hs.parts, ← (performOwn_served v q.op (makeParts s q q.els 0) true).2.length_eq, length_makeParts]
    refine ⟨t, a, ht, hs.accs, hs.nseq, hs.id, hs.core, hs.hart, hs.seq, hs.pc, hs.op, hs.orphan, hlen, fun hw => (hs.waits hw).1, hs.retires,
      fun j e p he hp => ?_, fun r hd => ⟨?_, hs.empties r hd⟩, fun hd hcan => ⟨hs.keeps hd, fun b => ?_⟩⟩
    · rw [hs.parts] at hp
      obtain ⟨hpn, hva, hsize, hdata, hgo⟩ := performOwn_part ha he hp
      refine ⟨hpn, hva, hsize, hdata, hgo, fun hloc hd => ?_⟩
      rcases hshape.mixed_cases hl hr with ⟨d, ff, tf, bc, hop⟩ | ⟨hop, -⟩ | ⟨e, f, hop, -⟩
      · exact performOwn_vload_part hvc hvm ha hop he hp hloc
      · exact absurd (by rw [hop]; rfl) hd
      · exact absurd (by rw [hop]; rfl) hd
    · rcases hshape.mixed_cases hl hr with ⟨d, ff, tf, bc, hop⟩ | ⟨hop, -⟩ | ⟨e, f, hop, -⟩
      · rw [hs.mem, hop, performOwn_vload, hvm]
      · rw [hop] at hd; cases hd
      · rw [hop] at hd; cases hd
    · rw [hs.mem]
      exact readByte_performOwn_mixed hvc hvm hshape hcan ha hl hr hd b

end Sys2Proof.Machine
end

section
/-!
PROOF. Traps save what they interrupt and enter the handler; ECALL and EBREAK trap with the caller's mode; TRET gives back what was saved (R98, R104).
-/

namespace Sys2Proof.Machine

theorem hart_trapped (s : State) (cause : BitVec 9) (addr info : W) :
    (s.trapped cause addr info).hart = trapHart (s.firmware s.cur) false cause addr info s.hart.pc s.hart := State.hart_onHart s _

/-- TRCAUSE of a trap that is no interrupt is the cause itself (R101). -/
theorem trcause_of_exception (cause : BitVec 9) : (BitVec.ofBool false).setWidth 64 <<< 63 ||| cause.setWidth 64 = (cause.setWidth 64 : W) := by simp

/-- The mode that a trap of execution enters (R90, R103). -/
theorem targetMode_exception (fw : Bool) (mode : BitVec 2) (deleg : W) (cause : BitVec 9) :
    targetMode fw mode deleg false cause = if fw = false then 1 else if mode = 3 then 3
      else if deleg.getLsbD (cause.extractLsb' 6 3).toNat then 1 else 3 := by
  cases fw <;> simp [targetMode]

/-- The cause of an ECALL by the mode of its caller (R98). -/
theorem ecallCause_eq (m : BitVec 2) : ecallCause m = if m = 3 then 0x1C2 else if m = 2 then 0x1C2 else if m = 1 then 0x1C1 else 0x1C0 := by
  revert m; decide

/-- A TRET of a hart without frozen groups has nothing to thaw (R253). -/
theorem thaw_of_nothing_frozen {s : State} (h : s.hart.frozen = []) : s.thaw = s := by
  simp [State.thaw, h]

/-- A hart that goes back to `t` from its handler; loops that `t` lies outside of are left, and pending prefixes stay (R104, R109). -/
def Hart.goesBack (t : W) (h : Hart) : Hart := { h.counted with pc := t, loops := loopUnwind t 4 h.loops, arrival := .tret }

/-- A lone word that ends in a return to `t` retires. -/
theorem retire_tret {s : State} {t : W} (hf : s.flow = .tret t) (hl : s.slot = .lone) :
    s.retire = { s.onHart (Hart.goesBack t) with flow := .next, disp := .retired } := by
  simp only [State.retire, hf, hl]
  rw [State.onHart_congr s _ (Hart.goesBack t)]
  simp [Hart.goesBack, Hart.counted]

/-- A lone TRET of a hart without frozen groups restores what the trap saved, and retires (R104). -/
theorem tret_of_lone {s : State} (hf : s.hart.frozen = []) (hl : s.slot = .lone) :
    s.tret = { s.onHart (fun h => (tretHart h).goesBack s.hart.trap.trpc) with flow := .next, disp := .retired } := by
  have hs : ({ s.onHart tretHart with flow := .tret s.hart.trap.trpc } : State).slot = .lone := hl
  rw [State.tret, thaw_of_nothing_frozen hf, complete_of_lone hs, retire_tret rfl hs, ← State.onHart_onHart s tretHart]
  rfl

/-- Settles O45: the fields of `trapHart`, and those of `tretHart` behind the retirement of a TRET. -/
theorem trapsEnterAndReturn : Obligations.TrapsEnterAndReturn := by
  refine ⟨fun s cause addr info => ?_, fun w s hi hs => ?_, fun w s hi hs => ?_, fun w s hi hl hf => ?_⟩
  · rw [hart_trapped]
    refine ⟨?_, rfl, rfl, rfl, rfl, rfl, rfl, rfl, rfl, rfl, rfl, rfl, targetMode_exception .., rfl, rfl, rfl, rfl⟩
    rw [trapHart, trcause_of_exception]
  · have he : exec (.ecall w) s = .next (s.fault (ecallCause s.hart.mode) 0 0) := issue_of_issues hi
    rw [he, fault_eq_trapped _ _ _ _ hs, ecallCause_eq]
  · have he : exec (.ebreak w) s = .next (s.fault 0x1C3 0 0) := issue_of_issues hi
    rw [he, fault_eq_trapped _ _ _ _ hs]
  · have he : exec (.tret w) s = .next s.tret := issue_of_issues hi
    have hh : (s.onHart fun h => (tretHart h).goesBack s.hart.trap.trpc).hart = _ := State.hart_onHart s _
    have ht : s.tret.hart = (tretHart s.hart).goesBack s.hart.trap.trpc := by rw [tret_of_lone hf hl]; exact hh
    refine ⟨_, he, ?_⟩
    dsimp only
    rw [ht, tret_of_lone hf hl]
    exact ⟨rfl, rfl, rfl, rfl, rfl, rfl, rfl, rfl, rfl, rfl, rfl, rfl, rfl, rfl, rfl⟩

end Sys2Proof.Machine
end

section
/-!
PROOF. Loops: what their instructions do, and how a retirement counts and a transfer leaves levels (R107 to R109).
-/

namespace Sys2Proof.Machine

/-! The loop stack -/

/-- A stack of `t` + 1 levels is not empty. -/
theorem depth_beq_zero {d : BitVec 3} {t : Nat} (h : d.toNat = t + 1) : (d == 0) = false :=
  beq_eq_false_iff_ne.mpr fun e => by rw [e] at h; exact absurd h (Nat.succ_ne_zero t).symm

theorem topEnd_of_depth {l : Loops} {t : Nat} (h : l.depth.toNat = t + 1) : l.topEnd = some (loopAt l.lpe t) := by
  simp only [Loops.topEnd, depth_beq_zero h, h, Bool.false_eq_true, if_false, Nat.add_sub_cancel]

theorem topEnd_of_empty {l : Loops} (h : l.depth = 0) : l.topEnd = none := by simp [Loops.topEnd, h]

/-- A level that is popped leaves the one below it on top. -/
theorem depth_sub_one {d : BitVec 3} {t : Nat} (h : d.toNat = t + 1) : d - 1 = BitVec.ofNat 3 t ∧ (d - 1).toNat = t := by
  have := d.isLt
  constructor <;> bv_omega

theorem depth_cases (d : BitVec 3) : d = 0 ∨ ∃ t, d.toNat = t + 1 := by
  rcases Nat.eq_zero_or_pos d.toNat with h | h
  · exact .inl (BitVec.eq_of_toNat_eq (by simpa using h))
  · exact .inr ⟨d.toNat - 1, by omega⟩

theorem loopCount_elsewhere {a : W} (n : Nat) {l : Loops} (h : l.topEnd ≠ some a) : loopCount a n l = (l, none) := by
  cases n with
  | zero => rfl
  | succ n => simp [loopCount, h]

/-- A level of the stack with its count one lower. -/
def Loops.counted (l : Loops) (t : Nat) : Loops := { l with lpc := l.lpc.setIfInBounds t (loopAt l.lpc t - 1) }

/-- A retirement at the end word of the top level counts it down: it wraps, or is popped and leaves the word to the level below (R108). -/
theorem loopCount_at_end {a : W} (n : Nat) {l : Loops} {t : Nat} (hd : l.depth.toNat = t + 1) (he : l.topEnd = some a) :
    (loopAt l.lpc t - 1 ≠ 0 → loopCount a (n + 1) l = (l.counted t, some (loopAt l.lps t))) ∧
    (loopAt l.lpc t - 1 = 0 → loopCount a (n + 1) l = loopCount a n { l.counted t with depth := BitVec.ofNat 3 t }) := by
  have hr : loopCount a (n + 1) l = if (loopAt l.lpc t - 1 == 0) = true then loopCount a n { l.counted t with depth := l.depth - 1 }
      else (l.counted t, some (loopAt l.lps t)) := by
    simp only [loopCount, he, hd, BEq.rfl, if_true, Nat.add_sub_cancel]
    rfl
  rw [hr, (depth_sub_one hd).1]
  exact ⟨fun h => if_neg (by simpa using h), fun h => if_pos (by simpa using h)⟩

/-- With fuel for every level a retirement leaves no more levels than before, and none of them on top that ends there unless one has wrapped (R108). -/
theorem loopCount_settles (a : W) (n : Nat) (l : Loops) (h : l.depth.toNat ≤ n) :
    (loopCount a n l).1.depth.toNat ≤ l.depth.toNat ∧ ((loopCount a n l).2 = none → (loopCount a n l).1.topEnd ≠ some a) := by
  induction n generalizing l with
  | zero =>
    have h0 : l.depth = 0 := BitVec.eq_of_toNat_eq (by simpa using h)
    exact ⟨Nat.le_refl _, fun _ => by simp [loopCount, topEnd_of_empty h0]⟩
  | succ n ih =>
    by_cases he : l.topEnd = some a
    · obtain ⟨t, ht⟩ : ∃ t, l.depth.toNat = t + 1 := (depth_cases l.depth).resolve_left fun h0 => by simp [topEnd_of_empty h0] at he
      by_cases hc : loopAt l.lpc t - 1 = 0
      · rw [(loopCount_at_end n ht he).2 hc]
        have hp : (BitVec.ofNat 3 t).toNat = t := by rw [← (depth_sub_one ht).1]; exact (depth_sub_one ht).2
        obtain ⟨h1, h2⟩ := ih { l.counted t with depth := BitVec.ofNat 3 t } (by show (BitVec.ofNat 3 t).toNat ≤ n; omega)
        exact ⟨h1.trans (by show (BitVec.ofNat 3 t).toNat ≤ _; omega), h2⟩
      · rw [(loopCount_at_end n ht he).1 hc]
        exact ⟨Nat.le_refl _, nofun⟩
    · rw [loopCount_elsewhere _ he]
      exact ⟨Nat.le_refl _, fun _ => he⟩

theorem insideTop_iff {t : W} {l : Loops} {i : Nat} (h : l.depth.toNat = i + 1) :
    insideTop t l ↔ (loopAt l.lps i).toNat ≤ t.toNat ∧ t.toNat ≤ (loopAt l.lpe i).toNat := by
  refine ⟨fun ⟨j, hj, hr⟩ => ?_, fun hr => ⟨i, h, hr⟩⟩
  obtain rfl : j = i := by omega
  exact hr

theorem loopUnwind_inside {t : W} (n : Nat) {l : Loops} (h : l.depth = 0 ∨ insideTop t l) : loopUnwind t n l = l := by
  cases n with
  | zero => rfl
  | succ n =>
    rcases h with h | ⟨i, hi, hlo, hhi⟩
    · simp [loopUnwind, h]
    · simp only [loopUnwind, depth_beq_zero hi, hi, Nat.add_sub_cancel]
      rw [if_neg Bool.false_ne_true, if_pos (by simpa using ⟨hlo, hhi⟩)]

/-- A transfer out of the top level's range pops it and looks at the level below (R109). -/
theorem loopUnwind_outside {t : W} (n : Nat) {l : Loops} {i : Nat} (hd : l.depth.toNat = i + 1) (h : ¬ insideTop t l) :
    loopUnwind t (n + 1) l = loopUnwind t n { l with depth := BitVec.ofNat 3 i } := by
  rw [insideTop_iff hd] at h
  rw [loopUnwind, depth_beq_zero hd, if_neg Bool.false_ne_true, if_neg (by simpa [hd] using h), (depth_sub_one hd).1]

/-- With fuel for every level a transfer pops levels until its target lies in the top one's range, and changes no level (R109). -/
theorem loopUnwind_settles (t : W) (n : Nat) (l : Loops) (h : l.depth.toNat ≤ n) :
    ∃ d : BitVec 3, loopUnwind t n l = { l with depth := d } ∧ d.toNat ≤ l.depth.toNat ∧ (d = 0 ∨ insideTop t (loopUnwind t n l)) := by
  induction n generalizing l with
  | zero =>
    have h0 : l.depth = 0 := BitVec.eq_of_toNat_eq (by simpa using h)
    exact ⟨l.depth, rfl, Nat.le_refl _, .inl h0⟩
  | succ n ih =>
    by_cases hr : l.depth = 0 ∨ insideTop t l
    · rw [loopUnwind_inside _ hr]
      exact ⟨l.depth, rfl, Nat.le_refl _, hr⟩
    · obtain ⟨h0, hi⟩ := not_or.mp hr
      obtain ⟨i, hd⟩ := (depth_cases l.depth).resolve_left h0
      rw [loopUnwind_outside n hd hi]
      have hp : (BitVec.ofNat 3 i).toNat = i := by rw [← (depth_sub_one hd).1]; exact (depth_sub_one hd).2
      obtain ⟨d, e, hle, ht⟩ := ih { l with depth := BitVec.ofNat 3 i } (by show (BitVec.ofNat 3 i).toNat ≤ n; omega)
      exact ⟨d, e, hle.trans (by show (BitVec.ofNat 3 i).toNat ≤ _; omega), ht⟩

/-! The loop instructions -/

/-- A meaning that changes its hart, and makes no transfer, completes. -/
theorem complete_onHart {s : State} (h : s.flow = .next) (f : Hart → Hart) : (s.onHart f).complete = (s.onHart f).retires :=
  complete_eq_retires (s.onHart f) h

theorem after_eq_nx (s : State) : s.after = s.nx := by
  unfold State.after State.nx
  by_cases h : s.slot = .lone <;> simp [h, BitVec.ofNat_add]

theorem wordPc_add_eq_wordsFrom (a : W) (o : BitVec 12) : a + 4 * o.signExtend 64 = wordsFrom a o.toInt := by
  unfold wordsFrom
  rw [BitVec.ofInt_add, BitVec.ofInt_mul, BitVec.ofInt_toInt]
  rfl

theorem wordPc_add_eq_wordsFrom_nat (a : W) (e : BitVec 10) : a + 4 * e.setWidth 64 = wordsFrom a e.toNat := by
  unfold wordsFrom
  rw [BitVec.ofInt_add, BitVec.ofInt_mul, BitVec.ofInt_toInt, BitVec.ofInt_natCast, ← BitVec.ofNat_toNat]
  rfl

/-- LOOP and LOOPI issue: they enter the loop that they name (R107). -/
theorem exec_of_loopOf {i : Instr} {s : State} {n e : W} (h : loopOf s i = some (n, e)) (hi : s.issues i = true) :
    exec i s = .next (s.enterLoop n e) := by
  cases i with
  | loop o a w l =>
    obtain ⟨rfl, rfl⟩ : s.g a = n ∧ wordsFrom s.wordPc o.toInt = e := by simpa [loopOf] using h
    rw [← wordPc_add_eq_wordsFrom]
    exact issue_of_issues hi
  | loopi m o w l =>
    obtain ⟨rfl, rfl⟩ : BitVec.ofNat 64 m.toNat = n ∧ wordsFrom s.wordPc o.toNat = e := by simpa [loopOf] using h
    rw [← wordPc_add_eq_wordsFrom_nat, BitVec.ofNat_toNat]
    exact issue_of_issues hi
  | _ => cases h

/-- A lone word that skips to the word behind `e` retires. -/
theorem retire_skip {s : State} {e : W} (hf : s.flow = .skip e) (hl : s.slot = .lone) :
    s.retire = { s.onHart (Hart.skipsBody e) with flow := .next, disp := .retired } := by
  simp only [State.retire, hf, hl]
  rw [State.onHart_congr s _ (Hart.skipsBody e)]
  simp [Hart.skipsBody, Hart.counted]

theorem loopsOk_of_issues {i : Instr} {s : State} (h : s.issues i = true) : loopsOk i s = true := by
  simp only [State.issues, Bool.and_eq_true] at h
  obtain ⟨⟨⟨⟨⟨⟨⟨_, _⟩, hk⟩, _⟩, _⟩, _⟩, _⟩, _⟩ := h
  exact hk

/-- LBRK and LPOP issue in a loop only (R107). -/
theorem depth_ne_zero_of_issues {i : Instr} {s : State} (h : s.issues i = true) (hl : (∃ w l, i = .lbrk w l) ∨ ∃ w l, i = .lpop w l) :
    s.hart.loops.depth ≠ 0 := by
  have hk := loopsOk_of_issues h
  rcases hl with ⟨w, l, rfl⟩ | ⟨w, l, rfl⟩ <;> simp [loopsOk] at hk <;> exact hk.2

/-- Settles O5: the meanings of the four instructions, and what counting and unwinding do to each level. -/
theorem loopsRunTheirLevels : Obligations.LoopsRunTheirLevels := by
  refine ⟨fun i s n e h hi => ?_, fun w l s hi => ?_, fun w l s hi => ?_, fun a n l h => loopCount_elsewhere n h, fun a n l t hd _ he => ?_,
    fun a l h => loopCount_settles a 4 l h, fun t n l h => loopUnwind_inside n h, fun t l h => loopUnwind_settles t 4 l h⟩
  · rw [exec_of_loopOf h hi, State.enterLoop]
    refine ⟨fun hn => ?_, fun hn hl => ?_, fun hn hl => ?_⟩
    · rw [if_neg (by simpa using hn), after_eq_nx]
      exact congrArg Host.Outcome.next (complete_onHart (flow_of_issues hi) _)
    · have hs : ({ s with flow := .skip e } : State).slot = .lone := hl
      rw [if_pos (by simpa using hn), complete_of_lone hs, retire_skip rfl hs]
      rfl
    · have hs : ({ s with flow := .skip e } : State).slot ≠ .lone := hl
      rw [if_pos (by simpa using hn), complete_of_half hs]
  · obtain ⟨t, hd⟩ := (depth_cases s.hart.loops.depth).resolve_left (depth_ne_zero_of_issues hi (.inl ⟨w, l, rfl⟩))
    refine ⟨_, topEnd_of_depth hd, ?_⟩
    have he : exec (.lbrk w l) s = .next (State.complete { (s.onHart fun h => { h with loops := { h.loops with depth := h.loops.depth - 1 } }) with
      flow := .taken ((s.hart.loops.topEnd.getD 0) + 4) }) := issue_of_issues hi
    rw [he, complete_eq_transfers, topEnd_of_depth hd]
    rfl
  · have he : exec (.lpop w l) s =
        .next (s.onHart fun h => { h with loops := { h.loops with depth := h.loops.depth - 1 } }).complete := issue_of_issues hi
    rw [he]
    exact congrArg Host.Outcome.next (complete_onHart (flow_of_issues hi) _)
  · exact loopCount_at_end n hd he

end Sys2Proof.Machine
end

section
/-!
PROOF. What a trap of any hart leaves behind, and which steps leave every hart as it is (R104, R253).
-/

namespace Sys2Proof.Machine

/-! Steps that leave the harts -/

/-- `t` has the harts of `s`. -/
structure State.SameHarts (s t : State) : Prop where
  hartAt : ∀ c h, t.hartAt c h = s.hartAt c h

theorem State.SameHarts.refl (s : State) : s.SameHarts s := ⟨fun _ _ => rfl⟩

theorem State.SameHarts.trans {s t u : State} (h : s.SameHarts t) (g : t.SameHarts u) : s.SameHarts u :=
  ⟨fun c k => (g.hartAt c k).trans (h.hartAt c k)⟩

/-- A core is as its list and, where it is not listed, as capacity and boot have it. -/
theorem core_congr {s t : State} (hc : t.cores = s.cores) (hp : t.cap.changed = s.cap.changed) (hb : t.pkg.boot = s.pkg.boot) (c : CoreId) :
    t.core c = s.core c := by
  have hw : t.fwW = s.fwW := by unfold State.fwW; rw [hb]
  have hu : t.unlisted c = s.unlisted c := by unfold State.unlisted State.firmware; rw [hp, hw]
  unfold State.core
  rw [hc, hu]

theorem sameHarts_of_cores {s t : State} (hc : t.cores = s.cores) (hp : t.cap.changed = s.cap.changed) (hb : t.pkg.boot = s.pkg.boot) :
    s.SameHarts t := ⟨fun c h => by unfold State.hartAt; rw [core_congr hc hp hb c]⟩

theorem sameHarts_post (s : State) (src : Nat) (c : CoreId) (fifo : BitVec 5) (kind : BitVec 8) (status : Byte) (x : BitVec 48) :
    s.SameHarts (s.post src c fifo kind status x) := ⟨fun _ _ => rfl⟩

theorem sameHarts_storeBytes (s : State) (key : Nat) (bs : List Byte) : s.SameHarts (storeBytes s key bs) := ⟨fun _ _ => rfl⟩

theorem sameHarts_elog (s : State) (l : Vector W 4) : s.SameHarts { s with pkg := { s.pkg with elog := l } } := sameHarts_of_cores rfl rfl rfl

theorem sameHarts_logCause (s : State) (x : ErrAt) (cause : BitVec 9) : s.SameHarts (s.logCause x cause) := by
  unfold State.logCause
  dsimp only
  split
  · exact (sameHarts_storeBytes s _ _).trans (sameHarts_elog _ _)
  · exact .refl s

theorem sameHarts_ticketRecord (s : State) (c : CoreId) (h : HartId) (kind : BitVec 8) (va : W) (slice : BitVec 6) :
    s.SameHarts (s.ticketRecord c h kind va slice) := by
  unfold State.ticketRecord
  split
  · exact sameHarts_post ..
  · exact .refl s

theorem sameHarts_fetchRecord (s : State) (t : Ticket) (kind : BitVec 8) : s.SameHarts (s.fetchRecord t kind) := by
  unfold State.fetchRecord
  split
  · exact sameHarts_ticketRecord ..
  · exact .refl s

theorem sameHarts_closeTicket (s : State) (slice : BitVec 6) (num : BitVec 16) : s.SameHarts (s.closeTicket slice num) := ⟨fun _ _ => rfl⟩

theorem sameHarts_closeFetch (s : State) (c : CoreId) (h : HartId) (va : W) : s.SameHarts (s.closeFetch c h va) := by
  unfold State.closeFetch
  split
  · exact (sameHarts_closeTicket s _ _).trans (sameHarts_fetchRecord _ _ _)
  · exact .refl s

/-! Traps -/

/-- A trap over a ticket sets aside the hart's log, and leaves the rest of the hart (R253). -/
theorem hartAt_freeze (s : State) (c : CoreId) (h : HartId) : ∃ fr lg p, (s.freeze c h).hartAt c h =
    { s.hartAt c h with frozen := fr, log := lg, tkp := p } := by
  unfold State.freeze
  dsimp only
  split
  · rw [State.hartAt_onHartAt_same]
    exact ⟨_, _, _, rfl⟩
  · exact ⟨_, _, _, rfl⟩

/-- A trap enters the handler with what the hart had, but for the log of a ticket it was parked on (R104, R253). -/
theorem hartAt_trapAt (s : State) (c : CoreId) (h : HartId) (int : Bool) (cause : BitVec 9) (addr info pc : W) : ∃ fr lg p,
    (s.trapAt c h int cause addr info pc).hartAt c h =
      trapHart (s.firmware c) int cause addr info pc { s.hartAt c h with frozen := fr, log := lg, tkp := p } := by
  obtain ⟨fr, lg, p, e⟩ := hartAt_freeze s c h
  exact ⟨fr, lg, p, by rw [State.trapAt, State.hartAt_onHartAt_same, e]⟩

/-- The trap registers and the control state of a hart that has taken a trap of execution (R104). -/
theorem tookTrap_trapAt (s : State) (c : CoreId) (h : HartId) (cause : BitVec 9) (addr info pc : W) :
    s.tookTrap (s.trapAt c h false cause addr info pc) c h cause addr pc ∧
      ((s.trapAt c h false cause addr info pc).hartAt c h).trap.trinfo = info := by
  obtain ⟨fr, lg, p, e⟩ := hartAt_trapAt s c h false cause addr info pc
  unfold State.tookTrap
  rw [e]
  exact ⟨⟨rfl, trcause_of_exception cause, rfl, rfl, rfl, rfl, rfl⟩, rfl⟩

/-- What a hart's trap has left is there in every state with the same harts. -/
theorem State.tookTrap.of_sameHarts {s t u : State} {c : CoreId} {h : HartId} {cause : BitVec 9} {addr pc : W} (ht : s.tookTrap t c h cause addr pc)
    (hu : t.SameHarts u) : s.tookTrap u c h cause addr pc := by
  unfold State.tookTrap at ht ⊢
  rw [hu.hartAt c h]
  exact ht

end Sys2Proof.Machine
end

section
/-!
PROOF. Interrupts are taken at their boundary, and what is no instruction traps (R56, R57, R100, R104, R105, R122).
-/

namespace Sys2Proof.Machine

/-! Interrupts -/

/-- TRCAUSE of an interrupt: bit 63, and the number of its source above 0x1E0 (R101, R105). -/
theorem trcause_of_interrupt {n : Nat} (h : n < 32) :
    (BitVec.ofBool true).setWidth 64 <<< 63 ||| (BitVec.ofNat 9 (0x1E0 + n)).setWidth 64 = BitVec.ofNat 64 (2 ^ 63 + 0x1E0 + n) := by
  revert n; decide

/-- The source that an interrupt names is the lowest of those that are pending and enabled (R105). -/
theorem of_firstSource {s : State} {c : CoreId} {h : HartId} {n : Nat} (hn : s.firstSource c h = some n) :
    n < 32 ∧ (s.ipend c h).getLsbD n = true ∧ (s.hartAt c h).trap.ien.getLsbD n = true ∧
      ∀ k, k < n → ¬ ((s.ipend c h).getLsbD k = true ∧ (s.hartAt c h).trap.ien.getLsbD k = true) := by
  obtain ⟨h1, h2, h3⟩ := List.find?_range_eq_some.mp hn
  simp only [BitVec.getLsbD_and, Bool.and_eq_true, List.mem_range, Bool.not_eq_true'] at h1 h2 h3
  refine ⟨h2, h1.1, h1.2, fun k hk => ?_⟩
  simpa using h3 k hk

theorem hartAt_refill (s : State) (c : CoreId) (h : HartId) (r : RegRef) : ∃ g, (s.refill c h r).hartAt c h = { s.hartAt c h with regs := g } :=
  ⟨_, State.hartAt_onHartAt_same ..⟩

/-- A change of a core's tags or channels leaves its harts. -/
theorem State.hartAt_onCore {f : Core → Core} (s : State) (c : CoreId) (h : HartId) (hf : (f (s.core c)).hart h = (s.core c).hart h) :
    (s.onCore c f).hartAt c h = s.hartAt c h := by
  unfold State.hartAt
  rw [State.core_onCore_same, hf]

/-- A hart that waits for nothing, with other registers. -/
def Hart.unwaiting (x : Hart) (g : Regs) : Hart := { x with regs := g, wait := .none, waitAt := none, we := false, emptyMet := none }

/-- A register that is made full leaves the rest of a hart that waits for nothing. -/
theorem unwaiting_refill {s : State} {c : CoreId} {h : HartId} {x : Hart} {g : Regs} (hs : s.hartAt c h = x.unwaiting g) (r : RegRef) :
    ∃ g, (s.refill c h r).hartAt c h = x.unwaiting g := by
  obtain ⟨g', e⟩ := hartAt_refill s c h r
  exact ⟨g', by rw [e, hs]; rfl⟩

/-- A hart whose wait is given up stands at its instruction and waits for nothing; only registers can have been made full (R104). -/
theorem hartAt_cancelWait (s : State) (c : CoreId) (h : HartId) : ∃ g, (s.cancelWait c h).hartAt c h = (s.hartAt c h).unwaiting g := by
  have hu : (s.onHartAt c h fun x => { x with wait := .none, waitAt := none, we := false, emptyMet := none }).hartAt c h =
      (s.hartAt c h).unwaiting (s.hartAt c h).regs := State.hartAt_onHartAt_same ..
  unfold State.cancelWait
  dsimp only
  split
  · exact unwaiting_refill hu _
  · exact unwaiting_refill ((State.hartAt_onCore _ c h rfl).trans hu) _
  · exact unwaiting_refill ((State.hartAt_onCore _ c h rfl).trans hu) _
  · exact unwaiting_refill hu _
  · exact ⟨_, hu⟩

@[simp] theorem State.cancelWait_mem (s : State) (c : CoreId) (h : HartId) : (s.cancelWait c h).mem = s.mem := by
  unfold State.cancelWait
  dsimp only
  split <;> rfl

/-- The state at the boundary at which an interrupt is taken: a WFI has retired, and any other wait is given up (R100, R104). -/
def State.atBoundary (s : State) (c : CoreId) (h : HartId) : State :=
  if (s.hartAt c h).wait == .wfi then (s.issuing c h .lone).retire else s.cancelWait c h

theorem atBoundary_mem (s : State) (c : CoreId) (h : HartId) : (s.atBoundary c h).mem = s.mem := by
  unfold State.atBoundary
  split
  · rfl
  · exact State.cancelWait_mem s c h

/-- At its boundary a hart has its status, and its pc but for a WFI that has retired. -/
theorem hartAt_atBoundary (s : State) (c : CoreId) (h : HartId) : let x := s.hartAt c h
    let y := (s.atBoundary c h).hartAt c h
    y.pc = (if x.wait = .wfi then (loopCount x.pc 4 x.loops).2.getD (x.pc + 4) else x.pc) ∧ y.trap = x.trap ∧ y.ie = x.ie ∧ y.mode = x.mode := by
  dsimp only
  unfold State.atBoundary
  by_cases hw : (s.hartAt c h).wait = .wfi
  · have hr : (s.issuing c h .lone).retire = (s.issuing c h .lone).retires := by
      rw [← complete_of_lone (s := s.issuing c h .lone) rfl, complete_eq_retires _ rfl]
    have hh : (s.issuing c h .lone).retires.hartAt c h = (s.hartAt c h).onwards := hart_retires_of_lone (s := s.issuing c h .lone) rfl
    rw [if_pos (by simpa using hw), if_pos hw, hr, hh]
    exact ⟨rfl, rfl, rfl, rfl⟩
  · obtain ⟨g, e⟩ := hartAt_cancelWait s c h
    rw [if_neg (by simpa using hw), if_neg hw, e]
    exact ⟨rfl, rfl, rfl, rfl⟩

theorem ie_of_interruptDue {s : State} {c : CoreId} {h : HartId} (hd : s.interruptDue c h = true) : (s.hartAt c h).ie = true := by
  simp only [State.interruptDue, Bool.and_eq_true] at hd
  obtain ⟨⟨⟨⟨⟨_, hie⟩, _⟩, _⟩, _⟩, _⟩ := hd
  exact hie

/-- The hart has taken the interrupt of source `n` (R104, R251). -/
def State.interrupted (s : State) (c : CoreId) (h : HartId) (n : Nat) : State :=
  ((s.atBoundary c h).markInt c h).trapAt c h true (BitVec.ofNat 9 (0x1E0 + n)) 0 0 ((s.atBoundary c h).hartAt c h).pc

theorem interrupted_mem (s : State) (c : CoreId) (h : HartId) (n : Nat) : (s.interrupted c h n).mem = s.mem :=
  (State.trapAt_mem ((s.atBoundary c h).markInt c h) c h ..).trans (atBoundary_mem s c h)

/-- The hart enters its handler as it stood at its boundary (R104). -/
theorem hartAt_interrupted (s : State) (c : CoreId) (h : HartId) (n : Nat) : let x := (s.atBoundary c h).hartAt c h
    let y := (s.interrupted c h n).hartAt c h
    y.trap.trpc = x.pc ∧ y.trap.trcause = (BitVec.ofBool true).setWidth 64 <<< 63 ||| (BitVec.ofNat 9 (0x1E0 + n)).setWidth 64 ∧
      y.trap.traddr = 0 ∧ y.trap.trinfo = 0 ∧ y.pc = x.trap.tvec &&& ~~~3#64 ∧ y.ie = false ∧ y.pie = x.ie ∧ y.pmode = x.mode ∧ y.wait = .none := by
  obtain ⟨fr, lg, p, e⟩ := hartAt_trapAt ((s.atBoundary c h).markInt c h) c h true (BitVec.ofNat 9 (0x1E0 + n)) 0 0
    ((s.atBoundary c h).hartAt c h).pc
  dsimp only
  rw [State.interrupted, e, State.markInt, State.hartAt_onHartAt_same]
  exact ⟨rfl, rfl, rfl, rfl, rfl, rfl, rfl, rfl, rfl⟩

/-- An interrupt that is due is taken (R104). -/
theorem exec_interruptEntry {s : State} {c : CoreId} {h : HartId} {n : Nat} (hn : s.firstSource c h = some n) (hd : s.interruptDue c h = true)
    (ha : (s.core c).awake = true) (ht : s.timeUp c = false) :
    ∃ t, exec (.interruptEntry c h) s = .next t ∧ t.disp = .occurred ∧ t.mem = s.mem ∧ t.hartAt c h = (s.interrupted c h n).hartAt c h := by
  have he : exec (.interruptEntry c h) s = (s.interrupted c h n).occur := by
    show execInterruptEntry c h s = _
    simp only [execInterruptEntry, hn, ha, ht, hd, Bool.not_false, Bool.and_self, if_true]
    rfl
  rw [he]
  generalize hu : s.interrupted c h n = u
  exact ⟨_, rfl, rfl, hu ▸ interrupted_mem s c h n, rfl⟩

/-! What is no instruction -/

/-- A hart that may issue is parked on no ticket. -/
theorem tkp_of_mayIssue {s : State} {c : CoreId} {h : HartId} (hm : s.mayIssue c h = true) : (s.hartAt c h).tkp = false := by
  simp only [State.mayIssue, Bool.and_eq_true, Bool.not_eq_true'] at hm
  obtain ⟨⟨⟨_, hk⟩, _⟩, _⟩ := hm
  exact hk

/-- A hart that may issue, and has no access open, traps at once (R250). -/
theorem settled_issuing {s : State} {c : CoreId} {h : HartId} (slot : Slot) (hm : s.mayIssue c h = true) (hu : s.unconfirmed c h = false) :
    (s.issuing c h slot).settled = true := by
  have e : (s.issuing c h slot).settled = (!s.unconfirmed c h && !(s.hartAt c h).tkp) := rfl
  rw [e, hu, tkp_of_mayIssue hm]
  rfl

/-- A fetch that faults when no access is open traps at the pc (R122). -/
def State.fetchTrapped (s : State) (c : CoreId) (h : HartId) (cause : BitVec 9) (va info : W) : State :=
  { (s.issuing c h .lone).trapAt c h false cause va info (s.hartAt c h).pc with disp := .trapped 0 }

theorem raise_issuing {s : State} {c : CoreId} {h : HartId} (hu : s.unconfirmed c h = false) (cause : BitVec 9) (va info : W) :
    (s.issuing c h .lone).raise 0 cause va info = s.fetchTrapped c h cause va info := by
  have hu' : ¬ (s.issuing c h .lone).unconfirmed (s.issuing c h .lone).cur (s.issuing c h .lone).curHart = true := by
    show ¬ s.unconfirmed c h = true
    simp [hu]
  exact if_neg hu'

/-- A fetch has trapped, and what else has happened has left the harts (R122). -/
theorem tookTrap_fetchTrapped {s u : State} {c : CoreId} {h : HartId} {cause : BitVec 9} {va info : W}
    (hu : (s.fetchTrapped c h cause va info).SameHarts u) :
    s.tookTrap u c h cause va (s.hartAt c h).pc ∧ (u.hartAt c h).trap.trinfo = info := by
  obtain ⟨ht, hi⟩ := tookTrap_trapAt (s.issuing c h .lone) c h cause va info (s.hartAt c h).pc
  have hu' : ((s.issuing c h .lone).trapAt c h false cause va info (s.hartAt c h).pc).SameHarts u := ⟨hu.hartAt⟩
  exact ⟨ht.of_sameHarts hu', by rw [hu'.hartAt c h]; exact hi⟩

section
variable {s : State} {c : CoreId} {h : HartId} {va : W} {cause : BitVec 9} {info : W} (hm : s.mayIssue c h = true) (hu : s.unconfirmed c h = false)
include hm hu

theorem exec_fetchFault (ha : atPc s c h = .noFetch va (.fault cause)) :
    exec (.instructionFetchFault c h) s = .next (s.fetchTrapped c h cause va 0) := by
  show execInstructionFetchFault c h s = _
  simp only [execInstructionFetchFault, hm, if_true, ha, raise_issuing hu]

theorem exec_fetchMalformed (ha : atPc s c h = .noFetch va (.malformed cause)) : exec (.instructionFetchFault c h) s =
    .next ((s.fetchTrapped c h cause va 0).logCause { core := c, hart := h, unit := 1, addr := va, info := 0 } cause) := by
  show execInstructionFetchFault c h s = _
  simp only [execInstructionFetchFault, hm, if_true, ha, raise_issuing hu]
  rfl

theorem exec_fetchFailed (ha : atPc s c h = .noFetch va (.failed cause info)) : exec (.instructionFetchFault c h) s =
    .next ((s.fetchTrapped c h cause (if cause = 0x1C5 then 0 else va) info).closeFetch c h va) := by
  show execInstructionFetchFault c h s = _
  simp only [execInstructionFetchFault, hm, if_true, ha, raise_issuing hu, beq_iff_eq]
  rfl

theorem exec_illegalInstruction {slot : Slot} {kind : Nat} (ha : atPc s c h = .illegal slot kind) (hk : kind < 8) :
    ∃ t, exec (.illegalInstruction c h) s = .next t ∧ ({ s with cur := c, curHart := h } : State).tookIllegal t kind := by
  refine ⟨(s.issuing c h slot).illegal kind, ?_, tookIllegal_raise (s := s.issuing c h slot) _ _ (settled_issuing slot hm hu) hk⟩
  show execIllegalInstruction c h s = _
  simp only [execIllegalInstruction, hm, if_true, ha]

end

/-- Settles O46: an interrupt at its boundary, a refused word or pair, and a refused fetch. -/
theorem interruptsAndBadWordsAreTaken : Obligations.InterruptsAndBadWordsAreTaken := by
  refine ⟨fun s c h n hn hd ha ht => ?_, fun s c h slot kind hm ha hu hk => exec_illegalInstruction hm hu ha hk,
    fun s c h va cause info hm hu => ⟨fun ha => ?_, fun ha => ?_⟩⟩
  · obtain ⟨hpc, htrap, hie, hmode⟩ := hartAt_atBoundary s c h
    have hy := hartAt_interrupted s c h n
    dsimp only at hy
    rw [hpc, trcause_of_interrupt (of_firstSource hn).1, htrap, hie, ie_of_interruptDue hd, hmode] at hy
    obtain ⟨etrpc, ecause, eaddr, einfo, epc, eie, epie, epmode, ewait⟩ := hy
    obtain ⟨t, ht, hocc, hmem, e⟩ := exec_interruptEntry hn hd ha ht
    refine ⟨t, ht, hocc, hmem, ?_⟩
    dsimp only
    rw [e]
    exact ⟨etrpc, ecause, eaddr, einfo, epc, eie, epie, epmode, ewait, of_firstSource hn⟩
  · rcases ha with ha | ha
    · exact ⟨_, exec_fetchFault hm hu ha, tookTrap_fetchTrapped (.refl _)⟩
    · exact ⟨_, exec_fetchMalformed hm hu ha, tookTrap_fetchTrapped (sameHarts_logCause ..)⟩
  · exact ⟨_, exec_fetchFailed hm hu ha, tookTrap_fetchTrapped (sameHarts_closeFetch ..)⟩

end Sys2Proof.Machine
end

section
/-!
PROOF. Fences and YIELD retire, and WAITA reads its location until it differs or its limit has passed (R112, R228 to R230).
-/

namespace Sys2Proof.Machine

/-! The read of a WAITA -/

theorem isLocal_waitaReads (va : W) (z : Bool) : (waitaReads va z).isLocal = (spaceOf va == .loc) := Bool.and_true _

theorem sizeBit_le (z : Bool) : sizeBit z ≤ 8 := by cases z <;> decide

theorem toNat_ofNat_of_lt {n w x : Nat} (hn : n ≤ w) (hx : x < 2 ^ n) : (BitVec.ofNat w x).toNat = x := by
  rw [BitVec.toNat_ofNat]
  exact Nat.mod_eq_of_lt (hx.trans_le (Nat.pow_le_pow_right (by decide) hn))

/-- What WAITA reads is the number that the bytes of its location hold. -/
theorem toNat_bytesAt (s : State) (key : Nat) (z : Bool) : (s.bytesAt key (sizeBit z)).toNat = bytesValue s.mem key (sizeBit z) := by
  have hz := sizeBit_le z
  rw [State.bytesAt, bytesValue_eq_readNat]
  exact toNat_ofNat_of_lt (by omega) (readNat_lt ..)

theorem bytesValue_mod (m : Memory) (key n : Nat) : bytesValue m key n % 2 ^ (8 * n) = bytesValue m key n := by
  rw [bytesValue_eq_readNat]
  exact Nat.mod_eq_of_lt (readNat_lt ..)

/-- A read of WAITA ends its wait on a difference, or when the limit has passed (R230). -/
theorem waitaEnds_iff (s : State) (key : Nat) (z : Bool) (cmp start now : W) (limit : BitVec 32) :
    waitaEnds (sizeBit z) (s.bytesAt key (sizeBit z)) cmp start now limit = true ↔
      bytesValue s.mem key (sizeBit z) ≠ cmp.toNat % 2 ^ (8 * sizeBit z) ∨ limit.toNat ≤ (now - start).toNat := by
  simp [waitaEnds, toNat_bytesAt, bytesValue_mod]

theorem waitaValue_eq (s : State) (key : Nat) (z : Bool) : waitaValue (sizeBit z) (s.bytesAt key (sizeBit z)) =
    (BitVec.ofInt 64 (signedLow (8 * sizeBit z) (bytesValue s.mem key (sizeBit z)))).setWidth 1024 := by
  rw [waitaValue, toNat_bytesAt, signed_eq_signedLow]

section
variable {s : State} {q : Ask}

/-! An access that no watch matches leaves its hart as it is -/

theorem hartAt_launching (h : s.allows q = true) : (s.launching q).hartAt s.cur s.curHart = s.hartAt s.cur s.curHart := hart_launching h

theorem cycleOf_launching (h : s.allows q = true) : (s.launching q).cycleOf s.cur s.curHart = s.cycleOf s.cur s.curHart := by
  unfold State.cycleOf
  rw [hartAt_launching h, State.launching, core_onHart_of_eq (useSkips_of_allows h)]

theorem makeParts_launching (h : s.allows q = true) : makeParts (s.launching q) q q.els 0 = makeParts s q q.els 0 :=
  makeParts_congr (reach_onHart_of_eq (useSkips_of_allows h)) _ _

/-- A new instruction that takes a number is not a replay (R252). -/
theorem orReplayed_of_isNew (h : s.isNew = true) (t : State) : s.orReplayed t = t := by
  obtain ⟨he, hr⟩ := ownEntry_of_isNew h
  simp [State.orReplayed, State.doneBefore, State.ownStops, he, hr]

end

/-! WAITA issues -/

section
variable {s : State} {z : Bool} {b a d : BitVec 5} {i : Instr} (hn : s.isNew = true) (ha : s.allows (waitaReads (s.g a) z) = true)
include hn ha

/-- A new WAITA goes to its read: in the hart's own store it ends or waits at once, elsewhere an access sets out (R230). -/
theorem waita_eq : let u := s.launching (waitaReads (s.g a) z)
    let ps := makeParts s (waitaReads (s.g a) z) (waitaReads (s.g a) z).els 0
    let x := s.bytesAt (localKey s.cur (s.g a).toNat) (sizeBit z)
    let now := s.cycleOf s.cur s.curHart
    s.waita i d b a (sizeBit z) =
      if spaceOf (s.g a) = .loc then
        if waitaEnds (sizeBit z) x (s.g b) now now s.hart.waitlim then (u.dropOwn.setG d ((waitaValue (sizeBit z) x).setWidth 64)).numbered.complete
        else (u.dropOwn.logOwn (.g d) false).numbered.waitaWait i d (.waita d (s.g a) (sizeBit z) (s.g b) now now false)
      else if !u.entryReady then u.hold
      else ((u.logOwn (.g d) true).sendOut i (waitaReads (s.g a) z) ps).waitaWait i d (.waita d (s.g a) (sizeBit z) (s.g b) now now true) := by
  have hown : allOwn (makeParts s (waitaReads (s.g a) z) (waitaReads (s.g a) z).els 0) = (spaceOf (s.g a) == .loc) :=
    (allOwn_of_allows ha).trans (isLocal_waitaReads ..)
  obtain ⟨-, -, -, howed⟩ := allows_iff.mp ha
  have hparts := makeParts_launching ha
  have hnow : (s.launching (waitaReads (s.g a) z)).cycleOf (s.launching (waitaReads (s.g a) z)).cur (s.launching (waitaReads (s.g a) z)).curHart =
      s.cycleOf s.cur s.curHart := cycleOf_launching ha
  have hlim : (s.launching (waitaReads (s.g a) z)).hart.waitlim = s.hart.waitlim := by rw [hart_launching ha]
  unfold State.waita
  rw [orReplayed_of_isNew hn]
  dsimp only
  rw [show waitaAsk (s.g a) (sizeBit z) = waitaReads (s.g a) z from rfl, gate_of_allows i ha, howed,
    show (s.onHart fun h => useSkips h (waitaReads (s.g a) z)) = s.launching (waitaReads (s.g a) z) from rfl, hparts, hown]
  simp only [Bool.false_eq_true, if_false, beq_iff_eq]
  rw [hnow, hlim]
  rfl

end

theorem hart_numbered (s : State) : s.numbered.hart = { s.hart with nseq := s.hart.nseq + 1 } := State.hart_onHart ..

theorem hart_logOwn (s : State) (r : RegRef) (b : Bool) : (s.logOwn r b).hart = logReg true r (b || s.unconfirmed s.cur s.curHart) s.hart :=
  State.hart_onHart ..

/-- The hart that waits in a WAITA has its destination empty and stands where it did (R230). -/
theorem hart_waitaWait (s : State) (i : Instr) (d : BitVec 5) (w : Wait) : let y := (s.waitaWait i d w).hart
    y.wait = w ∧ y.regs = s.hart.regs.empty (.g d) ∧ y.pc = s.hart.pc := by
  dsimp only
  rw [State.waitaWait, State.hart_waitIn, State.hart_onHart]
  exact ⟨rfl, rfl, rfl⟩

/-- A WAITA of a location elsewhere takes an entry (R230, R249). -/
theorem sendOut_waita {s : State} {q : Ask} (hq : q.op = .waita) (hn : s.ownEntry = none) (i : Instr) (ps : List Part) :
    s.sendOut i q ps = (s.entered (s.newAccess q ps)).numbered := by
  unfold State.ownEntry at hn
  obtain ⟨op, els, vec, plain, acq⟩ := q
  obtain rfl : op = .waita := hq
  simp only [State.sendOut, hn]
  rfl

theorem ownEntry_logOwn (s : State) (r : RegRef) (b : Bool) : (s.logOwn r b).ownEntry = s.ownEntry := by
  unfold State.ownEntry
  rw [hart_logOwn, logReg_nseq]
  rfl

section
variable {s : State} {z : Bool} {b a d : BitVec 5} {i : Instr} (hn : s.isNew = true) (ha : s.allows (waitaReads (s.g a) z) = true)
include hn ha

theorem waita_of_ending (hl : spaceOf (s.g a) = .loc)
    (he : bytesValue s.mem (localKey s.cur (s.g a).toNat) (sizeBit z) ≠ (s.g b).toNat % 2 ^ (8 * sizeBit z) ∨ s.hart.waitlim = 0) :
    let t := s.waita i d b a (sizeBit z)
    t.disp = .retired ∧ t.mem = s.mem ∧ t.hart.regs =
      s.hart.regs.writeG d (BitVec.ofInt 64 (signedLow (8 * sizeBit z) (bytesValue s.mem (localKey s.cur (s.g a).toNat) (sizeBit z)))) := by
  have hend := (waitaEnds_iff s (localKey s.cur (s.g a).toNat) z (s.g b) (s.cycleOf s.cur s.curHart) (s.cycleOf s.cur s.curHart) s.hart.waitlim).mpr
    (he.imp_right fun h => by rw [h]; exact Nat.zero_le _)
  dsimp only
  rw [waita_eq hn ha, if_pos hl, if_pos hend, waitaValue_eq]
  refine ⟨State.complete_disp _, State.complete_mem _, ?_⟩
  obtain ⟨l, e⟩ := hart_setG (s.launching (waitaReads (s.g a) z)).dropOwn d
    (((BitVec.ofInt 64 (signedLow (8 * sizeBit z) (bytesValue s.mem (localKey s.cur (s.g a).toNat) (sizeBit z)))).setWidth 1024).setWidth 64)
  rw [regs_complete, hart_numbered, e, BitVec.setWidth_setWidth_of_le _ (by decide), BitVec.setWidth_eq,
    show (s.launching (waitaReads (s.g a) z)).dropOwn.hart = s.hart from hart_launching ha]

theorem waita_of_waiting (hl : spaceOf (s.g a) = .loc)
    (he : bytesValue s.mem (localKey s.cur (s.g a).toNat) (sizeBit z) = (s.g b).toNat % 2 ^ (8 * sizeBit z)) (hw : s.hart.waitlim ≠ 0) :
    let t := s.waita i d b a (sizeBit z)
    let now := s.cycleOf s.cur s.curHart
    t.disp = .waiting ∧ t.mem = s.mem ∧ t.hart.wait = .waita d (s.g a) (sizeBit z) (s.g b) now now false ∧
      t.hart.regs = s.hart.regs.empty (.g d) ∧ t.hart.pc = s.hart.pc := by
  have hend : ¬ waitaEnds (sizeBit z) (s.bytesAt (localKey s.cur (s.g a).toNat) (sizeBit z)) (s.g b) (s.cycleOf s.cur s.curHart)
      (s.cycleOf s.cur s.curHart) s.hart.waitlim = true := by
    rw [waitaEnds_iff, BitVec.sub_self]
    exact not_or.mpr ⟨not_not_intro he, fun h => hw (BitVec.eq_of_toNat_eq (Nat.le_zero.mp h))⟩
  dsimp only
  rw [waita_eq hn ha, if_pos hl, if_neg hend]
  obtain ⟨h1, h2, h3⟩ := hart_waitaWait ((s.launching (waitaReads (s.g a) z)).dropOwn.logOwn (.g d) false).numbered i d
    (.waita d (s.g a) (sizeBit z) (s.g b) (s.cycleOf s.cur s.curHart) (s.cycleOf s.cur s.curHart) false)
  rw [hart_numbered, hart_logOwn, show (s.launching (waitaReads (s.g a) z)).dropOwn.hart = s.hart from hart_launching ha] at h2 h3
  exact ⟨rfl, rfl, h1, h2.trans (by rw [logReg_regs]), h3.trans (by rw [logReg_pc])⟩

theorem waita_of_elsewhere (hl : spaceOf (s.g a) ≠ .loc) (he : s.entryFree = true) :
    let t := s.waita i d b a (sizeBit z)
    let now := s.cycleOf s.cur s.curHart
    ∃ r, t.disp = .waiting ∧ t.mem = s.mem ∧ t.hart.wait = .waita d (s.g a) (sizeBit z) (s.g b) now now true ∧ t.net.accs = s.net.accs ++ [r] ∧
      r.op = .waita := by
  have hh := hart_launching ha
  have hoe : (s.launching (waitaReads (s.g a) z)).ownEntry = none := by
    rw [← (ownEntry_of_isNew hn).1]
    unfold State.ownEntry
    rw [hh]
    rfl
  have hready : (s.launching (waitaReads (s.g a) z)).entryReady = true := by
    have : (s.launching (waitaReads (s.g a) z)).entryFree = s.entryFree := by unfold State.entryFree; rw [hh]; rfl
    rw [State.entryReady, this, he, Bool.or_true]
  dsimp only
  rw [waita_eq hn ha, if_neg hl, hready, Bool.not_true, if_neg Bool.false_ne_true, sendOut_waita rfl ((ownEntry_logOwn ..).trans hoe)]
  exact ⟨_, rfl, rfl, (hart_waitaWait ..).1, rfl, rfl⟩

end

/-! WAITA reads again -/

/-- The state in which a WAITA that waits reads again. -/
def State.reading (s : State) (c : CoreId) (h : HartId) (slot : Slot) : State := { s with cur := c, curHart := h, slot := slot }

/-- The hart notes in what it waits, as a read takes place that no watch matches. -/
def State.reread (s : State) (c : CoreId) (h : HartId) (slot : Slot) (q : Ask) (m : Wait) : State :=
  ((s.reading c h slot).launching q).onHart fun k => { k with wait := m }

section
variable {s : State} {c : CoreId} {h : HartId} {slot : Slot} {q : Ask} (ha : (s.reading c h slot).allows q = true) (m : Wait)
include ha

theorem hartAt_reread : (s.reread c h slot q m).hartAt c h = { s.hartAt c h with wait := m } := by
  have e : ((s.reading c h slot).launching q).hart = s.hartAt c h := hart_launching ha
  exact (State.hart_onHart ..).trans (by rw [e])

theorem cycleOf_reread : (s.reread c h slot q m).cycleOf c h = s.cycleOf c h := by
  have hc : (s.reread c h slot q m).core c = (((s.reading c h slot).launching q).core c).setHart h _ :=
    State.core_onCore_same ((s.reading c h slot).launching q) c _
  unfold State.cycleOf
  rw [hartAt_reread ha, hc, Core.setHart_cycles, State.launching, core_onHart_of_eq (useSkips_of_allows ha)]
  rfl

end

/-- A read of a WAITA ends its wait, or is noted with its time (R230). -/
theorem waitaRead_of_reading {u : State} {c : CoreId} {h : HartId} {d : BitVec 5} {va cmp start last : W} {size : Nat}
    (hu : (u.hartAt c h).wait = .waita d va size cmp start last true) (x : BitVec 512) : u.waitaRead c h x =
      if waitaEnds size x cmp start (u.cycleOf c h) (u.hartAt c h).waitlim then u.finishWait c h (oneWrite (.g d) (waitaValue size x))
      else u.onHartAt c h fun k => { k with wait := .waita d va size cmp start (u.cycleOf c h) false } := by
  simp only [State.waitaRead, hu]

/-- What a hart has concluded does not depend on what it waited in. -/
theorem concluded_of_wait {s u t : State} {c : CoreId} {h : HartId} {w : WaitAt} {r : OpResult} {m : Wait} (ht : u.concluded t c h w r)
    (hu : u.hartAt c h = { s.hartAt c h with wait := m }) : s.concluded t c h w r := by
  unfold State.concluded at ht ⊢
  rw [hu] at ht
  exact ht

section
variable {s : State} {c : CoreId} {h : HartId} {d : BitVec 5} {va : W} {z : Bool} {cmp start last : W} {w : WaitAt}
  (hw : (s.hartAt c h).wait = .waita d va (sizeBit z) cmp start last false)
  (ha : (s.reading c h w.slot).allows (waitaReads va z) = true)
include hw ha

/-- A WAITA reads again in the hart's own store (R230). -/
theorem waitaAgain_eq (hl : spaceOf va = .loc) : s.waitaAgain c h w.op va (sizeBit z) w.slot =
    (s.reread c h w.slot (waitaReads va z) (.waita d va (sizeBit z) cmp start last true)).waitaRead c h (s.bytesAt (localKey c va.toNat) (sizeBit z)) := by
  have hown : allOwn (makeParts (s.reading c h w.slot) (waitaReads va z) (waitaReads va z).els 0) = true := by
    rw [allOwn_of_allows ha, isLocal_waitaReads, hl]; rfl
  have hwait : ((s.reading c h w.slot).launching (waitaReads va z)).hart.wait = .waita d va (sizeBit z) cmp start last false := by
    rw [hart_launching ha]; exact hw
  unfold State.waitaAgain
  dsimp only
  rw [show waitaAsk va (sizeBit z) = waitaReads va z from rfl, show ({ s with cur := c, curHart := h, slot := w.slot } : State) =
    s.reading c h w.slot from rfl, gate_of_allows _ ha]
  dsimp only
  rw [show ((s.reading c h w.slot).onHart fun k => useSkips k (waitaReads va z)) = (s.reading c h w.slot).launching (waitaReads va z) from rfl,
    makeParts_launching ha, hown, if_pos rfl]
  refine congrArg (State.waitaRead · c h _) (State.onHart_congr _ _ _ ?_)
  rw [hwait]

/-- A read in the hart's own store ends the wait or notes its time (R230). -/
theorem waitaAgain_of_local (hl : spaceOf va = .loc) (hwa : (s.hartAt c h).waitAt = some w) : let t := s.waitaAgain c h w.op va (sizeBit z) w.slot
    let x := bytesValue s.mem (localKey c va.toNat) (sizeBit z)
    let limitPassed := (s.hartAt c h).waitlim.toNat ≤ (s.cycleOf c h - start).toNat
    t.mem = s.mem ∧ (x ≠ cmp.toNat % 2 ^ (8 * sizeBit z) ∨ limitPassed →
        s.concluded t c h w (oneWrite (.g d) ((BitVec.ofInt 64 (signedLow (8 * sizeBit z) x)).setWidth 1024))) ∧
      (¬ (x ≠ cmp.toNat % 2 ^ (8 * sizeBit z) ∨ limitPassed) → (t.hartAt c h).wait = .waita d va (sizeBit z) cmp start (s.cycleOf c h) false) := by
  have hu := hartAt_reread ha (.waita d va (sizeBit z) cmp start last true)
  have hread := waitaRead_of_reading (congrArg Hart.wait hu) (s.bytesAt (localKey c va.toNat) (sizeBit z))
  rw [cycleOf_reread ha, congrArg Hart.waitlim hu, ← waitaAgain_eq hw ha hl] at hread
  dsimp only
  rw [hread, ← waitaValue_eq, ← waitaEnds_iff]
  refine ⟨?_, fun he => ?_, fun he => ?_⟩
  · split
    · exact State.finishWait_mem ..
    · rfl
  · rw [if_pos he]
    exact concluded_of_wait (finishWait_concluded _ (by rw [hu]; exact hwa)) hu
  · rw [if_neg he, State.hartAt_onHartAt_same]

/-- A poll that is due reads again (R222, R230). -/
theorem poll_eq (hwa : (s.hartAt c h).waitAt = some w) (hr : s.atRest c = false) (h16 : 16 ≤ (s.cycleOf c h - last).toNat) (limit : Bool)
    (hlim : limit = true → (s.hartAt c h).waitlim.toNat ≤ (s.cycleOf c h - start).toNat) :
    s.poll c h limit = (s.waitaAgain c h w.op va (sizeBit z) w.slot).occur := by
  obtain ⟨-, -, -, howed⟩ := allows_iff.mp ha
  have howed' : ({ s with cur := c, curHart := h } : State).ownOwed (waitaAsk va (sizeBit z)) = false := howed
  have hgo : (!limit || decide ((s.hartAt c h).waitlim.toNat ≤ (s.cycleOf c h - start).toNat)) = true := by
    cases limit with
    | false => rfl
    | true => simpa using hlim rfl
  simp only [State.poll, hw, hwa]
  rw [howed', hr, hgo, decide_eq_true h16]
  rfl

end

theorem State.concluded.of_sameHarts {s t u : State} {c : CoreId} {h : HartId} {w : WaitAt} {r : OpResult} (ht : s.concluded t c h w r)
    (hu : t.SameHarts u) : s.concluded u c h w r := by
  unfold State.concluded at ht ⊢
  rw [hu.hartAt c h]
  exact ht

/-- A step of the package that takes place changes only the note of it. -/
theorem occurs (s : State) : ∃ t, s.occur = .next t ∧ t.disp = .occurred ∧ t.mem = s.mem ∧ s.SameHarts t := ⟨_, rfl, rfl, rfl, ⟨fun _ _ => rfl⟩⟩

/-! Fences and YIELD -/

/-- A pause ends when no other hart of the core may issue (R112). -/
theorem exec_yieldPauseEnd {c : CoreId} {h : HartId} {s : State} (hp : (s.hartAt c h).pause ≠ 0)
    (ho : ∀ k, k ≠ h → (s.hartAt c k).pause = 0 → s.mayIssue c k = false) :
    exec (.yieldPauseEnd c h) s = (s.onHartAt c h fun x => { x with pause := 0 }).occur := by
  have hnone : hartIds.any (fun i => i != h && (s.hartAt c i).pause == 0 && s.mayIssue c i) = false := by
    rw [List.any_eq_false]
    intro i _ hi
    simp only [Bool.and_eq_true, bne_iff_ne, beq_iff_eq] at hi
    rw [ho i hi.1.1 hi.1.2] at hi
    exact Bool.false_ne_true hi.2
  show execYieldPauseEnd c h s = _
  rw [execYieldPauseEnd, hnone, beq_eq_false_iff_ne.mpr hp]
  rfl

/-- Settles O23: FENCE, IFENCE and YIELD by their meanings; WAITA by what its first read and a later one do. -/
theorem fencesYieldAndWaita : Obligations.FencesYieldAndWaita := by
  refine ⟨fun e p q u v sc w l s hi => ?_, fun w l s hi => ?_, fun w l s hi => ?_, fun c h s hp ho => exec_yieldPauseEnd hp ho,
    fun sc z b a d w l s hi hn ha => ?_, fun s c h d va z cmp start last w limit hw hwa hl hr ha h16 => ?_⟩
  · have he : exec (.fence e p q u v sc w l) s = .next (if e && s.engineBusy s.cur s.curHart then s.hold else s.complete) := issue_of_issues hi
    rw [he]
    refine ⟨fun h => ?_, fun h1 h2 => by rw [h1, h2]; rfl⟩
    rw [if_neg (by rcases h with h | h <;> simp [h]), complete_eq_retires s (flow_of_issues hi)]
  · exact (issue_of_issues hi).trans (congrArg Host.Outcome.next (complete_onHart (flow_of_issues hi) _))
  · exact (issue_of_issues hi).trans (congrArg Host.Outcome.next (complete_onHart (flow_of_issues hi) _))
  · have he : exec (.waita sc z b a d w l) s = .next (s.waita (.waita sc z b a d w l) d b a (sizeBit z)) := by
      rw [← preciseOr_of_issues (t := s.waita (.waita sc z b a d w l) d b a (sizeBit z)) hi]
      exact issue_of_issues hi
    dsimp only
    rw [he]
    exact ⟨fun hl h => ⟨_, rfl, waita_of_ending hn ha hl h⟩, fun hl h hw => ⟨_, rfl, waita_of_waiting hn ha hl h hw⟩, fun hl hf => by
      obtain ⟨r, hr⟩ := waita_of_elsewhere hn ha hl hf
      exact ⟨_, r, rfl, hr⟩⟩
  · intro x limitPassed ev hlim
    have hev : exec ev s = s.poll c h limit := by cases limit <;> rfl
    obtain ⟨t, ht, hocc, hmem, hsame⟩ := occurs (s.waitaAgain c h w.op va (sizeBit z) w.slot)
    obtain ⟨hm, hends, hgoes⟩ := waitaAgain_of_local hw ha hl hwa
    refine ⟨t, by rw [hev, poll_eq hw ha hwa hr h16 limit hlim, ht], hocc, hmem.trans hm, fun hx => (hends hx).of_sameHarts hsame, fun hx => ?_⟩
    rw [hsame.hartAt c h]
    exact hgoes hx

end Sys2Proof.Machine
end

section
/-!
PROOF. A change of one hart leaves every other hart of the package as it is.
-/

namespace Sys2Proof.Machine

section
variable {c d : CoreId} {h i : HartId} (hne : (d, i) ≠ (c, h))
include hne

theorem State.hartAt_onHartAt_other (s : State) (f : Hart → Hart) : (s.onHartAt c h f).hartAt d i = s.hartAt d i := by
  unfold State.hartAt State.onHartAt
  by_cases hd : d = c
  · subst hd
    rw [State.core_onCore_same, Core.hart_setHart_other _ _ _ _ fun e => hne (by rw [e])]
  · rw [State.core_onCore_other _ _ _ _ hd]

theorem hartAt_retire_other {s : State} (hc : s.cur = c) (hh : s.curHart = h) : s.retire.hartAt d i = s.hartAt d i := by
  obtain ⟨f, fl, e, -⟩ := retire_eq_onHart s
  subst hc
  subst hh
  rw [e]
  exact State.hartAt_onHartAt_other hne s f

theorem hartAt_complete_other {s : State} (hc : s.cur = c) (hh : s.curHart = h) : s.complete.hartAt d i = s.hartAt d i := by
  unfold State.complete
  split
  · exact hartAt_retire_other hne hc hh
  · rfl

theorem hartAt_finishWait_other (s : State) (r : OpResult) : (s.finishWait c h r).hartAt d i = s.hartAt d i := by
  unfold State.finishWait
  split
  · rfl
  · split
    · obtain ⟨f, _, e, -⟩ := takeResult_eq_onHart (s.issuing c h .lone) _ r
      rw [e]
      exact (hartAt_complete_other hne rfl rfl).trans (State.hartAt_onHartAt_other hne (s.issuing c h .lone) f)
    · exact (State.hartAt_bump ..).trans (State.hartAt_onHartAt_other hne s _)

end

/-- A hart that waits in no instruction gets no result. -/
theorem finishWait_of_none {s : State} {c : CoreId} {h : HartId} (r : OpResult) (hw : (s.hartAt c h).waitAt = none) : s.finishWait c h r = s := by
  rw [State.finishWait, hw]

@[simp] theorem State.finishWait_groups (s : State) (c : CoreId) (h : HartId) (r : OpResult) : (s.finishWait c h r).groups = s.groups := by
  unfold State.finishWait
  split
  · rfl
  · split
    · obtain ⟨f, _, e, -⟩ := takeResult_eq_onHart (s.issuing c h .lone) _ r
      rw [e, State.complete_groups]
      rfl
    · rfl

end Sys2Proof.Machine
end

section
/-!
PROOF. Groups: a join takes the lowest free rank, a member that leaves is gone, and an episode that completes releases its waiters (R111 to R114).
-/

namespace Sys2Proof.Machine

/-! Ranks -/

/-- The lowest free number is free, and those below it are taken. -/
theorem of_lowestFree {l : List Nat} {n i r : Nat} (h : lowestFree l n i = some r) : r ∉ l ∧ ∀ q, i ≤ q → q < r → q ∈ l := by
  induction n generalizing i with
  | zero => cases h
  | succ n ih =>
    rw [lowestFree] at h
    by_cases hi : i ∈ l
    · rw [if_pos (List.contains_iff_mem.mpr hi)] at h
      obtain ⟨h1, h2⟩ := ih h
      refine ⟨h1, fun q hq hr => ?_⟩
      rcases Nat.eq_or_lt_of_le hq with rfl | hlt
      · exact hi
      · exact h2 q hlt hr
    · rw [if_neg (by rwa [List.contains_iff_mem])] at h
      cases h
      exact ⟨hi, fun q hq hr => absurd hr (Nat.not_lt.mpr hq)⟩

/-- Where no number is free all are taken. -/
theorem mem_of_lowestFree_none {l : List Nat} {n i : Nat} (h : lowestFree l n i = none) : ∀ q, i ≤ q → q < i + n → q ∈ l := by
  induction n generalizing i with
  | zero => exact fun q hq hr => absurd hr (Nat.not_lt.mpr hq)
  | succ n ih =>
    rw [lowestFree] at h
    by_cases hi : i ∈ l
    · rw [if_pos (List.contains_iff_mem.mpr hi)] at h
      intro q hq hr
      rcases Nat.eq_or_lt_of_le hq with rfl | hlt
      · exact hi
      · exact ih h q hlt (by omega)
    · rw [if_neg (by rwa [List.contains_iff_mem])] at h
      cases h

/-- Of more numbers than are taken one is free. -/
theorem lowestFree_isSome {l : List Nat} {n : Nat} (h : l.length < n) : ∃ r, lowestFree l n 0 = some r := by
  refine Option.isSome_iff_exists.mp (Option.isSome_iff_ne_none.mpr fun hn => ?_)
  have hs : List.range n ⊆ l := fun q hq => mem_of_lowestFree_none hn q (Nat.zero_le q) (by simpa using hq)
  have := (List.subperm_of_subset List.nodup_range hs).length_le
  rw [List.length_range] at this
  omega

/-! Members -/

theorem has_of_rank {g : Group} {c : CoreId} {h : HartId} {r : Nat} (hr : g.rank c h = some r) : (c, h, r) ∈ g.members := by
  obtain ⟨⟨i, j, k⟩, hf, rfl⟩ := Option.map_eq_some_iff.mp hr
  have hp := List.find?_some hf
  simp only [Bool.and_eq_true, beq_iff_eq] at hp
  obtain ⟨rfl, rfl⟩ := hp
  exact List.mem_of_find?_eq_some hf

theorem rank_isSome_iff (g : Group) (c : CoreId) (h : HartId) : (g.rank c h).isSome = true ↔ g.has c h := by
  refine ⟨fun hs => ?_, fun ⟨r, hr⟩ => ?_⟩
  · obtain ⟨r, hr⟩ := Option.isSome_iff_exists.mp hs
    exact ⟨r, has_of_rank hr⟩
  · rw [Group.rank, Option.isSome_map, List.find?_isSome]
    exact ⟨_, hr, by simp⟩

/-! Groups -/

theorem id_of_group {s : State} {i : BitVec 12} {g : Group} (h : s.group i = some g) : g.id = i := by simpa using List.find?_some h

/-- A group that is changed under its number is found with the change. -/
theorem group_onGroup {s : State} {i : BitVec 12} {g : Group} {f : Group → Group} (h : s.group i = some g) (hf : ∀ x, (f x).id = x.id) :
    (s.onGroup i f).group i = some (f g) := by
  have hg := id_of_group h
  have hp : ((fun x : Group => x.id == i) ∘ fun x => if (x.id == i) = true then f x else x) = fun x => x.id == i := by
    funext x
    dsimp only [Function.comp_apply]
    split
    · rw [hf]
    · rfl
  unfold State.group at h
  rw [State.group, State.onGroup, List.find?_map, hp, h, Option.map_some, if_pos (by simpa using hg)]

/-- A new group is found under its number. -/
theorem group_append {s : State} {g : Group} (h : s.group g.id = none) : ({ s with groups := s.groups ++ [g] } : State).group g.id = some g := by
  unfold State.group at h ⊢
  rw [List.find?_append, h]
  simp

/-- A change of the groups leaves the harts. -/
theorem sameHarts_groups (s : State) (l : List Group) : s.SameHarts { s with groups := l } := ⟨fun _ _ => rfl⟩

/-- A hart that joins is a member, by its own rank if it was one (R111). -/
theorem join_spec (s : State) (c : CoreId) (h : HartId) (i : BitVec 12) : ∃ l g, s.join c h i = ({ s with groups := l }, (s.join c h i).2) ∧
    ({ s with groups := l } : State).group i = some g ∧ (c, h, (s.join c h i).2) ∈ g.members ∧
    ∀ old, s.group i = some old → ¬ old.has c h → old.members.length < 16384 →
      (∀ a b k, (a, b, k) ∈ old.members → k ≠ (s.join c h i).2) ∧ ∀ q, q < (s.join c h i).2 → ∃ a b, (a, b, q) ∈ old.members := by
  unfold State.join
  cases hg : s.group i with
  | none => exact ⟨_, _, rfl, group_append (g := ⟨i, _, _, _, _, _, _, _⟩) hg, List.mem_singleton_self _, nofun⟩
  | some g =>
    dsimp only
    cases hr : g.rank c h with
    | some r =>
      refine ⟨s.groups, g, rfl, hg, has_of_rank hr, fun old ho hn => ?_⟩
      cases ho
      exact absurd ⟨r, has_of_rank hr⟩ hn
    | none =>
      refine ⟨_, _, rfl, group_onGroup hg fun _ => rfl, List.mem_append_right _ (List.mem_singleton_self _), fun old ho _ hlen => ?_⟩
      cases ho
      obtain ⟨r, hf⟩ := lowestFree_isSome (l := g.members.map fun m => m.2.2) (n := 16384) (by rwa [List.length_map])
      obtain ⟨h1, h2⟩ := of_lowestFree hf
      rw [hf]
      refine ⟨fun a b k hk he => h1 (List.mem_map.mpr ⟨_, hk, he⟩), fun q hq => ?_⟩
      obtain ⟨⟨a, b, k⟩, hm, rfl⟩ := List.mem_map.mp (h2 q (Nat.zero_le q) hq)
      exact ⟨a, b, hm⟩

/-- A hart that leaves a group is in none of its number any more (R114). -/
theorem not_has_leaveGroup (s : State) (c : CoreId) (h : HartId) (i : BitVec 12) {g : Group} (hg : (s.leaveGroup c h i).group i = some g) :
    ¬ g.has c h := by
  have hid := id_of_group hg
  rintro ⟨r, hr⟩
  unfold State.leaveGroup at hg
  split at hg
  · next hn =>
    have := List.find?_eq_none.mp hn g (List.mem_of_find?_eq_some hg)
    simp only [hid, BEq.rfl, Bool.true_and, List.any_eq_true, Bool.and_eq_true, beq_iff_eq, not_exists, not_and] at this
    exact this (c, h, r) hr rfl rfl
  · next k hk =>
    dsimp only at hg
    split at hg
    · have hm : g ∈ s.groups.filter fun x => x.id != i := List.mem_of_find?_eq_some hg
      simp [hid] at hm
    · have hm := List.mem_of_find?_eq_some hg
      obtain ⟨x, hx, rfl⟩ := List.mem_map.mp hm
      split at hr
      · simp at hr
      · next hne =>
        rw [if_neg hne] at hid
        simp [hid] at hne

theorem hart_leaveGroup (s : State) (c : CoreId) (h : HartId) (i : BitVec 12) : (s.leaveGroup c h i).hart = s.hart := by
  unfold State.leaveGroup
  split
  · rfl
  · dsimp only
    split <;> rfl

/-! Barriers -/

/-- What is released goes on: a hart of the list that waits in an instruction waits for nothing afterwards. -/
theorem wait_foldl_finishWait {c : CoreId} {h : HartId} (l : List (CoreId × HartId)) (s : State)
    (hs : (s.hartAt c h).wait = .none ∧ (s.hartAt c h).waitAt = none ∨ (c, h) ∈ l ∧ ∃ w, (s.hartAt c h).waitAt = some w) :
    ((l.foldl (fun s m => s.finishWait m.1 m.2 noWrite) s).hartAt c h).wait = .none := by
  induction l generalizing s with
  | nil => exact (hs.resolve_right fun ⟨hm, _⟩ => List.not_mem_nil hm).1
  | cons m l ih =>
    refine ih _ ?_
    dsimp only
    by_cases he : (c, h) = m
    · subst he
      rcases hs with ⟨hw, ha⟩ | ⟨-, w, ha⟩
      · rw [finishWait_of_none _ ha]
        exact .inl ⟨hw, ha⟩
      · obtain ⟨hw, hn, -⟩ := finishWait_concluded noWrite ha
        exact .inl ⟨hw, hn⟩
    · rw [hartAt_finishWait_other he]
      exact hs.imp_right fun ⟨hm, hw⟩ => ⟨(List.mem_cons.mp hm).resolve_left he, hw⟩

theorem groups_foldl_finishWait (l : List (CoreId × HartId)) (s : State) :
    (l.foldl (fun s m => s.finishWait m.1 m.2 noWrite) s).groups = s.groups := by
  induction l generalizing s with
  | nil => rfl
  | cons m l ih => exact (ih _).trans (State.finishWait_groups ..)

theorem groups_foldl_onHartAt (l : List (CoreId × HartId)) (f : Hart → Hart) (s : State) :
    (l.foldl (fun s m => s.onHartAt m.1 m.2 f) s).groups = s.groups := by
  induction l generalizing s with
  | nil => rfl
  | cons m l ih => exact ih _

theorem hartAt_foldl_onHartAt_other {c : CoreId} {h : HartId} (l : List (CoreId × HartId)) (f : Hart → Hart) (s : State) (hl : (c, h) ∉ l) :
    (l.foldl (fun s m => s.onHartAt m.1 m.2 f) s).hartAt c h = s.hartAt c h := by
  induction l generalizing s with
  | nil => rfl
  | cons m l ih =>
    rw [List.mem_cons, not_or] at hl
    exact (ih _ hl.2).trans (State.hartAt_onHartAt_other hl.1 s f)

/-- Records of the tree leave harts and groups. -/
theorem foldl_post (src : Nat) (fifo : BitVec 5) (kind : BitVec 8) (status : Byte) (x : BitVec 48) (l : List CoreId) (s : State) :
    s.SameHarts (l.foldl (fun s c => s.post src c fifo kind status x) s) ∧ (l.foldl (fun s c => s.post src c fifo kind status x) s).groups = s.groups := by
  induction l generalizing s with
  | nil => exact ⟨.refl s, rfl⟩
  | cons c l ih =>
    obtain ⟨h1, h2⟩ := ih (s.post src c fifo kind status x)
    exact ⟨(sameHarts_post ..).trans h1, h2⟩

theorem mem_waitersAt {s : State} {g : Group} {late : Bool} {c : CoreId} {h : HartId} :
    (c, h) ∈ s.waitersAt g late ↔ g.has c h ∧ (s.hartAt c h).wait = .gbar g.id late := by
  simp only [State.waitersAt, List.mem_map, List.mem_filter, beq_iff_eq, Group.has]
  constructor
  · rintro ⟨⟨i, j, k⟩, ⟨hm, hw⟩, he⟩
    cases he
    exact ⟨⟨k, hm⟩, hw⟩
  · rintro ⟨⟨r, hm⟩, hw⟩
    exact ⟨_, ⟨hm, hw⟩, rfl⟩

theorem group_congr {s t : State} (h : t.groups = s.groups) (i : BitVec 12) : t.group i = s.group i := by
  unfold State.group
  rw [h]

/-- The end of an episode: the group changes by `f`, late members are put off to the next episode, records are posted and waiters go on (R114, R312). -/
def State.endEpisode (s : State) (i : BitVec 12) (f : Group → Group) (late go : List (CoreId × HartId)) (cores : List CoreId) (x : BitVec 48) : State :=
  go.foldl (fun s m => s.finishWait m.1 m.2 noWrite)
    (cores.foldl (fun s c => s.post srcBarrier c 22 0x60 0 x)
      (late.foldl (fun s m => s.onHartAt m.1 m.2 fun h => { h with wait := .gbar i false }) (s.onGroup i f)))

theorem endEpisode_spec {s : State} {i : BitVec 12} {g : Group} {f : Group → Group} (hg : s.group i = some g) (hf : ∀ x, (f x).id = x.id)
    (late go : List (CoreId × HartId)) (cores : List CoreId) (x : BitVec 48) :
    (s.endEpisode i f late go cores x).group i = some (f g) ∧ ∀ c h w, (c, h) ∈ go → (c, h) ∉ late → (s.hartAt c h).waitAt = some w →
      ((s.endEpisode i f late go cores x).hartAt c h).wait = .none := by
  obtain ⟨hsame, hgroups⟩ := foldl_post srcBarrier 22 0x60 0 x cores
    (late.foldl (fun s m => s.onHartAt m.1 m.2 fun h => { h with wait := .gbar i false }) (s.onGroup i f))
  refine ⟨?_, fun c h w hgo hlate hw => wait_foldl_finishWait go _ (.inr ⟨hgo, w, ?_⟩)⟩
  · rw [← group_onGroup hg hf]
    exact group_congr ((groups_foldl_finishWait ..).trans (hgroups.trans (groups_foldl_onHartAt ..))) i
  · rw [hsame.hartAt c h, hartAt_foldl_onHartAt_other _ _ _ hlate]
    exact hw

/-- The next episode of a group: open, with those that came late, if there are any (R114). -/
def Group.nextEpisode (late owed : List (CoreId × HartId)) (x : Group) : Group :=
  { x with isOpen := !late.isEmpty, awaited := if late.isEmpty then [] else x.members.map fun m => (m.1, m.2.1), arrived := late,
           episode := x.episode + 1, owed := x.owed ++ owed }

/-- An episode of which every awaited member has arrived ends. -/
theorem exec_barrierEpisodeComplete {s : State} {g : Group} {i : BitVec 12} (hg : s.group i = some g) (ho : g.isOpen = true)
    (ha : ∀ m ∈ g.awaited, m ∈ g.arrived) : ∃ owed cores x, exec (.barrierEpisodeComplete i) s =
      (s.endEpisode i (Group.nextEpisode (s.waitersAt g true) owed) (s.waitersAt g true) (s.waitersAt g false) cores x).occur := by
  have hall : (!g.isOpen || !g.awaited.all fun m => g.arrived.contains m) = false := by
    rw [ho, Bool.not_true, Bool.false_or, Bool.not_eq_false', List.all_eq_true]
    exact fun m hm => List.contains_iff_mem.mpr (ha m hm)
  refine ⟨g.awaited.filter fun m => !(s.waitersAt g false).contains m, (g.members.map fun m => m.1).eraseDups, g.episode ++ 0#4 ++ i, ?_⟩
  show execBarrierEpisodeComplete i s = _
  rw [execBarrierEpisodeComplete, hg]
  dsimp only
  rw [hall, if_neg Bool.false_ne_true]
  rfl

/-! The instructions -/

/-- A group number that is one has no bits above it (R113). -/
theorem extract_high_of_lt {x : W} (h : x.toNat < 4096) : (x.extractLsb' 12 52 != 0) = false := by
  have : x.extractLsb' 12 52 = 0 := by
    apply BitVec.eq_of_toNat_eq
    rw [toNat_extractLsb'_eq, Nat.div_eq_of_lt (show x.toNat < 2 ^ 12 from h)]
    rfl
  simp [this]

/-- A member arrives at its group's barrier (R114). -/
theorem arriveAt_waits (s : State) (i : Instr) {g : Group} (hg : s.group g.id = some g) (ho : (s.cur, s.curHart) ∉ g.owed) :
    ∃ k, let t := s.arriveAt i g
      t.disp = .waiting ∧ t.hart.pc = s.hart.pc ∧ t.group g.id = some k ∧
      (g.isOpen = false → t.hart.wait = .gbar g.id false ∧ k.isOpen = true ∧ k.awaited = g.members.map (fun m => (m.1, m.2.1)) ∧
        k.arrived = [(s.cur, s.curHart)]) ∧
      (g.isOpen = true → (s.cur, s.curHart) ∈ g.awaited → t.hart.wait = .gbar g.id false ∧ (s.cur, s.curHart) ∈ k.arrived) ∧
      (g.isOpen = true → (s.cur, s.curHart) ∉ g.awaited → t.hart.wait = .gbar g.id true ∧ k = g) := by
  have howed : g.owed.contains (s.cur, s.curHart) = false := by simpa using ho
  have hwait (u : State) (hu : u.hart = s.hart) (b : Bool) : let t := u.waitIn i (.gbar g.id b)
      t.hart.wait = .gbar g.id b ∧ t.hart.pc = s.hart.pc := by
    dsimp only
    rw [State.hart_waitIn, hu]
    exact ⟨rfl, rfl⟩
  dsimp only
  rw [State.arriveAt, howed, if_neg Bool.false_ne_true]
  cases hop : g.isOpen with
  | false =>
    obtain ⟨hw, hp⟩ := hwait (s.onGroup g.id _) rfl false
    exact ⟨_, rfl, hp, group_onGroup hg fun _ => rfl, fun _ => ⟨hw, rfl, rfl, rfl⟩, nofun, nofun⟩
  | true =>
    by_cases hm : (s.cur, s.curHart) ∈ g.awaited
    · have hc : g.awaited.contains (s.cur, s.curHart) = true := List.contains_iff_mem.mpr hm
      obtain ⟨hw, hp⟩ := hwait (s.onGroup g.id _) rfl false
      rw [Bool.not_true, if_neg Bool.false_ne_true, if_pos hc]
      refine ⟨_, rfl, hp, group_onGroup hg fun _ => rfl, nofun, fun _ _ => ⟨hw, ?_⟩, fun _ h => absurd hm h⟩
      dsimp only
      split
      · next h => exact List.contains_iff_mem.mp h
      · exact List.mem_append_right _ (List.mem_singleton_self _)
    · have hc : ¬ g.awaited.contains (s.cur, s.curHart) = true := fun h => hm (List.contains_iff_mem.mp h)
      obtain ⟨hw, hp⟩ := hwait s rfl true
      rw [Bool.not_true, if_neg Bool.false_ne_true, if_neg hc]
      exact ⟨g, rfl, hp, hg, nofun, fun _ h => absurd h hm, fun _ _ => ⟨hw, rfl⟩⟩

theorem occurs_groups (s : State) : ∃ t, s.occur = .next t ∧ t.disp = .occurred ∧ t.groups = s.groups ∧ s.SameHarts t :=
  ⟨_, rfl, rfl, rfl, ⟨fun _ _ => rfl⟩⟩

/-- Settles O24: joins and leaves by what they make of the group, barriers by the member's arrival and the end of the episode. -/
theorem groupsAndBarriers : Obligations.GroupsAndBarriers := by
  refine ⟨fun a d w l s hi hj => ?_, fun s c h d x w hw hwa hj => ?_, fun a w l s hi hx => ?_, fun a d w l s hi hx => ?_,
    fun a w l s g hi hx hg hm ho => ?_, fun s g i hg ho ha => ?_⟩
  · have he : exec (.gjoin a d w l) s = .next (s.preciseOr (.gjoin a d w l) (if s.joinRefused s.cur s.curHart (s.g a) then s.groupRefused (s.g a)
        else s.waitIn (.gjoin a d w l) (.gjoin d (s.g a)))) := issue_of_issues hi
    rw [he, preciseOr_of_issues hi, hj]
    rfl
  · obtain ⟨gs, g, hjoin, hgroup, hmem, hlow⟩ := join_spec s c h (x.extractLsb' 0 12)
    generalize (s.join c h (x.extractLsb' 0 12)).2 = r at hjoin hmem hlow
    have he : exec (.groupJoinConfirm c h) s =
        (({ s with groups := gs } : State).finishWait c h (oneWrite (.g d) (BitVec.ofNat 1024 r))).occur := by
      show execGroupJoinConfirm c h s = _
      rw [execGroupJoinConfirm, hw]
      dsimp only
      rw [hj, if_neg Bool.false_ne_true, hjoin]
    obtain ⟨t, ht, hocc, hgs, hsame⟩ := occurs_groups (({ s with groups := gs } : State).finishWait c h (oneWrite (.g d) (BitVec.ofNat 1024 r)))
    have hc : ({ s with groups := gs } : State).concluded _ c h w (oneWrite (.g d) (BitVec.ofNat 1024 r)) := finishWait_concluded _ hwa
    refine ⟨t, g, r, he.trans ht, hocc, ?_, hmem, hc.of_sameHarts hsame, fun old ho hn hlen => hlow old ho (fun ⟨k, hk⟩ => hn c h k hk ⟨rfl, rfl⟩) hlen⟩
    rw [← hgroup]
    exact group_congr (hgs.trans (State.finishWait_groups ..)) _
  · have he : exec (.gleave a w l) s = .next (if (s.g a).extractLsb' 12 52 != 0 then s.groupRefused (s.g a)
        else (s.leaveGroup s.cur s.curHart ((s.g a).extractLsb' 0 12)).complete) := issue_of_issues hi
    rw [extract_high_of_lt hx, if_neg Bool.false_ne_true] at he
    refine ⟨_, he, State.complete_disp _, ?_, fun _ g hg => not_has_leaveGroup _ _ _ _ ((group_congr (State.complete_groups _) _).symm.trans hg)⟩
    rw [regs_complete]
    exact congrArg Hart.regs (hart_leaveGroup ..)
  · have he : exec (.gqry a d w l) s = .next (if (s.g a).extractLsb' 12 52 != 0 then s.groupRefused (s.g a)
        else (s.setG d (BitVec.ofNat 64 (((s.group ((s.g a).extractLsb' 0 12)).map fun g => g.members.length).getD 0))).complete) := issue_of_issues hi
    rw [he, extract_high_of_lt hx, if_neg Bool.false_ne_true, setG_eq_wroteG]
    have hfl : s.flow = .next := flow_of_issues hi
    cases s.group ((s.g a).extractLsb' 0 12) <;> exact congrArg Host.Outcome.next (complete_eq_retires (s.wroteG d _) hfl)
  · have he : exec (.gbar a w l) s = .next (s.preciseOr (.gbar a w l) (s.arriveAt (.gbar a w l) g)) := by
      refine (issue_of_issues hi).trans ?_
      rw [extract_high_of_lt hx, if_neg Bool.false_ne_true, hg]
      dsimp only
      rw [if_pos ((rank_isSome_iff ..).mpr hm)]
    obtain ⟨k, hk⟩ := arriveAt_waits s (.gbar a w l) (by rw [id_of_group hg]; exact hg) ho
    exact ⟨_, k, he.trans (by rw [preciseOr_of_issues hi]), hk⟩
  · obtain ⟨owed, cores, x, he⟩ := exec_barrierEpisodeComplete hg ho ha
    obtain ⟨hgroup, hgo⟩ := endEpisode_spec hg (f := Group.nextEpisode (s.waitersAt g true) owed) (fun _ => rfl) (s.waitersAt g true)
      (s.waitersAt g false) cores x
    obtain ⟨t, ht, hocc, hgs, hsame⟩ := occurs_groups (s.endEpisode i (Group.nextEpisode (s.waitersAt g true) owed) (s.waitersAt g true)
      (s.waitersAt g false) cores x)
    refine ⟨t, _, he.trans ht, hocc, (group_congr hgs i).trans hgroup, rfl, fun c h r w hm hw hwa => ?_⟩
    have hid := id_of_group hg
    rw [hsame.hartAt c h, hgo c h w (mem_waitersAt.mpr ⟨⟨r, hm⟩, by rw [hid]; exact hw⟩) (fun hl => ?_) hwa]
    · nofun
    · have := (mem_waitersAt.mp hl).2
      rw [hw] at this
      cases this

end Sys2Proof.Machine
end

section
/-!
PROOF. A HALT of a hart that waits in NEXT, with a late record for it unread: the wake for the record comes before HALT retires (R100, R286).
-/

namespace Sys2Proof.Machine

/-- The boot hart stands at a HALT at 0x100 in M mode. It also waits in NEXT, and a late record of its core is unread: no step of the machine leads
here, since a hart that waits does not issue, but `State.issues` asks nothing of the wait. -/
def haltInNext : State :=
  (State.reset.onHart fun h => { h with pc := 0x100, wait := .next 0 }).onCore 31 fun k => { k with tags := { k.tags with ltTail := 1 } }

theorem issues_haltInNext : haltInNext.issues (.halt true) = true := by decide +kernel

/-- Refutes O47: the clause of HALT has no hypothesis on the wait of the hart that executes it. In `haltInNext` HALT wakes that hart for the late record,
which traps to TVEC, and retires behind the trap: the pc is 4, where the clause says 0x104. -/
theorem not_hartsWaitStopAndStart : ¬ Obligations.HartsWaitStopAndStart := by
  rintro ⟨-, -, halts, -⟩
  have hothers : ∀ h, h ≠ haltInNext.curHart → haltInNext.stoppable haltInNext.cur h = true := by decide +kernel
  obtain ⟨t, ht, -, -, -, hpc⟩ := halts true haltInNext issues_haltInNext rfl (by decide +kernel) hothers
  have he : exec (.halt true) haltInNext = .next haltInNext.halt := issue_of_issues issues_haltInNext
  obtain rfl := Host.Outcome.next.inj (he.symm.trans ht)
  exact absurd hpc (by decide +kernel)

end Sys2Proof.Machine
end

section
/-!
PROOF. The live capacity: MEMCAP, the retirement of a stack, and the migration of its granules (R205 to R207).
-/

namespace Sys2Proof.Machine

/-! Source 12 (R105, R205) -/

/-- Source 12 is pending on every hart of core `c`. -/
def State.warned (s : State) (c : CoreId) : Prop := ∀ h, (s.hartAt c h).trap.edge.getLsbD 0 = true

theorem State.warned.ipend {s : State} {c : CoreId} (hw : s.warned c) (h : HartId) : (s.ipend c h).getLsbD 12 = true := by
  have he : ((s.core c).hart h).trap.edge.getLsbD 0 = true := hw h
  simp [State.ipend, he]

theorem findCore_edge_other (s : State) (c d : CoreId) (n : Nat) (hd : d ≠ c) : findCore d (s.edge c n).cores = findCore d s.cores := by
  simp [State.edge, State.onHarts, hartIds, State.onHartAt, State.onCore, State.setCore, findCore_putCore_other _ _ _ _ hd]

theorem core_edge_other (s : State) (c d : CoreId) (n : Nat) (hd : d ≠ c) : (s.edge c n).core d = s.core d := by
  unfold State.core
  rw [findCore_edge_other s c d n hd]
  rfl

theorem hartAt_edge_same (s : State) (c : CoreId) (n : Nat) (h : HartId) : (s.edge c n).hartAt c h =
    { s.hartAt c h with trap := { (s.hartAt c h).trap with edge := (s.hartAt c h).trap.edge ||| (1#4 <<< (n - 12)) } } := by
  have h4 : h = 0 ∨ h = 1 ∨ h = 2 ∨ h = 3 := by revert h; decide
  simp only [State.edge, State.onHarts, hartIds, List.foldl, State.onHartAt, State.onCore_onCore, State.hartAt, State.core_onCore_same]
  rcases h4 with rfl | rfl | rfl | rfl <;> simp [Core.hart_setHart_other]

theorem warned_edge_same (s : State) (c : CoreId) : (s.edge c 12).warned c := by
  intro h
  rw [hartAt_edge_same]
  simp

theorem State.warned.edge {s : State} {d : CoreId} (hw : s.warned d) (c : CoreId) : (s.edge c 12).warned d := by
  by_cases hd : d = c
  · rw [hd]; exact warned_edge_same s c
  · intro h
    unfold State.hartAt
    rw [core_edge_other s c d 12 hd]
    exact hw h

/-- Source 12 becomes pending on the cores of a list. -/
def State.warnAll (s : State) (l : List (CoreId × Core)) : State := l.foldl (fun s k => s.edge k.1 12) s

theorem warnAll_cores_only (l : List (CoreId × Core)) (s : State) : s.warnAll l = { s with cores := (s.warnAll l).cores } := by
  induction l generalizing s with
  | nil => rfl
  | cons k l ih => exact ih (s.edge k.1 12)

theorem State.warned.warnAll {s : State} {c : CoreId} (hw : s.warned c) (l : List (CoreId × Core)) : (s.warnAll l).warned c := by
  induction l generalizing s with
  | nil => exact hw
  | cons k l ih => exact ih (hw.edge k.1)

theorem warned_warnAll_of_mem {c : CoreId} {x : Core} {l : List (CoreId × Core)} (s : State) (hm : (c, x) ∈ l) : (s.warnAll l).warned c := by
  induction l generalizing s with
  | nil => cases hm
  | cons k l ih =>
    rcases List.mem_cons.mp hm with rfl | hm
    · exact (warned_edge_same s c).warnAll l
    · exact ih _ hm

theorem findCore_warnAll_of_not_listed {c : CoreId} {l : List (CoreId × Core)} (s : State) (hl : findCore c l = none) :
    findCore c (s.warnAll l).cores = findCore c s.cores := by
  induction l generalizing s with
  | nil => rfl
  | cons k l ih =>
    obtain ⟨d, x⟩ := k
    unfold findCore at hl
    split at hl
    · cases hl
    · next hd => exact (ih _ hl).trans (findCore_edge_other s d c 12 fun h => hd (by simp [h]))

theorem unlisted_told {s : State} (hc : s.cap.changed = true) (c : CoreId) (h : HartId) : ((s.unlisted c).hart h).trap.edge.getLsbD 0 = true := by
  unfold State.unlisted
  simp only [hc, Bool.true_or, if_true, Core.hart, Vector.getElem_map]
  split <;> simp [Hart.told]

theorem core_of_not_listed {s : State} {c : CoreId} (hf : findCore c s.cores = none) : s.core c = s.unlisted c := by rw [State.core, hf]; rfl

theorem core_of_listed {s : State} {c : CoreId} {x : Core} (hf : findCore c s.cores = some x) : s.core c = x := by rw [State.core, hf]; rfl

/-- Once MEMCAP has changed, source 12 is pending on a core that is not listed, and stays so on one that is. -/
theorem warned_of_changed {s t : State} {c : CoreId} (hc : t.cores = s.cores) (ht : t.cap.changed = true)
    (hl : findCore c s.cores = none ∨ s.warned c) : t.warned c := by
  intro h
  unfold State.hartAt
  cases hf : findCore c s.cores with
  | none =>
    rw [core_of_not_listed (hc ▸ hf)]
    exact unlisted_told ht c h
  | some x =>
    have hw : s.warned c := hl.resolve_left (by simp [hf])
    have hx := hw h
    unfold State.hartAt at hx
    rw [core_of_listed hf] at hx
    rw [core_of_listed (hc ▸ hf)]
    exact hx

theorem capacityChanged_eq (s : State) :
    s.capacityChanged = { s.warnAll s.cores with cap := { (s.warnAll s.cores).cap with changed := true } } := rfl

/-- A change of the capacity reaches every core, those that are not listed by `changed`. -/
theorem warned_capacityChanged (s : State) (c : CoreId) : s.capacityChanged.warned c := by
  rw [capacityChanged_eq]
  cases hf : findCore c s.cores with
  | some x => exact warned_of_changed (s := s.warnAll s.cores) rfl rfl (.inr (warned_warnAll_of_mem s (mem_of_findCore hf)))
  | none => exact warned_of_changed (s := s.warnAll s.cores) rfl rfl (.inl ((findCore_warnAll_of_not_listed s hf).trans hf))

theorem capacityChanged_cores_only (s : State) :
    s.capacityChanged = { s with cores := s.capacityChanged.cores, cap := { s.cap with changed := true } } := by
  rw [capacityChanged_eq, warnAll_cores_only s.cores s]

/-! Moves of pages and tables (R206 step 2, R257) -/

/-- What is mapped is valid. -/
theorem valid_of_mem_mappedFrom {m : Memory} {n table base : Nat} {x : Mapped} (hx : x ∈ mappedFrom m n table base) : x.pte.getLsbD 0 = true := by
  induction n generalizing table base with
  | zero => cases hx
  | succ n ih =>
    simp only [mappedFrom, List.mem_flatMap] at hx
    obtain ⟨i, -, hx⟩ := hx
    split at hx
    · cases hx
    · next hv =>
      have hv : (BitVec.ofNat 64 (readNat m (table + 8 * i) 8)).getLsbD 0 = true := by
        simp only [Bool.not_eq_true, Bool.or_eq_false_iff, Bool.not_eq_false'] at hv
        exact hv.1
      split at hx
      · rcases List.mem_cons.mp hx with rfl | hx
        · exact hv
        · split at hx
          · exact ih hx
          · cases hx
      · rw [List.mem_singleton.mp hx]
        exact hv

theorem valid_of_mem_highEntries {s : State} {n : Nat} {x : BitVec 16 × Mapped} (hx : x ∈ s.highEntries n) : x.2.pte.getLsbD 0 = true := by
  simp only [State.highEntries, List.mem_flatMap, List.mem_map, List.mem_filter] at hx
  obtain ⟨r, -, y, ⟨hy, -⟩, rfl⟩ := hx
  exact valid_of_mem_mappedFrom hy

theorem usedAbove_of_mem {s : State} {n : Nat} {x : BitVec 16 × Mapped} (hx : x ∈ s.highEntries n) : s.usedAbove n = true := by
  have hne : (s.highEntries n).isEmpty = false := List.isEmpty_eq_false_iff.mpr (List.ne_nil_of_mem hx)
  simp [State.usedAbove, hne]

/-- What the end of a move writes in the entry that it moves. -/
def State.movedWord (s : State) (ctx : BitVec 16) (x : Mapped) (f : BitVec 36) : W :=
  if x.isTable then tableWord f else match s.declaredAt ctx (BitVec.ofNat 36 x.vpn) with
    | some d => leafWord d f
    | none => (x.pte &&& 0xFFFF000000000EFF#64) ||| (f.setWidth 64 <<< 12)

theorem endMove_mem (s : State) (ctx : BitVec 16) (x : Mapped) (f : BitVec 36) : (s.endMove ctx x f).mem =
    writeNat (s.copyRange (4096 * x.frame) (4096 * f.toNat) (4096 * x.frames)).mem x.place 8 (s.movedWord ctx x f).toNat := rfl

theorem endMove_drains (s : State) (ctx : BitVec 16) (x : Mapped) (f : BitVec 36) : (s.endMove ctx x f).books.drains = s.books.drains := rfl

/-- An entry is of frame `f`, valid, and not marked as migrating. -/
def entryOf (f : BitVec 36) (w : W) : Prop := w.extractLsb' 12 36 = f ∧ w.getLsbD 8 = false ∧ w.getLsbD 0 = true

theorem getLsbD_tableWord (f : BitVec 36) (i : Nat) :
    (tableWord f).getLsbD i = BitVec.getLsbD (w := 16 + 36 + 12) (0#16 ++ f ++ 3#12) i := rfl

theorem entryOf_tableWord (f : BitVec 36) : entryOf f (tableWord f) := by
  refine ⟨?_, ?_, ?_⟩
  · refine BitVec.eq_of_getLsbD_eq fun i hi => ?_
    rw [BitVec.getLsbD_extractLsb', getLsbD_tableWord]
    simp (disch := omega) only [BitVec.getLsbD_append, if_neg, if_true, Nat.add_sub_cancel_left, hi, decide_true, Bool.true_and]
  · rw [getLsbD_tableWord]
    simp (disch := omega) only [BitVec.getLsbD_append, if_pos]
    rfl
  · rw [getLsbD_tableWord]
    simp (disch := omega) only [BitVec.getLsbD_append, if_pos]
    rfl

theorem getLsbD_leafWord (d : Declared) (f : BitVec 36) (i : Nat) : (leafWord d f).getLsbD i =
    BitVec.getLsbD (w := 16 + 36 + 6 + 1 + 1 + 1 + 1 + 1 + 1) (0#16 ++ f ++ 0#6 ++ BitVec.ofBool d.u ++ BitVec.ofBool d.x ++
      BitVec.ofBool d.w ++ BitVec.ofBool d.r ++ 0#1 ++ 1#1) i := rfl

theorem entryOf_leafWord (d : Declared) (f : BitVec 36) : entryOf f (leafWord d f) := by
  refine ⟨?_, ?_, ?_⟩
  · refine BitVec.eq_of_getLsbD_eq fun i hi => ?_
    have hf : 12 + i - 1 - 1 - 1 - 1 - 1 - 1 - 6 = i := by omega
    rw [BitVec.getLsbD_extractLsb', getLsbD_leafWord]
    simp (disch := omega) only [BitVec.getLsbD_append, if_neg, if_true, hf, hi, decide_true, Bool.true_and]
  · rw [getLsbD_leafWord]
    simp (disch := omega) only [BitVec.getLsbD_append, if_neg, if_pos]
    rfl
  · rw [getLsbD_leafWord]
    simp (disch := omega) only [BitVec.getLsbD_append, if_pos]
    rfl

theorem entryOf_kept {x : W} (f : BitVec 36) (hx : x.getLsbD 0 = true) : entryOf f ((x &&& 0xFFFF000000000EFF#64) ||| (f.setWidth 64 <<< 12)) := by
  refine ⟨?_, ?_, ?_⟩
  · refine BitVec.eq_of_getLsbD_eq fun i hi => ?_
    have hm : (0xFFFF000000000EFF#64).getLsbD (12 + i) = false :=
      (by decide : ∀ i < 36, (0xFFFF000000000EFF#64).getLsbD (12 + i) = false) i hi
    have h64 : 12 + i < 64 := by omega
    have hi64 : i < 64 := by omega
    rw [BitVec.getLsbD_extractLsb', BitVec.getLsbD_or, BitVec.getLsbD_and, hm, BitVec.getLsbD_shiftLeft, BitVec.getLsbD_setWidth]
    simp [hi, h64, hi64]
  · simp
  · simp [hx]

theorem entryOf_movedWord {s : State} {ctx : BitVec 16} {x : Mapped} (f : BitVec 36) (hx : x.pte.getLsbD 0 = true) :
    entryOf f (s.movedWord ctx x f) := by
  unfold State.movedWord
  split
  · exact entryOf_tableWord f
  · split
    · exact entryOf_leafWord _ f
    · exact entryOf_kept f hx

/-- A move that has ended leaves the entry of the new frame where the old one lay. -/
theorem entryOf_endMove {s : State} {ctx : BitVec 16} {x : Mapped} (f : BitVec 36) (hs : s.Canonical) (hx : x.pte.getLsbD 0 = true) :
    entryOf f (BitVec.ofNat 64 (bytesValue (s.endMove ctx x f).mem x.place 8)) := by
  have hlt : (s.movedWord ctx x f).toNat < 256 ^ 8 := (s.movedWord ctx x f).isLt
  rw [bytesValue_eq_readNat, endMove_mem, readNat_writeNat_same (copyRange_canonical hs), Nat.mod_eq_of_lt hlt,
    BitVec.ofNat_toNat, BitVec.setWidth_eq]
  exact entryOf_movedWord f hx

theorem evacuate_of_no_move {s : State} {n : Nat} {x : BitVec 16 × Mapped} (hd : ∀ d ∈ s.books.drains, ∀ c v l, d.waiter ≠ DrainFor.move c v l)
    (hx : (s.highEntries n).find? (fun x => !x.2.migrates) = some x) : s.evacuate n = some (s.startMove x.1 x.2) := by
  unfold State.evacuate
  dsimp only
  split
  · next d hf =>
    have hm := List.find?_some hf
    split at hm
    · next h => exact absurd h (hd d (List.mem_of_find?_eq_some hf) _ _ _)
    · cases hm
  · rw [hx]

theorem evacuate_of_drained {s : State} {n : Nat} {d : Drain} {ctx : BitVec 16} {v : BitVec 36} {l : Nat} {x : BitVec 16 × Mapped}
    (hd : s.books.drains = [d]) (hw : d.waiter = .move ctx v l) (hdr : s.drained d = true)
    (hx : (s.highEntries n).find? (fun x => x.1 == ctx && x.2.vpn == v.toNat && x.2.level == l && x.2.migrates) = some x) :
    s.evacuate n = if s.frameFits (s.free.extractLsb' 0 36) x.2.frames n then
      some (({ s with books := { s.books with drains := [] } } : State).freed.endMove ctx x.2 (s.free.extractLsb' 0 36)) else some s.freed := by
  have hf : [d].filter (fun e => !(e.waiter == DrainFor.move ctx v l)) = [] := by simp [hw]
  unfold State.evacuate
  simp only [hd, List.find?_cons, hw, hdr, hx, hf, Bool.not_true, Bool.false_eq_true, if_false]

theorem startMove_mem (s : State) (ctx : BitVec 16) (x : Mapped) :
    (s.startMove ctx x).mem = (storeBytes s x.place (natLe 8 (x.pte ||| 0x100#64).toNat)).mem := rfl

theorem startMove_drains (s : State) (ctx : BitVec 16) (x : Mapped) : (s.startMove ctx x).books.drains = s.books.drains ++
    [{ waiter := .move ctx (BitVec.ofNat 36 x.vpn) x.level, parts := s.throughPage ctx (BitVec.ofNat 36 x.vpn) (levelSize x.level) }] := by
  have hp : [ctx].flatMap (fun c => s.throughPage c (BitVec.ofNat 36 x.vpn) (levelSize x.level)) =
      s.throughPage ctx (BitVec.ofNat 36 x.vpn) (levelSize x.level) := List.flatMap_singleton ..
  rw [← hp]
  rfl

/-- The beginning of a move marks its entry, and writes nothing else. -/
theorem onlyWrote_startMove {s : State} (hs : s.Canonical) (ctx : BitVec 16) (x : Mapped) :
    onlyWrote s (s.startMove ctx x) x.place 8 (x.pte ||| 0x100#64).toNat := by
  intro a
  rw [startMove_mem, readByte_storeBytes_natLe hs, writtenAt]
  split <;> rfl

/-! Granules (R206, R207) -/

theorem mem_insertNat_same (x : Nat) (l : List Nat) : x ∈ insertNat x l := by
  induction l with
  | nil => simp [insertNat]
  | cons y l ih => unfold insertNat; grind

theorem mem_insertNat_of_mem {x y : Nat} {l : List Nat} (h : y ∈ l) : y ∈ insertNat x l := by
  induction l with
  | nil => cases h
  | cons z l ih => unfold insertNat; grind

theorem logCause_of_logsNowhere {s : State} (hs : s.logsNowhere) (x : ErrAt) (cause : BitVec 9) : s.logCause x cause = s := by
  unfold State.logCause
  dsimp only
  rw [if_neg]
  rw [hs (dieOf x.core).toNat _ (Vector.getElem?_eq_getElem _)]
  simp

/-- What a step that writes the error log keeps: the capacity, what is poisoned, and, where no log is enabled, memory. -/
structure State.Logged (s t : State) : Prop where
  cap : t.cap = s.cap
  poison : ∀ l ∈ s.poison, l ∈ t.poison
  mem : s.logsNowhere → t.mem = s.mem
  logs : s.logsNowhere → t.logsNowhere

theorem State.Logged.refl (s : State) : s.Logged s := ⟨rfl, fun _ h => h, fun _ => rfl, fun h => h⟩

theorem State.Logged.trans {s t u : State} (h : s.Logged t) (g : t.Logged u) : s.Logged u :=
  ⟨g.cap.trans h.cap, fun l hl => g.poison l (h.poison l hl), fun hs => (g.mem (h.logs hs)).trans (h.mem hs), fun hs => g.logs (h.logs hs)⟩

/-- A log record is 32 bytes of memory and a count of its die's log (R343). -/
theorem logCause_cases (s : State) (x : ErrAt) (cause : BitVec 9) : s.logCause x cause = s ∨
    ∃ place bs e, bs.length = 32 ∧ s.logCause x cause = { storeBytes s place bs with pkg := { s.pkg with elog := e } } := by
  unfold State.logCause
  dsimp only
  split
  · exact .inr ⟨_, _, _, length_natLe .., rfl⟩
  · exact .inl rfl

/-- A record of the log covers no whole line, so that no poison goes with it (R212, R343). -/
theorem mem_poison_storeBytes_record {s : State} {l : Nat} {bs : List Byte} (place : Nat) (hb : bs.length = 32) (hl : l ∈ s.poison) :
    l ∈ (storeBytes s place bs).poison := by
  simp only [storeBytes, List.mem_filter, hl, hb, true_and, Bool.not_eq_true', decide_eq_false_iff_not]
  omega

theorem logged_logCause (s : State) (x : ErrAt) (cause : BitVec 9) : s.Logged (s.logCause x cause) := by
  rcases logCause_cases s x cause with h | ⟨place, bs, e, hb, h⟩
  · rw [h]
    exact .refl s
  · have hn : s.logsNowhere → s.logCause x cause = s := fun hs => logCause_of_logsNowhere hs x cause
    refine ⟨?_, fun l hl => ?_, fun hs => by rw [hn hs], fun hs => by rwa [hn hs]⟩
    · rw [h]
      rfl
    · rw [h]
      exact mem_poison_storeBytes_record place hb hl

/-- The lines of a granule. -/
def poisonLines (l : Nat) (p : List Nat) : List Nat := (List.range 4).foldl (fun p i => insertNat (4 * l + i) p) p

theorem mem_poisonLines_first (l : Nat) (p : List Nat) : 4 * l ∈ poisonLines l p :=
  mem_insertNat_of_mem (mem_insertNat_of_mem (mem_insertNat_of_mem (mem_insertNat_same (4 * l) p)))

theorem mem_poisonLines_of_mem {l x : Nat} {p : List Nat} (h : x ∈ p) : x ∈ poisonLines l p :=
  mem_insertNat_of_mem (mem_insertNat_of_mem (mem_insertNat_of_mem (mem_insertNat_of_mem h)))

theorem logged_poisonLines (s : State) (l : Nat) : s.Logged { s with poison := poisonLines l s.poison } :=
  ⟨rfl, fun _ => mem_poisonLines_of_mem, fun _ => rfl, fun h => h⟩

theorem readGranule_of_bad {s : State} {l : Nat} (h : s.cap.oldStack l = s.cap.rstk.toNat) : ∃ x, s.readGranule l true =
    ({ s with poison := poisonLines l s.poison } : State).logCause x (errCause 3 2) :=
  ⟨_, if_pos (by simp [h])⟩

theorem readGranule_of_sound {s : State} {l : Nat} {b : Bool} (h : ¬(s.cap.oldStack l = s.cap.rstk.toNat ∧ b = true)) : s.readGranule l b = s := by
  refine if_neg fun hb => h ?_
  simpa [and_comm] using hb

theorem logged_readGranule (s : State) (l : Nat) (b : Bool) : s.Logged (s.readGranule l b) := by
  by_cases h : s.cap.oldStack l = s.cap.rstk.toNat ∧ b = true
  · obtain ⟨ho, rfl⟩ := h
    obtain ⟨x, hx⟩ := readGranule_of_bad ho
    rw [hx]
    exact (logged_poisonLines s l).trans (logged_logCause _ _ _)
  · rw [readGranule_of_sound h]
    exact .refl s

theorem mem_poison_readGranule {s : State} {l : Nat} (h : s.cap.oldStack l = s.cap.rstk.toNat) : 4 * l ∈ (s.readGranule l true).poison := by
  obtain ⟨x, hx⟩ := readGranule_of_bad h
  rw [hx]
  exact (logged_logCause _ _ _).poison _ (mem_poisonLines_first l s.poison)

/-- The granules of a list of offsets from `lo` are read, those bad that a bit names. -/
def State.readGranules (s : State) (lo : Nat) (bit : Nat → Bool) (l : List Nat) : State := l.foldl (fun s i => s.readGranule (lo + i) (bit i)) s

theorem logged_readGranules (s : State) (lo : Nat) (bit : Nat → Bool) (l : List Nat) : s.Logged (s.readGranules lo bit l) := by
  induction l generalizing s with
  | nil => exact .refl s
  | cons i l ih => exact (logged_readGranule s _ _).trans (ih _)

theorem readGranules_of_sound {s : State} {lo : Nat} {bit : Nat → Bool} {l : List Nat}
    (h : ∀ i ∈ l, ¬(s.cap.oldStack (lo + i) = s.cap.rstk.toNat ∧ bit i = true)) : s.readGranules lo bit l = s := by
  induction l with
  | nil => rfl
  | cons i l ih =>
    show (s.readGranule (lo + i) (bit i)).readGranules lo bit l = s
    rw [readGranule_of_sound (h i List.mem_cons_self)]
    exact ih fun j hj => h j (List.mem_cons_of_mem i hj)

theorem mem_poison_readGranules {s : State} {lo i : Nat} {bit : Nat → Bool} {l : List Nat} (hi : i ∈ l)
    (h : s.cap.oldStack (lo + i) = s.cap.rstk.toNat) (hb : bit i = true) : 4 * (lo + i) ∈ (s.readGranules lo bit l).poison := by
  induction l generalizing s with
  | nil => cases hi
  | cons j l ih =>
    have hj := logged_readGranule s (lo + j) (bit j)
    rcases List.mem_cons.mp hi with rfl | hi
    · refine (logged_readGranules (s.readGranule (lo + i) (bit i)) lo bit l).poison _ ?_
      rw [hb]
      exact mem_poison_readGranule h
    · exact ih hi (by rw [hj.cap]; exact h)

/-- The free bit that tells whether granule `i` of a move is bad (log 8). -/
def State.granuleBit (s : State) (i : Nat) : Bool := (Config.freeWord (s.freeCount + i / 64)).getLsbD (i % 64)

theorem granuleBit_of_lt (s : State) {i : Nat} (hi : i < 64) : s.granuleBit i = s.free.getLsbD i := by
  rw [State.granuleBit, Nat.div_eq_of_lt hi, Nat.mod_eq_of_lt hi]
  rfl

theorem moveGranules_eq (s : State) (lo n : Nat) : s.moveGranules lo n =
    ({ s with freeCount := s.freeCount + (n + 63) / 64 } : State).readGranules lo s.granuleBit (List.range n) := rfl

theorem logged_moveGranules (s : State) (lo n : Nat) : s.Logged (s.moveGranules lo n) := by
  have hf : s.Logged { s with freeCount := s.freeCount + (n + 63) / 64 } := ⟨rfl, fun _ h => h, fun _ => rfl, fun h => h⟩
  exact hf.trans (logged_readGranules _ _ _ _)

/-- A move of granules that are all sound takes its free words, and nothing else changes. -/
theorem moveGranules_of_sound {s : State} {lo : Nat} (h : ∀ i, i < 64 → ¬(s.cap.oldStack (lo + i) = s.cap.rstk.toNat ∧ s.free.getLsbD i = true)) :
    s.moveGranules lo 64 = { s with freeCount := s.freeCount + 1 } := by
  rw [moveGranules_eq]
  refine readGranules_of_sound fun i hi => ?_
  rw [granuleBit_of_lt s (List.mem_range.mp hi)]
  exact h i (List.mem_range.mp hi)

theorem poisoned_moveGranules {s : State} {lo i : Nat} (hi : i < 64) (h : s.cap.oldStack (lo + i) = s.cap.rstk.toNat)
    (hb : s.free.getLsbD i = true) : 4 * (lo + i) ∈ (s.moveGranules lo 64).poison := by
  rw [← granuleBit_of_lt s hi] at hb
  exact mem_poison_readGranules (s := { s with freeCount := s.freeCount + (64 + 63) / 64 }) (List.mem_range.mpr hi) h hb

theorem poisoned_of_line {s : State} {g : Nat} (h : 4 * g ∈ s.poison) : poisoned s (256 * g) 256 = true := by
  rw [poisoned, List.any_eq_true]
  exact ⟨_, h, decide_eq_true (by omega)⟩

/-! The operations -/

theorem exec_memcapWrite {x : W} (hx : x.extractLsb' 60 3 = 0) (s : State) : exec (.memcapWrite x) s = (s.putMemcap x).occur :=
  if_neg (by simp [hx])

/-- The state in which MEMCAP's written fields are those of `x`. -/
def State.withMemcap (s : State) (x : W) : State :=
  { s with cap := { s.cap with pend := x.getLsbD 63, active := x.extractLsb' 48 12, bytes := x.extractLsb' 0 48 } }

theorem putMemcap_eq (s : State) (x : W) : s.putMemcap x = if (s.withMemcap x).cap = s.cap then s else (s.withMemcap x).capacityChanged := by
  by_cases h : (s.withMemcap x).cap = s.cap
  · rw [if_pos h]
    exact if_pos (beq_iff_eq.mpr h)
  · rw [if_neg h]
    exact if_neg fun e => h (eq_of_beq e)

theorem putMemcap_fields (s : State) (x : W) : (s.putMemcap x).mem = s.mem ∧ (s.putMemcap x).cap.pend = x.getLsbD 63 ∧
    (s.putMemcap x).cap.active = x.extractLsb' 48 12 ∧ (s.putMemcap x).cap.bytes = x.extractLsb' 0 48 ∧
    (s.putMemcap x).cap.isOpen = s.cap.isOpen ∧ (s.putMemcap x).cap.cursor = s.cap.cursor := by
  rw [putMemcap_eq]
  split
  · next h =>
    rw [← h]
    exact ⟨rfl, rfl, rfl, rfl, rfl, rfl⟩
  · rw [capacityChanged_cores_only]
    exact ⟨rfl, rfl, rfl, rfl, rfl, rfl⟩

/-- A write of MEMCAP changes nothing, or makes source 12 pending everywhere (R205, log 143). -/
theorem putMemcap_warns (s : State) (x : W) : (s.putMemcap x).cap = s.cap ∨ ∀ c, (s.putMemcap x).warned c := by
  rw [putMemcap_eq]
  split
  · exact .inl rfl
  · exact .inr (warned_capacityChanged _)

/-- The bytes of HBM that the next capacity has. -/
def Capacity.nextBytes (c : Capacity) : Nat := (c.stacks - 1) * 2 ^ 37

/-- The capacity as the phase in which stack `k` retires opens (R206). -/
def Capacity.opened (c : Capacity) (k : BitVec 4) : Capacity :=
  { pend := false, active := c.active &&& ~~~(1#12 <<< k.toNat), bytes := BitVec.ofNat 48 c.nextBytes, isOpen := true, rstk := k,
    phase := c.phase + 1, cursor := BitVec.ofNat 40 ((c.stacks - 1) * 2 ^ 29 - 1), target := none, bounced := false, changed := c.changed }

section
variable {s : State} {k : BitVec 4}

theorem exec_stackRetirement_announce (ho : s.cap.isOpen = false) (hp : s.cap.pend = false) (ha : s.cap.active.getLsbD k.toNat = true)
    (hn : 0 < s.cap.stacks - 1) : exec (.stackRetirement k) s =
      ({ s with cap := { s.cap with pend := true, target := some k } } : State).capacityChanged.occur := by
  have hs : 1 < s.cap.stacks := by omega
  show execStackRetirement k s = _
  simp [execStackRetirement, ho, hp, ha, hs]

theorem exec_stackRetirement_evacuate {t : State} (ho : s.cap.isOpen = false) (hp : s.cap.pend = true) (ht : s.cap.target = some k)
    (hu : s.usedAbove s.cap.nextBytes = true) (he : s.evacuate s.cap.nextBytes = some t) : exec (.stackRetirement k) s = t.occur := by
  have hu' : s.usedAbove ((s.cap.stacks - 1) * stackBytes) = true := hu
  have he' : s.evacuate ((s.cap.stacks - 1) * stackBytes) = some t := he
  show execStackRetirement k s = _
  simp [execStackRetirement, ho, hp, ht, hu', he']

theorem exec_stackRetirement_open (ho : s.cap.isOpen = false) (hp : s.cap.pend = true) (ht : s.cap.target = some k)
    (hu : s.usedAbove s.cap.nextBytes = false) (hf : s.hbmInFlight = false) :
    exec (.stackRetirement k) s = ({ s with cap := s.cap.opened k } : State).capacityChanged.occur := by
  have hu' : s.usedAbove ((s.cap.stacks - 1) * stackBytes) = false := hu
  show execStackRetirement k s = _
  simp [execStackRetirement, ho, hp, ht, hu', hf]
  rfl

theorem exec_stackRetirement_close (ho : s.cap.isOpen = true) (hk : s.cap.rstk = k) (hb : s.cap.bounced = true) : exec (.stackRetirement k) s =
    ({ s with cap := { s.cap with isOpen := false, bounced := false, cursor := BitVec.allOnes 40 } } : State).occur := by
  show execStackRetirement k s = _
  simp [execStackRetirement, ho, hk, hb]

theorem exec_migrationBlockMove (ho : s.cap.isOpen = true) (hb : s.cap.bounced = false) (hc : s.cap.bounces = false) :
    exec .migrationBlockMove s = ({ s.moveGranules (s.cap.cursor.toNat - 63) 64 with
      cap := { (s.moveGranules (s.cap.cursor.toNat - 63) 64).cap with cursor := s.cap.cursor - 64 } } : State).occur := if_pos (by simp [ho, hb, hc])

theorem exec_migrationBounce (ho : s.cap.isOpen = true) (hc : s.cap.bounces = true) :
    exec .migrationBounce s = ({ s.moveGranules 0 (s.cap.cursor + 1).toNat with
      cap := { (s.moveGranules 0 (s.cap.cursor + 1).toNat).cap with bounced := true } } : State).occur := if_pos (by simp [ho, hc])

end

theorem not_bounces {c : Capacity} (hn : (c.stacks + 1) * c.stacks ≤ c.cursor.toNat) (ha : c.cursor ≠ BitVec.allOnes 40) : c.bounces = false := by
  have hlt : ¬c.cursor.toNat < (c.stacks + 1) * c.stacks := Nat.not_lt.mpr hn
  simpa [Capacity.bounces, hlt] using fun _ => ha

theorem bounces_of_low {c : Capacity} (hb : c.bounced = false) (h : c.cursor.toNat < (c.stacks + 1) * c.stacks ∨ c.cursor = BitVec.allOnes 40) :
    c.bounces = true := by
  rcases h with h | h <;> simp [Capacity.bounces, hb, h]

/-- The move of a page or table that ends has its entry point to the new frame, valid and not marked (R257). -/
theorem evacuate_endMove {s : State} {n : Nat} {d : Drain} {ctx : BitVec 16} {v : BitVec 36} {l : Nat} {x : BitVec 16 × Mapped}
    (hs : s.Canonical) (hd : s.books.drains = [d]) (hw : d.waiter = .move ctx v l) (hdr : s.drained d = true)
    (hx : (s.highEntries n).find? (fun x => x.1 == ctx && x.2.vpn == v.toNat && x.2.level == l && x.2.migrates) = some x) :
    ∃ t, s.evacuate n = some t ∧ (s.frameFits (s.free.extractLsb' 0 36) x.2.frames n = true → t.books.drains = [] ∧
      entryOf (s.free.extractLsb' 0 36) (BitVec.ofNat 64 (bytesValue t.mem x.2.place 8))) := by
  rw [evacuate_of_drained hd hw hdr hx]
  split
  · have hv := valid_of_mem_highEntries (List.mem_of_find?_eq_some hx)
    exact ⟨_, rfl, fun _ => ⟨rfl, entryOf_endMove _ hs hv⟩⟩
  · next hf => exact ⟨_, rfl, fun h => absurd h hf⟩

/-- Reading a block of granules leaves the contents of memory, and poisons what shows an error (R206). -/
theorem granules_of_block (s : State) (lo : Nat) : ∃ t, s.moveGranules lo 64 = t ∧ s.Logged t ∧
    (∀ i, i < 64 → s.cap.oldStack (lo + i) = s.cap.rstk.toNat ∧ s.free.getLsbD i = true → 4 * (lo + i) ∈ t.poison) ∧
    ((∀ i, i < 64 → ¬(s.cap.oldStack (lo + i) = s.cap.rstk.toNat ∧ s.free.getLsbD i = true)) → t.mem = s.mem ∧ t.poison = s.poison) := by
  refine ⟨_, rfl, logged_moveGranules s lo 64, fun i hi hb => poisoned_moveGranules hi hb.1 hb.2, fun hn => ?_⟩
  rw [moveGranules_of_sound hn]
  exact ⟨rfl, rfl⟩

/-- Settles O49: MEMCAP by its fields and the reach of source 12, a retirement by the step that each phase takes, and a move of granules by what
reading them keeps and poisons. -/
theorem capacityShrinksByAStack : Obligations.CapacityShrinksByAStack := by
  refine ⟨fun x s hx => ?_, fun k s => ⟨fun ho hp ha hn => ?_, fun ho hp ht hs hd x hx => ?_, fun d ctx v l x ho hp ht hs hd hw hdr hx => ?_,
    fun ho hp ht hu hf => ?_, fun ho hk hb => exec_stackRetirement_close ho hk hb⟩, fun s => ?_⟩
  · obtain ⟨hm, hpend, hact, hbytes, hopen, hcur⟩ := putMemcap_fields s x
    have hwarn := putMemcap_warns s x
    rw [exec_memcapWrite hx]
    generalize s.putMemcap x = t at *
    exact ⟨_, rfl, rfl, hm, hpend, hact, hbytes, hopen, hcur, hwarn.imp_right fun h c => (h c).ipend⟩
  · rw [exec_stackRetirement_announce ho hp ha hn]
    have hwarn := warned_capacityChanged { s with cap := { s.cap with pend := true, target := some k } }
    have hcores := capacityChanged_cores_only { s with cap := { s.cap with pend := true, target := some k } }
    generalize State.capacityChanged _ = t at *
    exact ⟨_, rfl, rfl, by rw [hcores], by rw [hcores], fun c => (hwarn c).ipend⟩
  · have he := evacuate_of_no_move hd hx
    rw [exec_stackRetirement_evacuate ho hp ht (usedAbove_of_mem (List.mem_of_find?_eq_some hx)) he]
    have hmem := onlyWrote_startMove hs x.1 x.2
    have hdrains := startMove_drains s x.1 x.2
    generalize s.startMove x.1 x.2 = t at *
    refine ⟨_, rfl, rfl, hmem, { waiter := _, parts := _ }, ?_, rfl, rfl⟩
    show _ ∈ t.books.drains
    rw [hdrains]
    exact List.mem_append_right _ List.mem_cons_self
  · obtain ⟨t, he, hend⟩ := evacuate_endMove hs hd hw hdr hx
    rw [exec_stackRetirement_evacuate ho hp ht (usedAbove_of_mem (List.mem_of_find?_eq_some hx)) he]
    exact ⟨_, rfl, rfl, hend⟩
  · rw [exec_stackRetirement_open ho hp ht hu hf]
    have hcores := capacityChanged_cores_only { s with cap := s.cap.opened k }
    generalize State.capacityChanged _ = t at *
    exact ⟨_, rfl, rfl, by rw [hcores], by rw [hcores]; rfl⟩
  · intro n bad ho hb
    refine ⟨fun hn ha => ?_, fun hc => ?_⟩
    · intro lo
      rw [exec_migrationBlockMove ho hb (not_bounces hn ha)]
      obtain ⟨t, ht, hlog, hbad, hsound⟩ := granules_of_block s lo
      rw [ht, hlog.cap]
      exact ⟨_, rfl, rfl, rfl, fun h => h.elim hlog.mem fun h => (hsound h).1, fun i hi h => poisoned_of_line (hbad i hi h), fun h => (hsound h).2⟩
    · rw [exec_migrationBounce ho (bounces_of_low hb hc)]
      have hlog := logged_moveGranules s 0 (s.cap.cursor + 1).toNat
      generalize s.moveGranules 0 (s.cap.cursor + 1).toNat = t at *
      rw [hlog.cap]
      exact ⟨_, rfl, rfl, rfl, hlog.mem⟩

end Sys2Proof.Machine
end

section
/-!
PROOF. The words of formats R, I, U and BR as their fields side by side (R46, R52).
-/

namespace Sys2Proof.Machine

/-- The fields of a word stand side by side with the seven bits that all formats share. -/
theorem append_encTail {n : Nat} (x : BitVec n) (mj : BitVec 5) (w l : Bool) :
    x ++ encTail mj w l = x ++ mj ++ BitVec.ofBool w ++ BitVec.ofBool l := by
  rw [encTail, BitVec.append_assoc', BitVec.append_assoc']
  rfl

theorem encR_eq (fn c b a d mj : BitVec 5) (w l : Bool) :
    encR fn c b a d mj w l = fn ++ c ++ b ++ a ++ d ++ mj ++ BitVec.ofBool w ++ BitVec.ofBool l := append_encTail ..

theorem encI_eq (i : BitVec 12) (f : BitVec 3) (a d mj : BitVec 5) (w l : Bool) :
    encI i f a d mj w l = i ++ f ++ a ++ d ++ mj ++ BitVec.ofBool w ++ BitVec.ofBool l := append_encTail ..

theorem encU_eq (i : BitVec 20) (d mj : BitVec 5) (w l : Bool) :
    encU i d mj w l = i ++ d ++ mj ++ BitVec.ofBool w ++ BitVec.ofBool l := append_encTail ..

theorem encBR_eq (o : BitVec 12) (c : BitVec 3) (b a mj : BitVec 5) (w l : Bool) :
    encBR o c b a mj w l = o ++ c ++ b ++ a ++ mj ++ BitVec.ofBool w ++ BitVec.ofBool l := append_encTail ..

/-- The immediate of a shift is a selector, four zeros and the amount (R118). -/
theorem encI_shift_eq (k : BitVec 2) (n : BitVec 6) (f : BitVec 3) (a d mj : BitVec 5) (w l : Bool) :
    encI (k ++ 0#4 ++ n) f a d mj w l = k ++ 0#4 ++ n ++ f ++ a ++ d ++ mj ++ BitVec.ofBool w ++ BitVec.ofBool l := append_encTail ..

end Sys2Proof.Machine
end

section
/-!
PROOF. What the integer operations compute, as arithmetic on numbers and integers and as counts of bits (R116, R118, R119).
-/

namespace Sys2Proof.Machine

/-! Shifts and rotations as arithmetic -/

theorem shiftLeft_eq (a : W) (n : Nat) : a <<< n = shiftLeft a n := by
  apply BitVec.eq_of_toNat_eq
  simp [shiftLeft, Nat.shiftLeft_eq]

theorem shiftRight_eq (a : W) (n : Nat) : a >>> n = shiftRight a n := by
  rw [shiftRight, ← Nat.shiftRight_eq_div_pow, ← BitVec.toNat_ushiftRight, BitVec.ofNat_toNat, BitVec.setWidth_eq]

theorem shiftRightSigned_eq (a : W) (n : Nat) : a.sshiftRight n = shiftRightSigned a n :=
  congrArg (BitVec.ofInt 64) (Int.shiftRight_eq_div_pow ..)

/-- What a shift to the left keeps and what a shift to the right by the other bits keeps share no bit, so that joining them adds them. -/
theorem shiftLeft_or_shiftRight (a : W) {m n : Nat} (h : m + n = 64) :
    a <<< m ||| a >>> n = BitVec.ofNat 64 (a.toNat * 2 ^ m + a.toNat / 2 ^ n) := by
  have disjoint : a <<< m &&& a >>> n = 0#64 := by
    ext i hi
    by_cases hm : i < m
    · simp [hm]
    · simp [show 64 ≤ n + i by omega]
  rw [← BitVec.add_eq_or_of_and_eq_zero _ _ disjoint, shiftLeft_eq, shiftRight_eq, BitVec.ofNat_add]
  rfl

theorem rotateLeft_eq_turnLeft (a : W) {n : Nat} (h : n < 64) : a.rotateLeft n = turnLeft a n := by
  rw [BitVec.rotateLeft_def, Nat.mod_eq_of_lt h, turnLeft]
  split
  · next h0 => rw [h0, BitVec.ushiftRight_eq_zero (Nat.le_refl 64), BitVec.shiftLeft_zero, BitVec.or_zero]
  · exact shiftLeft_or_shiftRight a (by omega)

theorem rotateRight_eq_turnRight (a : W) {n : Nat} (h : n < 64) : a.rotateRight n = turnRight a n := by
  rw [BitVec.rotateRight_def, Nat.mod_eq_of_lt h, turnRight]
  split
  · next h0 => simp [h0]
  · rw [BitVec.or_comm, Nat.add_comm]
    exact shiftLeft_or_shiftRight a (by omega)

/-! Counts of bits -/

/-- The first index that fails a test ends what is taken of a range. -/
theorem length_takeWhile_range {p : Nat → Bool} {n k : Nat} (hk : k ≤ n) (hp : ∀ j < k, p j = true) (hn : k < n → p k = false) :
    ((List.range n).takeWhile p).length = k := by
  obtain ⟨m, rfl⟩ := Nat.exists_eq_add_of_le hk
  rw [List.range_add, List.takeWhile_append_of_pos fun j hj => hp j (List.mem_range.mp hj)]
  cases m with
  | zero => simp
  | succ m => simp [List.range_succ_eq_map, hn]

theorem bitLen_le_iff {m n : Nat} : bitLen m ≤ n ↔ m < 2 ^ n := by
  by_cases h : m = 0
  · simp [bitLen, h]
  · simp [bitLen, h, Nat.log2_lt h]

theorem testBit_bitLen_sub_one {m : Nat} (h : m ≠ 0) : m.testBit (bitLen m - 1) = true := by
  simpa [bitLen, h] using Nat.testBit_log2 h

/-- From bit 63 down the bits are zero until the highest one, which `bitLen` counts. -/
theorem leadingZeros_eq (a : W) : leadingZeros a = BitVec.ofNat 64 (leadZeros a) := by
  have hlen : bitLen a.toNat ≤ 64 := bitLen_le_iff.mpr a.isLt
  refine congrArg (BitVec.ofNat 64) (length_takeWhile_range (by omega) (fun j hj => ?_) fun hj => ?_).symm
  · have hlt : a.toNat < 2 ^ (63 - j) := bitLen_le_iff.mp (by omega)
    simp [BitVec.getLsbD, Nat.testBit_lt_two_pow hlt]
  · have h0 : a.toNat ≠ 0 := fun h => by simp [h, bitLen] at hj
    rw [show 63 - (64 - bitLen a.toNat) = bitLen a.toNat - 1 by omega, BitVec.getLsbD, testBit_bitLen_sub_one h0]
    rfl

theorem trailingFrom_eq (a : W) (n i : Nat) : trailingFrom a n i = i + ((List.range n).takeWhile fun j => !a.getLsbD (i + j)).length := by
  induction n generalizing i with
  | zero => rfl
  | succ n ih =>
    rw [trailingFrom, List.range_succ_eq_map, List.takeWhile_cons, List.takeWhile_map, Nat.add_zero]
    cases h : a.getLsbD i with
    | true => simp
    | false => simp [ih, Function.comp_def, Nat.add_assoc, Nat.add_comm 1]

theorem onesBelow_eq (a : W) (n : Nat) : onesBelow a.toNat n = ((List.range n).filter fun j => a.getLsbD j).length := by
  induction n with
  | zero => rfl
  | succ n ih =>
    rw [onesBelow, ih, ← Nat.toNat_testBit, List.range_succ, List.filter_append, List.length_append]
    cases h : a.getLsbD n <;> simp_all [BitVec.getLsbD]

/-! Comparisons and results of 32 bits -/

theorem ofInt_sub (w : Nat) (x y : Int) : BitVec.ofInt w (x - y) = BitVec.ofInt w x - BitVec.ofInt w y := by
  rw [Int.sub_eq_add_neg, BitVec.ofInt_add, BitVec.ofInt_neg, BitVec.sub_eq_add_neg]

theorem bit64_slt (a b : W) : bit64 (a.slt b) = oneIf (a.toInt < b.toInt) := by
  rw [BitVec.slt_eq_decide]
  simp [bit64, oneIf]

theorem bit64_ult (a b : W) : bit64 (a.ult b) = oneIf (a.toNat < b.toNat) := by
  simp [bit64, oneIf, BitVec.ult]

/-- Of two values the model takes the second when that is strictly beyond the first, which leaves the first when they are equal. -/
theorem ite_slt (a b x y : W) : (if a.slt b then x else y) = if b.toInt ≤ a.toInt then y else x := by
  by_cases h : a.toInt < b.toInt
  · simp [BitVec.slt_eq_decide, h, not_le.mpr h]
  · simp [BitVec.slt_eq_decide, h, not_lt.mp h]

theorem ite_ult (a b x y : W) : (if a.ult b then x else y) = if b.toNat ≤ a.toNat then y else x := by
  by_cases h : a.toNat < b.toNat
  · simp [BitVec.ult, h, not_le.mpr h]
  · simp [BitVec.ult, h, not_lt.mp h]

theorem wordResult_add (a : W) (y : Int) : wordResult (a.setWidth 32 + BitVec.ofInt 32 y) = low32 (a.toInt + y) := by
  rw [low32, BitVec.ofInt_add, ← BitVec.signExtend_eq_setWidth_of_le a (by omega)]
  rfl

theorem wordResult_sub (a b : W) : wordResult (a.setWidth 32 - b.setWidth 32) = low32 (a.toInt - b.toInt) := by
  rw [low32, ofInt_sub, ← BitVec.signExtend_eq_setWidth_of_le a (by omega), ← BitVec.signExtend_eq_setWidth_of_le b (by omega)]
  rfl

theorem wordResult_add_setWidth (a b : W) : wordResult (a.setWidth 32 + b.setWidth 32) = low32 (a.toInt + b.toInt) := by
  rw [← wordResult_add, ← BitVec.signExtend_eq_setWidth_of_le b (by omega)]
  rfl

theorem signExtend_append_zeros (i : BitVec 20) : (i ++ 0#12).signExtend 64 = BitVec.ofInt 64 (i.toInt * 2 ^ 12) := by
  rw [BitVec.signExtend, BitVec.toInt_append_zero, Int.mul_comm]

end Sys2Proof.Machine
end

section
/-!
PROOF. The integer register operations, the immediate operations, LUI and AUIPC write the result of their row (R116, R118, R119).
-/

namespace Sys2Proof.Machine

/-- A scalar operation that passes its checks writes its result and retires. -/
theorem exec_writes_result {i : Instr} {s : State} {d : BitVec 5} {x y : W} (hi : s.issues i = true)
    (he : exec i s = issue i s (s.resultG d y)) (hy : y = x) : exec i s = .next (s.wroteG d x).retires := by
  have hf : s.flow = .next := flow_of_issues hi
  rw [he, issue_of_issues hi, State.resultG, setG_eq_wroteG, hy, complete_eq_retires (s.wroteG d x) hf]

/-- Each operation of R116 gives the result of its row. -/
theorem exec_of_registerResult {i : Instr} {s : State} {d : BitVec 5} {x : W} (h : registerResult s i = some (d, x)) (hi : s.issues i = true) :
    exec i s = .next (s.wroteG d x).retires := by
  cases i <;> cases h
  case add => exact exec_writes_result hi rfl (by rw [BitVec.ofNat_add]; simp)
  case sub => exact exec_writes_result hi rfl (by rw [ofInt_sub, BitVec.ofInt_toInt, BitVec.ofInt_toInt])
  case mul => exact exec_writes_result hi rfl (by rw [BitVec.ofInt_mul, BitVec.ofInt_toInt, BitVec.ofInt_toInt])
  case and | or | xor | mulh | mulhu => exact exec_writes_result hi rfl rfl
  case sll => exact exec_writes_result hi rfl (shiftLeft_eq _ _)
  case srl => exact exec_writes_result hi rfl (shiftRight_eq _ _)
  case sra => exact exec_writes_result hi rfl (shiftRightSigned_eq _ _)
  case slt => exact exec_writes_result hi rfl (bit64_slt _ _)
  case sltu => exact exec_writes_result hi rfl (bit64_ult _ _)
  case min | max => exact exec_writes_result hi rfl (ite_slt _ _ _ _)
  case minu | maxu => exact exec_writes_result hi rfl (ite_ult _ _ _ _)
  case clz => exact exec_writes_result hi rfl (leadingZeros_eq _)
  case ctz => exact exec_writes_result hi rfl (by rw [trailingFrom_eq]; simp [trailZeros])
  case popc => exact exec_writes_result hi rfl (by rw [onesBelow_eq]; rfl)
  case rol => exact exec_writes_result hi rfl (rotateLeft_eq_turnLeft _ (Nat.mod_lt _ (by omega)))
  case ror => exact exec_writes_result hi rfl (rotateRight_eq_turnRight _ (Nat.mod_lt _ (by omega)))
  case addw => exact exec_writes_result hi rfl (wordResult_add_setWidth _ _)
  case subw => exact exec_writes_result hi rfl (wordResult_sub _ _)
  case sel => exact exec_writes_result hi rfl (by simp)

/-- Each operation of R118 and R119 gives the result of its row. -/
theorem exec_of_immediateResult {i : Instr} {s : State} {d : BitVec 5} {x : W} (h : immediateResult s i = some (d, x)) (hi : s.issues i = true) :
    exec i s = .next (s.wroteG d x).retires := by
  cases i <;> cases h
  case addi => exact exec_writes_result hi rfl (by rw [BitVec.ofInt_add, BitVec.ofInt_toInt]; rfl)
  case andi | ori | xori => exact exec_writes_result hi rfl rfl
  case slti i a w l => exact exec_writes_result hi rfl (by rw [bit64_slt, BitVec.toInt_signExtend_of_le (by omega)])
  case sltiu => exact exec_writes_result hi rfl (bit64_ult _ _)
  case slli => exact exec_writes_result hi rfl (shiftLeft_eq _ _)
  case srli => exact exec_writes_result hi rfl (shiftRight_eq _ _)
  case srai => exact exec_writes_result hi rfl (shiftRightSigned_eq _ _)
  case rori n a w l => exact exec_writes_result hi rfl (rotateRight_eq_turnRight _ n.isLt)
  case addwi => exact exec_writes_result hi rfl (wordResult_add _ _)
  case lui => exact exec_writes_result hi rfl (signExtend_append_zeros _)
  case auipc => exact exec_writes_result hi rfl (by rw [BitVec.ofInt_add, BitVec.ofInt_toInt, signExtend_append_zeros])

/-- Settles O1: each operation gives the result of its row, and each word is of format R with the row's function code. -/
theorem integerRegisterResults : Obligations.IntegerRegisterResults := by
  refine ⟨fun i s d x => exec_of_registerResult, ?_⟩
  intro c b a d w l word
  simp only [word, ← encR_eq]
  exact ⟨rfl, rfl⟩

/-- Settles O2: each operation gives the result of its row, and each word is of format I or U with the row's selector. -/
theorem immediateResults : Obligations.ImmediateResults := by
  refine ⟨fun i s d x => exec_of_immediateResult, fun i a d w l => ?_, fun n a d w l => ?_, fun i d w l => ?_⟩
  · simp only [← encI_eq]
    rfl
  · simp only [← encI_shift_eq]
    rfl
  · simp only [← encU_eq]
    exact ⟨rfl, rfl⟩

end Sys2Proof.Machine
end

section
/-!
PROOF. Branches and jumps: where they go, their link, and the trap of a misaligned target (R120, R121).
-/

namespace Sys2Proof.Machine

/-- The target of a transfer lies as many words from its word as its offset says, of whatever width the offset is. -/
theorem add_signExtend_eq_wordsFrom {n : Nat} (a : W) (o : BitVec n) : a + 4 * o.signExtend 64 = wordsFrom a o.toInt := by
  unfold wordsFrom
  rw [BitVec.ofInt_add, BitVec.ofInt_mul, BitVec.ofInt_toInt]
  rfl

/-! Branches -/

theorem branch_eq_transfers_or_retires (s : State) (o : BitVec 12) {taken : Bool} (hf : s.flow = .next) :
    s.branch o taken = if taken then s.transfers (wordsFrom s.wordPc o.toInt) else s.retires := by
  unfold State.branch
  rw [complete_eq_transfers, complete_eq_retires s hf, add_signExtend_eq_wordsFrom]

/-- A branch that passes its checks goes to its target when its condition holds, else onwards. -/
theorem exec_transfers_if {i : Instr} {s : State} {o : BitVec 12} {p q : Bool} (hi : s.issues i = true)
    (he : exec i s = issue i s (s.branch o p)) (hp : p = q) :
    exec i s = .next (if q then s.transfers (wordsFrom s.wordPc o.toInt) else s.retires) := by
  rw [he, issue_of_issues hi, branch_eq_transfers_or_retires s o (flow_of_issues hi), hp]

theorem getLsbD_eq_decide (a : W) (n : Nat) : a.getLsbD n = decide (a.toNat / 2 ^ n % 2 = 1) := Nat.testBit_eq_decide_div_mod_eq

theorem not_getLsbD_eq_decide (a : W) (n : Nat) : (!a.getLsbD n) = decide (a.toNat / 2 ^ n % 2 = 0) := by
  rw [getLsbD_eq_decide, ← decide_not]
  simp

theorem not_slt_eq_decide (a b : W) : (!a.slt b) = decide (b.toInt ≤ a.toInt) := by
  rw [BitVec.slt_eq_decide, ← decide_not]
  simp

theorem not_ult_eq_decide (a b : W) : (!a.ult b) = decide (b.toNat ≤ a.toNat) := by
  rw [BitVec.ult, ← decide_not]
  simp

/-- Each branch has the offset and the condition of its row. -/
theorem exec_of_branchOf {i : Instr} {s : State} {o : BitVec 12} {taken : Bool} (h : branchOf s i = some (o, taken)) (hi : s.issues i = true) :
    exec i s = .next (if taken then s.transfers (wordsFrom s.wordPc o.toInt) else s.retires) := by
  cases i <;> cases h
  case beq => exact exec_transfers_if hi rfl (beq_eq_decide _ _)
  case bne => exact exec_transfers_if hi rfl (by rw [bne, beq_eq_decide, decide_not])
  case blt => exact exec_transfers_if hi rfl BitVec.slt_eq_decide
  case bge => exact exec_transfers_if hi rfl (not_slt_eq_decide _ _)
  case bltu => exact exec_transfers_if hi rfl rfl
  case bgeu => exact exec_transfers_if hi rfl (not_ult_eq_decide _ _)
  case bbs => exact exec_transfers_if hi rfl (getLsbD_eq_decide _ _)
  case bbc => exact exec_transfers_if hi rfl (not_getLsbD_eq_decide _ _)

/-! Jumps -/

theorem jump_eq_transfers (s : State) (d : BitVec 5) (t : W) : s.jump d t = (s.wroteG d s.after).transfers t := by
  rw [State.jump, complete_eq_transfers, setG_eq_wroteG, after_eq_nx]

theorem low_bits_bne_zero_iff (t : W) : (t.extractLsb' 0 2 != 0) = true ↔ t.toNat % 4 ≠ 0 := by
  rw [bne_iff_ne, ne_eq, ← BitVec.toNat_inj, BitVec.extractLsb'_toNat]
  rfl

theorem exec_jal {o : BitVec 20} {d : BitVec 5} {w l : Bool} {s : State} (hi : s.issues (.jal o d w l) = true) :
    exec (.jal o d w l) s = .next ((s.wroteG d s.after).transfers (wordsFrom s.wordPc o.toInt)) := by
  rw [← add_signExtend_eq_wordsFrom, ← jump_eq_transfers]
  exact issue_of_issues hi

/-- JALR by the sum of gA as it stands and its offset. -/
theorem exec_jalr {m : BitVec 12} {a d : BitVec 5} {w l : Bool} {s : State} {t : W} (ht : t = BitVec.ofInt 64 ((s.g a).toInt + m.toInt))
    (hi : s.issues (.jalr m a d w l) = true) : exec (.jalr m a d w l) s =
      .next (if t.extractLsb' 0 2 != 0 then s.fault (accCause .fetch (spaceOf t).code .misaligned) t 0 else s.jump d t) := by
  have hsum : t = s.g a + m.signExtend 64 := by rw [ht, BitVec.ofInt_add, BitVec.ofInt_toInt]; rfl
  subst hsum
  exact issue_of_issues hi

/-- Settles O4: each branch has the condition of its row, a jump links and goes to its target, and each word is of its format. -/
theorem branchesAndJumpsTransfer : Obligations.BranchesAndJumpsTransfer := by
  refine ⟨fun i s o taken => exec_of_branchOf, fun o d w l s => exec_jal, fun m a d w l s hi => ⟨fun ha => ?_, fun ha hs => ?_⟩,
    fun o b a w l => ?_, fun o i a d w l => ⟨?_, ?_⟩⟩
  · rw [exec_jalr rfl hi, if_neg (mt (low_bits_bne_zero_iff _).mp (not_not.mpr ha)), jump_eq_transfers]
  · rw [exec_jalr rfl hi, if_pos ((low_bits_bne_zero_iff _).mpr ha), fault_eq_trapped _ _ _ _ hs]
  · simp only [← encBR_eq]
    rfl
  · simp only [← encU_eq]
    rfl
  · simp only [← encI_eq]
    rfl

end Sys2Proof.Machine
end

section
/-!
PROOF. An FDIV or FSQRT whose result arrives after a younger access of its hart has issued: its flags also reach what a rewind to that access
brings back (R40, R51, R125, R263).
-/

namespace Sys2Proof.Machine

/-- The result of an FDIV or FSQRT that its hart does not wait for lands its value and flags in the hart, and the flags in the marks of the younger
accesses. -/
theorem exec_fdivFsqrtResult_of_passed {s : State} {c : CoreId} {h : HartId} {n : Nat} {p : Pend} {d : BitVec 5} {x : W} {fl : BitVec 5}
    (hp : (s.hartAt c h).pend.find? (fun q => q.id == n) = some p) (hk : p.kind = .fdiv d x fl) (hn : p.precise = false) :
    exec (.fdivFsqrtResult c h n) s =
      .next { (s.dropPend c h n).landOp c h p.seq ⟨[⟨.g d, x.setWidth 1024⟩], fl, 0, false, false⟩ with disp := .occurred } := by
  have hf : s.findPend c h n = some p := hp
  obtain ⟨id, seq, op, kind, ds, pr⟩ := p
  obtain rfl : kind = .fdiv d x fl := hk
  obtain rfl : pr = false := hn
  show execFdivFsqrtResult c h n s = _
  rw [execFdivFsqrtResult, hf]
  rfl

/-- FSQRT of a negative FP32 value into g3 by the boot hart, issued before its access 0: a NaN, and NV. -/
def negativeRoot : Pend where
  id := 4
  seq := 0
  op := .fsqrt 0 0 1 3 true true
  kind := .fdiv 3 0x7FC00000 16
  dsts := []
  precise := false

/-- The boot hart has issued the FSQRT and then two accesses; the FSQRT and access 1, a store, are not complete. -/
def rootBeforeStore : State :=
  { (State.reset.onHart fun h => { h with nseq := 2, pc := 0x48, pend := [negativeRoot], regs := h.regs.empty (.g 3) }) with
    net := { State.reset.net with accs := [youngerStore] } }

/-- Refutes O8: its second part has the result of an FDIV or FSQRT that is not waited for change its hart alone. In `rootBeforeStore` the result's NV
also goes into the FPSTAT that a rewind to the younger store brings back, since the FSQRT is older than the store (R51, R263). -/
theorem not_floatDividesArrive : ¬ Obligations.FloatDividesArrive := by
  rintro ⟨-, arrives⟩
  have hp : (rootBeforeStore.hartAt 31 0).pend.find? (fun q => q.id == 4) = some negativeRoot := by decide +kernel
  have claimed := (arrives rootBeforeStore 31 0 4 negativeRoot 3 0x7FC00000 16 hp rfl).1 rfl
  rw [exec_fdivFsqrtResult_of_passed hp rfl rfl] at claimed
  have marks := congrArg State.markFlags (Host.Outcome.next.inj claimed)
  exact absurd marks (by decide +kernel)

end Sys2Proof.Machine
end

section
/-!
PROOF. A vector or moment operation issues to its unit with its operands as they stand, and a unit accepts the operation of its core that issued
first (R30, R129, R130, R132, R157, R158).
-/

namespace Sys2Proof.Machine

/-! Issue -/

/-- Every operation of a unit starts with the operands of its form, unless its result is ready for it. -/
theorem exec_of_unitFormOf {i : Instr} {f : UnitForm} (h : unitFormOf i = some f) (s : State) :
    exec i s = issue i s (s.preciseOr i (s.startOp i f.moment (s.operands i f))) := by
  cases i <;> cases h <;> rfl

theorem preciseUnit_iff (s : State) (moment : Bool) : s.preciseUnit moment = true ↔
    s.hart.arith.fpstat.extractLsb' 8 5 ≠ 0 ∨ (moment = true ∧ s.hart.arith.momode.getLsbD 2 = true) := by
  simp only [State.preciseUnit, fpEnables, Bool.or_eq_true, Bool.and_eq_true, bne_iff_ne]

/-- The old values of several registers go into the log together. -/
theorem foldl_logReg (b : Bool) (rs : List RegRef) (h : Hart) : rs.foldl (fun h r => logReg false r b h) h =
    { h with log := if b then h.log ++ rs.map fun r => .reg (2 * h.nseq) r (h.regs.read r) (h.regs.full r) else h.log } := by
  induction rs generalizing h with
  | nil => cases b <;> simp
  | cons r rs ih =>
    rw [List.foldl_cons, ih]
    cases b <;> simp [logReg]

/-- An operation that is not precise goes to its unit with its old destinations noted, and retires. -/
theorem startOp_of_not_precise {s : State} (i : Instr) {moment : Bool} (o : OpCtx) (hf : s.flow = .next) (hp : s.preciseUnit moment = false) :
    s.startOp i moment o =
      ((s.noted (unitWrites i)).underway i (if moment then .momIssued o else .vecIssued o) (unitWrites i) false).retires := by
  have hq : s.hart.nseq = (s.noted (unitWrites i)).hart.nseq := by simp [State.noted]
  rw [← complete_eq_retires _ (by exact hf), ← bump_onHart_pend (s.noted (unitWrites i)) (p := ⟨_, _, _, _, _, _⟩) rfl hq]
  simp only [State.startOp, hp, State.noted, State.onHart_onHart, foldl_logReg, unitWrites]
  rfl

/-- A precise operation goes to its unit and its hart waits in it. -/
theorem startOp_of_precise {s : State} (i : Instr) {moment : Bool} (o : OpCtx) (hp : s.preciseUnit moment = true) :
    s.startOp i moment o = (s.underway i (if moment then .momIssued o else .vecIssued o) [] true).awaits i .precise := by
  rw [← bump_onHart_pend s (p := ⟨_, _, _, _, _, _⟩) rfl rfl]
  simp only [State.startOp, hp]
  rfl

/-! Acceptance -/

/-- The choice between the earliest operation of the harts before and that of one more hart. -/
def State.earlierOp (s : State) (c : CoreId) (moment : Bool) (a : Option (HartId × Pend × OpCtx)) (h : HartId) : Option (HartId × Pend × OpCtx) :=
  match s.firstWaiting c h moment with
  | none => a
  | some (p, o) => match a with
    | none => some (h, p, o)
    | some (_, q, _) => if p.id < q.id then some (h, p, o) else a

theorem earliestOp_eq_foldl (s : State) (c : CoreId) (moment : Bool) : s.earliestOp c moment = hartIds.foldl (s.earlierOp c moment) none := by
  unfold State.earliestOp State.earlierOp State.firstWaiting
  congr
  funext a k
  generalize List.findSome? _ (s.hartAt c k).pend = x
  match x, a with
  | none, _ | some _, none | some _, some _ => rfl

section
variable {s : State} {c : CoreId} {h : HartId} {moment : Bool} {p : Pend} {o : OpCtx} {a : Option (HartId × Pend × OpCtx)} {l : List HartId}

/-- No operation of the others is as early as `p`: what is chosen among them comes after it. -/
theorem foldl_earlierOp_after (hl : ∀ k ∈ l, ∀ q o', s.firstWaiting c k moment = some (q, o') → p.id < q.id) (ha : ∀ x ∈ a, p.id < x.2.1.id) :
    ∀ x ∈ l.foldl (s.earlierOp c moment) a, p.id < x.2.1.id := by
  induction l generalizing a with
  | nil => exact ha
  | cons k l ih =>
    refine ih (fun j hj => hl j (List.mem_cons_of_mem k hj)) fun x hx => ?_
    unfold State.earlierOp at hx
    split at hx
    · exact ha x hx
    · next q o' hq =>
      have hk := hl k (List.mem_cons_self ..) q o' hq
      split at hx
      · cases hx; exact hk
      · split at hx
        · cases hx; exact hk
        · exact ha x hx

/-- The operation `p` of a hart is chosen before every later one. -/
theorem earlierOp_of_first (hp : s.firstWaiting c h moment = some (p, o)) (ha : ∀ x ∈ a, p.id < x.2.1.id) :
    s.earlierOp c moment a h = some (h, p, o) := by
  unfold State.earlierOp
  rw [hp]
  match a, ha with
  | none, _ => rfl
  | some x, ha => exact if_pos (ha x rfl)

/-- It stays chosen as long as the others come after it. -/
theorem foldl_earlierOp_of_chosen (hl : ∀ k ∈ l, ∀ q o', s.firstWaiting c k moment = some (q, o') → p.id < q.id) :
    l.foldl (s.earlierOp c moment) (some (h, p, o)) = some (h, p, o) := by
  induction l with
  | nil => rfl
  | cons k l ih =>
    have hk : s.earlierOp c moment (some (h, p, o)) k = some (h, p, o) := by
      unfold State.earlierOp
      split
      · rfl
      · next q o' hq => exact if_neg (Nat.lt_asymm (hl k (List.mem_cons_self ..) q o' hq))
    rw [List.foldl_cons, hk, ih fun j hj => hl j (List.mem_cons_of_mem k hj)]

/-- The earliest operation of a core is the one that issued before those of its other harts (R129). -/
theorem earliestOp_of_first (hp : s.firstWaiting c h moment = some (p, o))
    (hq : ∀ k q o', s.firstWaiting c k moment = some (q, o') → k = h ∨ p.id < q.id) : s.earliestOp c moment = some (h, p, o) := by
  have later {k : HartId} (hk : k ≠ h) q o' (e : s.firstWaiting c k moment = some (q, o')) : p.id < q.id := (hq k q o' e).resolve_left hk
  obtain ⟨l, r, e, hl, hr⟩ := hartIds_split h
  rw [earliestOp_eq_foldl, e, List.foldl_append, List.foldl_cons,
    earlierOp_of_first hp (foldl_earlierOp_after (fun k hk => later (hl k hk)) fun x hx => absurd hx (Option.not_mem_none x)),
    foldl_earlierOp_of_chosen fun k hk => later (hr k hk)]

/-- The moment datapath takes its earliest operation (R157). -/
theorem exec_momentAccept (he : s.earliestOp c true = some (h, p, o)) :
    exec (.momentAccept c) s = .next { s.setPend c h p.id (.momAccepted (momOut o)) with disp := .occurred } := by
  show execMomentAccept c s = _
  rw [execMomentAccept, he]
  rfl

/-- The vector unit takes its earliest operation with the codebook as it stands, and counts it unless it will trap (R30, R129, R132). -/
theorem exec_vectorAccept (he : s.earliestOp c false = some (h, p, o)) :
    let r := vecOut o (s.core c).cblo (s.core c).cbhi
    let n : W := if p.precise && (opTrap false (s.hartAt c h).arith r).isSome then 0 else 1
    exec (.vectorAccept c) s =
      .next { (s.setPend c h p.id (.vecAccepted r)).onHartAt c h fun k => { k with arith := { k.arith with vops := k.arith.vops + n } } with
        disp := .occurred } := by
  intro r n
  show execVectorAccept c s = _
  rw [execVectorAccept, he]
  rfl

end

/-- Settles O14: an operation that issues goes to its unit as `State.startOp` has it, and a unit accepts the earliest operation of its core. -/
theorem unitOperationsIssue : Obligations.UnitOperationsIssue := by
  refine ⟨fun i s f hf hi => ?_, fun s c h moment p o hp hq => ?_⟩
  · have he : exec i s = .next (s.startOp i f.moment (s.operands i f)) := by
      rw [exec_of_unitFormOf hf, issue_of_issues hi, preciseOr_of_issues hi]
    intro precise
    have hiff : s.preciseUnit f.moment = true ↔ precise := preciseUnit_iff s f.moment
    refine ⟨fun hn => ?_, fun hy => ?_⟩
    · rw [he, startOp_of_not_precise i _ (flow_of_issues hi) (Bool.eq_false_iff.mpr (mt hiff.mp hn))]
      rfl
    · rw [he, startOp_of_precise i _ (hiff.mpr hy)]
      rfl
  · have he := earliestOp_of_first hp hq
    cases moment with
    | false =>
      refine (exec_vectorAccept he).trans ?_
      simp [State.setPend, acceptedAs]
    | true =>
      refine (exec_momentAccept he).trans ?_
      simp [State.setPend, acceptedAs]

end Sys2Proof.Machine
end

section
/-!
PROOF. A vector operation whose result lands after a younger access of its hart has issued: its flags also reach what a rewind to that access
brings back (R40, R51, R130, R263).
-/

namespace Sys2Proof.Machine

/-- The result of an operation that its hart does not wait for lands its values and flags in the hart, and the flags in the marks of the younger
accesses. -/
theorem completeOp_of_passed {s : State} {c : CoreId} {h : HartId} {moment : Bool} {p : Pend} {r : OpResult}
    (hd : s.nextDone c h moment = some (p, r)) (hn : p.precise = false) :
    s.completeOp c h moment = .next { (s.dropPend c h p.id).landOp c h p.seq r with disp := .occurred } := by
  rw [State.completeOp, hd]
  simp only [hn]
  rfl

/-- VADD of FP32 lanes into v3 with the registers of reset, but for a signalling NaN in lane 0 of v1: a NaN, and NV. -/
def nanSum : OpResult := vecOut { State.reset.opCtx (.vadd 0 0 2 1 3 true true) 1 2 3 0 0 with a := 0x7F800001 } 0 0

/-- The VADD as the vector unit has accepted it; it issued before its hart's access 0. -/
def acceptedSum : Pend where
  id := 4
  seq := 0
  op := .vadd 0 0 2 1 3 true true
  kind := .vecAccepted nanSum
  dsts := [.v 3]
  precise := false

/-- The boot hart has issued the VADD and then two accesses; the VADD and access 1, a store, are not complete. -/
def sumBeforeStore : State :=
  { (State.reset.onHart fun h => { h with nseq := 2, pc := 0x48, pend := [acceptedSum] }) with
    net := { State.reset.net with accs := [youngerStore] } }

/-- Refutes O15: its first part has the result of an operation that is not waited for change its hart alone. In `sumBeforeStore` the result's NV also
goes into the FPSTAT that a rewind to the younger store brings back, since the VADD is older than the store (R51, R263). -/
theorem not_unitResultsLand : ¬ Obligations.UnitResultsLand := by
  rintro ⟨lands, -⟩
  have hd : sumBeforeStore.nextDone 31 0 false = some (acceptedSum, nanSum) := rfl
  have claimed := lands sumBeforeStore 31 0 false acceptedSum nanSum hd rfl
  have completed : exec (.vectorComplete 31 0) sumBeforeStore = _ := completeOp_of_passed hd rfl
  rw [if_neg Bool.false_ne_true, completed] at claimed
  have marks := congrArg State.markFlags (Host.Outcome.next.inj claimed)
  exact absurd marks (by decide +kernel)

end Sys2Proof.Machine
end

section
/-!
PROOF. A rounded FP32 result is 32 bits wide (R23, R33): what each operation of a moment lane hands to the next one is a word.
-/

namespace Sys2Proof.Machine

/-- With quanta no finer than the format's significand, a rounded magnitude has no more than its digits, or is the next power of two. -/
theorem quantize_fst_le {f : Nat} {x q : Int} (rm : BitVec 3) (neg : Bool) (m : Nat) (hq : x + bitLen m - 1 - f ≤ q) :
    (quantize rm neg m x q).1 ≤ 2 ^ (f + 1) := by
  have hm : m < 2 ^ bitLen m := bitLen_le_iff.mp le_rfl
  unfold quantize
  split
  · calc m * 2 ^ (x - q).toNat ≤ 2 ^ bitLen m * 2 ^ (x - q).toNat := Nat.mul_le_mul_right _ hm.le
      _ = 2 ^ (bitLen m + (x - q).toNat) := (Nat.pow_add ..).symm
      _ ≤ 2 ^ (f + 1) := Nat.pow_le_pow_right (by omega) (by omega)
  · have hd : m / 2 ^ (q - x).toNat < 2 ^ (f + 1) := by
      rw [Nat.div_lt_iff_lt_mul (Nat.two_pow_pos _), ← Nat.pow_add]
      exact hm.trans_le (Nat.pow_le_pow_right (by omega) (by omega))
    dsimp only
    split <;> omega

/-- The exponent field of a result that does not overflow is below that of an infinity. -/
theorem Fmt.two_bias_lt (k : Fmt) : 2 * k.bias < 2 ^ k.e := by
  unfold Fmt.bias
  cases k.e with
  | zero => simp
  | succ e =>
    have := Nat.two_pow_pos e
    rw [Nat.pow_succ, Nat.add_sub_cancel]
    omega

/-- A magnitude below the sign bit, with a sign. -/
theorem Fmt.sign_add_lt (k : Fmt) (neg : Bool) {x : Nat} (h : x < 2 ^ (k.e + k.f)) : k.sign neg + x < 2 ^ k.width := by
  have hw : 2 ^ k.width = 2 ^ (k.e + k.f) + 2 ^ (k.e + k.f) := by
    rw [Fmt.width, Nat.add_assoc, Nat.add_comm, Nat.pow_succ, Nat.mul_two]
  unfold Fmt.sign
  split <;> omega

theorem Fmt.exponent_fraction_lt (k : Fmt) {ex fr : Nat} (he : ex < 2 ^ k.e) (hf : fr < 2 ^ k.f) : ex * 2 ^ k.f + fr < 2 ^ (k.e + k.f) := by
  rw [Nat.pow_add]
  calc ex * 2 ^ k.f + fr < (ex + 1) * 2 ^ k.f := by rw [Nat.succ_mul]; exact Nat.add_lt_add_left hf _
    _ ≤ 2 ^ k.e * 2 ^ k.f := Nat.mul_le_mul_right _ he

theorem Fmt.inf_lt (k : Fmt) (neg : Bool) : k.inf neg < 2 ^ k.width := by
  refine k.sign_add_lt neg ?_
  have h := k.exponent_fraction_lt (Nat.sub_lt (Nat.two_pow_pos k.e) Nat.one_pos) (Nat.two_pow_pos k.f)
  rwa [Nat.add_zero] at h

/-- What overflow delivers: an infinity, or the largest finite value, which lies below it. -/
theorem Fmt.overflow_lt (k : Fmt) (neg toInf : Bool) : (if toInf then k.inf neg else k.maxFinite neg) < 2 ^ k.width := by
  split
  · exact k.inf_lt neg
  · exact (Nat.sub_le _ _).trans_lt (k.inf_lt neg)

/-- The exponent and fraction fields of a finite result lie below the sign bit: a subnormal is its significand, and a normal value within the
format's exponents has one of the exponent codes. -/
theorem Fmt.finite_bits_lt (k : Fmt) {sig : Nat} {q : Int} (hs : sig < 2 ^ (k.f + 1)) (hq : 2 ^ k.f ≤ sig → q + k.f ≤ k.bias) :
    (if sig < 2 ^ k.f then sig else (q + k.f + k.bias).toNat * 2 ^ k.f + (sig - 2 ^ k.f)) < 2 ^ (k.e + k.f) := by
  have hb := k.two_bias_lt
  rw [Nat.pow_succ] at hs
  split
  · next h => exact h.trans_le (Nat.pow_le_pow_right (by decide) (Nat.le_add_left _ _))
  · next h =>
    have := hq (not_lt.mp h)
    exact k.exponent_fraction_lt (by omega) (by omega)

/-- A significand that has grown by a digit is halved, and so has the format's digits again. -/
theorem renormalized_lt {f n : Nat} (h : n ≤ 2 ^ (f + 1)) : (if 2 ^ (f + 1) ≤ n then n / 2 else n) < 2 ^ (f + 1) := by
  have := Nat.two_pow_pos (f + 1)
  split <;> omega

theorem Fmt.round_fst_lt (k : Fmt) (rm : BitVec 3) (neg : Bool) (m : Nat) (x : Int) : (k.round rm neg m x).1 < 2 ^ k.width := by
  unfold Fmt.round
  split
  · exact k.sign_add_lt neg (Nat.two_pow_pos _)
  · have hr := quantize_fst_le rm neg m (le_max_left (x + (bitLen m : Int) - 1 - k.f) (1 - (k.bias : Int) - k.f))
    have hs := renormalized_lt hr
    dsimp only
    generalize (if 2 ^ (k.f + 1) ≤ Prod.fst _ then _ / 2 else _) = sig at hs ⊢
    generalize (if 2 ^ (k.f + 1) ≤ Prod.fst _ then _ + 1 else _ : Int) = q
    split
    · exact k.overflow_lt neg _
    · next fits =>
      exact k.sign_add_lt neg (k.finite_bits_lt hs fun normal => by simpa [normal] using fits)

theorem Fmt.roundDy_fst_lt (k : Fmt) (rm : BitVec 3) (zeroNeg : Bool) (d : Dy) : (k.roundDy rm zeroNeg d).1 < 2 ^ k.width := by
  unfold Fmt.roundDy
  split
  · exact k.sign_add_lt zeroNeg (Nat.two_pow_pos _)
  · exact k.round_fst_lt ..

theorem fp32_nan_lt : fp32.nan < 2 ^ 32 := by decide

/-- A sum is a NaN, an infinity or a rounded value. -/
theorem fp32_addV_fst_lt (rm : BitVec 3) (a b : FVal) : (fp32.addV rm a b).1 < 2 ^ 32 := by
  unfold Fmt.addV
  split
  case h_1 | h_2 => exact fp32_nan_lt
  case h_3 m n =>
    split
    · exact fp32.inf_lt m
    · exact fp32_nan_lt
  case h_4 m _ _ _ => exact fp32.inf_lt m
  case h_5 n => exact fp32.inf_lt n
  case h_6 => exact fp32.roundDy_fst_lt ..

/-- A product is a NaN, an infinity or a rounded value. -/
theorem fp32_mulV_fst_lt (rm : BitVec 3) (a b : FVal) : (fp32.mulV rm a b).1 < 2 ^ 32 := by
  unfold Fmt.mulV
  split
  case h_1 | h_2 => exact fp32_nan_lt
  case h_3 m n => exact fp32.inf_lt (m != n)
  case h_4 m n _ _ =>
    split
    · exact fp32_nan_lt
    · exact fp32.inf_lt (m != n)
  case h_5 n _ _ m =>
    split
    · exact fp32_nan_lt
    · exact fp32.inf_lt (m != n)
  case h_6 => exact fp32.round_fst_lt ..

end Sys2Proof.Machine
end

section
/-!
PROOF. The lanes of means and variances that a moment operation leaves under its mask (R154, R164, R165, R170, R171).
-/

namespace Sys2Proof.Machine

/-! Means, variances and the steps of a lane as words -/

@[simp] theorem meanOf_eq_toNat (m : MReg) (j : Nat) : meanOf m j = (meanLane m j).toNat := by
  simp [meanOf, meanLane, laneBits, BitVec.extractLsb'_toNat, Nat.shiftRight_eq_div_pow]

@[simp] theorem varOf_eq_toNat (m : MReg) (j : Nat) : varOf m j = (varLane m j).toNat := by
  simp [varOf, varLane, laneBits, BitVec.extractLsb'_toNat, Nat.shiftRight_eq_div_pow, Nat.mul_add]

/-- The step is Rne(a + b) on words. -/
theorem Fl.add_fst {x y : Fl} {a b : BitVec 32} (hx : x.1 = a.toNat) (hy : y.1 = b.toNat) : (Fl.add x y).1 = (rneAdd a b).toNat := by
  rw [rneAdd, BitVec.toNat_ofNat, ← hx, ← hy]
  exact (Nat.mod_eq_of_lt (fp32_addV_fst_lt 0 _ _)).symm

theorem Fl.sub_fst {x y : Fl} {a b : BitVec 32} (hx : x.1 = a.toNat) (hy : y.1 = b.toNat) : (Fl.sub x y).1 = (rneSub a b).toNat := by
  rw [rneSub, BitVec.toNat_ofNat, ← hx, ← hy]
  exact (Nat.mod_eq_of_lt (fp32_addV_fst_lt 0 _ _)).symm

theorem Fl.mul_fst {x y : Fl} {a b : BitVec 32} (hx : x.1 = a.toNat) (hy : y.1 = b.toNat) : (Fl.mul x y).1 = (rneMul a b).toNat := by
  rw [rneMul, BitVec.toNat_ofNat, ← hx, ← hy]
  exact (Nat.mod_eq_of_lt (fp32_mulV_fst_lt 0 _ _)).symm

/-- A NaN has all ones in its exponent and a fraction that is not zero (R23). -/
theorem Fmt.isNan_val (k : Fmt) (b : Nat) : (k.val b).isNan = (b / 2 ^ k.f % 2 ^ k.e == 2 ^ k.e - 1 && b % 2 ^ k.f != 0) := by
  unfold Fmt.val
  dsimp only
  split
  · next hx =>
    rw [hx, Bool.true_and, bne]
    split
    · next hz => rw [hz]; rfl
    · next hz => rw [Bool.eq_false_of_not_eq_true hz]; rfl
  · next hx =>
    rw [Bool.eq_false_of_not_eq_true hx, Bool.false_and]
    split <;> rfl

theorem isNan_val_toNat (s : BitVec 32) : (fp32.val s.toNat).isNan = (s.extractLsb' 23 8 == 255 && s.extractLsb' 0 23 != 0) := by
  have he : (s.extractLsb' 23 8 == 255) = (s.toNat / 2 ^ 23 % 2 ^ 8 == 2 ^ 8 - 1) := by
    rw [Bool.eq_iff_iff, beq_iff_eq, beq_iff_eq, ← BitVec.toNat_inj, BitVec.extractLsb'_toNat, Nat.shiftRight_eq_div_pow]
    rfl
  have hf : (s.extractLsb' 0 23 == 0) = (s.toNat % 2 ^ 23 == 0) := by
    rw [Bool.eq_iff_iff, beq_iff_eq, beq_iff_eq, ← BitVec.toNat_inj, BitVec.extractLsb'_toNat]
    rfl
  rw [bne, he, hf]
  exact fp32.isNan_val s.toNat

/-- The check of R171 on words. -/
theorem toNat_checkedVar (s : BitVec 32) : (checkedVar s).toNat = if badVar s.toNat then 0 else s.toNat := by
  have hs : s.getLsbD 31 = decide (2 ^ 31 ≤ s.toNat) := BitVec.msb_eq_getLsbD_last s ▸ BitVec.msb_eq_decide s
  rw [checkedVar, badVar, hs, isNan_val_toNat]
  split <;> rfl

/-! The register that an operation writes -/

/-- A fold that adds lane after lane gives the merged lanes. -/
theorem foldl_eq_mergeLanes {α : Type} {w n : Nat} {mask : W} {old : Nat} {f : Nat → Lanes} (p : α → Nat) {step : α → Nat → α} {r : α}
    (hr : p r = 0) (h : ∀ r i, i < n → p (step r i) = p r + mergedLane w mask old f i * 2 ^ (w * i)) :
    p ((List.range n).foldl step r) = (mergeLanes w n mask old f).1 := by
  induction n with
  | zero => exact hr
  | succ n ih =>
    rw [mergeLanes_succ_fst, List.range_succ, List.foldl_append, List.foldl_cons, List.foldl_nil, h _ n n.lt_succ_self,
      ih fun r i hi => h r i (hi.trans n.lt_succ_self)]

/-- Two halves side by side, as numbers. -/
theorem ofNat_halves {n a : Nat} (b : Nat) (ha : a < 2 ^ n) : BitVec.ofNat (n + n) (a + 2 ^ n * b) = BitVec.ofNat n b ++ BitVec.ofNat n a := by
  apply BitVec.eq_of_toNat_eq
  rw [BitVec.toNat_append, BitVec.toNat_ofNat, BitVec.toNat_ofNat, BitVec.toNat_ofNat, Nat.mod_eq_of_lt ha, ← Nat.shiftLeft_add_eq_or_of_lt ha,
    Nat.shiftLeft_eq, Nat.pow_add, Nat.mod_mul, Nat.add_mul_mod_self_left, Nat.mod_eq_of_lt ha, Nat.add_mul_div_left _ _ (Nat.two_pow_pos n),
    Nat.div_eq_of_lt ha, Nat.zero_add, Nat.add_comm, Nat.mul_comm]

/-- The lanes of a moment register put together from its means and its variances. -/
theorem meanLane_append (b a : VReg) {j : Nat} (hj : j < 16) : meanLane (b ++ a) j = lane32 a j :=
  BitVec.extractLsb'_append_eq_of_add_le (by omega)

theorem varLane_append (b a : VReg) (j : Nat) : varLane (b ++ a) j = lane32 b j := by
  rw [varLane, BitVec.extractLsb'_append_eq_of_le (by omega), Nat.add_sub_cancel_left, lane32]

/-- The result is moment register `d`: `mu` and `v` where the mask selects the lane, the mean and variance of mD elsewhere. -/
def OpResult.MomentsByMask (r : OpResult) (o : OpCtx) (d : BitVec 4) (mu v : Nat → BitVec 32) : Prop :=
  ∃ x : MReg, r.writes = [⟨.m d, x⟩] ∧ ∀ j, j < 16 →
    meanLane x j = (if o.mask.getLsbD j then mu j else meanLane o.md j) ∧ varLane x j = (if o.mask.getLsbD j then v j else varLane o.md j)

theorem toNat_ofNat_mergeLanes (w n : Nat) (mask : W) (old : Nat) (f : Nat → Lanes) :
    (BitVec.ofNat (w * n) (mergeLanes w n mask old f).1).toNat = (mergeLanes w n mask old f).1 :=
  (BitVec.toNat_ofNat _ _).trans (Nat.mod_eq_of_lt (mergeLanes_fst_lt w n mask old f))

/-- A word is a lane as it is. -/
theorem mergedLane_word (mask : W) (old : Nat) (g : Nat → BitVec 32) (j : Nat) :
    mergedLane 32 mask old (fun i => ((g i).toNat, 0)) j = if mask.getLsbD j then (g j).toNat else laneBits old 32 j := by
  rw [mergedLane, Nat.mod_eq_of_lt (g j).isLt]

/-- The lanes of a register that merges words with an old one. -/
theorem lane32_mergeLanes (mask : W) (old : Nat) (g : Nat → BitVec 32) {j : Nat} (hj : j < 16) :
    lane32 (BitVec.ofNat 512 (mergeLanes 32 16 mask old fun i => ((g i).toNat, 0)).1) j =
      if mask.getLsbD j then g j else BitVec.ofNat 32 (laneBits old 32 j) := by
  have hx := toNat_ofNat_mergeLanes 32 16 mask old fun i => ((g i).toNat, 0)
  rw [lane32_eq_ofNat, hx, laneBits_mergeLanes hj, mergedLane_word, apply_ite (BitVec.ofNat 32), BitVec.ofNat_toNat, BitVec.setWidth_eq]

/-- The mean of a lane as a field of the register's number, and the variance as one of its high half's (R154). -/
theorem laneBits_mean (m : MReg) (j : Nat) : laneBits m.toNat 32 j = (meanLane m j).toNat := meanOf_eq_toNat m j

theorem laneBits_var (m : MReg) (j : Nat) : laneBits (m.toNat / 2 ^ 512) 32 j = (varLane m j).toNat := by
  rw [← varOf_eq_toNat, varOf, laneBits, laneBits, Nat.div_div_eq_div_mul, ← Nat.pow_add, Nat.mul_add]

/-- A register of merged means and merged variances. -/
theorem momentsByMask_of_mergeLanes {r : OpResult} {o : OpCtx} {d : BitVec 4} {mu v : Nat → BitVec 32} {a b : Nat}
    (h : r.writes = [⟨.m d, BitVec.ofNat 1024 (a + 2 ^ 512 * b)⟩])
    (ha : a = (mergeLanes 32 16 o.mask o.md.toNat fun i => ((mu i).toNat, 0)).1)
    (hb : b = (mergeLanes 32 16 o.mask (o.md.toNat / 2 ^ 512) fun i => ((v i).toNat, 0)).1) : r.MomentsByMask o d mu v := by
  refine ⟨_, h, fun j hj => ?_⟩
  have halves := ofNat_halves b (mergeLanes_fst_lt 32 16 o.mask o.md.toNat fun i => ((mu i).toNat, 0))
  rw [← ha] at halves
  rw [halves, meanLane_append _ _ hj, varLane_append, ha, hb, lane32_mergeLanes _ _ _ hj, lane32_mergeLanes _ _ _ hj, laneBits_mean, laneBits_var]
  simp only [BitVec.ofNat_toNat, BitVec.setWidth_eq, and_self]

/-- The lane that an operation writes is among those that its mask selects, with its own value. -/
theorem find?_chosenLanes (mask : W) (f : Nat → Mv) {i : Nat} (hi : i < 16) :
    ((chosenLanes mask).map fun k => (k, f k)).find? (fun x => x.1 == i) = if mask.getLsbD i then some (i, f i) else none := by
  rw [List.find?_map, chosenLanes, List.find?_filter]
  split
  · next h =>
    rw [(List.find?_range_eq_some (i := i)).mpr ⟨by simp [h], List.mem_range.mpr hi, fun j hj => by simp [hj.ne]⟩, Option.map_some]
  · next h =>
    rw [List.find?_eq_none.mpr, Option.map_none]
    intro k _ hk
    simp only [Function.comp, beq_iff_eq, decide_eq_true_eq] at hk
    exact h (hk.2 ▸ hk.1)

/-- A moment operation whose lanes are words: the mean as it is, the variance as the check of R171 leaves it. -/
theorem moments_momentsByMask {o : OpCtx} {d : BitVec 4} {f : Nat → Mv} {mu s : Nat → BitVec 32} (hmu : ∀ i, (f i).mu = (mu i).toNat)
    (hs : ∀ i, (f i).s = (s i).toNat) : (o.moments d f).MomentsByMask o d mu fun i => checkedVar (s i) := by
  refine momentsByMask_of_mergeLanes rfl ?_ ?_
  · refine foldl_eq_mergeLanes Prod.fst rfl fun r i hi => ?_
    simp only [mergedLane_word, laneBits_mean, find?_chosenLanes o.mask f hi]
    cases o.mask.getLsbD i
    · simp
    · simp [hmu]
  · refine foldl_eq_mergeLanes (Prod.fst ∘ Prod.snd) rfl fun r i hi => ?_
    simp only [mergedLane_word, laneBits_var, find?_chosenLanes o.mask f hi]
    cases o.mask.getLsbD i
    · simp
    · simp [hs, toNat_checkedVar]

/-- A result without the check has its means and variances as they are. -/
theorem copied_momentsByMask {o : OpCtx} {d : BitVec 4} {f : Nat → Nat × Nat} {mu v : Nat → BitVec 32}
    (hf : ∀ i, f i = ((mu i).toNat, (v i).toNat)) : (o.copied d f).MomentsByMask o d mu v := by
  refine momentsByMask_of_mergeLanes rfl ?_ ?_
  · refine foldl_eq_mergeLanes Prod.fst rfl fun r i _ => ?_
    simp only [mergedLane_word, laneBits_mean]
    cases o.mask.getLsbD i
    · simp
    · simp [hf]
  · refine foldl_eq_mergeLanes Prod.snd rfl fun r i _ => ?_
    simp only [mergedLane_word, laneBits_var]
    cases o.mask.getLsbD i
    · simp
    · simp [hf]

/-! The rows of the tables -/

/-- Independent elements have no covariance term (R163). -/
theorem covTerm_eq_none {o : OpCtx} (h : o.momode.extractLsb' 0 2 = 0) (sa sb i : Nat) : o.covTerm sa sb i = none := by
  rw [OpCtx.covTerm, OpCtx.covMode, h]; rfl

theorem maddLane_eq {o : OpCtx} (h : o.momode.extractLsb' 0 2 = 0) (i : Nat) :
    (maddLane o i).mu = (rneAdd (meanLane o.ma i) (meanLane o.mb i)).toNat ∧
      (maddLane o i).s = (rneAdd (varLane o.ma i) (varLane o.mb i)).toNat := by
  rw [maddLane, covTerm_eq_none h]
  exact ⟨Fl.add_fst (meanOf_eq_toNat ..) (meanOf_eq_toNat ..), Fl.add_fst (varOf_eq_toNat ..) (varOf_eq_toNat ..)⟩

theorem msubLane_eq {o : OpCtx} (h : o.momode.extractLsb' 0 2 = 0) (i : Nat) :
    (msubLane o i).mu = (rneSub (meanLane o.ma i) (meanLane o.mb i)).toNat ∧
      (msubLane o i).s = (rneAdd (varLane o.ma i) (varLane o.mb i)).toNat := by
  rw [msubLane, covTerm_eq_none h]
  exact ⟨Fl.sub_fst (meanOf_eq_toNat ..) (meanOf_eq_toNat ..), Fl.add_fst (varOf_eq_toNat ..) (varOf_eq_toNat ..)⟩

/-- Variance of a product of independent elements: (ma² · sb + mb² · sa) + sa · sb. -/
def productVar (ma mb sa sb : BitVec 32) : BitVec 32 :=
  rneAdd (rneAdd (rneMul (rneMul ma ma) sb) (rneMul (rneMul mb mb) sa)) (rneMul sa sb)

theorem mmulLane_eq {o : OpCtx} (h : o.momode.extractLsb' 0 2 = 0) (i : Nat) :
    (mmulLane o i).mu = (rneMul (meanLane o.ma i) (meanLane o.mb i)).toNat ∧
      (mmulLane o i).s = (productVar (meanLane o.ma i) (meanLane o.mb i) (varLane o.ma i) (varLane o.mb i)).toNat := by
  have ma := meanOf_eq_toNat o.ma i
  have mb := meanOf_eq_toNat o.mb i
  have sa := varOf_eq_toNat o.ma i
  have sb := varOf_eq_toNat o.mb i
  rw [mmulLane, covTerm_eq_none h]
  exact ⟨Fl.mul_fst ma mb,
    Fl.add_fst (Fl.add_fst (Fl.mul_fst (Fl.mul_fst ma ma) sb) (Fl.mul_fst (Fl.mul_fst mb mb) sa)) (Fl.mul_fst sa sb)⟩

/-- Each operation on independent elements gives the means and variances of its row. -/
theorem momOut_momentsByMask {o : OpCtx} (hc : o.momode.extractLsb' 0 2 = 0) (h : (momentLane o 0 o.op).isSome = true) :
    ∃ d mu v, (∀ j, momentLane o j o.op = some (d, mu j, v j)) ∧ (momOut o).MomentsByMask o d mu v := by
  have b i : laneBits o.b.toNat 32 i = (lane32 o.b i).toNat := (toNat_lane32 o.b i).symm
  unfold momentLane at h
  split at h
  case h_9 => cases h
  all_goals
    rename_i heq
    refine ⟨_, _, _, fun j => by rw [heq]; rfl, ?_⟩
    simp only [momOut, heq]
  case h_1 => exact moments_momentsByMask (fun i => (maddLane_eq hc i).1) fun i => (maddLane_eq hc i).2
  case h_2 => exact moments_momentsByMask (fun i => (msubLane_eq hc i).1) fun i => (msubLane_eq hc i).2
  case h_3 => exact moments_momentsByMask (fun i => (mmulLane_eq hc i).1) fun i => (mmulLane_eq hc i).2
  case h_4 =>
    exact moments_momentsByMask (fun i => Fl.mul_fst (b i) (meanOf_eq_toNat ..)) fun i => Fl.mul_fst (Fl.mul_fst (b i) (b i)) (varOf_eq_toNat ..)
  case h_5 => exact moments_momentsByMask (fun i => Fl.add_fst (meanOf_eq_toNat ..) (b i)) fun i => varOf_eq_toNat ..
  case h_6 => exact moments_momentsByMask (fun i => (toNat_lane32 o.a i).symm) b
  case h_7 => exact copied_momentsByMask fun i => by rw [meanOf_eq_toNat, varOf_eq_toNat]
  case h_8 => exact copied_momentsByMask fun _ => rfl

/-- Settles O17: every operation of the table gives the means and the checked variances of its row. -/
theorem momentLanesByMask : Obligations.MomentLanesByMask := by
  intro o hc h
  obtain ⟨d, mu, v, rows, x, writes, lanes⟩ := momOut_momentsByMask hc h
  exact ⟨d, x, writes, fun j hj => ⟨mu j, v j, rows j, lanes j hj⟩⟩

end Sys2Proof.Machine
end

section
/-!
PROOF. The matrix arrays: what a change of an array and of the matrix side of a hart leaves alone, and what a lease does (R175 to R182).
-/

namespace Sys2Proof.Machine

/-! Arrays and harts -/

@[simp] theorem State.onArray_cur (s : State) (a : BitVec 7) (f : Arr → Arr) : (s.onArray a f).cur = s.cur := rfl
@[simp] theorem State.onArray_curHart (s : State) (a : BitVec 7) (f : Arr → Arr) : (s.onArray a f).curHart = s.curHart := rfl
@[simp] theorem State.onArray_flow (s : State) (a : BitVec 7) (f : Arr → Arr) : (s.onArray a f).flow = s.flow := rfl
@[simp] theorem State.onArray_mem (s : State) (a : BitVec 7) (f : Arr → Arr) : (s.onArray a f).mem = s.mem := rfl
@[simp] theorem State.onArray_net (s : State) (a : BitVec 7) (f : Arr → Arr) : (s.onArray a f).net = s.net := rfl
@[simp] theorem State.core_onArray (s : State) (a : BitVec 7) (f : Arr → Arr) (c : CoreId) : (s.onArray a f).core c = s.core c := rfl
@[simp] theorem State.hart_onArray (s : State) (a : BitVec 7) (f : Arr → Arr) : (s.onArray a f).hart = s.hart := rfl

@[simp] theorem State.hartAt_onArray (s : State) (a : BitVec 7) (f : Arr → Arr) (c : CoreId) (h : HartId) :
    (s.onArray a f).hartAt c h = s.hartAt c h := rfl

theorem array_congr {s t : State} (h : t.arrays = s.arrays) (a : BitVec 7) : t.array a = s.array a := by rw [State.array, State.array, h]

@[simp] theorem State.array_onHartAt (s : State) (c : CoreId) (h : HartId) (f : Hart → Hart) (a : BitVec 7) :
    (s.onHartAt c h f).array a = s.array a := rfl

@[simp] theorem State.array_onHart (s : State) (f : Hart → Hart) (a : BitVec 7) : (s.onHart f).array a = s.array a := rfl

@[simp] theorem State.array_onMx (s : State) (c : CoreId) (h : HartId) (f : MxHart → MxHart) (a : BitVec 7) :
    (s.onMx c h f).array a = s.array a := rfl

@[simp] theorem State.array_fill (s : State) (c : CoreId) (h : HartId) (r : RegRef) (x : BitVec 1024) (a : BitVec 7) :
    (s.fill c h r x).array a = s.array a := rfl

@[simp] theorem State.array_complete (s : State) (a : BitVec 7) : s.complete.array a = s.array a :=
  array_congr (State.complete_arrays s) a

@[simp] theorem State.hartAt_onMx_same (s : State) (c : CoreId) (h : HartId) (f : MxHart → MxHart) :
    (s.onMx c h f).hartAt c h = { s.hartAt c h with mx := f (s.hartAt c h).mx } := State.hartAt_onHartAt_same ..

theorem State.hartAt_onMx_other {c d : CoreId} {h i : HartId} (hne : (d, i) ≠ (c, h)) (s : State) (f : MxHart → MxHart) :
    (s.onMx c h f).hartAt d i = s.hartAt d i := State.hartAt_onHartAt_other hne s _

@[simp] theorem State.hartAt_fill_g (s : State) (c : CoreId) (h : HartId) (d : BitVec 5) (x : BitVec 1024) :
    (s.fill c h (.g d) x).hartAt c h = { s.hartAt c h with regs := (s.hartAt c h).regs.writeG d (x.setWidth 64) } :=
  State.hartAt_onHartAt_same ..

theorem mx_complete (s : State) : s.complete.hart.mx = s.hart.mx := by
  rcases hart_complete_cases s with h | ⟨n, pc, lo, ar, p, h⟩ <;> rw [h]
  rfl

/-- What completes after changes of an array and of its hart retires. -/
theorem complete_onArray_onHart {s : State} (h : s.flow = .next) (a : BitVec 7) (f : Arr → Arr) (g : Hart → Hart) :
    ((s.onArray a f).onHart g).complete = ((s.onArray a f).onHart g).retires := complete_eq_retires _ h

/-! The number of an array -/

theorem high_bits_bne_zero (x : W) : (x.extractLsb' 7 57 != 0) = decide (2 ^ 7 ≤ x.toNat) := by
  have hx := toNat_extractLsb'_eq x 7 57
  have hlt := x.isLt
  have h0 : x.extractLsb' 7 57 = 0 ↔ x.toNat < 2 ^ 7 := by
    rw [← BitVec.toNat_inj, hx, show (0 : BitVec 57).toNat = 0 from rfl]
    omega
  rw [Bool.eq_iff_iff, decide_eq_true_eq, bne_iff_ne, ne_eq, h0, Nat.not_lt]

theorem toNat_setWidth_array_lt (n : BitVec 7) : (n.setWidth 64).toNat < 2 ^ 7 := by
  rw [BitVec.toNat_setWidth]; exact Nat.lt_of_le_of_lt (Nat.mod_le ..) n.isLt

theorem extract_setWidth_array (n : BitVec 7) : (n.setWidth 64).extractLsb' 0 7 = n := by
  apply BitVec.eq_of_toNat_eq
  rw [toNat_extractLsb'_eq, BitVec.toNat_setWidth]
  have := n.isLt
  omega

theorem setWidth_extract_array {x : W} (hx : x.toNat < 2 ^ 7) : (x.extractLsb' 0 7).setWidth 64 = x := by
  apply BitVec.eq_of_toNat_eq
  rw [BitVec.toNat_setWidth, toNat_extractLsb'_eq]
  omega

/-! LEASH and LEASHN -/

theorem leashCause_of_high_bits {s : State} {x : W} (hx : 2 ^ 7 ≤ x.toNat) : s.leashCause x = some 0x153 := by
  rw [State.leashCause, high_bits_bne_zero, decide_eq_true hx, if_pos rfl]

theorem leashCause_of_low {s : State} {x : W} (hx : x.toNat < 2 ^ 7) : s.leashCause x =
    if s.ownArray != x.extractLsb' 0 7 then some 0x152 else if s.hart.mx.held || s.hart.mx.queued then some 0x154 else none := by
  rw [State.leashCause, high_bits_bne_zero, decide_eq_false (Nat.not_le.mpr hx), if_neg Bool.false_ne_true]
  rfl

theorem leashCause_of_other {s : State} {x : W} (hx : x.toNat < 2 ^ 7) (hn : x ≠ s.ownArray.setWidth 64) : s.leashCause x = some 0x152 := by
  rw [leashCause_of_low hx, if_pos]
  rw [bne_iff_ne]
  intro e
  exact hn (by rw [e, setWidth_extract_array hx])

theorem leashCause_of_own (s : State) : s.leashCause (s.ownArray.setWidth 64) =
    if s.hart.mx.held || s.hart.mx.queued then some 0x154 else none := by
  rw [leashCause_of_low (toNat_setWidth_array_lt _), extract_setWidth_array, bne_self_eq_false, if_neg Bool.false_ne_true]

theorem leashCause_of_second {s : State} (h : s.hart.mx.held = true ∨ s.hart.mx.queued = true) :
    s.leashCause (s.ownArray.setWidth 64) = some 0x154 := by
  rw [leashCause_of_own, if_pos (by simpa using h)]

theorem leashCause_of_first {s : State} (hh : s.hart.mx.held = false) (hq : s.hart.mx.queued = false) :
    s.leashCause (s.ownArray.setWidth 64) = none := by
  rw [leashCause_of_own, hh, hq]; rfl

/-- LEASHN, which tries once, or LEASH, which waits. -/
def leashing (try_ : Bool) (a d : BitVec 5) (w l : Bool) : Instr := if try_ then .leashn a d w l else .leash a d w l

section
variable {a d : BitVec 5} {w l : Bool} {s : State}

theorem exec_leashing_of_cause {try_ : Bool} {cause : BitVec 9} (hi : s.issues (leashing try_ a d w l) = true) (hs : s.settled = true)
    (hc : s.leashCause (s.g a) = some cause) : exec (leashing try_ a d w l) s = .next (s.trapped cause (s.g a) 0) := by
  rw [← fault_eq_trapped s cause _ _ hs]
  cases try_ with
  | false =>
    show execLeash a d w l s = _
    simp only [execLeash, hc]
    exact issue_of_issues hi
  | true =>
    show execLeashn a d w l s = _
    simp only [execLeashn, hc]
    exact issue_of_issues hi

theorem exec_leash (hi : s.issues (.leash a d w l) = true) (hg : s.g a = s.ownArray.setWidth 64) (hh : s.hart.mx.held = false)
    (hq : s.hart.mx.queued = false) : exec (.leash a d w l) s =
      .next ((((s.emptied (.g d)).onArray s.ownArray fun y => { y with fifo := y.fifo ++ [(s.cur, s.curHart)] }).onHart
        fun h => { h with mx := { h.mx with queued := true, array := s.ownArray, leashD := if d = 0 then none else some d } }).retires) := by
  have hf : s.flow = .next := flow_of_issues hi
  show execLeash a d w l s = _
  simp only [execLeash, hg, leashCause_of_first hh hq, extract_setWidth_array]
  rw [issue_of_issues hi, markEmpty_eq_emptied, ← complete_onArray_onHart (s := s.emptied (.g d)) hf]
  simp only [beq_iff_eq]
  rfl

theorem exec_leashn (hi : s.issues (.leashn a d w l) = true) (hg : s.g a = s.ownArray.setWidth 64) (hh : s.hart.mx.held = false)
    (hq : s.hart.mx.queued = false) : exec (.leashn a d w l) s =
      .next (if (s.array s.ownArray).holder.isNone && (s.array s.ownArray).fifo.isEmpty
        then ((s.grant s.ownArray s.cur s.curHart).wroteG d (s.ownArray.setWidth 64)).retires else (s.wroteG d (BitVec.allOnes 64)).retires) := by
  have hf : s.flow = .next := flow_of_issues hi
  show execLeashn a d w l s = _
  simp only [execLeashn, hg, leashCause_of_first hh hq, extract_setWidth_array, setG_eq_wroteG]
  rw [issue_of_issues hi, complete_eq_retires (s.wroteG d _) hf, complete_eq_retires ((s.grant _ _ _).wroteG d _) hf]

theorem exec_leashn_of_free (hi : s.issues (.leashn a d w l) = true) (hg : s.g a = s.ownArray.setWidth 64) (hh : s.hart.mx.held = false)
    (hq : s.hart.mx.queued = false) (hn : (s.array s.ownArray).holder = none) (he : (s.array s.ownArray).fifo = []) :
    exec (.leashn a d w l) s = .next ((s.grant s.ownArray s.cur s.curHart).wroteG d (s.ownArray.setWidth 64)).retires := by
  rw [exec_leashn hi hg hh hq, hn, he]; rfl

theorem exec_leashn_of_taken (hi : s.issues (.leashn a d w l) = true) (hg : s.g a = s.ownArray.setWidth 64) (hh : s.hart.mx.held = false)
    (hq : s.hart.mx.queued = false) (ht : (s.array s.ownArray).holder ≠ none ∨ (s.array s.ownArray).fifo ≠ []) :
    exec (.leashn a d w l) s = .next (s.wroteG d (BitVec.allOnes 64)).retires := by
  rw [exec_leashn hi hg hh hq, if_neg]
  simp only [Bool.and_eq_true, Option.isNone_iff_eq_none, List.isEmpty_iff]
  exact fun ⟨hn, he⟩ => ht.elim (· hn) (· he)

end

/-! The answer to a LEASH that waits -/

/-- The registers after a LEASH that waits is answered with `x`: its destination, if it has one, holds it. -/
def Regs.leashed (r : Regs) (d : Option (BitVec 5)) (x : W) : Regs :=
  match d with
  | some d => r.writeG d x
  | none => r

/-- A hart whose LEASH has been answered with `x`. -/
def Hart.leashed (h : Hart) (x : W) : Hart := { h with mx := { h.mx with leashD := none }, regs := h.regs.leashed h.mx.leashD x }

theorem Hart.leashed_of_none {h : Hart} (hd : h.mx.leashD = none) (x : W) : h.leashed x = h := by
  have hm : ({ h.mx with leashD := none } : MxHart) = h.mx := by rw [← hd]
  rw [Hart.leashed, hm, hd]
  rfl

theorem hartAt_refuseLeash (s : State) (c : CoreId) (h : HartId) :
    (s.refuseLeash c h).hartAt c h = (s.hartAt c h).leashed (BitVec.allOnes 64) := by
  unfold State.refuseLeash
  split
  · next hd => rw [Hart.leashed_of_none hd]
  · next d hd =>
    rw [State.hartAt_fill_g, State.hartAt_onHartAt_same, Hart.leashed, hd, BitVec.setWidth_setWidth_of_le _ (show 64 ≤ 1024 by decide)]
    rfl

theorem hartAt_fillLeash (s : State) (a : BitVec 7) (c : CoreId) (h : HartId) :
    (s.fillLeash a c h).hartAt c h = (s.hartAt c h).leashed (a.setWidth 64) := by
  unfold State.fillLeash
  split
  · next hd => rw [Hart.leashed_of_none hd]
  · next d hd =>
    rw [State.hartAt_fill_g, State.hartAt_onMx_same, Hart.leashed, hd, BitVec.setWidth_setWidth_of_le _ (show 64 ≤ 1024 by decide)]
    rfl

theorem hartAt_fillLeash_other {c d : CoreId} {h i : HartId} (hne : (d, i) ≠ (c, h)) (s : State) (a : BitVec 7) :
    (s.fillLeash a c h).hartAt d i = s.hartAt d i := by
  unfold State.fillLeash
  split
  · rfl
  · exact (State.hartAt_onHartAt_other hne ..).trans (State.hartAt_onMx_other hne ..)

@[simp] theorem State.array_refuseLeash (s : State) (c : CoreId) (h : HartId) (a : BitVec 7) : (s.refuseLeash c h).array a = s.array a := by
  unfold State.refuseLeash; split <;> rfl

@[simp] theorem State.array_fillLeash (s : State) (a b : BitVec 7) (c : CoreId) (h : HartId) : (s.fillLeash a c h).array b = s.array b := by
  unfold State.fillLeash; split <;> rfl

@[simp] theorem State.fillLeash_mem (s : State) (a : BitVec 7) (c : CoreId) (h : HartId) : (s.fillLeash a c h).mem = s.mem := by
  unfold State.fillLeash; split <;> rfl

/-! UNLEASH -/

section
variable {w l : Bool} {s : State} (hi : s.issues (.unleash w l) = true)
include hi

theorem exec_unleash : exec (.unleash w l) s = .next s.unleash := issue_of_issues hi

theorem exec_unleash_of_held (hh : s.hart.mx.held = true) : exec (.unleash w l) s =
    .next ((s.onArray s.hart.mx.array fun y => { y with holder := none }).onHart fun h => { h with mx := { h.mx with held := false } }).retires := by
  rw [exec_unleash hi, ← complete_onArray_onHart (flow_of_issues hi), State.unleash, if_pos hh]
  rfl

theorem exec_unleash_of_neither (hh : s.hart.mx.held = false) (hq : s.hart.mx.queued = false) : exec (.unleash w l) s = .next s.retires := by
  rw [exec_unleash hi, ← complete_eq_retires s (flow_of_issues hi), State.unleash, hh, hq]
  rfl

/-- The hart gives its request back: it leaves the FIFO of the array, and its LEASH is answered with all ones (R178, R182). -/
theorem exec_unleash_of_queued (hh : s.hart.mx.held = false) (hq : s.hart.mx.queued = true) : exec (.unleash w l) s =
    .next (((s.onArray s.hart.mx.array fun y => { y with fifo := y.fifo.filter fun p => p != (s.cur, s.curHart) }).onMx s.cur s.curHart fun m =>
      { m with queued := false }).refuseLeash s.cur s.curHart).complete := by
  rw [exec_unleash hi, State.unleash, hh, hq]
  rfl

end

@[simp] theorem State.refuseLeash_cur (s : State) (c : CoreId) (h : HartId) : (s.refuseLeash c h).cur = s.cur := by
  unfold State.refuseLeash; split <;> rfl
@[simp] theorem State.refuseLeash_curHart (s : State) (c : CoreId) (h : HartId) : (s.refuseLeash c h).curHart = s.curHart := by
  unfold State.refuseLeash; split <;> rfl

theorem unleash_withdraws {w l : Bool} {s : State} (hi : s.issues (.unleash w l) = true) (hh : s.hart.mx.held = false)
    (hq : s.hart.mx.queued = true) : ∃ t, exec (.unleash w l) s = .next t ∧ t.disp = .retired ∧ t.hart.mx.queued = false ∧
      (t.array s.hart.mx.array).fifo = (s.array s.hart.mx.array).fifo.filter (fun p => p != (s.cur, s.curHart)) ∧
      t.hart.regs = s.hart.regs.leashed s.hart.mx.leashD (BitVec.allOnes 64) := by
  refine ⟨_, exec_unleash_of_queued hi hh hq, State.complete_disp _, ?_, ?_, ?_⟩
  · rw [mx_complete, State.hart, State.refuseLeash_cur, State.refuseLeash_curHart]
    show ((State.refuseLeash _ s.cur s.curHart).hartAt s.cur s.curHart).mx.queued = false
    rw [hartAt_refuseLeash, State.hartAt_onMx_same]
    rfl
  · simp
  · rw [regs_complete, State.hart, State.refuseLeash_cur, State.refuseLeash_curHart]
    show ((State.refuseLeash _ s.cur s.curHart).hartAt s.cur s.curHart).regs = _
    rw [hartAt_refuseLeash, State.hartAt_onMx_same]
    rfl

/-! LEASE_GRANT and LEASE_EXPIRY -/

/-- The matrix side of a hart that has just got the lease of array `a` (R182). -/
def MxHart.granted (m : MxHart) (a : BitVec 7) : MxHart := { m with held := true, queued := false, rev := false, array := a, used := 0 }

theorem hartAt_grant (s : State) (a : BitVec 7) (c : CoreId) (h : HartId) :
    (s.grant a c h).hartAt c h = { s.hartAt c h with mx := (s.hartAt c h).mx.granted a } := State.hartAt_onMx_same ..

theorem hartAt_grant_other {c d : CoreId} {h i : HartId} (hne : (d, i) ≠ (c, h)) (s : State) (a : BitVec 7) :
    (s.grant a c h).hartAt d i = s.hartAt d i := State.hartAt_onMx_other hne ..

@[simp] theorem State.array_grant (s : State) (a : BitVec 7) (c : CoreId) (h : HartId) :
    (s.grant a c h).array a = { s.array a with holder := some (c, h), cmds := 0, rows := 0, limit := (s.array a).count } := by
  rw [State.grant, State.array_onMx, State.array_onArray_same]

theorem exec_leaseGrant {s : State} {a : BitVec 7} {c : CoreId} {h : HartId} {t : List (CoreId × HartId)} (hn : (s.array a).holder = none)
    (hq : (s.array a).fifo = (c, h) :: t) : exec (.leaseGrant a) s =
      (((s.onArray a fun x => { x with fifo := t }).grant a c h).fillLeash a c h).occur := by
  show execLeaseGrant a s = _
  simp only [execLeaseGrant, hn, hq]

theorem leaseGrant_grants {s : State} {a : BitVec 7} {c : CoreId} {h : HartId} {t : List (CoreId × HartId)} (hn : (s.array a).holder = none)
    (hq : (s.array a).fifo = (c, h) :: t) : ∃ u, exec (.leaseGrant a) s = .next u ∧ u.disp = .occurred ∧ u.mem = s.mem ∧
      u.array a = { s.array a with holder := some (c, h), fifo := t, cmds := 0, rows := 0, limit := (s.array a).count } ∧
      u.hartAt c h = ({ s.hartAt c h with mx := (s.hartAt c h).mx.granted a } : Hart).leashed (a.setWidth 64) := by
  refine ⟨_, exec_leaseGrant hn hq, rfl, ?_, ?_, ?_⟩
  · exact State.fillLeash_mem ..
  · exact (State.array_fillLeash ..).trans (by simp)
  · exact (hartAt_fillLeash ..).trans (by rw [hartAt_grant]; rfl)

/-- The counters of a lease have reached a limit (R176). -/
theorem spent_iff (y : Arr) : y.spent = true ↔ y.limit.toNat ≤ y.cmds ∨ 65536 ≤ y.rows := by
  simp [Arr.spent]

section
variable {s : State} {a : BitVec 7} {c : CoreId} {h : HartId} (hh : (s.array a).holder = some (c, h)) (hsp : (s.array a).spent = true)
include hh hsp

theorem exec_leaseExpiry_of_alone (hq : (s.array a).fifo = []) : exec (.leaseExpiry a) s =
    ((s.onArray a fun x => { x with cmds := 0, rows := 0 }).onMx c h fun m => { m with used := 0 }).occur := by
  show execLeaseExpiry a s = _
  simp only [execLeaseExpiry, hh, hsp, hq]
  rfl

theorem exec_leaseExpiry_of_awaited {c' : CoreId} {h' : HartId} {t : List (CoreId × HartId)} (hq : (s.array a).fifo = (c', h') :: t) :
    exec (.leaseExpiry a) s = ((((s.onArray a fun x => { x with fifo := t ++ [(c, h)] }).onMx c h fun m =>
      { m with held := false, queued := true }).grant a c' h').fillLeash a c' h').occur := by
  show execLeaseExpiry a s = _
  simp only [execLeaseExpiry, hh, hsp, hq]
  rfl

theorem leaseExpiry_renews (hq : (s.array a).fifo = []) : ∃ u, exec (.leaseExpiry a) s = .next u ∧ u.disp = .occurred ∧ u.mem = s.mem ∧
    u.array a = { s.array a with cmds := 0, rows := 0 } ∧ (u.hartAt c h).mx = { (s.hartAt c h).mx with used := 0 } := by
  refine ⟨_, exec_leaseExpiry_of_alone hh hsp hq, rfl, rfl, ?_, ?_⟩
  · exact State.array_onArray_same s a fun x => { x with cmds := 0, rows := 0 }
  · exact congrArg Hart.mx (State.hartAt_onMx_same (s.onArray a _) c h fun m => { m with used := 0 })

theorem leaseExpiry_passes {c' : CoreId} {h' : HartId} {t : List (CoreId × HartId)} (hq : (s.array a).fifo = (c', h') :: t)
    (hne : (c', h') ≠ (c, h)) : ∃ u, exec (.leaseExpiry a) s = .next u ∧ u.disp = .occurred ∧
      u.array a = { s.array a with holder := some (c', h'), fifo := t ++ [(c, h)], cmds := 0, rows := 0, limit := (s.array a).count } ∧
      (u.hartAt c h).mx = { (s.hartAt c h).mx with held := false, queued := true } ∧
      u.hartAt c' h' = ({ s.hartAt c' h' with mx := (s.hartAt c' h').mx.granted a } : Hart).leashed (a.setWidth 64) := by
  refine ⟨_, exec_leaseExpiry_of_awaited hh hsp hq, rfl, ?_, ?_, ?_⟩
  · exact (State.array_fillLeash ..).trans (by simp)
  · exact congrArg Hart.mx ((hartAt_fillLeash_other hne.symm ..).trans ((hartAt_grant_other hne.symm ..).trans (State.hartAt_onMx_same ..)))
  · refine (hartAt_fillLeash ..).trans ?_
    rw [hartAt_grant, State.hartAt_onMx_other hne]
    rfl

end

/-- Settles O38: LEASH and LEASHN by what their operand names, UNLEASH by what the hart has, a grant and an expiry by who waits in the FIFO. -/
theorem leasesPassOn : Obligations.LeasesPassOn := by
  refine ⟨fun a d w l s => exec_leash, ?tries, ?traps, ?unleash, ?grant, ?expiry⟩
  case tries => exact fun a d w l s hi hg hh hq => ⟨exec_leashn_of_free hi hg hh hq, exec_leashn_of_taken hi hg hh hq⟩
  case traps =>
    exact fun try_ a d w l s hi hs => ⟨fun hx => exec_leashing_of_cause hi hs (leashCause_of_high_bits hx),
      fun hx hn => exec_leashing_of_cause hi hs (leashCause_of_other hx hn),
      fun hg hm => exec_leashing_of_cause hi hs (hg ▸ leashCause_of_second hm)⟩
  case unleash => exact fun w l s hi => ⟨exec_unleash_of_held hi, unleash_withdraws hi, exec_unleash_of_neither hi⟩
  case grant =>
    intro s a c h t hn hq
    obtain ⟨u, hu, hd, hm, ha, hx⟩ := leaseGrant_grants hn hq
    exact ⟨u, hu, hd, hm, ha, by rw [hx]; exact ⟨rfl, rfl, rfl, rfl, rfl⟩⟩
  case expiry =>
    intro s a c h hh hsp
    rw [← spent_iff] at hsp
    refine ⟨leaseExpiry_renews hh hsp, fun c' h' t hq hne => ?_⟩
    obtain ⟨u, hu, hd, ha, hold, hx⟩ := leaseExpiry_passes hh hsp hq hne
    exact ⟨u, hu, hd, ha, by rw [hold], by rw [hold], by rw [hx]; exact ⟨rfl, rfl⟩⟩

end Sys2Proof.Machine
end

section
/-!
PROOF. What an array's descriptor, its state and its records say: MXCFG, MXQRY and MXWAIT (R183, R186, R191).
-/

namespace Sys2Proof.Machine

/-! Fields of a word -/

/-- Fields side by side, as a word made by shifting. -/
theorem setWidth_append_eq_or {m n : Nat} (x : BitVec m) (y : BitVec n) :
    (x ++ y).setWidth 64 = x.setWidth 64 <<< n ||| y.setWidth 64 := by
  ext i hi
  by_cases h : i < n
  · simp [BitVec.getLsbD_append, h]
  · have : y.getLsbD i = false := BitVec.getLsbD_of_ge y i (Nat.not_lt.mp h)
    simp [BitVec.getLsbD_append, h, this]

theorem countWord_eq (count : BitVec 7) : (0#8 ++ count ++ 0#49 : W) = count.setWidth 64 <<< 49 ||| 0 := by
  refine (BitVec.setWidth_eq _).symm.trans ((setWidth_append_eq_or (0#8 ++ count) 0#49).trans ?_)
  rw [setWidth_append_eq_or]
  simp

theorem queryWord_eq (count cmds : BitVec 7) (rows : BitVec 17) (waiting : BitVec 8) (c : CoreId) (h : HartId) :
    (0#8 ++ count ++ rows ++ 0#2 ++ cmds ++ waiting ++ c ++ h ++ 1#1 : W) = count.setWidth 64 <<< 49 |||
      (rows.setWidth 64 <<< 32 ||| cmds.setWidth 64 <<< 23 ||| waiting.setWidth 64 <<< 15 ||| (c ++ h ++ 1#1).setWidth 64) := by
  refine (BitVec.setWidth_eq _).symm.trans ((setWidth_append_eq_or (0#8 ++ count ++ rows ++ 0#2 ++ cmds ++ waiting ++ c ++ h) 1#1).trans ?_)
  simp only [setWidth_append_eq_or, BitVec.shiftLeft_or_distrib, ← BitVec.shiftLeft_add, BitVec.or_assoc]
  simp

theorem recordWord_eq (rows : Nat) (status : Byte) :
    (BitVec.ofNat 56 rows ++ status : W) = BitVec.ofNat 64 (256 * rows) ||| status.setWidth 64 := by
  have hr : (BitVec.ofNat 56 rows).setWidth 64 <<< 8 = BitVec.ofNat 64 (256 * rows) := by
    apply BitVec.eq_of_toNat_eq
    rw [BitVec.toNat_shiftLeft, Nat.shiftLeft_eq, BitVec.toNat_setWidth, BitVec.toNat_ofNat, BitVec.toNat_ofNat]
    omega
  rw [← hr]
  exact (BitVec.setWidth_eq _).symm.trans (setWidth_append_eq_or (BitVec.ofNat 56 rows) status)

/-- Without a transfer under way, an instruction that writes a g register retires. -/
theorem setG_complete_eq_retires {s : State} (h : s.flow = .next) (d : BitVec 5) (x : W) : (s.setG d x).complete = (s.wroteG d x).retires := by
  rw [setG_eq_wroteG]; exact complete_eq_retires _ h

/-! MXCFG -/

section
variable {a b d : BitVec 5} {w l : Bool} {s : State}

theorem exec_mxcfg (hi : s.issues (.mxcfg b a w l) = true) : let r := rectOf (s.g a) (s.g b)
    exec (.mxcfg b a w l) s = .next (if rectBad (s.g a) (s.g b) then s.fault 0x155 (s.g a) 0
      else if s.rectOutside s.cur r then s.fault 0x156 (s.g a) 0
      else if Config.spillBase < r.base + r.rpc * (256 / r.w) * (if r.pairs then 8 else 4) then s.fault 0x15D (s.g a) 0
      else (s.onHart fun h => { h with mx := { h.mx with desc := s.g a, lbase := s.g b, valid := true } }).retires) := by
  rw [← complete_onHart (flow_of_issues hi)]
  exact issue_of_issues hi

/-! MXQRY -/

/-- The fields that MXQRY shows of an array with a holder (R183). -/
def Arr.holderWord (y : Arr) : W :=
  match y.holder with
  | some (c, h) => (BitVec.ofNat 17 y.rows).setWidth 64 <<< 32 ||| (BitVec.ofNat 7 y.cmds).setWidth 64 <<< 23 |||
      (BitVec.ofNat 8 y.fifo.length).setWidth 64 <<< 15 ||| (c ++ h ++ 1#1).setWidth 64
  | none => 0

theorem exec_mxqry (hi : s.issues (.mxqry a d w l) = true) : let y := s.array ((s.g a).extractLsb' 0 7)
    exec (.mxqry a d w l) s = .next (if 2 ^ 7 ≤ (s.g a).toNat then s.fault 0x153 (s.g a) 0
      else (s.wroteG d (y.count.setWidth 64 <<< 49 ||| y.holderWord)).retires) := by
  have hx := high_bits_bne_zero (s.g a)
  refine (issue_of_issues hi).trans ?_
  simp only [hx, decide_eq_true_eq, setG_complete_eq_retires (flow_of_issues hi)]
  rfl

theorem exec_mxqry_of_no_holder (hi : s.issues (.mxqry a d w l) = true) (hx : (s.g a).toNat < 2 ^ 7)
    (hn : (s.array ((s.g a).extractLsb' 0 7)).holder = none) :
    exec (.mxqry a d w l) s = .next (s.wroteG d (0#8 ++ (s.array ((s.g a).extractLsb' 0 7)).count ++ 0#49)).retires := by
  rw [exec_mxqry hi, if_neg (Nat.not_le.mpr hx), Arr.holderWord, hn, countWord_eq]

theorem exec_mxqry_of_holder (hi : s.issues (.mxqry a d w l) = true) (hx : (s.g a).toNat < 2 ^ 7) {c : CoreId} {h : HartId}
    (hn : (s.array ((s.g a).extractLsb' 0 7)).holder = some (c, h)) : let y := s.array ((s.g a).extractLsb' 0 7)
    exec (.mxqry a d w l) s = .next (s.wroteG d (0#8 ++ y.count ++ BitVec.ofNat 17 y.rows ++ 0#2 ++ BitVec.ofNat 7 y.cmds ++
      BitVec.ofNat 8 y.fifo.length ++ c ++ h ++ 1#1)).retires := by
  rw [exec_mxqry hi, if_neg (Nat.not_le.mpr hx), Arr.holderWord, hn]
  dsimp only
  rw [queryWord_eq]

/-! MXWAIT -/

/-- The record that MXWAIT finds of command `n` of array `a`, if it is among the last 64 and of the hart's context (R191). -/
def State.recordOf (s : State) (x : W) : Option RunRec :=
  let y := s.array (x.extractLsb' 32 7)
  y.recs.find? fun r => r.seq == x.extractLsb' 0 32 && r.ctx == s.self.mem.ctxid && decide ((y.seq - x.extractLsb' 0 32).toNat ≤ 64)

theorem exec_mxwait (hi : s.issues (.mxwait a d w l) = true) : exec (.mxwait a d w l) s = .next (s.mxwait d (s.g a)) :=
  issue_of_issues hi

theorem mxwait_of_running {x : W} (h : 2 ^ 31 ≤ ((s.array (x.extractLsb' 32 7)).lastDone - x.extractLsb' 0 32).toNat) (d : BitVec 5) :
    s.mxwait d x = { s with disp := .held } := if_pos h

theorem mxwait_of_done {x : W} (h : ((s.array (x.extractLsb' 32 7)).lastDone - x.extractLsb' 0 32).toNat < 2 ^ 31) (d : BitVec 5) :
    s.mxwait d x = match s.recordOf x with
      | none => (s.setG d 0).complete
      | some r => if r.status.extractLsb' 4 4 == 3 then s.fault 0x1B2 0 0
          else (s.setG d (BitVec.ofNat 64 (256 * r.rows) ||| r.status.setWidth 64)).complete := if_neg (Nat.not_le.mpr h)

end

/-- Settles O39: MXCFG by the order of its checks, MXQRY by whether the array has a holder, MXWAIT by the record that it finds. -/
theorem arraysAreDescribedAndWatched : Obligations.ArraysAreDescribedAndWatched := by
  refine ⟨?cfg, ?qry, ?wait⟩
  case cfg =>
    refine fun b a w l s hi => ⟨fun hb ho hf => ?_, fun hb hs => ?_, fun hb ho hs => ?_, fun hb ho hf hs => ?_⟩
    · rw [exec_mxcfg hi, hb, ho, if_neg Bool.false_ne_true, if_neg Bool.false_ne_true, if_neg (Nat.not_lt.mpr hf)]
    · rw [exec_mxcfg hi, hb, if_pos rfl, fault_eq_trapped _ _ _ _ hs]
    · rw [exec_mxcfg hi, hb, ho, if_neg Bool.false_ne_true, if_pos rfl, fault_eq_trapped _ _ _ _ hs]
    · rw [exec_mxcfg hi, hb, ho, if_neg Bool.false_ne_true, if_neg Bool.false_ne_true, if_pos hf, fault_eq_trapped _ _ _ _ hs]
  case qry =>
    refine fun a d w l s hi => ⟨fun hx => ⟨exec_mxqry_of_no_holder hi hx, fun c h => exec_mxqry_of_holder hi hx⟩, fun hx hs => ?_⟩
    rw [exec_mxqry hi, if_pos hx, fault_eq_trapped _ _ _ _ hs]
  case wait =>
    refine fun a d w l s hi => ⟨fun hn => ?_, fun hn => ⟨fun hr => ?_, fun r hr hst _ => ?_, fun r hr hst hs => ?_⟩⟩
    · rw [exec_mxwait hi, mxwait_of_running hn]
    · have hr : s.recordOf (s.g a) = none := hr
      rw [exec_mxwait hi, mxwait_of_done hn, hr]
      exact congrArg _ (setG_complete_eq_retires (flow_of_issues hi) d 0)
    · have hr : s.recordOf (s.g a) = some r := hr
      rw [exec_mxwait hi, mxwait_of_done hn, hr, recordWord_eq, ← setG_complete_eq_retires (flow_of_issues hi)]
      exact congrArg _ (if_neg (by simpa using hst))
    · have hr : s.recordOf (s.g a) = some r := hr
      rw [exec_mxwait hi, mxwait_of_done hn, hr, ← fault_eq_trapped _ _ _ _ hs]
      exact congrArg _ (if_pos (by simpa using hst))

end Sys2Proof.Machine
end

section
/-!
PROOF. How a hart sends commands to the array of its lease: what the queue takes, what counts, and what a hart without a lease meets (R176, R177).
-/

namespace Sys2Proof.Machine

/-! With and without a lease -/

theorem sendMx_of_takes {s : State} (h : s.arrayTakes) (t : State) : s.sendMx t = t := by
  obtain ⟨hh, hq, hc, hr⟩ := h
  have hsp : (s.array s.hart.mx.array).spent = false := by
    rw [Bool.eq_false_iff, ne_eq, spent_iff]
    omega
  simp only [State.sendMx, hh, hsp, if_true, Bool.or_false, decide_eq_true_eq, if_neg (Nat.not_le.mpr hq)]

theorem sendMx_of_unleashed {s : State} (h : s.unleashed) (t : State) : s.sendMx t =
    if s.hart.mx.rev then (s.onHart fun h => { h with mx := { h.mx with rev := false } }).fault 0x151 0 0 else s.fault 0x150 0 0 := by
  obtain ⟨hh, hq⟩ := h
  simp only [State.sendMx, hh, hq, Bool.false_eq_true, if_false]
  rfl

/-- A change of a hart that leaves its number of accesses and its park on a ticket leaves open what was open. -/
theorem settled_onHart {s : State} {f : Hart → Hart} (hn : (f s.hart).nseq = s.hart.nseq) (ht : (f s.hart).tkp = s.hart.tkp) :
    (s.onHart f).settled = s.settled := by
  have hx : (s.onHart f).hartAt s.cur s.curHart = f s.hart := State.hart_onHart s f
  simp only [State.settled, State.unconfirmed, State.onHart_cur, State.onHart_curHart, State.hart_onHart, hx, hn, ht]
  rfl

/-- A command of a hart without a lease traps (R177, R178). -/
theorem trapsUnleashed_of_sends {i : Instr} {s t : State} (h : exec i s = .next (s.sendMx t)) : trapsUnleashed i s := by
  intro hu hs
  rw [h, sendMx_of_unleashed hu]
  refine ⟨fun hr => ?_, fun hr => ?_⟩
  · rw [hr, if_neg Bool.false_ne_true, fault_eq_trapped _ _ _ _ hs]
  · rw [if_pos hr, fault_eq_trapped _ _ _ _ ((settled_onHart rfl rfl).trans hs)]

/-! The queue -/

/-- An array whose lease counts command `k`, if it is its holder's (R176). -/
def Arr.counting (y : Arr) (k : MxCmd) : Arr :=
  if y.holder == some (k.core, k.hart) then { y with cmds := y.cmds + 1, rows := y.rows + (if k.kind == 1 then k.rows else 0) } else y

theorem array_countMx (s : State) (a : BitVec 7) (k : MxCmd) : (s.countMx a k).array a = (s.array a).counting k := by
  unfold State.countMx Arr.counting
  split
  · rw [State.array_onMx, State.array_onArray_same]
  · rfl

theorem hartAt_countMx (s : State) (a : BitVec 7) (k : MxCmd) : (s.countMx a k).hartAt k.core k.hart =
    if (s.array a).holder == some (k.core, k.hart)
      then { s.hartAt k.core k.hart with mx := { (s.hartAt k.core k.hart).mx with used := (s.hartAt k.core k.hart).mx.used + 1 } }
      else s.hartAt k.core k.hart := by
  unfold State.countMx
  split
  · exact State.hartAt_onMx_same ..
  · rfl

@[simp] theorem State.countMx_cur (s : State) (a : BitVec 7) (k : MxCmd) : (s.countMx a k).cur = s.cur := by
  unfold State.countMx; split <;> rfl
@[simp] theorem State.countMx_curHart (s : State) (a : BitVec 7) (k : MxCmd) : (s.countMx a k).curHart = s.curHart := by
  unfold State.countMx; split <;> rfl
@[simp] theorem State.countMx_mem (s : State) (a : BitVec 7) (k : MxCmd) : (s.countMx a k).mem = s.mem := by
  unfold State.countMx; split <;> rfl

@[simp] theorem State.queueMx_cur (s : State) (k : MxCmd) : (s.queueMx k).cur = s.cur := State.countMx_cur ..
@[simp] theorem State.queueMx_curHart (s : State) (k : MxCmd) : (s.queueMx k).curHart = s.curHart := State.countMx_curHart ..
@[simp] theorem State.queueMx_mem (s : State) (k : MxCmd) : (s.queueMx k).mem = s.mem := State.countMx_mem ..

theorem array_queueMx (s : State) (k : MxCmd) : (s.queueMx k).array s.hart.mx.array =
    ({ s.array s.hart.mx.array with queue := (s.array s.hart.mx.array).queue ++ [k] } : Arr).counting k := by
  rw [State.queueMx, array_countMx, State.array_onArray_same]

theorem hart_queueMx {s : State} {k : MxCmd} (hc : k.core = s.cur) (hh : k.hart = s.curHart) : (s.queueMx k).hart =
    if (s.array s.hart.mx.array).holder == some (s.cur, s.curHart)
      then { s.hart with mx := { s.hart.mx with used := s.hart.mx.used + 1 } } else s.hart := by
  have h := hartAt_countMx (s.onArray s.hart.mx.array fun y => { y with queue := y.queue ++ [k] }) s.hart.mx.array k
  rw [State.array_onArray_same, hc, hh] at h
  rw [State.hart, State.queueMx_cur, State.queueMx_curHart]
  exact h

/-- `t` is `s` but for one command on the queue of the array of the hart's lease, where it counts as `rows` rows (R176, R177). -/
structure State.Queues (s t : State) (k : MxCmd) (rows : Nat) : Prop where
  queued : queuedAt s t s.hart.mx.array k
  counted : countedAt s t s.hart.mx.array rows
  regs : t.hart.regs = s.hart.regs
  nseq : t.hart.nseq = s.hart.nseq
  mem : t.mem = s.mem

theorem queueMx_queues {s : State} {k : MxCmd} (hc : k.core = s.cur) (hh : k.hart = s.curHart) :
    s.Queues (s.queueMx k) k (if k.kind == 1 then k.rows else 0) := by
  have ha := array_queueMx s k
  have hx := hart_queueMx hc hh
  refine ⟨?_, fun ho => ?_, ?_, ?_, State.queueMx_mem ..⟩
  · rw [queuedAt, ha, Arr.counting]
    split <;> rfl
  · have hk : ((s.array s.hart.mx.array).holder == some (k.core, k.hart)) = true := by rw [ho, hc, hh]; exact beq_self_eq_true _
    have hs : ((s.array s.hart.mx.array).holder == some (s.cur, s.curHart)) = true := by rw [ho]; exact beq_self_eq_true _
    rw [ha, hx, Arr.counting, if_pos hk, if_pos hs]
    exact ⟨rfl, rfl, rfl⟩
  · rw [hx]
    split <;> rfl
  · rw [hx]
    split <;> rfl

theorem State.Queues.complete {s t : State} {k : MxCmd} {rows : Nat} (h : s.Queues t k rows) : s.Queues t.complete k rows where
  queued := by rw [queuedAt, State.array_complete]; exact h.queued
  counted ho := by rw [State.array_complete, mx_complete]; exact h.counted ho
  regs := (regs_complete t).trans h.regs
  nseq := (nseq_complete t).trans h.nseq
  mem := (State.complete_mem t).trans h.mem

/-! MXLDB -/

/-- The command of an MXLDB with these operands (R185). -/
def State.loadCmd (s : State) (x y : W) : MxCmd :=
  let p := s.prefixed.getD 0
  { s.mxCmd with kind := 0, tile := x.extractLsb' 17 8, pair := y.getLsbD 0, fmt := if pfFB p == 0 then 2 else pfFB p, q := (pfQB p).toNat + 1,
                 p := (pfPP p).toNat + 1, ce := pfCE p, buf := !(s.array s.hart.mx.array).lastBuf }

/-- The state once it is sent: the buffers take turns, and the hart knows what it loaded last. -/
def State.loadSent (s : State) (k : MxCmd) : State :=
  ((s.queueMx k).onArray s.hart.mx.array fun z => { z with lastBuf := k.buf }).onMx s.cur s.curHart fun m =>
    { m with lastLoad := some (k.buf, k.fmt, k.pair), loaded := true }

theorem array_loadSent (s : State) (k : MxCmd) : (s.loadSent k).array s.hart.mx.array =
    { (s.queueMx k).array s.hart.mx.array with lastBuf := k.buf } := by
  rw [State.loadSent, State.array_onMx, State.array_onArray_same]

theorem hart_loadSent (s : State) (k : MxCmd) : (s.loadSent k).hart =
    { (s.queueMx k).hart with mx := { (s.queueMx k).hart.mx with lastLoad := some (k.buf, k.fmt, k.pair), loaded := true } } := by
  have hc : (s.loadSent k).cur = s.cur := State.queueMx_cur ..
  have hh : (s.loadSent k).curHart = s.curHart := State.queueMx_curHart ..
  rw [State.hart, State.hart, hc, hh, State.queueMx_cur, State.queueMx_curHart, State.loadSent, State.hartAt_onMx_same, State.hartAt_onArray]

theorem loadSent_queues (s : State) (x y : W) : s.Queues (s.loadSent (s.loadCmd x y)) (s.loadCmd x y) 0 := by
  have hq : s.Queues (s.queueMx (s.loadCmd x y)) (s.loadCmd x y) 0 := queueMx_queues rfl rfl
  refine ⟨?_, fun ho => ?_, ?_, ?_, hq.mem⟩
  · rw [queuedAt, array_loadSent]
    exact hq.queued
  · rw [array_loadSent, hart_loadSent]
    exact hq.counted ho
  · rw [hart_loadSent]
    exact hq.regs
  · rw [hart_loadSent]
    exact hq.nseq

/-- Bits 16:0 and 63:25 of the tile's register are zero, and the first tile of a pair is even (R185). -/
def tileRefused (x y : W) : Bool := x.extractLsb' 0 17 != 0 || x.extractLsb' 25 39 != 0 || (y.getLsbD 0 && x.getLsbD 17)

theorem tileRefused_iff (x y : W) : tileRefused x y = true ↔
    x.extractLsb' 0 17 ≠ 0 ∨ x.extractLsb' 25 39 ≠ 0 ∨ (y.getLsbD 0 = true ∧ x.getLsbD 17 = true) := by
  simp [tileRefused, or_assoc]

/-- Bits 63:1 of the other register are zero, and a pair of tiles has a float format (R185). -/
def pairRefused (s : State) (x y : W) : Bool := y.extractLsb' 1 63 != 0 || (y.getLsbD 0 && !mxFloat (s.loadCmd x y).fmt)

theorem mxFloat_iff (f : BitVec 4) : mxFloat f = true ↔ f = 0 ∨ f = 2 ∨ f = 3 := by simp [mxFloat, or_assoc]

theorem mxFloat_default (f : BitVec 4) : mxFloat (if f == 0 then 2 else f) = mxFloat f := by
  by_cases h : f = 0
  · subst h; rfl
  · rw [if_neg (by simpa using h)]

theorem loadFine_iff (s : State) (x y : W) : loadFine s x y ↔ tileRefused x y = false ∧ pairRefused s x y = false := by
  rw [← Bool.not_eq_true, tileRefused_iff, pairRefused, show mxFloat (s.loadCmd x y).fmt = _ from mxFloat_default _, loadFine]
  simp only [Bool.or_eq_false_iff, bne_eq_false_iff_eq, Bool.and_eq_false_imp, Bool.not_eq_false', mxFloat_iff]
  grind

section
variable {a b : BitVec 5} {w l : Bool} {s : State}

theorem exec_mxldb (hi : s.issues (.mxldb b a w l) = true) : exec (.mxldb b a w l) s =
    .next (if tileRefused (s.g a) (s.g b) then s.fault 0x15C (s.g a) 0 else if pairRefused s (s.g a) (s.g b) then s.fault 0x157 (s.g b) 0
      else s.sendMx (s.loadSent (s.loadCmd (s.g a) (s.g b))).complete) :=
  issue_of_issues hi

theorem mxldb_queues (hi : s.issues (.mxldb b a w l) = true) (hf : loadFine s (s.g a) (s.g b)) (ht : s.arrayTakes) :
    let k := s.loadCmd (s.g a) (s.g b)
    ∃ t, exec (.mxldb b a w l) s = .next t ∧ t.disp = .retired ∧ s.Queues t k 0 ∧ (t.array s.hart.mx.array).lastBuf = k.buf ∧
      t.hart.mx.lastLoad = some (k.buf, k.fmt, k.pair) ∧ t.hart.mx.loaded = true := by
  obtain ⟨hx, hy⟩ := (loadFine_iff ..).mp hf
  refine ⟨_, by rw [exec_mxldb hi, hx, hy, if_neg Bool.false_ne_true, if_neg Bool.false_ne_true, sendMx_of_takes ht], State.complete_disp _,
    (loadSent_queues ..).complete, ?_⟩
  rw [State.array_complete, mx_complete, array_loadSent, hart_loadSent]
  exact ⟨rfl, rfl, rfl⟩

theorem mxldb_trapsUnleashed (hi : s.issues (.mxldb b a w l) = true) (hf : loadFine s (s.g a) (s.g b)) : trapsUnleashed (.mxldb b a w l) s := by
  obtain ⟨hx, hy⟩ := (loadFine_iff ..).mp hf
  refine trapsUnleashed_of_sends (t := (s.loadSent (s.loadCmd (s.g a) (s.g b))).complete) ?_
  rw [exec_mxldb hi, hx, hy, if_neg Bool.false_ne_true, if_neg Bool.false_ne_true]

theorem mxldb_refuses_tile (hi : s.issues (.mxldb b a w l) = true) (hs : s.settled = true) (hx : tileRefused (s.g a) (s.g b) = true) :
    exec (.mxldb b a w l) s = .next (s.trapped 0x15C (s.g a) 0) := by
  rw [exec_mxldb hi, if_pos hx, fault_eq_trapped _ _ _ _ hs]

theorem mxldb_refuses_pair (hi : s.issues (.mxldb b a w l) = true) (hs : s.settled = true) (hx : tileRefused (s.g a) (s.g b) = false)
    (hf : ¬ loadFine s (s.g a) (s.g b)) : exec (.mxldb b a w l) s = .next (s.trapped 0x157 (s.g b) 0) := by
  have hy : pairRefused s (s.g a) (s.g b) = true := by
    rw [← Bool.not_eq_false]
    exact fun h => hf ((loadFine_iff ..).mpr ⟨hx, h⟩)
  rw [exec_mxldb hi, hx, hy, if_neg Bool.false_ne_true, if_pos rfl, fault_eq_trapped _ _ _ _ hs]

end

end Sys2Proof.Machine
end

section
/-!
PROOF. MXZERO and MXRUN: what they refuse, what stands on the queue, and that checking the A rows changes nothing but translations (R188, R192).
-/

namespace Sys2Proof.Machine

/-! MXZERO -/

section
variable {w l : Bool} {s : State} (hi : s.issues (.mxzero w l) = true)
include hi

theorem exec_mxzero : exec (.mxzero w l) s = .next (if !s.hart.mx.valid then s.fault 0x15B 0 0
    else if s.rectRefused then s.fault 0x156 s.hart.mx.desc 0 else s.sendMx (s.queueMx s.mxCmd).complete) := issue_of_issues hi

theorem mxzero_sends (hv : s.hart.mx.valid = true) (hr : s.rectRefused = false) :
    exec (.mxzero w l) s = .next (s.sendMx (s.queueMx s.mxCmd).complete) := by
  rw [exec_mxzero hi, hv, hr, Bool.not_true, if_neg Bool.false_ne_true, if_neg Bool.false_ne_true]

theorem mxzero_queues (hv : s.hart.mx.valid = true) (hr : s.rectRefused = false) (ht : s.arrayTakes) :
    ∃ t, exec (.mxzero w l) s = .next t ∧ t.disp = .retired ∧ s.Queues t s.mxCmd 0 := by
  have hq : s.Queues (s.queueMx s.mxCmd) s.mxCmd 0 := queueMx_queues rfl rfl
  exact ⟨_, by rw [mxzero_sends hi hv hr, sendMx_of_takes ht], State.complete_disp _, hq.complete⟩

theorem mxzero_refuses_rect (hs : s.settled = true) (hv : s.hart.mx.valid = true) (hr : s.rectRefused = true) :
    exec (.mxzero w l) s = .next (s.trapped 0x156 s.hart.mx.desc 0) := by
  rw [exec_mxzero hi, hv, hr, Bool.not_true, if_neg Bool.false_ne_true, if_pos rfl, fault_eq_trapped _ _ _ _ hs]

theorem mxzero_refuses_invalid (hs : s.settled = true) (hv : s.hart.mx.valid = false) :
    exec (.mxzero w l) s = .next (s.trapped 0x15B 0 0) := by
  rw [exec_mxzero hi, hv, Bool.not_false, if_pos rfl, fault_eq_trapped _ _ _ _ hs]

end

/-! Translation of the A rows -/

/-- `t` is `s` but for what TLBs hold: its harts, arrays and memory are those of `s`, and the same hart executes. -/
structure State.Translates (s t : State) : Prop where
  cur : t.cur = s.cur
  curHart : t.curHart = s.curHart
  harts : s.SameHarts t
  arrays : t.arrays = s.arrays
  mem : t.mem = s.mem

theorem State.Translates.refl (s : State) : s.Translates s := ⟨rfl, rfl, .refl s, rfl, rfl⟩

theorem State.Translates.trans {s t u : State} (h : s.Translates t) (g : t.Translates u) : s.Translates u :=
  ⟨g.cur.trans h.cur, g.curHart.trans h.curHart, h.harts.trans g.harts, g.arrays.trans h.arrays, g.mem.trans h.mem⟩

theorem State.Translates.hart {s t : State} (h : s.Translates t) : t.hart = s.hart := by
  rw [State.hart, State.hart, h.cur, h.curHart, h.harts.hartAt]

theorem translates_cacheEntry (s : State) (slice : BitVec 6) (c : CoreId) (e : TlbEntry) : s.Translates (s.cacheEntry slice c e) := by
  refine ⟨rfl, rfl, ⟨fun d h => ?_⟩, rfl, rfl⟩
  by_cases hd : d = c
  · subst hd
    refine State.hartAt_onCore (s.cacheSlice slice e) d h ?_
    dsimp only
    split <;> rfl
  · exact congrArg (Core.hart · h) (State.core_onCore_other (s.cacheSlice slice e) c d _ hd)

theorem rowEntry_ok {s t : State} {va : W} {e : TlbEntry} (h : s.rowEntry va e = .ok t) : t = s := by
  unfold State.rowEntry at h
  split at h <;> cases h
  rfl

/-- What a slice answers for a page that the hart may load from: TLBs take the entry. -/
def State.rowAnswer (s : State) (slice : BitVec 6) (va : W) (e : TlbEntry) : RowCheck :=
  match s.rowEntry va e with
  | .ok t => .ok (t.cacheEntry slice s.cur e)
  | r => r

theorem rowAnswer_ok {s t : State} {slice : BitVec 6} {va : W} {e : TlbEntry} (h : s.rowAnswer slice va e = .ok t) : s.Translates t := by
  unfold State.rowAnswer at h
  split at h
  · next u hu =>
    cases h
    rw [rowEntry_ok hu]
    exact translates_cacheEntry ..
  · next hr => exact absurd h (hr t)

/-- Of a stretch of A rows that may be read, only translations are kept (R188, R246). -/
theorem rowPart_ok {s t : State} {a n : Nat} (h : s.rowPart a n = .ok t) : s.Translates t := by
  unfold State.rowPart at h
  dsimp only at h
  split at h
  · cases h
  split at h
  case h_1 => cases h
  case h_2 => cases h
  case h_3 =>
    split at h <;> cases h
    exact .refl s
  case h_4 =>
    split at h <;> cases h
    exact .refl s
  case h_5 =>
    split at h
    · rw [rowEntry_ok h]
      exact .refl s
    · split at h
      · exact rowAnswer_ok h
      · split at h
        · cases h
        · split at h
          · exact rowAnswer_ok h
          · cases h

theorem rowRange_ok {s t : State} (fuel : Nat) {a n : Nat} (h : s.rowRange fuel a n = .ok t) : s.Translates t := by
  induction fuel generalizing s a n with
  | zero => cases h; exact .refl _
  | succ fuel ih =>
    unfold State.rowRange at h
    split at h
    · cases h; exact .refl _
    · split at h
      · next u hu => exact (rowPart_ok hu).trans (ih h)
      · next hr => exact absurd h (hr t)

/-! MXRUN -/

/-- A run's format is given, or FP16. -/
theorem runFmt_eq (s : State) (opt n : W) : (runRows s opt n).1 = if pfFA (s.prefixed.getD 0) == 0 then 2 else pfFA (s.prefixed.getD 0) := by
  simp only [runRows, beq_iff_eq]

theorem mxFloat_runFmt (s : State) (opt n : W) : mxFloat (runRows s opt n).1 = ((runRows s opt n).1 == 2 || (runRows s opt n).1 == 3) := by
  rw [runFmt_eq]
  generalize pfFA (s.prefixed.getD 0) = f
  revert f
  decide

/-- The checks of R188 in the order of its pseudocode. -/
theorem runCause_eq_runProblem (s : State) (opt n : W) : s.runCause (runRows s opt n).1 opt n = runProblem s opt n := by
  have hmode (k : Nat) (hk : k < 4) : ((opt.extractLsb' 1 2).toNat == k) = decide (opt.extractLsb' 1 2 = BitVec.ofNat 2 k) := by
    rw [Bool.eq_iff_iff, beq_iff_eq, decide_eq_true_eq, ← BitVec.toNat_inj, BitVec.toNat_ofNat, Nat.mod_eq_of_lt hk]
  have hlast : mxFloat ((s.hart.mx.lastLoad.map fun x => x.2.1).getD 0) = mxFloat (s.hart.mx.lastLoad.getD (false, 2, false)).2.1 := by
    cases s.hart.mx.lastLoad <;> rfl
  have hpair : (s.hart.mx.lastLoad.map fun x => x.2.2).getD false = (s.hart.mx.lastLoad.getD (false, 2, false)).2.2 := by
    cases s.hart.mx.lastLoad <;> rfl
  unfold State.runCause runProblem
  simp only [bne, hmode 3 (by decide), hmode 0 (by decide), hmode 2 (by decide), hlast, hpair, mxFloat_runFmt]
  refine if_congr ?reserved rfl (if_congr ?shift rfl (if_congr ?valid rfl (if_congr ?count rfl (if_congr ?buffer rfl (if_congr ?pairs rfl rfl)))))
  case reserved => simp [or_assoc]
  case shift => simp
  case valid => simp
  case count =>
    simp only [Bool.or_eq_true, beq_iff_eq, decide_eq_true_eq, or_assoc]
    rfl
  case buffer => simp [or_assoc, mxFloat]
  case pairs => simp [State.rect]

/-- The command of an MXRUN with these operands (R188). -/
def State.runCmd (s : State) (d : BitVec 5) (addr opt n : W) : MxCmd :=
  let p := s.prefixed.getD 0
  { s.mxCmd with kind := 1, fmt := (runRows s opt n).1, q := (pfQA p).toNat + 1, p := (pfPP p).toNat + 1, ce := pfCE p,
                 buf := (s.hart.mx.lastLoad.map fun x => x.1).getD false, addr := addr, stride := (runRows s opt n).2.2.1, rows := n.toNat,
                 orow := (opt.extractLsb' 32 16).toNat, acc := opt.getLsbD 0, mmode := opt.extractLsb' 1 2,
                 scale := (s.runScale (pfSC p) (opt.extractLsb' 3 3)).1, sflags := (s.runScale (pfSC p) (opt.extractLsb' 3 3)).2, d := d }

/-- The A rows of an MXRUN, checked and translated (R188). -/
def State.checkRows (s : State) (addr opt n : W) : RowCheck :=
  s.rowRange ((runRows s opt n).2.2.2 / 4096 + 2) addr.toNat (runRows s opt n).2.2.2

theorem low_bits_bne_zero (x : W) : (x.extractLsb' 0 3 != 0) = decide (x.toNat % 8 ≠ 0) := by
  have hx := toNat_extractLsb'_eq x 0 3
  rw [pow_zero, Nat.div_one] at hx
  rw [Bool.eq_iff_iff, bne_iff_ne, decide_eq_true_eq, ne_eq, ne_eq, ← BitVec.toNat_inj, hx]
  rfl

section
variable {s : State} {i : Instr} {d : BitVec 5} {addr opt n : W}

theorem mxrun_of_problem {cause : BitVec 9} {x : W} (h : runProblem s opt n = some (cause, x)) :
    s.mxrun i d addr opt n = s.fault cause x 0 := by
  rw [← runCause_eq_runProblem, runFmt_eq] at h
  simp only [State.mxrun, h]

theorem mxrun_sends (h : runProblem s opt n = none) : ∃ t, s.mxrun i d addr opt n = s.sendMx t := by
  rw [← runCause_eq_runProblem, runFmt_eq] at h
  simp only [State.mxrun, h]
  exact ⟨_, rfl⟩

theorem mxrun_of_misaligned (h : runProblem s opt n = none) (ht : s.arrayTakes) (ha : addr.toNat % 8 ≠ 0) :
    s.mxrun i d addr opt n = s.fault (accCause .load (spaceOf addr).code .misaligned) addr 0 := by
  rw [← runCause_eq_runProblem, runFmt_eq] at h
  simp only [State.mxrun, h, sendMx_of_takes ht, low_bits_bne_zero, decide_eq_true ha, if_true]

/-- A run whose registers and rows pass every check is queued, and its destination is empty (R188). -/
theorem mxrun_of_checked (h : runProblem s opt n = none) (ht : s.arrayTakes) (ha : addr.toNat % 8 = 0) (hd : s.doneBefore = false)
    (ho : s.ownStops = none) {u : State} (hu : s.checkRows addr opt n = .ok u) : s.mxrun i d addr opt n =
      (((u.dropOwn.markEmpty (.g d)).queueMx (s.runCmd d addr opt n)).numbered).complete := by
  rw [← runCause_eq_runProblem] at h
  simp only [runRows] at h
  simp only [State.checkRows, runRows] at hu
  simp only [State.mxrun, State.runCmd, runRows, beq_iff_eq, h, sendMx_of_takes ht, low_bits_bne_zero, ha, ne_eq, not_true_eq_false,
    decide_false, Bool.false_eq_true, if_false, State.orReplayed, hd, ho, Option.getD_none, hu]

/-- The hart as it stands once its entry is given up and a register is empty. -/
theorem hart_dropOwn_markEmpty (u : State) (r : RegRef) : ∃ l, (u.dropOwn.markEmpty r).hart = { u.hart with regs := u.hart.regs.empty r, log := l } := by
  rw [markEmpty_eq_emptied]
  exact ⟨_, State.hart_onHart ..⟩

/-- What a run that is sent leaves: one command on the queue, which counts its rows, an empty destination, and one more number taken. -/
theorem queued_of_translates {u : State} {k : MxCmd} (hu : s.Translates u) (hc : k.core = s.cur) (hh : k.hart = s.curHart) (hk : k.kind = 1) :
    let t := (((u.dropOwn.markEmpty (.g d)).queueMx k).numbered).complete
    t.mem = s.mem ∧ t.hart.regs = s.hart.regs.empty (.g d) ∧ queuedAt s t s.hart.mx.array k ∧ countedAt s t s.hart.mx.array k.rows ∧
      t.hart.nseq = s.hart.nseq + 1 := by
  have hcur : (u.dropOwn.markEmpty (.g d)).cur = s.cur := hu.cur
  have hcurHart : (u.dropOwn.markEmpty (.g d)).curHart = s.curHart := hu.curHart
  have harr (a : BitVec 7) : (u.dropOwn.markEmpty (.g d)).array a = s.array a := array_congr hu.arrays a
  obtain ⟨l, hx⟩ := hart_dropOwn_markEmpty u (.g d)
  rw [hu.hart] at hx
  obtain ⟨hq, ho, hr, hn, hm⟩ := queueMx_queues (s := u.dropOwn.markEmpty (.g d)) (hc.trans hcur.symm) (hh.trans hcurHart.symm)
  rw [queuedAt, harr, hx] at hq
  rw [countedAt, harr, hcur, hcurHart, hx, hk] at ho
  rw [hx] at hr hn
  refine ⟨?_, ?_, ?_, fun hl => ?_, ?_⟩
  · rw [State.complete_mem]
    exact hm.trans hu.mem
  · rw [regs_complete, hart_numbered]
    exact hr
  · rw [queuedAt, State.array_complete]
    exact hq
  · rw [State.array_complete, mx_complete, hart_numbered]
    exact ho hl
  · rw [nseq_complete, hart_numbered]
    exact congrArg (· + 1) hn

end

section
variable {c b a d : BitVec 5} {w l : Bool} {s : State} (hi : s.issues (.mxrun c b a d w l) = true)
include hi

theorem exec_mxrun : exec (.mxrun c b a d w l) s = .next (s.mxrun (.mxrun c b a d w l) d (s.g a) (s.g b) (s.g c)) := issue_of_issues hi

theorem mxrun_refuses_registers (hs : s.settled = true) {cause : BitVec 9} {x : W} (h : runProblem s (s.g b) (s.g c) = some (cause, x)) :
    exec (.mxrun c b a d w l) s = .next (s.trapped cause x 0) := by
  rw [exec_mxrun hi, mxrun_of_problem h, fault_eq_trapped _ _ _ _ hs]

theorem mxrun_trapsUnleashed (h : runProblem s (s.g b) (s.g c) = none) : trapsUnleashed (.mxrun c b a d w l) s := by
  obtain ⟨t, ht⟩ := mxrun_sends (i := .mxrun c b a d w l) (d := d) (addr := s.g a) h
  exact trapsUnleashed_of_sends (by rw [exec_mxrun hi, ht])

theorem mxrun_refuses_misaligned (hs : s.settled = true) (h : runProblem s (s.g b) (s.g c) = none) (ht : s.arrayTakes)
    (ha : (s.g a).toNat % 8 ≠ 0) : exec (.mxrun c b a d w l) s =
      .next (s.trapped (accCause .load (spaceOf (s.g a)).code .misaligned) (s.g a) 0) := by
  rw [exec_mxrun hi, mxrun_of_misaligned h ht ha, fault_eq_trapped _ _ _ _ hs]

theorem exec_mxrun_of_checked (h : runProblem s (s.g b) (s.g c) = none) (ht : s.arrayTakes) (ha : (s.g a).toNat % 8 = 0)
    (hd : s.doneBefore = false) (ho : s.ownStops = none) {u : State} (hu : s.checkRows (s.g a) (s.g b) (s.g c) = .ok u) :
    exec (.mxrun c b a d w l) s =
      .next (((u.dropOwn.markEmpty (.g d)).queueMx (s.runCmd d (s.g a) (s.g b) (s.g c))).numbered).complete := by
  rw [exec_mxrun hi, mxrun_of_checked h ht ha hd ho hu]

end

end Sys2Proof.Machine
end

section
/-!
PROOF. What an array makes of the head of its queue: a buffer with a tile's bytes, or a run with the next number (R185, R188, R192).
-/

namespace Sys2Proof.Machine

/-! A tile's bytes -/

/-- Cells moved down to a new base read as they stood. -/
theorem readByte_rebased {lo : Nat} (m : Memory) (h : ∀ x ∈ m, lo ≤ x.1) (j : Nat) :
    readByte (m.map fun x => (x.1 - lo, x.2)) j = readByte m (lo + j) := by
  induction m with
  | nil => rfl
  | cons p t ih =>
    obtain ⟨k, x⟩ := p
    have hk : lo ≤ k := h (k, x) List.mem_cons_self
    have he : (k - lo == j) = (k == lo + j) := by rw [Bool.eq_iff_iff, beq_iff_eq, beq_iff_eq]; omega
    have hl : j < k - lo ↔ lo + j < k := by omega
    simp only [List.map_cons, readByte, he, hl, ih fun y hy => h y (List.mem_cons_of_mem _ hy)]

/-- Byte `j` of a tile is the byte of the weight store (R184). -/
theorem readByte_tileCells {m : Memory} (hm : Memory.wf m = true) (a : BitVec 7) (tile : BitVec 8) {j : Nat} (hj : j < 0x20000) :
    readByte (tileCells m a tile) j = readByte m (Config.weightBase + a.toNat * 0x2000000 + tile.toNat * 0x20000 + j) := by
  unfold tileCells
  generalize Config.weightBase + a.toNat * 0x2000000 + tile.toNat * 0x20000 = lo
  have hin : ∀ x ∈ m.filter fun x => decide (lo ≤ x.1 ∧ x.1 < lo + 0x20000), lo ≤ x.1 := fun x hx =>
    (of_decide_eq_true (List.mem_filter.mp hx).2).1
  exact (readByte_rebased _ hin j).trans
    ((readByte_filter (fun i => decide (lo ≤ i ∧ i < lo + 0x20000)) hm).trans (if_pos (decide_eq_true (by omega))))

/-! The head of the queue -/

theorem headOf_of_queue {y : Arr} {k : MxCmd} {qs : List MxCmd} {kind : BitVec 2} (hq : y.queue = k :: qs) (hk : k.kind = kind) :
    y.headOf kind = some k := by
  simp only [Arr.headOf, hq, hk, beq_self_eq_true, if_true]

theorem nextLoad_of_queue {y : Arr} {k : MxCmd} {qs : List MxCmd} (hq : y.queue = k :: qs) (hk : k.kind = 0) (hu : y.usesBuf k.buf = false) :
    y.nextLoad = some k := by
  rw [Arr.nextLoad, headOf_of_queue hq hk, Option.filter, hu]
  rfl

@[simp] theorem State.array_popMx (s : State) (a : BitVec 7) : (s.popMx a).array a = { s.array a with queue := (s.array a).queue.drop 1 } :=
  State.array_onArray_same ..

/-! Loads -/

theorem array_loadTile (s : State) (a : BitVec 7) (k : MxCmd) (bad : BitVec 4) : (s.loadTile a k bad).array a =
    if k.buf then { s.array a with queue := (s.array a).queue.drop 1, buf1 := s.loadedBuf a k bad }
    else { s.array a with queue := (s.array a).queue.drop 1, buf0 := s.loadedBuf a k bad } := by
  rw [State.loadTile, State.array_onArray_same, State.array_popMx]

theorem array_logError (s : State) (x : ErrAt) (detector : Nat) (a : BitVec 7) : (s.logError x detector 2).array a = s.array a := by
  show (s.logCause x (errCause detector 2)).array a = s.array a
  rcases logCause_cases s x (errCause detector 2) with h | ⟨place, bs, e, -, h⟩ <;> rw [h]
  rfl

theorem tileBad_of_no_poison {s : State} (hp : s.poison = []) (a : BitVec 7) (tile : BitVec 8) (g : Nat × Nat × Nat) : tileBad s a tile g = false := by
  rw [tileBad, hp]
  rfl

/-- A load makes its buffer; a line that cannot be read marks the buffer and is logged (R185, R343). -/
theorem exec_arrayLoadBTile {s : State} {a : BitVec 7} {k : MxCmd} (hn : (s.array a).nextLoad = some k) :
    ∃ t bad, exec (.arrayLoadBTile a) s = .next t ∧ t.disp = .occurred ∧ t.array a = (s.loadTile a k bad).array a ∧
      (s.poison = [] → t.mem = s.mem ∧ bad = 0) := by
  show ∃ t bad, execArrayLoadBTile a s = .next t ∧ _
  simp only [execArrayLoadBTile, hn]
  split
  · next hb =>
    refine ⟨_, 5, rfl, rfl, array_logError .., fun hp => ?_⟩
    simp only [tileBad_of_no_poison hp, Bool.and_false, Bool.or_false, Bool.false_eq_true] at hb
  · exact ⟨_, 0, rfl, rfl, rfl, fun _ => ⟨rfl, rfl⟩⟩

theorem arrayLoadBTile_fills {s : State} {a : BitVec 7} {k : MxCmd} {qs : List MxCmd} (hq : (s.array a).queue = k :: qs) (hk : k.kind = 0)
    (hu : (s.array a).usesBuf k.buf = false) (hs : s.Canonical) : ∃ t, exec (.arrayLoadBTile a) s = .next t ∧ t.disp = .occurred ∧
      tookHead s t a ∧ let b := if k.buf then (t.array a).buf1 else (t.array a).buf0
      (if k.buf then (t.array a).buf0 = (s.array a).buf0 else (t.array a).buf1 = (s.array a).buf1) ∧
      b.fmt = k.fmt ∧ b.q = k.q ∧ b.p = k.p ∧ b.ce = k.ce ∧ b.cblo = k.cblo ∧ b.cbhi = k.cbhi ∧ b.pair = k.pair ∧
      b.loader = (if k.lost then none else some (k.core, k.hart)) ∧
      (s.poison = [] → t.mem = s.mem ∧ b.bad = 0) ∧
      ∀ j, j < 0x20000 →
        readByte b.tile j = readByte s.mem (Config.weightBase + a.toNat * 0x2000000 + k.tile.toNat * 0x20000 + j) := by
  obtain ⟨t, bad, he, hd, ha, hp⟩ := exec_arrayLoadBTile (nextLoad_of_queue hq hk hu)
  have htile : ∀ j, j < 0x20000 → readByte (s.loadedBuf a k bad).tile j =
      readByte s.mem (Config.weightBase + a.toNat * 0x2000000 + k.tile.toNat * 0x20000 + j) := fun _ => readByte_tileCells hs a k.tile
  rw [array_loadTile] at ha
  refine ⟨t, he, hd, ?_⟩
  rw [tookHead, ha]
  cases k.buf <;> exact ⟨⟨rfl, rfl, rfl, rfl, rfl⟩, rfl, rfl, rfl, rfl, rfl, rfl, rfl, rfl, rfl, hp, htile⟩

/-! Runs -/

/-- A run that begins with outcome `o`. -/
def Arr.newRun (y : Arr) (k : MxCmd) (o : BitVec 4) : Run := { cmd := k, seq := y.seq, next := 0, owed := 0, applied := 0, outcome := o, flags := 0 }

/-- The array of `t` has accepted command `k` of array `a` of `s`, with outcome `o` (R188, R192). -/
structure State.Accepts (s t : State) (a : BitVec 7) (k : MxCmd) (o : BitVec 4) : Prop where
  took : tookHead s t a
  seq : (t.array a).seq = (s.array a).seq + 1
  runs : (t.array a).runs = (s.array a).runs ++ [(s.array a).newRun k o]

theorem beginRun_accepts (s : State) (a : BitVec 7) (k : MxCmd) (o : BitVec 4) : s.Accepts (s.beginRun a k o) a k o := by
  have ha : (s.beginRun a k o).array a = { s.array a with
      queue := (s.array a).queue.drop 1, seq := (s.array a).seq + 1,
      recs := ({ s.array a with seq := (s.array a).seq + 1 } : Arr).recent (s.array a).recs, runs := (s.array a).runs ++ [(s.array a).newRun k o] } := by
    rw [State.beginRun, State.array_onArray_same, State.array_popMx]
    rfl
  constructor
  · rw [tookHead, ha]
    exact ⟨rfl, rfl, rfl, rfl, rfl⟩
  · rw [ha]
  · rw [ha]

theorem refuses_of_other_loader {b : BBuf} {k : MxCmd} (h : b.loader ≠ some (k.core, k.hart)) : b.refuses k = 1 := by
  rw [BBuf.refuses, if_pos (bne_iff_ne.mpr h)]

theorem runAccept_accepts {s : State} {a : BitVec 7} {k : MxCmd} {qs : List MxCmd} (hq : (s.array a).queue = k :: qs) (hk : k.kind = 1)
    (hc : (s.core k.core).mem.ctxid = k.ctx) (hf : (s.core k.core).sys.fenced = false) :
    ∃ t, exec (.runAccept a) s = .next t ∧ t.disp = .occurred ∧ t.mem = s.mem ∧
      s.Accepts t a k (((s.array a).bufOf k.buf).refuses k) ∧
      (t.hartAt k.core k.hart).regs = (s.hartAt k.core k.hart).regs.writeG k.d ((a ++ (s.array a).seq).setWidth 64) ∧
      (t.hartAt k.core k.hart).mx.lastArr = a ∧ (t.hartAt k.core k.hart).mx.lastSeq = (s.array a).seq := by
  let u := s.beginRun a k (((s.array a).bufOf k.buf).refuses k)
  have he : exec (.runAccept a) s = ((u.fill k.core k.hart (.g k.d) ((a ++ (s.array a).seq).setWidth 1024)).onMx k.core k.hart fun m =>
      { m with lastArr := a, lastSeq := (s.array a).seq }).occur := by
    show execRunAccept a s = _
    simp only [execRunAccept, headOf_of_queue hq hk]
    refine if_pos ?_
    show ((s.core k.core).mem.ctxid == k.ctx && !(s.core k.core).sys.fenced) = true
    rw [hc, hf, beq_self_eq_true]
    rfl
  have hx := State.hartAt_onMx_same (u.fill k.core k.hart (.g k.d) ((a ++ (s.array a).seq).setWidth 1024)) k.core k.hart fun m =>
    { m with lastArr := a, lastSeq := (s.array a).seq }
  rw [State.hartAt_fill_g, BitVec.setWidth_setWidth_of_le _ (show 64 ≤ 1024 by decide)] at hx
  obtain ⟨took, seq, runs⟩ := beginRun_accepts s a k (((s.array a).bufOf k.buf).refuses k)
  exact ⟨_, he, rfl, rfl, ⟨took, seq, runs⟩, congrArg Hart.regs hx, congrArg (fun h => h.mx.lastArr) hx, congrArg (fun h => h.mx.lastSeq) hx⟩

theorem mxzeroAccept_accepts {s : State} {a : BitVec 7} {k : MxCmd} {qs : List MxCmd} (hq : (s.array a).queue = k :: qs) (hk : k.kind = 2) :
    ∃ t, exec (.mxzeroAccept a) s = .next t ∧ t.disp = .occurred ∧ t.mem = s.mem ∧ s.Accepts t a k 0 := by
  have he : exec (.mxzeroAccept a) s = (s.beginRun a k 0).occur := by
    show execMxzeroAccept a s = _
    simp only [execMxzeroAccept, headOf_of_queue hq hk]
  obtain ⟨took, seq, runs⟩ := beginRun_accepts s a k 0
  exact ⟨_, he, rfl, rfl, took, seq, runs⟩

/-- Settles O40: each command by its checks and by what is then queued, each acceptance by what the array makes of the head of its queue. -/
theorem arrayCommandsQueueAndAreAccepted : Obligations.ArrayCommandsQueueAndAreAccepted := by
  refine ⟨?ldb, ?run, ?zero, fun s a k qs => arrayLoadBTile_fills, ?runAccept, ?zeroAccept⟩
  case ldb =>
    refine fun b a w l s hi => ⟨fun hf ht => ?_, mxldb_trapsUnleashed hi, fun hx hs => mxldb_refuses_tile hi hs ((tileRefused_iff ..).mpr hx),
      fun hx hf hs => mxldb_refuses_pair hi hs (Bool.eq_false_iff.mpr fun h => hx ((tileRefused_iff ..).mp h)) hf⟩
    obtain ⟨t, he, hd, hq, hbuf, hlast, hload⟩ := mxldb_queues hi hf ht
    refine ⟨t, s.loadCmd (s.g a) (s.g b), he, hd, hq.mem, hq.regs, hq.queued, ⟨rfl, rfl, rfl, rfl, rfl, rfl, rfl⟩, rfl, rfl, rfl, ?_, rfl, rfl,
      rfl, rfl, rfl, rfl, hbuf, hlast, hload, rfl, hq.counted⟩
    simp only [State.loadCmd, beq_iff_eq]
  case run =>
    refine fun c b a d w l s hi => ⟨fun cause x h hs => mxrun_refuses_registers hi hs h, mxrun_trapsUnleashed hi,
      fun h ht ha hs => mxrun_refuses_misaligned hi hs h ht ha, fun h ht ha hd ho u hu => ?_⟩
    obtain ⟨hm, hr, hq, hn, hs⟩ := queued_of_translates (d := d) (rowRange_ok _ hu) (k := s.runCmd d (s.g a) (s.g b) (s.g c)) rfl rfl rfl
    refine ⟨_, s.runCmd d (s.g a) (s.g b) (s.g c), exec_mxrun_of_checked hi h ht ha hd ho hu, State.complete_disp _, hm, hr, hq,
      ⟨rfl, rfl, rfl, rfl, rfl, rfl, rfl⟩, rfl, rfl, rfl, rfl, rfl, rfl, rfl, rfl, rfl, fun x hx => ?_, hn, hs⟩
    simp only [State.runCmd, hx]
    rfl
  case zero =>
    refine fun w l s hi => ⟨fun hv hr ht => ?_, fun hv hr => trapsUnleashed_of_sends (mxzero_sends hi hv hr),
      fun hv hr hs => mxzero_refuses_rect hi hs hv hr, fun hv hs => mxzero_refuses_invalid hi hs hv⟩
    obtain ⟨t, he, hd, hq⟩ := mxzero_queues hi hv hr ht
    exact ⟨t, s.mxCmd, he, hd, hq.mem, hq.regs, hq.queued, ⟨rfl, rfl, rfl, rfl, rfl, rfl, rfl⟩, rfl, rfl, hq.counted⟩
  case runAccept =>
    intro s a k qs hq hk hc hf
    obtain ⟨t, he, hd, hm, hacc, hr, ha, hs⟩ := runAccept_accepts hq hk hc hf
    exact ⟨t, _, he, hd, hm, hacc.took, hacc.seq, hacc.runs, rfl, rfl, rfl, rfl, rfl, refuses_of_other_loader, hr, ha, hs⟩
  case zeroAccept =>
    intro s a k qs hq hk
    obtain ⟨t, he, hd, hm, hacc⟩ := mxzeroAccept_accepts hq hk
    exact ⟨t, _, he, hd, hm, hacc.took, hacc.seq, hacc.runs, rfl, rfl, rfl⟩

end Sys2Proof.Machine
end

section
/-!
PROOF. The rows of a run: the parts of its sums that set out, what an owner's memory holds once it has applied one, and the record of a command that is
over (R187 to R192).
-/

namespace Sys2Proof.Machine

/-! The parts of a row -/

/-- Pieces of one length, side by side. -/
theorem flatMap_take_drop {α : Type} (l : List α) (c n : Nat) : ((List.range n).flatMap fun j => (l.drop (j * c)).take c) = l.take (n * c) := by
  induction n with
  | zero => simp
  | succ n ih => rw [List.range_succ, List.flatMap_append, ih, List.flatMap_singleton, Nat.succ_mul, List.take_add]

theorem means_rowParts (s : State) (a : BitVec 7) (r : Run) (sums : List (Nat × Nat × BitVec 5)) : let t := rectOf r.cmd.desc r.cmd.lbase
    ((rowParts s a r sums).flatMap fun m => m.means) = (sums.take (t.w * t.cols)).map fun x => BitVec.ofNat 32 x.1 := by
  dsimp only
  rw [rowParts, List.flatMap_map, ← flatMap_take_drop, List.map_flatMap]

/-- Every part is of the row that was computed. -/
theorem of_mem_rowParts {s : State} {a : BitVec 7} {r : Run} {sums : List (Nat × Nat × BitVec 5)} {m : PartialMsg} (hm : m ∈ rowParts s a r sums) :
    m.array = a ∧ m.seq = r.seq ∧ m.acc = r.cmd.acc := by
  obtain ⟨j, -, rfl⟩ := List.mem_map.mp hm
  exact ⟨rfl, rfl, rfl⟩

/-- Sums of zero make parts of zeros (R192). -/
theorem zero_of_mem_rowParts {s : State} {a : BitVec 7} {r : Run} {sums : List (Nat × Nat × BitVec 5)} (hz : ∀ x ∈ sums, x = (0, 0, 0))
    {m : PartialMsg} (hm : m ∈ rowParts s a r sums) : ∀ x ∈ m.means ++ m.vars, x = 0 := by
  obtain ⟨j, -, rfl⟩ := List.mem_map.mp hm
  have hmine : ∀ y ∈ (sums.drop (j * (rectOf r.cmd.desc r.cmd.lbase).cols)).take (rectOf r.cmd.desc r.cmd.lbase).cols, y = (0, 0, 0) :=
    fun y hy => hz y (List.mem_of_mem_drop (List.mem_of_mem_take hy))
  intro x hx
  rcases List.mem_append.mp hx with hx | hx
  · obtain ⟨y, hy, rfl⟩ := List.mem_map.mp hx
    rw [hmine y hy]
    rfl
  · dsimp only at hx
    split at hx
    · obtain ⟨y, hy, rfl⟩ := List.mem_map.mp hx
      rw [hmine y hy]
      rfl
    · cases hx

theorem rowSums_of_zero {k : MxCmd} (hk : k.kind = 2) (b : BBuf) (row j : Nat) : rowSums k b row j = (0, 0, 0) := by
  unfold rowSums
  rw [hk]
  rfl

/-- The row that an array computes next, as it has been read: zeros for a zero command, the bytes of an A row that is not poisoned for a run. -/
def State.readRow (s : State) (r : Run) (row : Nat) : Prop :=
  let g := rowGroups r.cmd.fmt r.cmd.mmode.toNat r.cmd.q r.cmd.p
  r.cmd.kind = 2 ∧ row = 0 ∨ r.cmd.kind = 1 ∧ ∃ x, engineReadGroups s r.cmd.party (r.cmd.addr + BitVec.ofNat 64 r.next * r.cmd.stride)
    g.2.1 g.2.2 g.1 = .bytes s x ∧ anyPoison x = false ∧ row = mixedNat x

/-- With no sums on their way, those of the next row set out (R189, R190). -/
theorem arrayRowCompute_sends {s : State} {a : BitVec 7} {r : Run} {row : Nat} (ha : (s.array a).active = some r) (hp : s.net.partials = [])
    (hr : s.readRow r row) : ∃ t, exec (.arrayRowCompute a) s = .next t ∧ t.disp = .occurred ∧ t.mem = s.mem ∧
      t.net.partials = rowParts s a r ((List.range 256).map (rowSums r.cmd ((s.array a).bufOf r.cmd.buf) row)) := by
  show ∃ t, execArrayRowCompute a s = .next t ∧ _
  have hnone (l : List PartialMsg) : (l.any fun m => s.net.partials.any fun x => x.array == a && x.core == m.core && x.seq != r.seq) = false := by
    rw [hp]
    exact List.any_eq_false.mpr fun _ _ => Bool.false_ne_true
  rcases hr with ⟨hk, rfl⟩ | ⟨hk, x, hx, hpx, rfl⟩
  · simp only [execArrayRowCompute, ha, hk, beq_self_eq_true, if_true, hnone, Bool.false_eq_true, if_false]
    exact ⟨_, rfl, rfl, rfl, congrArg (· ++ _) hp⟩
  · have h2 : (r.cmd.kind == 2) = false := by rw [hk]; rfl
    simp only [execArrayRowCompute, ha, h2, hx, hpx, hnone, Bool.false_eq_true, if_false, Bool.not_false, if_true]
    exact ⟨_, rfl, rfl, rfl, congrArg (· ++ _) hp⟩

/-! Sums in an owner's memory -/

theorem readNat_congr {m m' : Memory} {a n : Nat} (h : ∀ i, i < n → readByte m (a + i) = readByte m' (a + i)) : readNat m a n = readNat m' a n := by
  induction n generalizing a with
  | zero => rfl
  | succ n ih =>
    have h0 : readByte m a = readByte m' a := h 0 (Nat.succ_pos n)
    have ht := ih (a := a + 1) fun i hi => by
      have hi' := h (i + 1) (Nat.succ_lt_succ hi)
      rwa [Nat.add_comm i 1, ← Nat.add_assoc] at hi'
    rw [readNat_succ, readNat_succ, h0, ht]

theorem getElem_readBytes {m : Memory} {a n i : Nat} (h : i < (readBytes m a n).length) : (readBytes m a n)[i] = readByte m (a + i) := by
  induction n generalizing a i with
  | zero => cases h
  | succ n ih =>
    cases i with
    | zero => rfl
    | succ i =>
      have hi := ih (a := a + 1) (i := i) (Nat.lt_of_succ_lt_succ h)
      rw [show a + (i + 1) = a + 1 + i by omega]
      exact hi

theorem readByte_writeNat_other {m : Memory} {a b n x : Nat} (hm : Memory.wf m = true) (hb : b < a ∨ a + n ≤ b) :
    readByte (writeNat m a n x) b = readByte m b := readByte_writeBytes_other (by rwa [length_natLe]) hm

/-- What an element holds once a sum is written to it, or added to what it held (R189). -/
def sumAt (acc : Bool) (old : Nat) (x : BitVec 32) : Nat := if acc then (fp32.add 0 old x.toNat).1 % 2 ^ 32 else x.toNat

theorem sumAt_eq_mod (acc : Bool) (old : Nat) (x : BitVec 32) :
    (if acc then fp32.add 0 old x.toNat else (x.toNat, 0)).1 % 256 ^ 4 = sumAt acc old x := by
  cases acc with
  | true => rfl
  | false => exact Nat.mod_eq_of_lt x.isLt

theorem accumulate_append (acc : Bool) (l l' : List (BitVec 32)) (key : Nat) (m : Memory) (fl : BitVec 5) :
    accumulate acc (l ++ l') key m fl =
      accumulate acc l' (key + 4 * l.length) (accumulate acc l key m fl).1 (accumulate acc l key m fl).2 := by
  induction l generalizing key m fl with
  | nil => rfl
  | cons x t ih =>
    rw [List.cons_append, accumulate, ih, accumulate, List.length_cons, show key + 4 * (t.length + 1) = key + 4 + 4 * t.length by omega]

theorem readByte_accumulate_other {acc : Bool} {l : List (BitVec 32)} {key b : Nat} {m : Memory} {fl : BitVec 5} (hm : Memory.wf m = true)
    (hb : b < key ∨ key + 4 * l.length ≤ b) : readByte (accumulate acc l key m fl).1 b = readByte m b := by
  induction l generalizing key m fl with
  | nil => rfl
  | cons x t ih =>
    rw [List.length_cons] at hb
    rw [accumulate, ih (Memory.wf_writeNat hm) (by omega), readByte_writeNat_other hm (by omega)]

/-- Element `j` of the values that are applied. -/
theorem readNat_accumulate {acc : Bool} {l : List (BitVec 32)} {key : Nat} {m : Memory} {fl : BitVec 5} (hm : Memory.wf m = true) {j : Nat}
    {x : BitVec 32} (hx : l[j]? = some x) :
    readNat (accumulate acc l key m fl).1 (key + 4 * j) 4 = sumAt acc (readNat m (key + 4 * j) 4) x := by
  induction l generalizing key m fl j with
  | nil => cases hx
  | cons y t ih =>
    cases j with
    | zero =>
      cases hx
      rw [Nat.mul_zero, Nat.add_zero, accumulate, readNat_congr fun i hi => readByte_accumulate_other (Memory.wf_writeNat hm) (.inl (by omega)),
        readNat_writeNat_same hm, sumAt_eq_mod]
    | succ j =>
      rw [accumulate, show key + 4 * (j + 1) = key + 4 + 4 * j by omega, ih (Memory.wf_writeNat hm) hx,
        readNat_congr fun i _ => readByte_writeNat_other hm (.inr (by omega))]

/-- Memory that is written from another memory reads as that one there. -/
theorem readByte_writeBytes_readBytes {m m' : Memory} {key n : Nat} (hm : Memory.wf m = true)
    (h : ∀ b, (b < key ∨ key + n ≤ b) → readByte m' b = readByte m b) (b : Nat) :
    readByte (writeBytes m key (readBytes m' key n)) b = readByte m' b := by
  by_cases hb : key ≤ b ∧ b < key + n
  · have hlt : b - key < (readBytes m' key n).length := by rw [length_readBytes]; omega
    have hs := readByte_writeBytes_same hlt hm (a := key)
    rwa [getElem_readBytes, Nat.add_sub_cancel' hb.1] at hs
  · have ho : b < key ∨ key + n ≤ b := by omega
    rw [readByte_writeBytes_other (by rwa [length_readBytes]) hm, h b ho]

/-- Memory once an owner has applied its part of a row reads as the values accumulated (R189). -/
theorem readByte_applyPart {s : State} (hs : s.Canonical) (m : PartialMsg) (b : Nat) : readByte (s.applyPart m).1.mem b =
    readByte (accumulate m.acc (m.means ++ m.vars) (localKey m.core m.addr) s.mem 0).1 b := by
  have hlen : (m.means ++ m.vars).length = m.means.length + m.vars.length := List.length_append
  have h := readByte_writeBytes_readBytes hs (m' := (accumulate m.acc (m.means ++ m.vars) (localKey m.core m.addr) s.mem 0).1)
    (key := localKey m.core m.addr) (n := 4 * (m.means.length + m.vars.length)) fun b hb => readByte_accumulate_other hs (by rwa [hlen])
  rw [← h b, accumulate_append]
  rfl

theorem bytesValue_applyPart {s : State} (hs : s.Canonical) (m : PartialMsg) {j : Nat} {x : BitVec 32} (hx : (m.means ++ m.vars)[j]? = some x) :
    bytesValue (s.applyPart m).1.mem (localKey m.core m.addr + 4 * j) 4 =
      sumAt m.acc (bytesValue s.mem (localKey m.core m.addr + 4 * j) 4) x := by
  rw [bytesValue_eq_readNat, bytesValue_eq_readNat, readNat_congr fun i _ => readByte_applyPart hs m _, readNat_accumulate hs hx]

theorem readByte_applyPart_other {s : State} (hs : s.Canonical) (m : PartialMsg) {b : Nat}
    (hb : b < localKey m.core m.addr ∨ localKey m.core m.addr + 4 * (m.means ++ m.vars).length ≤ b) :
    readByte (s.applyPart m).1.mem b = readByte s.mem b := by
  rw [readByte_applyPart hs, readByte_accumulate_other hs hb]

/-- The parts but for number `n`. -/
def State.withoutPart (s : State) (n : Nat) : State := { s with net := { s.net with partials := s.net.partials.filter fun x => x.id != n } }

/-- A part that is next at its owner, which is open and can read what it adds to, is applied (R189, R190). -/
theorem partialSums_applies {s : State} {n : Nat} {m : PartialMsg} (hf : s.net.partials.find? (fun m => m.id == n) = some m)
    (hb : ∀ x ∈ s.net.partials.takeWhile (fun m => m.id != n), ¬ (x.array = m.array ∧ x.core = m.core))
    (hr : ∀ x ∈ s.net.partials, ¬ (x.array = m.array ∧ x.seq = m.seq ∧ x.row < m.row)) (hh : s.heldAny n = none) (hg : s.recalledAt m = false)
    (hc : s.closedTo m.core = false)
    (hp : m.acc = true → poisoned s (localKey m.core m.addr) (4 * (m.means.length + m.vars.length)) = false) :
    ∃ t, exec (.partialSums n) s = .next t ∧ t.disp = .occurred ∧ t.net = (s.withoutPart n).net ∧
      t.mem = ((s.withoutPart n).applyPart m).1.mem := by
  show ∃ t, execPartialSums n s = .next t ∧ _
  have hfirst : ((s.net.partials.takeWhile fun x => x.id != n).any fun x => x.array == m.array && x.core == m.core) = false :=
    List.any_eq_false.mpr fun x hx => by simpa using hb x hx
  have hrow : (s.net.partials.any fun x => x.array == m.array && x.seq == m.seq && decide (x.row < m.row)) = false :=
    List.any_eq_false.mpr fun x hx => by simpa [and_assoc] using hr x hx
  have hclosed : (s.withoutPart n).closedTo m.core = false := hc
  have hsound : (m.acc && poisoned (s.withoutPart n) (localKey m.core m.addr) (4 * (m.means.length + m.vars.length))) = false :=
    Bool.and_eq_false_imp.mpr hp
  rw [State.withoutPart] at hclosed hsound
  simp only [execPartialSums, hf, hfirst, hrow, hh, hg, hclosed, hsound, Bool.or_self, Bool.false_eq_true, if_false]
  exact ⟨_, rfl, rfl, rfl, rfl⟩

/-! Records of commands that are over -/

theorem foldl_post_frame (src : Nat) (fifo : BitVec 5) (kind : BitVec 8) (status : Byte) (x : BitVec 48) (l : List CoreId) (s : State) :
    let t := l.foldl (fun s c => s.post src c fifo kind status x) s
    t.mem = s.mem ∧ t.arrays = s.arrays := by
  induction l generalizing s with
  | nil => exact ⟨rfl, rfl⟩
  | cons c l ih => exact ih (s.post src c fifo kind status x)

/-- The record of a command that is over (R191). -/
def Run.record (r : Run) : RunRec where
  seq := r.seq
  ctx := r.cmd.ctx
  rows := r.applied / (rectOf r.cmd.desc r.cmd.lbase).w
  status := r.outcome ++ r.flags

/-- The array whose oldest command is over. -/
def Arr.recorded (y : Arr) (r : Run) (rs : List Run) : Arr :=
  { y with runs := rs, lastDone := r.seq, recs := y.recent (r.record :: y.recs) }

theorem find?_recorded {y : Arr} {r : Run} (h : (y.seq - r.seq).toNat ≤ 64) (rs : List Run) :
    (y.recorded r rs).recs.find? (fun x => x.seq == r.seq) = some r.record := by
  have hk : y.recent (r.record :: y.recs) = r.record :: y.recent y.recs := List.filter_cons_of_pos (decide_eq_true h)
  rw [Arr.recorded, hk]
  exact List.find?_cons_of_pos (beq_self_eq_true r.seq)

/-- The state once the oldest command of an array is over: its record is there, and a run's hart has its status and flags, if the context is still
the run's (R191, R194). -/
def State.endRun (s : State) (a : BitVec 7) (r : Run) (rs : List Run) : State :=
  let u := s.onArray a fun y => y.recorded r rs
  if r.cmd.kind == 1 && (u.core r.cmd.core).mem.ctxid == r.cmd.ctx then
    u.onMx r.cmd.core r.cmd.hart fun m => { m with
      lastst := r.outcome ++ r.flags, nv := m.nv || r.flags.getLsbD 3, of := m.of || r.flags.getLsbD 2, uf := m.uf || r.flags.getLsbD 1,
      nx := m.nx || r.flags.getLsbD 0 }
  else u

theorem array_endRun (s : State) (a : BitVec 7) (r : Run) (rs : List Run) : (s.endRun a r rs).array a = (s.array a).recorded r rs := by
  unfold State.endRun
  dsimp only
  split
  · rw [State.array_onMx, State.array_onArray_same]
  · rw [State.array_onArray_same]

theorem endRun_mem (s : State) (a : BitVec 7) (r : Run) (rs : List Run) : (s.endRun a r rs).mem = s.mem := by
  unfold State.endRun
  dsimp only
  split <;> rfl

theorem lastst_endRun {s : State} {r : Run} (a : BitVec 7) (rs : List Run) (hk : r.cmd.kind = 1)
    (hc : (s.core r.cmd.core).mem.ctxid = r.cmd.ctx) :
    ((s.endRun a r rs).hartAt r.cmd.core r.cmd.hart).mx.lastst = r.outcome ++ r.flags := by
  unfold State.endRun
  dsimp only
  rw [if_pos (by rw [State.core_onArray, hc, hk, beq_self_eq_true, beq_self_eq_true]; rfl), State.hartAt_onMx_same]

/-- The command's end is posted to the cores that hold a row of it (R191). -/
theorem exec_runComplete {s : State} {a : BitVec 7} {r : Run} {rs : List Run} (hr : (s.array a).runs = r :: rs) (ho : r.owed = 0)
    (he : r.outcome ≠ 0 ∨ r.cmd.rows ≤ r.next) : exec (.runComplete a) s =
      (r.recipients.foldl (fun s c => s.post (srcArray a) c 17 (if r.cmd.kind == 1 then 0x11 else 0x12) (r.outcome ++ r.flags)
        ((a ++ r.seq).setWidth 48)) (s.endRun a r rs)).occur := by
  have hover : (r.owed != 0 || (r.outcome == 0 && decide (r.next < r.cmd.rows))) = false := by
    rw [ho, bne_self_eq_false, Bool.false_or, Bool.and_eq_false_iff, beq_eq_false_iff_ne, decide_eq_false_iff_not, Nat.not_lt]
    exact he
  show execRunComplete a s = _
  simp only [execRunComplete, hr, hover, Bool.false_eq_true, if_false]
  rfl

theorem runComplete_records {s : State} {a : BitVec 7} {r : Run} {rs : List Run} (hr : (s.array a).runs = r :: rs) (ho : r.owed = 0)
    (he : r.outcome ≠ 0 ∨ r.cmd.rows ≤ r.next) : ∃ t, exec (.runComplete a) s = .next t ∧ t.disp = .occurred ∧ t.mem = s.mem ∧
      t.array a = (s.array a).recorded r rs ∧
      (r.cmd.kind = 1 → (s.core r.cmd.core).mem.ctxid = r.cmd.ctx → (t.hartAt r.cmd.core r.cmd.hart).mx.lastst = r.outcome ++ r.flags) := by
  obtain ⟨hm, ha⟩ := foldl_post_frame (srcArray a) 17 (if r.cmd.kind == 1 then 0x11 else 0x12) (r.outcome ++ r.flags) ((a ++ r.seq).setWidth 48)
    r.recipients (s.endRun a r rs)
  obtain ⟨hh, -⟩ := foldl_post (srcArray a) 17 (if r.cmd.kind == 1 then 0x11 else 0x12) (r.outcome ++ r.flags) ((a ++ r.seq).setWidth 48)
    r.recipients (s.endRun a r rs)
  refine ⟨_, exec_runComplete hr ho he, rfl, hm.trans (endRun_mem ..), ?_, fun hk hc => ?_⟩
  · exact (array_congr ha a).trans (array_endRun ..)
  · exact (congrArg (fun h => h.mx.lastst) (hh.hartAt ..)).trans (lastst_endRun a rs hk hc)

/-- Settles O41: the parts of a row are its sums cut at the owners' columns, an owner's memory reads as the sums accumulated, and the record of a
command that is over heads those that its array keeps. -/
theorem rowsAreAppliedAndRecorded : Obligations.RowsAreAppliedAndRecorded := by
  refine ⟨?compute, ?apply, ?complete⟩
  case compute =>
    intro s a r row ha hp hr
    obtain ⟨t, ht, hd, hm, hparts⟩ := arrayRowCompute_sends ha hp hr
    refine ⟨t, ht, hd, hm, ?_, ?_, fun hk => ?_⟩ <;> rw [hparts]
    · exact means_rowParts ..
    · exact fun m => of_mem_rowParts
    · refine fun m => zero_of_mem_rowParts fun x hx => ?_
      obtain ⟨j, -, rfl⟩ := List.mem_map.mp hx
      exact rowSums_of_zero hk _ _ _
  case apply =>
    intro s n m hf hs hb hr hh hg hc key vals hp
    obtain ⟨t, ht, hd, hnet, hm⟩ := partialSums_applies hf hb hr hh hg hc hp
    have hs : (s.withoutPart n).Canonical := hs
    refine ⟨t, ht, hd, by rw [hnet]; rfl, fun j x hx => ?_, fun b hb => ?_⟩ <;> rw [hm]
    · exact bytesValue_applyPart hs m hx
    · exact readByte_applyPart_other hs m hb
  case complete =>
    intro s a r rs hr ho he hn
    obtain ⟨t, ht, hd, hm, harr, hst⟩ := runComplete_records hr ho he
    have hfind := find?_recorded hn rs
    rw [← harr] at hfind
    exact ⟨t, r.record, ht, hd, hm, by rw [harr]; rfl, by rw [harr]; rfl, hfind, rfl, rfl, rfl, hst⟩

end Sys2Proof.Machine
end

section
/-!
SUPPORT. Operations that write no memory leave it as it is.
-/

namespace Sys2Proof.Machine

@[simp] theorem State.ite_mem (c : Prop) [Decidable c] (t u : State) : (if c then t else u).mem = if c then t.mem else u.mem :=
  apply_ite State.mem c t u

@[simp] theorem foldl_mem {α : Type} {g : State → α → State} (hg : ∀ t a, (g t a).mem = t.mem) (l : List α) (s : State) :
    (l.foldl g s).mem = s.mem := by
  induction l generalizing s with
  | nil => rfl
  | cons a l ih => exact (ih _).trans (hg s a)

theorem foldl_fst_mem {α β : Type} {g : State × β → α → State × β} (hg : ∀ x a, (g x a).1.mem = x.1.mem) (l : List α) (x : State × β) :
    (l.foldl g x).1.mem = x.1.mem := by
  induction l generalizing x with
  | nil => rfl
  | cons a l ih => exact (ih _).trans (hg x a)

section
variable (s : State)

/-! Operations without a branch -/

@[simp] theorem State.onHarts_mem (c f) : (s.onHarts c f).mem = s.mem := rfl
@[simp] theorem State.bump_mem : s.bump.mem = s.mem := rfl
@[simp] theorem State.freed_mem : s.freed.mem = s.mem := rfl
@[simp] theorem State.fill_mem (c h r x) : (s.fill c h r x).mem = s.mem := rfl
@[simp] theorem State.issuing_mem (c h slot) : (s.issuing c h slot).mem = s.mem := rfl
@[simp] theorem State.flagMarks_mem (c h n r) : (s.flagMarks c h n r).mem = s.mem := rfl
@[simp] theorem State.post_mem (src c fifo kind status payload) : (s.post src c fifo kind status payload).mem = s.mem := rfl
@[simp] theorem State.edge_mem (c n) : (s.edge c n).mem = s.mem := rfl
@[simp] theorem State.refill_mem (c h r) : (s.refill c h r).mem = s.mem := rfl
@[simp] theorem State.detach_mem (c h) : (s.detach c h).mem = s.mem := rfl
@[simp] theorem State.discardEngines_mem (p q) : (s.discardEngines p q).mem = s.mem := rfl
@[simp] theorem State.reap_mem (c h) : (s.reap c h).mem = s.mem := rfl
@[simp] theorem State.numbered_mem : s.numbered.mem = s.mem := rfl
@[simp] theorem State.logOwn_mem (r always) : (s.logOwn r always).mem = s.mem := rfl
@[simp] theorem State.dropOwn_mem : s.dropOwn.mem = s.mem := rfl
@[simp] theorem State.metPacket_mem (f) : (s.metPacket f).mem = s.mem := rfl
@[simp] theorem State.ringCore_mem (c x) : (s.ringCore c x).mem = s.mem := rfl
@[simp] theorem State.isolate_mem (p) : (s.isolate p).mem = s.mem := rfl
@[simp] theorem State.onAcc_mem (n f) : (s.onAcc n f).mem = s.mem := rfl
@[simp] theorem State.stageAt_mem (n k st) : (s.stageAt n k st).mem = s.mem := rfl
@[simp] theorem State.dropAcc_mem (n) : (s.dropAcc n).mem = s.mem := rfl
@[simp] theorem State.breaks_mem (c) : (s.breaks c).mem = s.mem := rfl
@[simp] theorem State.landLoad_mem (a r) : (s.landLoad a r).mem = s.mem := rfl
@[simp] theorem State.cacheSlice_mem (slice e) : (s.cacheSlice slice e).mem = s.mem := rfl
@[simp] theorem State.cacheEntry_mem (slice c e) : (s.cacheEntry slice c e).mem = s.mem := rfl
@[simp] theorem State.giveTicket_mem (a p reason level) : (s.giveTicket a p reason level).mem = s.mem := rfl
@[simp] theorem State.answerTicket_mem (slice num x) : (s.answerTicket slice num x).mem = s.mem := rfl
@[simp] theorem State.closeTicket_mem (slice num) : (s.closeTicket slice num).mem = s.mem := rfl
@[simp] theorem State.stampFetch_mem (t since) : (s.stampFetch t since).mem = s.mem := rfl
@[simp] theorem freeBytes_mem (n) : (freeBytes s n).1.mem = s.mem := rfl
@[simp] theorem State.poisonLines_mem (l) : (s.poisonLines l).mem = s.mem := rfl
@[simp] theorem State.dropPost_mem (n) : (s.dropPost n).mem = s.mem := rfl
@[simp] theorem State.refusePost_mem (m) : (s.refusePost m).mem = s.mem := rfl
@[simp] theorem State.acceptPost_mem (m) : (s.acceptPost m).mem = s.mem := rfl
@[simp] theorem State.countOut_mem (c) : (s.countOut c).mem = s.mem := rfl
@[simp] theorem State.dropChan_mem (n) : (s.dropChan n).mem = s.mem := rfl
@[simp] theorem State.problem_mem (c h b code) : (s.problem c h b code).mem = s.mem := rfl
@[simp] theorem State.finishBatch_mem (c h b) : (s.finishBatch c h b).mem = s.mem := rfl
@[simp] theorem State.onSlot_mem (c i f) : (s.onSlot c i f).mem = s.mem := rfl
@[simp] theorem State.sendWave_mem (c i w) : (s.sendWave c i w).mem = s.mem := rfl
@[simp] theorem State.countWave_mem (c i) : (s.countWave c i).mem = s.mem := rfl
@[simp] theorem State.answerWave_mem (w o n) : (s.answerWave w o n).mem = s.mem := rfl
@[simp] theorem State.dropWave_mem (n) : (s.dropWave n).mem = s.mem := rfl
@[simp] theorem State.wavePacket_mem (n) : (s.wavePacket n).mem = s.mem := rfl
@[simp] theorem State.hartCommand_mem (i start x pc) : (s.hartCommand i start x pc).mem = s.mem := rfl
@[simp] theorem State.dropHartCmd_mem (m) : (s.dropHartCmd m).mem = s.mem := rfl
@[simp] theorem State.onMx_mem (c h f) : (s.onMx c h f).mem = s.mem := rfl
@[simp] theorem State.grant_mem (a c h) : (s.grant a c h).mem = s.mem := rfl
@[simp] theorem State.popMx_mem (a) : (s.popMx a).mem = s.mem := rfl
@[simp] theorem State.loadTile_mem (a k bad) : (s.loadTile a k bad).mem = s.mem := rfl
@[simp] theorem State.beginRun_mem (a k o) : (s.beginRun a k o).mem = s.mem := rfl
@[simp] theorem State.onRun_mem (a seq f) : (s.onRun a seq f).mem = s.mem := rfl
@[simp] theorem State.failPart_mem (m o) : (s.failPart m o).mem = s.mem := rfl
@[simp] theorem State.purgePage_mem (ctx vpn size) : (s.purgePage ctx vpn size).mem = s.mem := rfl
@[simp] theorem State.withdrawAts_mem (ctx vpn size) : (s.withdrawAts ctx vpn size).mem = s.mem := rfl
@[simp] theorem State.tlbinvBy_mem (c h x) : (s.tlbinvBy c h x).mem = s.mem := rfl
@[simp] theorem State.noticeMoved_mem (ctx x) : (s.noticeMoved ctx x).mem = s.mem := rfl
@[simp] theorem State.onCmd_mem (n f) : (s.onCmd n f).mem = s.mem := rfl
@[simp] theorem State.pieceHere_mem (n no) : (s.pieceHere n no).mem = s.mem := rfl
@[simp] theorem State.nextRow_mem (c l) : (s.nextRow c l).mem = s.mem := rfl
@[simp] theorem State.setHeel_mem (x v) : (s.setHeel x v).mem = s.mem := rfl
@[simp] theorem State.onSys_mem (c f) : (s.onSys c f).mem = s.mem := rfl
@[simp] theorem State.quarantined_mem (l) : (s.quarantined l).mem = s.mem := rfl
@[simp] theorem State.dropContext_mem (x) : (s.dropContext x).mem = s.mem := rfl
@[simp] theorem State.noReplay_mem (x) : (s.noReplay x).mem = s.mem := rfl
@[simp] theorem State.flood_mem (x) : (s.flood x).mem = s.mem := rfl
@[simp] theorem State.dropLaunch_mem (n) : (s.dropLaunch n).mem = s.mem := rfl
@[simp] theorem State.freeFrames_mem (x) : (s.freeFrames x).mem = s.mem := rfl
@[simp] theorem State.dissolve_mem (x) : (s.dissolve x).mem = s.mem := rfl
@[simp] theorem State.setPhase_mem (x v) : (s.setPhase x v).mem = s.mem := rfl
@[simp] theorem State.turnTimers_mem (ids) : (s.turnTimers ids).mem = s.mem := rfl
@[simp] theorem State.stayInReset_mem : s.stayInReset.mem = s.mem := rfl
@[simp] theorem State.waitaWait_mem (i d w) : (s.waitaWait i d w).mem = s.mem := rfl
@[simp] theorem State.onGroup_mem (g f) : (s.onGroup g f).mem = s.mem := rfl
@[simp] theorem State.markInt_mem (c h) : (s.markInt c h).mem = s.mem := rfl
@[simp] theorem State.onReplayable_mem (x f) : (s.onReplayable x f).mem = s.mem := rfl
@[simp] theorem State.suspects_mem (c) : (s.suspects c).mem = s.mem := rfl
@[simp] theorem State.restartCore_mem (c) : (s.restartCore c).mem = s.mem := rfl
@[simp] theorem State.onTrap_mem (f) : (s.onTrap f).mem = s.mem := rfl
@[simp] theorem State.putLoop_mem (which i w) : (s.putLoop which i w).mem = s.mem := rfl
@[simp] theorem State.putElogbase_mem (d x set) : (s.putElogbase d x set).mem = s.mem := rfl
@[simp] theorem State.setPend_mem (c h id k) : (s.setPend c h id k).mem = s.mem := rfl
@[simp] theorem State.dropPend_mem (c h id) : (s.dropPend c h id).mem = s.mem := rfl
@[simp] theorem State.landOp_mem (c h n r) : (s.landOp c h n r).mem = s.mem := rfl
@[simp] theorem State.orFlags_mem (fl) : (s.orFlags fl).mem = s.mem := rfl
@[simp] theorem State.hostLoad_mem (a n) : (s.hostLoad a n).mem = s.mem := rfl
@[simp] theorem State.countPasses_mem (l) : (s.countPasses l).mem = s.mem := rfl
@[simp] theorem State.setLink_mem (l) : (s.setLink l).mem = s.mem := rfl
@[simp] theorem State.issuingA_mem (c h ic) : (s.issuingA c h ic).mem = s.mem := rfl
@[simp] theorem State.clearFlags_mem : s.clearFlags.mem = s.mem := rfl
@[simp] theorem countCycle_mem (c ready w) : (countCycle c ready w s).mem = s.mem := rfl
@[simp] theorem passHome_mem : (passHome s).mem = s.mem := rfl

/-! Operations with branches, or that go through a list -/

@[simp] theorem State.fetched_mem (c h) : (s.fetched c h).mem = s.mem := by unfold State.fetched; (repeat' split) <;> rfl
@[simp] theorem State.illegal_mem (kind) : (s.illegal kind).mem = s.mem := by simp [State.illegal]
@[simp] theorem State.misplaced_mem : s.misplaced.mem = s.mem := by simp [State.misplaced]
@[simp] theorem State.meetEmpty_mem : s.meetEmpty.mem = s.mem := by simp [State.meetEmpty]
@[simp] theorem State.applyResult_mem (r) : (s.applyResult r).mem = s.mem := foldl_mem (fun _ _ => by rfl) ..

@[simp] theorem State.preciseOr_mem (i) {t : State} (ht : t.mem = s.mem) : (s.preciseOr i t).mem = s.mem := by
  unfold State.preciseOr; split <;> simp [ht]

@[simp] theorem State.resultG_mem (d x) : (s.resultG d x).mem = s.mem := by simp [State.resultG]
@[simp] theorem State.divideDue_mem (i d x) : (s.divideDue i d x).mem = s.mem := by unfold State.divideDue; split <;> simp
@[simp] theorem State.divide_mem (i d y x) : (s.divide i d y x).mem = s.mem := by unfold State.divide; split <;> simp
@[simp] theorem State.wakeLate_mem (c) : (s.wakeLate c).mem = s.mem := by simp [State.wakeLate]
@[simp] theorem State.cancelTickets_mem (c h) : (s.cancelTickets c h).mem = s.mem := foldl_mem (fun t a => by split <;> rfl) ..
@[simp] theorem State.leaveGroup_mem (c h id) : (s.leaveGroup c h id).mem = s.mem := by unfold State.leaveGroup; (repeat' split) <;> simp
@[simp] theorem State.leaveGroups_mem (c h) : (s.leaveGroups c h).mem = s.mem := by simp [State.leaveGroups]
@[simp] theorem State.refuseLeash_mem (c h) : (s.refuseLeash c h).mem = s.mem := by unfold State.refuseLeash; split <;> rfl
@[simp] theorem State.revoke_mem (c h) : (s.revoke c h).mem = s.mem := by simp [State.revoke]
@[simp] theorem State.refillAll_mem (l) : (s.refillAll l).mem = s.mem := foldl_mem (fun t a => by split <;> rfl) ..
@[simp] theorem State.takeShape_mem (slot va x) : (s.takeShape slot va x).mem = s.mem := by unfold State.takeShape; split <;> simp

@[simp] theorem State.ownDone_mem (i op ps) : (s.ownDone i op ps).mem = s.mem := by
  unfold State.ownDone; extract_lets; (repeat' split) <;> simp +zetaDelta

@[simp] theorem State.sendOut_mem (i q ps) : (s.sendOut i q ps).mem = s.mem := by
  unfold State.sendOut; extract_lets; (repeat' split) <;> simp +zetaDelta <;> split <;> rfl

@[simp] theorem State.diverged_mem : s.diverged.mem = s.mem := by unfold State.diverged; split <;> simp
@[simp] theorem State.replayed_mem (q xs) : (s.replayed q xs).mem = s.mem := by fun_cases State.replayed s q xs <;> simp

theorem ownStops_mem {t : State} (h : s.ownStops = some t) : t.mem = s.mem := by
  unfold State.ownStops at h
  (repeat' split at h) <;> cases h <;> simp

@[simp] theorem State.orReplayed_mem {t : State} (ht : t.mem = s.mem) : (s.orReplayed t).mem = s.mem := by
  unfold State.orReplayed
  split
  · simp
  · cases ho : s.ownStops with
    | none => exact ht
    | some u => exact ownStops_mem s ho

@[simp] theorem State.translateFirst_mem (i q n e) : (s.translateFirst i q n e).mem = s.mem := by unfold State.translateFirst; split <;> simp
@[simp] theorem State.countCopies_mem (f) : (s.countCopies f).mem = s.mem := by simp [State.countCopies]
@[simp] theorem State.closeFlight_mem (f) : (s.closeFlight f).1.mem = s.mem := by unfold State.closeFlight; (repeat' split) <;> simp

@[simp] theorem State.closeFlights_mem : s.closeFlights.mem = s.mem := by
  unfold State.closeFlights
  exact foldl_fst_mem (fun _ _ => by simp) ..

@[simp] theorem State.openFlight_mem (x) : (s.openFlight x).mem = s.mem := by simp [State.openFlight]
@[simp] theorem State.noteFlights_mem : s.noteFlights.mem = s.mem := by simp [State.noteFlights]
@[simp] theorem State.mapQueues_mem : s.mapQueues.mem = s.mem := foldl_mem (fun t q => by dsimp only; (repeat' split) <;> rfl) ..
@[simp] theorem State.ringQueue_mem (q) : (s.ringQueue q).mem = s.mem := by unfold State.ringQueue; split <;> simp
@[simp] theorem State.trainPort_mem (p) : (s.trainPort p).mem = s.mem := by simp [State.trainPort]
@[simp] theorem State.forget_mem (a) : (s.forget a).mem = s.mem := by unfold State.forget; (repeat' split) <;> rfl

@[simp] theorem State.ticketRecord_mem (c h kind va slice) : (s.ticketRecord c h kind va slice).mem = s.mem := by
  unfold State.ticketRecord; split <;> rfl

@[simp] theorem State.waitaRead_mem (c h x) : (s.waitaRead c h x).mem = s.mem := by unfold State.waitaRead; (repeat' split) <;> simp

@[simp] theorem State.accDone_mem (a) : (s.accDone a).mem = s.mem := by
  unfold State.accDone
  dsimp only
  split
  · rfl
  · split
    · split <;> rfl
    · rw [State.reap_mem]
      (repeat' split) <;> simp

@[simp] theorem State.throughEntry_mem (a p e) : (s.throughEntry a p e).mem = s.mem := by fun_cases State.throughEntry s a p e <;> simp +zetaDelta
@[simp] theorem State.fetchRecord_mem (t kind) : (s.fetchRecord t kind).mem = s.mem := by unfold State.fetchRecord; split <;> simp
@[simp] theorem State.waitFetch_mem (c h va new) : (s.waitFetch c h va new).mem = s.mem := by unfold State.waitFetch; (repeat' split) <;> simp
@[simp] theorem State.askTicket_mem (p k va reason level) : (s.askTicket p k va reason level).mem = s.mem := by simp [State.askTicket]
@[simp] theorem State.probe_mem (p k va) : (s.probe p k va).mem = s.mem := by unfold State.probe; split <;> rfl
@[simp] theorem engineBreaks_mem (p key) : (engineBreaks s p key).mem = s.mem := by simp [engineBreaks]
@[simp] theorem State.lateTrap_mem : s.lateTrap.mem = s.mem := by simp [State.lateTrap]
@[simp] theorem State.next_mem (i d) : (s.next i d).mem = s.mem := by simp [State.next]
@[simp] theorem State.deliver_mem (c h d m) : (s.deliver c h d m).mem = s.mem := by simp [State.deliver]
@[simp] theorem State.issueMessage_mem (i status va data) : (s.issueMessage i status va data).mem = s.mem := by simp [State.issueMessage]
@[simp] theorem State.post'_mem (i p e x d) : (s.post' i p e x d).mem = s.mem := by simp [State.post']
@[simp] theorem doomReaders_mem (c key line) : (doomReaders s c key line).mem = s.mem := foldl_mem (fun _ _ => by rfl) ..
@[simp] theorem State.send_mem (i q wide x status) : (s.send i q wide x status).mem = s.mem := by simp [State.send]
@[simp] theorem State.chanDone_mem (m r) : (s.chanDone m r).mem = s.mem := by unfold State.chanDone; (repeat' split) <;> rfl
@[simp] theorem State.take_mem (c q) : (s.take c q).2.mem = s.mem := by unfold State.take; split <;> rfl
@[simp] theorem State.deq_mem (i q r wide) : (s.deq i q r wide).mem = s.mem := by unfold State.deq; split <;> simp
@[simp] theorem State.deqn_mem (b q d) : (s.deqn b q d).mem = s.mem := by unfold State.deqn; (repeat' split) <;> simp
@[simp] theorem State.wakeSlot_mem (c i h) : (s.wakeSlot c i h).mem = s.mem := by unfold State.wakeSlot; (repeat' split) <;> simp
@[simp] theorem State.thaw_mem : s.thaw.mem = s.mem := by fun_cases State.thaw s <;> simp +zetaDelta
@[simp] theorem State.tret_mem : s.tret.mem = s.mem := by simp [State.tret]
@[simp] theorem State.startHart_mem (m) : (s.startHart m).mem = s.mem := by simp [State.startHart]
@[simp] theorem State.ackHart_mem (m) : (s.ackHart m).mem = s.mem := by simp [State.ackHart]
@[simp] theorem State.failHart_mem (m cause addr) : (s.failHart m cause addr).mem = s.mem := by simp [State.failHart]
@[simp] theorem State.nackHart_mem (m) : (s.nackHart m).mem = s.mem := by simp [State.nackHart]
@[simp] theorem State.unleash_mem : s.unleash.mem = s.mem := by simp [State.unleash]
@[simp] theorem State.mxwait_mem (d x) : (s.mxwait d x).mem = s.mem := by fun_cases State.mxwait s d x <;> simp
@[simp] theorem State.poisonRow_mem (l) : (s.poisonRow l).mem = s.mem := foldl_mem (fun _ _ => by rfl) ..
@[simp] theorem State.invalidate_mem (w ctxs vpn size) : (s.invalidate w ctxs vpn size).mem = s.mem := foldl_mem (fun _ _ => by rfl) ..
@[simp] theorem State.rangeFor_mem (t) : (s.rangeFor t).1.mem = s.mem := by fun_cases State.rangeFor s t <;> simp +zetaDelta

@[simp] theorem State.capacityChanged_mem : s.capacityChanged.mem = s.mem := 
  foldl_mem (g := fun s (k : CoreId × Core) => s.edge k.1 12) (fun _ _ => by rfl) ..

@[simp] theorem State.putMemcap_mem (x) : (s.putMemcap x).mem = s.mem := by simp [State.putMemcap]
@[simp] theorem State.xmode_mem (c b a) : (s.xmode c b a).mem = s.mem := by simp [State.xmode]

@[simp] theorem State.command_mem (checks kind dst src len) : (s.command checks kind dst src len).mem = s.mem := by
  unfold State.command; split <;> simp

@[simp] theorem State.cmdProblem_mem (c seg code va) : (s.cmdProblem c seg code va).mem = s.mem := by
  unfold State.cmdProblem; (repeat' split) <;> simp

@[simp] theorem State.heelCore_mem (c) : (s.heelCore c).mem = s.mem := by simp [State.heelCore]
@[simp] theorem State.heelGo_mem (x) : (s.heelGo x).mem = s.mem := by simp [State.heelGo]
@[simp] theorem State.release_mem (x) : (s.release x).mem = s.mem := foldl_mem (fun _ _ => by rfl) ..

@[simp] theorem State.discardFlits_mem (x c) : (s.discardFlits x c).mem = s.mem := 
  foldl_mem (g := fun s (m : PartialMsg) => s.onRun m.array m.seq fun r => { r with owed := r.owed - 1 }) (fun _ _ => by rfl) ..

@[simp] theorem State.quarantineAt_mem (x c) : (s.quarantineAt x c).mem = s.mem := by unfold State.quarantineAt; split <;> rfl
@[simp] theorem State.kill_mem (x) : (s.kill x).mem = s.mem := by simp [State.kill]
@[simp] theorem State.unbind_mem (l) : (s.unbind l).mem = s.mem := foldl_mem (fun _ _ => by rfl) ..
@[simp] theorem State.setSwitch_mem (x t) : (s.setSwitch x t).mem = s.mem := foldl_mem (fun _ _ => by rfl) ..
@[simp] theorem State.branch_mem (o taken) : (s.branch o taken).mem = s.mem := by unfold State.branch; split <;> simp
@[simp] theorem State.jump_mem (d t) : (s.jump d t).mem = s.mem := by simp [State.jump]
@[simp] theorem State.enterLoop_mem (n e) : (s.enterLoop n e).mem = s.mem := by unfold State.enterLoop; split <;> simp
@[simp] theorem State.join_mem (c h id) : (s.join c h id).1.mem = s.mem := by unfold State.join; (repeat' split) <;> rfl
@[simp] theorem State.groupRefused_mem (x) : (s.groupRefused x).mem = s.mem := by simp [State.groupRefused]
@[simp] theorem State.arriveAt_mem (i g) : (s.arriveAt i g).mem = s.mem := by simp [State.arriveAt]
@[simp] theorem State.closeFetch_mem (c h va) : (s.closeFetch c h va).mem = s.mem := by unfold State.closeFetch; split <;> simp
@[simp] theorem State.giveGrant_mem (x q g) : (s.giveGrant x q g).mem = s.mem := by simp [State.giveGrant]
@[simp] theorem State.joinContext_mem (x) : (s.joinContext x).mem = s.mem := by unfold State.joinContext; split <;> rfl
@[simp] theorem State.putLtbase_mem (c x clear) : (s.putLtbase c x clear).mem = s.mem := by simp [State.putLtbase]
@[simp] theorem State.putPwrcls_mem (k) : (s.putPwrcls k).mem = s.mem := foldl_mem (fun _ _ => by rfl) ..
@[simp] theorem State.illegalValue_mem (kind) : (s.illegalValue kind).mem = s.mem := by simp [State.illegalValue]
@[simp] theorem State.startOp_mem (i moment o) : (s.startOp i moment o).mem = s.mem := by simp [State.startOp]
@[simp] theorem State.vecOp_mem (i a b d k) : (s.vecOp i a b d k).mem = s.mem := by simp [State.vecOp]
@[simp] theorem State.momOp_mem (i a b d k) : (s.momOp i a b d k).mem = s.mem := by simp [State.momOp]
@[simp] theorem State.fpG_mem (d r) : (s.fpG d r).mem = s.mem := by unfold State.fpG; split <;> simp
@[simp] theorem State.longFp_mem (i d r) : (s.longFp i d r).mem = s.mem := by simp [State.longFp]
@[simp] theorem State.failCarried_mem (x cause wave) : (s.failCarried x cause wave).mem = s.mem := by unfold State.failCarried; split <;> simp
@[simp] theorem State.loseFlight_mem (f copies answers part got) : (s.loseFlight f copies answers part got).mem = s.mem := by simp [State.loseFlight]
@[simp] theorem State.loseOn_mem (n) : (s.loseOn n).mem = s.mem := by simp [State.loseOn]
end

end Sys2Proof.Machine
end

section
/-!
SUPPORT. Every operation keeps memory in its canonical form (R202).
-/

namespace Sys2Proof.Machine

@[simp] theorem Memory.wf_ite (c : Prop) [Decidable c] (m n : Memory) :
    Memory.wf (if c then m else n) = if c then Memory.wf m else Memory.wf n := apply_ite Memory.wf c m n

theorem Memory.wf_foldl {α : Type} {g : Memory → α → Memory} (hg : ∀ m a, Memory.wf m → Memory.wf (g m a)) {l : List α} {m : Memory}
    (hm : Memory.wf m) : Memory.wf (l.foldl g m) := by
  induction l generalizing m with
  | nil => exact hm
  | cons a l ih => exact ih (hg m a hm)

theorem wf_foldl {α : Type} {g : State → α → State} (hg : ∀ t a, Memory.wf t.mem → Memory.wf (g t a).mem) {l : List α} {s : State}
    (hs : Memory.wf s.mem) : Memory.wf (l.foldl g s).mem := by
  induction l generalizing s with
  | nil => exact hs
  | cons a l ih => exact ih (hg s a hs)

/-- The memory of the state that a meaning answers is in canonical form. -/
def wfOut : Out → Bool
  | .next t => Memory.wf t.mem
  | _ => true

/-- The memory of the state is in canonical form, if there is one. -/
def wfOption : Option State → Bool
  | some t => Memory.wf t.mem
  | none => true

/-- The memory of the state is in canonical form, unless there is a code in its place. -/
def wfExcept : Except Nat State → Bool
  | .ok t => Memory.wf t.mem
  | .error _ => true

@[simp] theorem wfOut_next (t : State) : wfOut (.next t) = Memory.wf t.mem := rfl
@[simp] theorem wfOut_occur (t : State) : wfOut t.occur = Memory.wf t.mem := rfl
@[simp] theorem wfOut_idle (t : State) : wfOut t.idle = Memory.wf t.mem := rfl
@[simp] theorem wfOption_some (t : State) : wfOption (some t) = Memory.wf t.mem := rfl
@[simp] theorem wfOption_none : wfOption none = true := rfl
@[simp] theorem wfExcept_ok (t : State) : wfExcept (.ok t) = Memory.wf t.mem := rfl
@[simp] theorem wfExcept_error (n : Nat) : wfExcept (.error n) = true := rfl

@[simp] theorem wfOut_ite (c : Prop) [Decidable c] (x y : Out) : wfOut (if c then x else y) = if c then wfOut x else wfOut y :=
  apply_ite wfOut c x y

@[simp] theorem wf_getD {o : Option State} {t : State} (ho : wfOption o) (ht : Memory.wf t.mem) : Memory.wf (o.getD t).mem := by
  cases o with
  | none => exact ht
  | some u => exact ho

/-! The memory of the states that a result holds is in canonical form -/

/-- What an engine finds of an address holds a state whose memory is in canonical form. -/
def EngReach.wf : EngReach → Bool
  | .here t _ | .wait t | .problem t _ => Memory.wf t.mem
  | .remote => true

/-- What an engine's read gives holds such a state. -/
def EngRead.wf : EngRead → Bool
  | .bytes t _ | .wait t | .problem t _ => Memory.wf t.mem

/-- What an engine's write gives holds such a state. -/
def EngWrite.wf : EngWrite → Bool
  | .ok t | .wait t | .problem t _ => Memory.wf t.mem

/-- What reading pieces gives holds such a state. -/
def PieceRead.wf : PieceRead → Bool
  | .bytes t _ _ | .wait t | .problem t _ _ _ => Memory.wf t.mem

/-- What MXRUN finds of its A rows holds such a state. -/
def RowCheck.wf : RowCheck → Bool
  | .ok t | .trap t _ _ | .page t _ | .full t => Memory.wf t.mem

/-- What the check of a launch record finds holds such a state. -/
def Checked.wf : Checked → Bool
  | .wait t | .found t _ _ => Memory.wf t.mem

/-- What becomes of a request holds such a state, if it is performed. -/
def Arrive.wf : Arrive → Bool
  | .did t _ => Memory.wf t.mem
  | _ => true

/-- What a target does with a message holds such a state, if it is accepted. -/
def ChanAnswer.wf : ChanAnswer → Bool
  | .accept t => Memory.wf t.mem
  | _ => true

/-- Reading ranges ends in such a state. -/
def wfRanges : Except State (State × Bool) → Bool
  | .ok (t, _) | .error t => Memory.wf t.mem

/-- Reading images ends in such a state, if it ends in one. -/
def wfImages : Except (Option State) (State × List (List Byte)) → Bool
  | .ok (t, _) | .error (some t) => Memory.wf t.mem
  | .error none => true

/-- A report ends in such a state. -/
def wfReport : Except State State → Bool
  | .ok t | .error t => Memory.wf t.mem

section
variable (t : State)

@[simp] theorem EngReach.wf_here (k) : (EngReach.here t k).wf = Memory.wf t.mem := rfl
@[simp] theorem EngReach.wf_wait : (EngReach.wait t).wf = Memory.wf t.mem := rfl
@[simp] theorem EngReach.wf_problem (c) : (EngReach.problem t c).wf = Memory.wf t.mem := rfl
@[simp] theorem EngReach.wf_remote : EngReach.remote.wf = true := rfl
@[simp] theorem EngRead.wf_bytes (l) : (EngRead.bytes t l).wf = Memory.wf t.mem := rfl
@[simp] theorem EngRead.wf_wait : (EngRead.wait t).wf = Memory.wf t.mem := rfl
@[simp] theorem EngRead.wf_problem (c) : (EngRead.problem t c).wf = Memory.wf t.mem := rfl
@[simp] theorem EngWrite.wf_ok : (EngWrite.ok t).wf = Memory.wf t.mem := rfl
@[simp] theorem EngWrite.wf_wait : (EngWrite.wait t).wf = Memory.wf t.mem := rfl
@[simp] theorem EngWrite.wf_problem (c) : (EngWrite.problem t c).wf = Memory.wf t.mem := rfl
@[simp] theorem PieceRead.wf_bytes (l x) : (PieceRead.bytes t l x).wf = Memory.wf t.mem := rfl
@[simp] theorem PieceRead.wf_wait : (PieceRead.wait t).wf = Memory.wf t.mem := rfl
@[simp] theorem PieceRead.wf_problem (g c va) : (PieceRead.problem t g c va).wf = Memory.wf t.mem := rfl
@[simp] theorem RowCheck.wf_ok : (RowCheck.ok t).wf = Memory.wf t.mem := rfl
@[simp] theorem RowCheck.wf_trap (va c) : (RowCheck.trap t va c).wf = Memory.wf t.mem := rfl
@[simp] theorem RowCheck.wf_page (va) : (RowCheck.page t va).wf = Memory.wf t.mem := rfl
@[simp] theorem RowCheck.wf_full : (RowCheck.full t).wf = Memory.wf t.mem := rfl
@[simp] theorem Checked.wf_wait : (Checked.wait t).wf = Memory.wf t.mem := rfl
@[simp] theorem Checked.wf_found (x r) : (Checked.found t x r).wf = Memory.wf t.mem := rfl
@[simp] theorem Arrive.wf_did (x) : (Arrive.did t x).wf = Memory.wf t.mem := rfl
@[simp] theorem Arrive.wf_hold : Arrive.hold.wf = true := rfl
@[simp] theorem Arrive.wf_refuse (c x) : (Arrive.refuse c x).wf = true := rfl
@[simp] theorem ChanAnswer.wf_accept : (ChanAnswer.accept t).wf = Memory.wf t.mem := rfl
@[simp] theorem ChanAnswer.wf_full : ChanAnswer.full.wf = true := rfl
@[simp] theorem ChanAnswer.wf_refuse (c) : (ChanAnswer.refuse c).wf = true := rfl
@[simp] theorem wfRanges_ok (b) : wfRanges (.ok (t, b)) = Memory.wf t.mem := rfl
@[simp] theorem wfRanges_error : wfRanges (.error t) = Memory.wf t.mem := rfl
@[simp] theorem wfImages_ok (l) : wfImages (.ok (t, l)) = Memory.wf t.mem := rfl
@[simp] theorem wfImages_error : wfImages (.error (some t)) = Memory.wf t.mem := rfl
@[simp] theorem wfImages_none : wfImages (.error none) = true := rfl
@[simp] theorem wfReport_ok : wfReport (.ok t) = Memory.wf t.mem := rfl
@[simp] theorem wfReport_error : wfReport (.error t) = Memory.wf t.mem := rfl

end

section
variable {s : State} (hs : Memory.wf s.mem)
include hs

@[simp] theorem wf_storeBytes (key bs) : Memory.wf (storeBytes s key bs).mem := storeBytes_canonical hs
@[simp] theorem wf_check (i) : wfOption (State.check i s) := by unfold State.check; (repeat' split) <;> simp [hs]
@[simp] theorem wf_issue (i) {t : State} (ht : Memory.wf t.mem) : wfOut (issue i s t) := wf_getD (wf_check hs i) ht
@[simp] theorem wf_late (c x kind act) : Memory.wf (s.late c x kind act).mem := by simp [State.late, hs]
@[simp] theorem wf_logCause (x cause) : Memory.wf (s.logCause x cause).mem := by simp [State.logCause, hs]
@[simp] theorem wf_logError (x detector action) : Memory.wf (s.logError x detector action).mem := by simp [State.logError, hs]

@[simp] theorem wf_abortFrom (c keep) : Memory.wf (s.abortFrom c keep).mem := by
  have hl (l : List Reaction) : Memory.wf (l.foldl (fun t r => t.late c r.msg 0#3 1#3) s).mem := wf_foldl (fun _ _ ht => wf_late ht ..) hs
  unfold State.abortFrom
  dsimp only
  split
  · exact hs
  · split <;> simp [hl]

@[simp] theorem wf_stopHart (c h) : Memory.wf (s.stopHart c h).mem := by unfold State.stopHart; split <;> simp [hs]

@[simp] theorem wf_fenceKennel (x h detector addr) : Memory.wf (s.fenceKennel x h detector addr).mem := by
  unfold State.fenceKennel
  refine wf_foldl (fun _ _ ht => by exact ht) ?_
  simp only [State.refillAll_mem, State.discardEngines_mem]
  exact wf_foldl (fun _ c ht => wf_foldl (fun _ i hu => wf_stopHart hu c i) ht) (wf_logError hs ..)

@[simp] theorem wf_faultOrFence (poison cause addr info) : Memory.wf (s.faultOrFence poison cause addr info).mem := by unfold State.faultOrFence; split <;> simp [hs]
@[simp] theorem wf_perform (op n key size data) : Memory.wf (s.perform op n key size data).1.mem := by unfold State.perform; split <;> simp [hs]

@[simp] theorem wf_performOwn (op l b) : Memory.wf (performOwn s op l b).1.mem := by
  induction l generalizing s b with
  | nil => exact hs
  | cons p l ih =>
    unfold performOwn
    split
    · split <;> simp [hs, ih]
    · simp [hs, ih]

@[simp] theorem wf_ownStops : wfOption s.ownStops := by unfold State.ownStops; (repeat' split) <;> simp [hs]
@[simp] theorem wf_gate (i q) : wfOption (s.gate i q) := by unfold State.gate; (repeat' split) <;> simp [hs]
@[simp] theorem wf_launch (i q) : Memory.wf (s.launch i q).mem := by simp [State.launch, hs]

@[simp] theorem wf_attempt (i q) : Memory.wf (s.attempt i q).mem := by
  have hg := wf_gate hs i q
  unfold State.attempt
  split
  · simp_all
  · simp [hs]

@[simp] theorem wf_access (i q) : Memory.wf (s.access i q).mem := by unfold State.access; (repeat' split) <;> simp [hs]
@[simp] theorem wf_turnedAway (n k) : wfOut (s.turnedAway n k) := by unfold State.turnedAway; (repeat' split) <;> simp [hs]

@[simp] theorem wf_takeAnswer (n k) {o : Out} (ho : wfOut o) : wfOut (s.takeAnswer n k o) := by
  unfold State.takeAnswer
  (repeat' split) <;> simp [hs, ho]

@[simp] theorem wf_registerQueue (x) : Memory.wf (s.registerQueue x).mem := by simp [State.registerQueue, hs]
@[simp] theorem wf_devWrite (mode r off size x) : Memory.wf (s.devWrite mode r off size x).mem := by unfold State.devWrite; (repeat' split) <;> simp [hs]

@[simp] theorem wf_arriveDevice (a p k pa) : (arriveDevice s a p k pa).wf := by
  unfold arriveDevice
  dsimp only
  split
  · rfl
  · (repeat' split) <;> simp [hs]

@[simp] theorem wf_arriveTload (a p key pa) : (arriveTload s a p key pa).wf := by
  unfold arriveTload
  split
  · exact hs
  · dsimp only
    (repeat' split) <;> simp [hs]

@[simp] theorem wf_arriveTstore (a p t m rid full pa) : (arriveTstore s a p t m rid full pa).wf := by
  unfold arriveTstore
  dsimp only
  (repeat' split) <;> simp [hs]

@[simp] theorem wf_arrivePhys (a p k pa) : (arrivePhys s a p k pa).wf := by
  unfold arrivePhys
  (repeat' split) <;> simp [hs]

@[simp] theorem wf_arrivePeer (a p k pkg c w off) : (arrivePeer s a p k pkg c w off).wf := by
  unfold arrivePeer
  (repeat' split) <;> simp [hs]

@[simp] theorem wf_arrive (a p t) : (arrive s a p t).wf := by
  unfold arrive
  dsimp only
  split
  · split <;> simp [hs]
  · exact wf_arrivePhys hs ..
  · exact wf_arrivePeer hs ..

@[simp] theorem wf_request (n k want) : wfOut (s.request n k want) := by
  unfold State.request
  split
  · simp [hs]
  next a _ =>
    split
    · simp [hs]
    next p _ =>
      split
      next t _ =>
        have ha := wf_arrive hs a p t
        (repeat' split) <;> simp_all
      · simp [hs]

@[simp] theorem wf_execLoadRequest (n k) : wfOut (execLoadRequest n k s) := by simp [execLoadRequest, hs]
@[simp] theorem wf_execStoreRequest (n k) : wfOut (execStoreRequest n k s) := by simp [execStoreRequest, hs]
@[simp] theorem wf_execAtomicRequest (n k) : wfOut (execAtomicRequest n k s) := by simp [execAtomicRequest, hs]
@[simp] theorem wf_execStfFlagIncrement (n) : wfOut (execStfFlagIncrement n s) := by unfold execStfFlagIncrement; (repeat' split) <;> simp [hs]
@[simp] theorem wf_faultAt (a f) : Memory.wf (s.faultAt a f).mem := by unfold State.faultAt; split <;> simp [hs]
@[simp] theorem wf_settle (c h) : Memory.wf (s.settle c h).mem := by unfold State.settle; dsimp only; (repeat' split) <;> simp_all

@[simp] theorem wf_execNegativeAcknowledgement (n k) : wfOut (execNegativeAcknowledgement n k s) := by
  unfold execNegativeAcknowledgement
  (repeat' split) <;> simp [hs]

@[simp] theorem wf_execTicket (n k) : wfOut (execTicket n k s) := by unfold execTicket; (repeat' split) <;> simp [hs]
@[simp] theorem wf_execTicketRewind (c h) : wfOut (execTicketRewind c h s) := by fun_cases execTicketRewind c h s <;> simp +zetaDelta [hs]

@[simp] theorem wf_answer (n k data) : wfOut (s.answer n k data) := by
  unfold State.answer
  (repeat' split) <;> simp [hs]

@[simp] theorem wf_execDataResponse (n k) : wfOut (execDataResponse n k s) := by simp [execDataResponse, hs]
@[simp] theorem wf_execAcknowledgement (n k) : wfOut (execAcknowledgement n k s) := by simp [execAcknowledgement, hs]
@[simp] theorem wf_sliceDone (n) : wfOut (s.sliceDone n) := by unfold State.sliceDone; split <;> simp [hs]
@[simp] theorem wf_execSliceWalk (n k) : wfOut (execSliceWalk n k s) := by fun_cases execSliceWalk n k s <;> simp [hs]

@[simp] theorem wf_resolveTicket (ctx slice num x) : Memory.wf (s.resolveTicket ctx slice num x).mem := by
  refine wf_foldl (fun t a ht => wf_settle ht ..) ?_
  rw [foldl_mem (fun _ _ => by simp)]
  exact hs

@[simp] theorem wf_deliverAnswer (t x) : Memory.wf (s.deliverAnswer t x).mem := by unfold State.deliverAnswer; split <;> simp [hs]

@[simp] theorem wf_loseTickets (slices) : Memory.wf (s.loseTickets slices).mem := by
  refine wf_foldl (fun t a ht => ?_) hs
  simp [ht]

@[simp] theorem wf_execReplayNotice (slice num) : wfOut (execReplayNotice slice num s) := by unfold execReplayNotice; (repeat' split) <;> simp [hs]
@[simp] theorem wf_execTicketFault (slice num) : wfOut (execTicketFault slice num s) := by unfold execTicketFault; (repeat' split) <;> simp [hs]
@[simp] theorem wf_execTicketTimeout (c h) : wfOut (execTicketTimeout c h s) := by fun_cases execTicketTimeout c h s <;> simp [hs]
@[simp] theorem wf_waited {t : State} (ht : Memory.wf t.mem) : wfOut (s.waited t) := by simp [State.waited, hs, ht]
/-! What engines find, read and write -/

@[simp] theorem wf_throughEngine (p k va n e) : (throughEngine s p k va n e).wf := by
  unfold throughEngine
  (repeat' split) <;> simp [hs]

@[simp] theorem wf_engineReach (p k va n) : (engineReach s p k va n).wf := by
  unfold engineReach
  split
  case h_5 =>
    dsimp only
    split
    · exact hs
    · exact hs
    · split
      · exact wf_throughEngine hs ..
      · split
        · exact hs
        · (repeat' split) <;> simp [hs]
  all_goals (repeat' split) <;> simp [hs]

@[simp] theorem wf_engineReadIn (p va n) : (engineReadIn s p va n).wf := by
  have hr := wf_engineReach hs p .load va n
  unfold engineReadIn
  split <;> simp_all

theorem wf_engineReadFrom (p n a k) : (engineReadFrom s p n a k).wf := by
  induction n generalizing s a k with
  | zero => exact hs
  | succ n ih =>
    have hr := wf_engineReadIn hs p (BitVec.ofNat 64 a) (inPage a k)
    unfold engineReadFrom
    split
    · exact hs
    · split
      · exact hs
      · dsimp only
        split
        next t x ht =>
          have hi := ih (s := t) (by simp_all) (a + inPage a k) (k - inPage a k)
          split <;> simp_all
        · exact hr

@[simp] theorem wf_engineRead (p va n) : (engineRead s p va n).wf := wf_engineReadFrom hs ..

@[simp] theorem wf_storeMixed (key l) : Memory.wf (storeMixed s key l).mem := by
  unfold storeMixed
  split
  · exact wf_storeBytes hs ..
  · refine Memory.wf_foldl (fun m x hm => ?_) hs
    split
    · exact hm
    · exact Memory.wf_writeByte hm

@[simp] theorem wf_engineWriteIn (p va l) : (engineWriteIn s p va l).wf := by
  have hr := wf_engineReach hs p .store va l.length
  unfold engineWriteIn
  split <;> simp_all

@[simp] theorem wf_engineCanWrite (p n a k) : (engineCanWrite s p n a k).wf := by
  induction n generalizing s a k with
  | zero => exact hs
  | succ n ih =>
    have hr := wf_engineReach hs p .store (BitVec.ofNat 64 a) (inPage a k)
    unfold engineCanWrite
    (repeat' split) <;> simp_all

@[simp] theorem wf_engineWriteAll (p n a l) : Memory.wf (engineWriteAll s p n a l).mem := by
  fun_induction engineWriteAll s p n a l with
  | case1 => exact hs
  | case2 => exact hs
  | case3 s n a l hl k t ht ih => exact ih (by have := wf_engineWriteIn hs p (BitVec.ofNat 64 a) (l.take k); simp_all)
  | case4 => exact hs

@[simp] theorem wf_engineWrite (p va l) : (engineWrite s p va l).wf := by
  have hr := wf_engineCanWrite hs p (l.length / 4096 + 2) va.toNat l.length
  unfold engineWrite
  dsimp only
  split <;> simp_all

end

end Sys2Proof.Machine
end

section
/-!
SUPPORT. Time, queues, collectives and the commands of harts keep memory in its canonical form (R202).
-/

namespace Sys2Proof.Machine

section
variable {s : State} (hs : Memory.wf s.mem)
include hs

@[simp] theorem wf_execTimeTreeReference (t c k) : wfOut (execTimeTreeReference t c k s) := by simp [execTimeTreeReference, hs]
@[simp] theorem wf_execNextDelivery (c) : wfOut (execNextDelivery c s) := by fun_cases execNextDelivery c s <;> simp [hs]
@[simp] theorem wf_lateq (d) : Memory.wf (s.lateq d).mem := by simp [State.lateq, hs]
@[simp] theorem wf_execTwaitExpiry (c h) : wfOut (execTwaitExpiry c h s) := by unfold execTwaitExpiry; split <;> simp [hs]
@[simp] theorem wf_latePolicy (c x kind) : Memory.wf (s.latePolicy c x kind).mem := by fun_cases State.latePolicy s c x kind <;> simp +zetaDelta [hs]
@[simp] theorem wf_tagged (m) : Memory.wf (s.tagged m).mem := by fun_cases State.tagged s m <;> simp +zetaDelta [hs]
@[simp] theorem wf_execTaggedMessage (n) : wfOut (execTaggedMessage n s) := by unfold execTaggedMessage; (repeat' split) <;> simp [hs]
@[simp] theorem wf_execInboxResend (n) : wfOut (execInboxResend n s) := by fun_cases execInboxResend n s <;> simp +zetaDelta [hs]

@[simp] theorem wf_writeEntry (e) : Memory.wf (writeEntry s e).mem := by
  have hw (m : Nat) (l : List Byte) : Memory.wf (writeBytes s.mem m l) := Memory.wf_writeBytes hs
  simp [writeEntry, hs, hw]

@[simp] theorem wf_commit (c r) : Memory.wf (s.commit c r).mem := by
  have hw (l : List OrdEntry) : Memory.wf (l.foldl writeEntry s).mem := wf_foldl (fun _ _ ht => wf_writeEntry ht ..) hs
  unfold State.commit
  dsimp only [State.onCore_mem]
  rw [foldl_mem (fun _ _ => by simp)]
  simp [hw]

@[simp] theorem wf_commitAll (cs k n) : Memory.wf (commitAll cs k n s).mem := by
  fun_induction commitAll cs k n s <;> simp_all

@[simp] theorem wf_execHorizonPublish (x) : wfOut (execHorizonPublish x s) := by
  unfold execHorizonPublish
  dsimp only
  split
  · exact hs
  · split
    · exact hs
    · refine wf_commitAll ?_ ..
      rw [foldl_mem (fun _ _ => by rfl)]
      exact hs

@[simp] theorem wf_execReactionAbort (c n) : wfOut (execReactionAbort c n s) := by unfold execReactionAbort; dsimp only; (repeat' split) <;> simp_all
@[simp] theorem wf_execReactionAbortRestart (c h) : wfOut (execReactionAbortRestart c h s) := by simp [execReactionAbortRestart, hs]

@[simp] theorem wf_ringWrite (c n size x) : Memory.wf (s.ringWrite c n size x).mem := by
  unfold State.ringWrite
  exact wf_foldl (fun _ _ ht => wf_storeBytes ht ..) hs

@[simp] theorem wf_chanArrive (m) : (chanArrive s m).wf := by
  unfold chanArrive
  dsimp only
  (repeat' split) <;> simp [hs]

@[simp] theorem wf_execChannelMessage (n) : wfOut (execChannelMessage n s) := by
  unfold execChannelMessage
  split
  · simp [hs]
  next m _ =>
    have ha := wf_chanArrive hs m
    (repeat' split) <;> simp_all

@[simp] theorem wf_execChannelHeldResend (n) : wfOut (execChannelHeldResend n s) := by
  unfold execChannelHeldResend
  split
  · exact hs
  next m _ =>
    have ha := wf_chanArrive hs m
    (repeat' split) <;> simp_all

@[simp] theorem wf_execDeqTake (c q) : wfOut (execDeqTake c q s) := by fun_cases execDeqTake c q s <;> simp +zetaDelta [hs]
@[simp] theorem wf_execEventRecord (n) : wfOut (execEventRecord n s) := by unfold execEventRecord; (repeat' split) <;> simp [hs]
@[simp] theorem wf_writeContent (typ isList key x) : Memory.wf (writeContent s typ isList key x).mem := by simp [writeContent, hs]
@[simp] theorem wf_fireEntry (c i e) : Memory.wf (s.fireEntry c i e).mem := by unfold State.fireEntry; (repeat' split) <;> simp [hs]

@[simp] theorem wf_fire (c i n) : Memory.wf (State.fire c i n s).mem := by
  induction n generalizing s with
  | zero => exact hs
  | succ n ih =>
    unfold State.fire
    dsimp only
    (repeat' split) <;> simp [hs, ih]

@[simp] theorem wf_applyWave (w c a) : Memory.wf (s.applyWave w c a).1.mem := by fun_cases State.applyWave s w c a <;> simp +zetaDelta [hs]

@[simp] theorem wf_applyStaged (c i l) : Memory.wf (s.applyStaged c i l).mem := by
  refine wf_foldl (fun t w ht => ?_) hs
  split <;> simp [ht]

@[simp] theorem wf_nextGeneration (c i) : Memory.wf (s.nextGeneration c i).mem := by simp [State.nextGeneration, hs]
@[simp] theorem wf_startSlot (c i h) : Memory.wf (s.startSlot c i h).mem := by simp [State.startSlot, hs]

@[simp] theorem wf_wakeWaiters (c i) : Memory.wf (s.wakeWaiters c i).mem := by
  have wake (l : List HartId) {t : State} (ht : Memory.wf t.mem) : Memory.wf (l.foldl (fun s h => s.wakeSlot c i h) t).mem := by
    rwa [foldl_mem (fun _ _ => by simp)]
  have start (l : List HartId) {t : State} (ht : Memory.wf t.mem) : Memory.wf (l.foldl (fun s h => s.startSlot c i h) t).mem :=
    wf_foldl (fun _ _ hu => wf_startSlot hu ..) ht
  simpa only [State.wakeWaiters] using wake hartIds (start hartIds (wake hartIds hs))

@[simp] theorem wf_advance (c i) : Memory.wf (s.advance c i).mem := by simp [State.advance, hs]
@[simp] theorem wf_stage (w c) : Memory.wf (s.stage w c).mem := by simp [State.stage, hs]
@[simp] theorem wf_waveArrives (w c) : Memory.wf (s.waveArrives w c).mem := by fun_cases State.waveArrives s w c <;> simp +zetaDelta [hs]

@[simp] theorem wf_execCollectiveWave (n) : wfOut (execCollectiveWave n s) := by
  unfold execCollectiveWave
  split
  · simp [hs]
  next w _ =>
    have hw := wf_engineWrite hs w.party w.dst w.raw
    dsimp only
    (repeat' split) <;> simp_all

@[simp] theorem wf_execGenerationComplete (c i) : wfOut (execGenerationComplete c i s) := by fun_cases execGenerationComplete c i s <;> simp +zetaDelta [hs]

@[simp] theorem wf_armedThen (x) {f : CSlot → State} (hf : ∀ y, Memory.wf (f y).mem) : Memory.wf (s.armedThen x f).mem := by
  simp only [State.armedThen]
  (repeat' split) <;> simp [hs, hf]

@[simp] theorem wf_halt : Memory.wf s.halt.mem := by
  have hf (l : List HartId) : Memory.wf (l.foldl (fun t h => t.stopHart s.cur h) s).mem := wf_foldl (fun _ _ ht => wf_stopHart ht ..) hs
  simp [State.halt, hs, hf]

@[simp] theorem wf_execHartStartCommand (n) : wfOut (execHartStartCommand n s) := by unfold execHartStartCommand; split <;> simp [hs]
@[simp] theorem wf_execHartStopCommand (n) : wfOut (execHartStopCommand n s) := by unfold execHartStopCommand; (repeat' split) <;> simp [hs]

end

end Sys2Proof.Machine
end

section
/-!
SUPPORT. Leases, arrays, the memory service and the streamers keep memory in its canonical form (R202).
-/

namespace Sys2Proof.Machine

section
variable {s : State} (hs : Memory.wf s.mem)
include hs

@[simp] theorem wf_execLeaseGrant (a) : wfOut (execLeaseGrant a s) := by unfold execLeaseGrant; split <;> simp [hs]
@[simp] theorem wf_execLeaseExpiry (a) : wfOut (execLeaseExpiry a s) := by unfold execLeaseExpiry; (repeat' split) <;> simp [hs]

@[simp] theorem wf_orReplayed {t : State} (ht : Memory.wf t.mem) : Memory.wf (s.orReplayed t).mem := by
  unfold State.orReplayed
  split
  · simp [hs]
  · exact wf_getD (wf_ownStops hs) ht

@[simp] theorem wf_preciseOr (i) {t : State} (ht : Memory.wf t.mem) : Memory.wf (s.preciseOr i t).mem := by
  unfold State.preciseOr
  split <;> simp [hs, ht]

@[simp] theorem wf_sendMx {t : State} (ht : Memory.wf t.mem) : Memory.wf (s.sendMx t).mem := by
  unfold State.sendMx
  dsimp only
  (repeat' split) <;> simp [hs, ht]

@[simp] theorem wf_rowEntry (va e) : (s.rowEntry va e).wf := by
  unfold State.rowEntry
  split <;> exact hs

@[simp] theorem wf_rowAnswer (slice va e) : (s.rowAnswer slice va e).wf := by
  have he := wf_rowEntry hs va e
  unfold State.rowAnswer
  split <;> simp_all

@[simp] theorem wf_rowPart (a n) : (s.rowPart a n).wf := by
  unfold State.rowPart
  dsimp only
  split
  · exact hs
  split
  · exact hs
  · exact hs
  · split <;> exact hs
  · split <;> exact hs
  · split
    · exact wf_rowEntry hs ..
    · split
      · exact wf_rowAnswer hs ..
      · split
        · exact hs
        · split
          · exact wf_rowAnswer hs ..
          · exact hs

@[simp] theorem wf_rowRange (k a n) : (s.rowRange k a n).wf := by
  induction k generalizing s a n with
  | zero => exact hs
  | succ k ih =>
    have hp := wf_rowPart hs a (inPage a n)
    unfold State.rowRange
    (repeat' split) <;> simp_all

@[simp] theorem wf_mxrun (i d addr opt n) : Memory.wf (s.mxrun i d addr opt n).mem := by
  unfold State.mxrun
  extract_lets p fa mode size st stride total
  have hr := wf_rowRange hs (total / 4096 + 2) addr.toNat total
  split
  · simp [hs]
  · refine wf_sendMx hs ?_
    split
    · simp [hs]
    · refine wf_orReplayed hs ?_
      (repeat' split) <;> simp_all

@[simp] theorem wf_engineReadGroups (p va size n k) : (engineReadGroups s p va size n k).wf := by
  induction k generalizing s va with
  | zero => exact hs
  | succ k ih =>
    have hr := wf_engineRead hs p va n
    unfold engineReadGroups
    split
    next t x ht =>
      have hi := ih (s := t) (by simp_all) (va + BitVec.ofNat 64 size)
      split <;> simp_all
    · exact hr

@[simp] theorem wf_execArrayLoadBTile (a) : wfOut (execArrayLoadBTile a s) := by fun_cases execArrayLoadBTile a s <;> simp [hs]
@[simp] theorem wf_execRunAccept (a) : wfOut (execRunAccept a s) := by fun_cases execRunAccept a s <;> simp +zetaDelta [hs]
@[simp] theorem wf_execMxzeroAccept (a) : wfOut (execMxzeroAccept a s) := by unfold execMxzeroAccept; split <;> simp [hs]

@[simp] theorem wf_execArrayRowCompute (a) : wfOut (execArrayRowCompute a s) := by
  unfold execArrayRowCompute
  generalize List.range 256 = columns
  dsimp only
  split
  · exact hs
  next r _ =>
    split
    · split <;> simp [hs]
    · have hr {k va size n x} (hx : engineReadGroups s r.cmd.party va size n k = x) : x.wf := hx ▸ wf_engineReadGroups hs ..
      split
      next t ht => exact wf_waited hs (hr ht)
      next t c ht => simpa using hr ht
      next t l ht =>
        have hm : Memory.wf t.mem := hr ht
        split
        · split <;> simp [hm]
        · split <;> simp [hs, hm]

@[simp] theorem wf_applyPart (m) : Memory.wf (s.applyPart m).1.mem := by simp [State.applyPart, hs]
@[simp] theorem wf_execPartialSums (n) : wfOut (execPartialSums n s) := by fun_cases execPartialSums n s <;> simp +zetaDelta [hs]

@[simp] theorem wf_execRunComplete (a) : wfOut (execRunComplete a s) := by
  unfold execRunComplete
  split
  · exact hs
  · split
    · exact hs
    · dsimp only
      rw [wfOut_occur, foldl_mem (fun _ _ => by rfl)]
      split <;> exact hs

@[simp] theorem wf_zeroRange (a n) : Memory.wf (s.zeroRange a n).mem := zeroRange_canonical hs
@[simp] theorem wf_copyRange (src dst n) : Memory.wf (s.copyRange src dst n).mem := copyRange_canonical hs
@[simp] theorem wf_execTlbinv (c h x) : wfOut (execTlbinv c h x s) := by simp [execTlbinv, hs]
@[simp] theorem wf_execTlbinvDrainComplete (c h) : wfOut (execTlbinvDrainComplete c h s) := by fun_cases execTlbinvDrainComplete c h s <;> simp +zetaDelta [hs]
@[simp] theorem wf_execAtsInvalidationRequest (p v z) : wfOut (execAtsInvalidationRequest p v z s) := by simp [execAtsInvalidationRequest, hs]
@[simp] theorem wf_execInvalidationCompletion (p v z) : wfOut (execInvalidationCompletion p v z s) := by unfold execInvalidationCompletion; split <;> simp [hs]
@[simp] theorem wf_charge (c ctx agid frame units) : wfOption (s.charge c ctx agid frame units) := by fun_cases State.charge s c ctx agid frame units <;> simp [hs]
@[simp] theorem wf_uncharge (c frame) : Memory.wf (s.uncharge c frame).mem := by unfold State.uncharge; split <;> simp [hs]

@[simp] theorem wf_hangLeaf (va leaf n place f) : Memory.wf (s.hangLeaf va leaf n place f).mem := by
  induction n generalizing s place f with
  | zero => exact wf_storeBytes hs ..
  | succ n ih => exact ih (wf_storeBytes (zeroRange_canonical hs) ..) ..

@[simp] theorem wf_fillPage (t f) : Memory.wf (s.fillPage t f).mem := by simp [State.fillPage, hs]

@[simp] theorem wf_firstTouch (t f place) : Memory.wf (s.firstTouch t f place).mem := by
  have hr : (s.rangeFor t).1.mem = s.mem := State.rangeFor_mem s t
  unfold State.firstTouch
  dsimp only
  split
  next u he => simp_all
  next u d he =>
    have hu : Memory.wf u.mem := by simp_all
    split
    · simp [hu]
    · have hc := wf_charge hu t.core t.ctx t.agid f 1
      split <;> simp_all

@[simp] theorem wf_fetchNode (t f place e) : Memory.wf (s.fetchNode t f place e).mem := by unfold State.fetchNode; split <;> simp [hs]

@[simp] theorem wf_shadowPage (t f place size e) : Memory.wf (s.shadowPage t f place size e).mem := by
  have hc := wf_charge hs t.core t.ctx t.agid f (pageBytes size / 4096)
  unfold State.shadowPage
  dsimp only
  split
  · simp [hs]
  · split
    · simp [hs]
    next u hu =>
      rw [hu] at hc
      simp only [State.answerTicket_mem, State.purgePage_mem]
      exact wf_storeBytes (copyRange_canonical hc) ..

@[simp] theorem wf_execMemoryServiceTicket (slice num f) : wfOut (execMemoryServiceTicket slice num f s) := by fun_cases execMemoryServiceTicket slice num f s <;> simp [hs]
@[simp] theorem wf_execPriPageGroupResponse (slice num o) : wfOut (execPriPageGroupResponse slice num o s) := by unfold execPriPageGroupResponse; (repeat' split) <;> simp [hs]
@[simp] theorem wf_execMemcapWrite (x) : wfOut (execMemcapWrite x s) := by simp [execMemcapWrite, hs]
@[simp] theorem wf_startMove (ctx x) : Memory.wf (s.startMove ctx x).mem := by simp [State.startMove, hs]
@[simp] theorem wf_endMove (ctx x f) : Memory.wf (s.endMove ctx x f).mem := by simp [State.endMove, hs]
@[simp] theorem wf_evacuate (n) : wfOption (s.evacuate n) := by fun_cases State.evacuate s n <;> simp +zetaDelta [hs]

@[simp] theorem wf_execStackRetirement (k) : wfOut (execStackRetirement k s) := by
  have he := wf_evacuate hs ((s.cap.stacks - 1) * stackBytes)
  unfold execStackRetirement
  dsimp only
  (repeat' split) <;> simp_all

@[simp] theorem wf_readGranule (l bad) : Memory.wf (s.readGranule l bad).mem := by unfold State.readGranule; split <;> simp [hs]

@[simp] theorem wf_moveGranules (lo n) : Memory.wf (s.moveGranules lo n).mem := by
  unfold State.moveGranules
  exact wf_foldl (fun _ _ ht => by exact wf_readGranule ht ..) hs

@[simp] theorem wf_execMigrationBlockMove : wfOut (execMigrationBlockMove s) := by fun_cases execMigrationBlockMove s <;> simp +zetaDelta [hs]
@[simp] theorem wf_execMigrationBounce : wfOut (execMigrationBounce s) := by fun_cases execMigrationBounce s <;> simp +zetaDelta [hs]
@[simp] theorem wf_execBatchFinish (c h) : wfOut (execBatchFinish c h s) := by fun_cases execBatchFinish c h s <;> simp [hs]
@[simp] theorem wf_orFull {t : State} (ht : Memory.wf t.mem) : Memory.wf (s.orFull t).mem := by simp [State.orFull, hs, ht]

@[simp] theorem wf_withTable (i va) {f : State → State} (hf : ∀ t, Memory.wf t.mem → Memory.wf (f t).mem) : Memory.wf (s.withTable i va f).mem := by
  have hg := wf_gate hs i (tableAsk va)
  unfold State.withTable
  split
  · simp [hs]
  · simp [hs]
  · refine wf_orReplayed hs ?_
    (repeat' split) <;> simp_all

@[simp] theorem wf_readList (p list n i) : Memory.wf (readList s p list n i).1.mem := by
  induction n generalizing s i with
  | zero => exact hs
  | succ n ih =>
    have hr := wf_engineRead hs p (BitVec.ofNat 64 (list.toNat + 4 * i)) 4
    generalize hx : readList s p list (n + 1) i = x
    unfold readList at hx
    dsimp only at hx
    split at hx
    · rw [← hx]
      exact ih hs _
    · split at hx
      next t l ht =>
        rw [ht] at hr
        rw [← hx]
        exact ih hr _
      next t c ht =>
        rw [ht] at hr
        rw [← hx]
        exact ih hr _
      next t ht =>
        rw [ht] at hr
        rw [← hx]
        exact hr

@[simp] theorem wf_execStreamerCommand (n) : wfOut (execStreamerCommand n s) := by
  unfold execStreamerCommand
  split
  · simp [hs]
  next c _ =>
    dsimp only
    split
    · simp [hs]
    · split
      case h_5 x list rows _ =>
        have hl := wf_readList hs c.party list rows 0
        split
        next t ht =>
          rw [ht] at hl
          exact wf_waited hs hl
        next t l ht =>
          rw [ht] at hl
          rw [wfOut_occur, State.onCmd_mem, foldl_mem (fun _ _ => by split <;> simp)]
          exact hl
      all_goals simp [hs]

@[simp] theorem wf_pieceBytes (c p) : (s.pieceBytes c p).wf := by
  unfold State.pieceBytes
  split
  · exact hs
  · exact wf_engineRead hs ..

@[simp] theorem wf_readPieces (c l) : (s.readPieces c l).wf := by
  induction l generalizing s with
  | nil => exact hs
  | cons p l ih =>
    have hp := wf_pieceBytes hs c p
    unfold State.readPieces
    split
    · exact hs
    · split
      · simp_all
      · simp_all
      next t x ht =>
        have hi := ih (s := t) (by simp_all)
        split <;> simp_all

@[simp] theorem wf_canWritePieces (c l) : (s.canWritePieces c l).wf := by
  induction l generalizing s with
  | nil => exact hs
  | cons p l ih =>
    have hp := wf_engineCanWrite hs c.party (p.len / 4096 + 2) p.dst.toNat p.len
    unfold State.canWritePieces
    (repeat' split) <;> simp_all

@[simp] theorem wf_writePieces (c l) : Memory.wf (s.writePieces c l).mem := wf_foldl (fun _ _ ht => wf_engineWriteAll ht ..) hs

@[simp] theorem wf_movePieces (c p) : wfOut (s.movePieces c p) := by
  have hr := wf_readPieces hs c (c.around p false)
  unfold State.movePieces
  dsimp only
  split
  · simp_all
  · simp_all
  next t _ _ ht =>
    rw [ht, PieceRead.wf_bytes] at hr
    have hw := wf_canWritePieces hr c (c.around p true)
    split
    · simp_all
    · simp_all
    next u _ _ hu =>
      rw [hu, PieceRead.wf_bytes] at hw
      have hl := wf_readPieces hw c (c.together p)
      split
      · simp_all
      · simp_all
      · split <;> simp_all

@[simp] theorem wf_execBulkPiece (n k) : wfOut (execBulkPiece n k s) := by fun_cases execBulkPiece n k s <;> simp [hs]
@[simp] theorem wf_countUp (key) : Memory.wf (s.countUp key).mem := by simp [State.countUp, hs]

@[simp] theorem wf_bump1 (c x key i bi) : wfOut (s.bump1 c x key i bi) := by
  unfold State.bump1
  dsimp only
  split
  · simp [hs]
  split
  · split <;> simp [hs]
  split
  · simp [hs]
  split
  · simp [hs]
  next e k dst _ =>
    split
    · have hw := wf_engineWrite hs c.party (BitVec.ofNat 64 (tableField s key 8 8 + 4 * k)) (clean (natLe 4 bi))
      split
      next hr => split at hr <;> simp_all
      next hr => split at hr <;> simp_all
      next hr => split at hr <;> simp_all
    · simp [hs]

@[simp] theorem wf_execBinBump (n) : wfOut (execBinBump n s) := by
  generalize ho : execBinBump n s = o
  unfold execBinBump at ho
  split at ho
  · rw [← ho]
    exact hs
  next c _ =>
    split at ho
    case h_2 =>
      rw [← ho]
      exact hs
    case h_1 x list rows _ =>
      extract_lets i slot drop at ho
      have hdrop (t code) (ht : Memory.wf t.mem) : wfOut (drop t code) := by simpa [drop] using ht
      have hr {e} (he : (if inSpaceOf list slot then engineRead s c.party (BitVec.ofNat 64 slot) 4 else .problem s 1) = e) : e.wf := by
        rw [← he]
        split
        · exact wf_engineRead hs ..
        · exact hs
      split at ho
      · rw [← ho]
        exact hs
      · split at ho <;> rw [← ho]
        next t hq => exact wf_waited hs (hr hq)
        next t code hq => exact hdrop t code (hr hq)
        next t l hq =>
          have ht : Memory.wf t.mem := hr hq
          have hb := wf_engineReach ht c.party .atomic c.dst 16
          split
          · exact hdrop _ _ ht
          · split
            next u key hu =>
              rw [hu] at hb
              split
              · exact wf_bump1 hb ..
              · exact hdrop _ _ hb
            · exact hdrop _ _ ht
            next u hu =>
              rw [hu] at hb
              exact wf_waited hs hb
            next u code hu =>
              rw [hu] at hb
              exact hdrop _ _ hb

@[simp] theorem wf_execStreamerCommandComplete (n) : wfOut (execStreamerCommandComplete n s) := by unfold execStreamerCommandComplete; split <;> simp [hs]

end

end Sys2Proof.Machine
end

section
/-!
SUPPORT. Partitions, traps, errors, CSRs, launches and links keep memory in its canonical form (R202).
-/

namespace Sys2Proof.Machine

theorem wf_foldlM_report {α : Type} {g : State → α → Except State State} (hg : ∀ t a, Memory.wf t.mem → wfReport (g t a)) (l : List α)
    {s : State} (hs : Memory.wf s.mem) : wfReport (l.foldlM g s) := by
  induction l generalizing s with
  | nil => exact hs
  | cons a l ih =>
    have ha := hg s a hs
    rw [List.foldlM_cons]
    generalize g s a = r at ha
    cases r with
    | error t => exact ha
    | ok t => exact ih ha

theorem wfOption_map {α : Type} {g : α → State} (hg : ∀ a, Memory.wf (g a).mem) (o : Option α) : wfOption (o.map g) := by
  cases o with
  | none => rfl
  | some a => exact hg a

section
variable {s : State} (hs : Memory.wf s.mem)
include hs

@[simp] theorem wf_execHeelcfgGo (x) : wfOut (execHeelcfgGo x s) := by simp [execHeelcfgGo, hs]
@[simp] theorem wf_execPartitionStopped (x) : wfOut (execPartitionStopped x s) := by simp [execPartitionStopped, hs]
@[simp] theorem wf_sweepAt (x c) : Memory.wf (s.sweepAt x c).mem := by simp [State.sweepAt, hs]
@[simp] theorem wf_recall (c x) : Memory.wf (s.recall c x).mem := by simp [State.recall, hs]
@[simp] theorem wf_execRecallGo (x) : wfOut (execRecallGo x s) := by unfold execRecallGo; split <;> simp [hs]
@[simp] theorem wf_execRecallFloodArrival (c) : wfOut (execRecallFloodArrival c s) := by unfold execRecallFloodArrival; split <;> simp [hs]
@[simp] theorem wf_execRecallSweepEnd (c) : wfOut (execRecallSweepEnd c s) := by simp [execRecallSweepEnd, hs]

@[simp] theorem wf_reportWord (l) : wfReport (s.reportWord l) := by
  unfold State.reportWord
  split
  · exact hs
  · split
    · exact hs
    next p _ =>
      have hr := wf_engineReach hs p .store l.compl 8
      split <;> simp_all

@[simp] theorem wf_report (l) : wfReport (s.report l) := by
  have hw := wf_reportWord hs l
  unfold State.report
  split
  · simp_all
  · split <;> simp_all

@[simp] theorem wf_endLaunch (l kind status) : Memory.wf (s.endLaunch l kind status).mem := by
  have hr (l) {r} (h : s.report l = r) : wfReport r := h ▸ wf_report hs l
  unfold State.endLaunch
  dsimp only
  split
  next h => exact hr _ h
  next h => exact hr _ h

@[simp] theorem wf_endLaunches (x) : wfReport (s.endLaunches x) :=
  wf_foldlM_report (fun t l ht => by exact wf_report (by simpa using ht) _) _ hs

@[simp] theorem wf_execPurgeConfirmed : wfOut (execPurgeConfirmed s) := by
  have he := wf_endLaunches hs s.pkg.victim
  unfold execPurgeConfirmed
  dsimp only
  split
  · split
    next t ht => exact wf_waited hs (by simpa [ht] using he)
    next t ht =>
      have hm : Memory.wf t.mem := by simpa [ht] using he
      split <;> simpa using hm
  · exact hs

@[simp] theorem wf_execSwitchtWrite (x t) : wfOut (execSwitchtWrite x t s) := by simp [execSwitchtWrite, hs]
@[simp] theorem wf_execSwitchTimeReached (c) : wfOut (execSwitchTimeReached c s) := by simp [execSwitchTimeReached, hs]
@[simp] theorem wf_execSwitchDrainDone (x) : wfOut (execSwitchDrainDone x s) := by simp [execSwitchDrainDone, hs]

@[simp] theorem wf_writeImage (x c) : Memory.wf (s.writeImage x c).mem := by
  unfold State.writeImage
  exact wf_storeBytes (wf_storeMixed (wf_storeBytes (by simpa using hs) ..) ..) ..

@[simp] theorem wf_saveCore (x c) : Memory.wf (s.saveCore x c).mem := by simp [State.saveCore, hs]

@[simp] theorem wf_execSpillSweepEnd (x) : wfOut (execSpillSweepEnd x s) := by
  unfold execSpillSweepEnd
  split
  · rw [wfOut_occur, State.setHeel_mem, State.setPhase_mem]
    exact wf_foldl (fun _ _ ht => by exact wf_saveCore ht ..) (by simpa using hs)
  · exact hs

@[simp] theorem wf_restoreCore (i) : Memory.wf (s.restoreCore i).mem := by
  have hm (key l) : Memory.wf (storeMixed s key l).mem := wf_storeMixed hs ..
  -- a name for `storeMixed`, so that no check of the kernel evaluates it
  obtain ⟨f, hf⟩ : ∃ f, f = storeMixed := ⟨_, rfl⟩
  rw [← hf] at hm
  unfold State.restoreCore
  rw [← hf]
  exact hm ..

@[simp] theorem wf_applyNotices (x) : Memory.wf (s.applyNotices x).mem := by
  unfold State.applyNotices
  exact wf_foldl (fun _ _ ht => by exact wf_resolveTicket ht ..) hs

@[simp] theorem wf_resume (x) : Memory.wf (s.resume x).mem := by
  unfold State.resume
  dsimp only
  split
  · refine wf_applyNotices ?_ x
    rw [State.setPhase_mem, State.turnTimers_mem]
    exact wf_foldl (fun _ _ ht => by exact wf_restoreCore ht ..) hs
  · rw [State.kill_mem]
    exact wf_foldl (fun _ _ ht => by exact wf_logError ht ..) hs

@[simp] theorem wf_heelRel (x) : Memory.wf (s.heelRel x).mem := by unfold State.heelRel; split <;> simp [hs]
@[simp] theorem wf_execHeelcfgRel (x) : wfOut (execHeelcfgRel x s) := by unfold execHeelcfgRel; split <;> simp [hs]
@[simp] theorem wf_execResumeReinjectDone (x) : wfOut (execResumeReinjectDone x s) := by simp [execResumeReinjectDone, hs]
@[simp] theorem wf_bootRom : Memory.wf s.bootRom.mem := by unfold State.bootRom; split <;> simp [hs]
@[simp] theorem wf_execBoot : wfOut (execBoot s) := by unfold execBoot; split <;> simp [hs]
@[simp] theorem wf_execPackageReset : wfOut (execPackageReset s) := by simp [execPackageReset, hs]

@[simp] theorem wf_waita (i d b a size) : Memory.wf (s.waita i d b a size).mem := by
  have hg := wf_gate hs i (waitaAsk (s.g a) size)
  unfold State.waita
  refine wf_orReplayed hs ?_
  split
  · simp_all
  · dsimp only
    (repeat' split) <;> simp [hs]

@[simp] theorem wf_waitaAgain (c h i va size slot) : Memory.wf (s.waitaAgain c h i va size slot).mem := by fun_cases State.waitaAgain s c h i va size slot <;> simp +zetaDelta [hs]
@[simp] theorem wf_poll (c h limit) : wfOut (s.poll c h limit) := by fun_cases State.poll s c h limit <;> simp [hs]
@[simp] theorem wf_execWaitaPoll (c h) : wfOut (execWaitaPoll c h s) := by simp [execWaitaPoll, hs]
@[simp] theorem wf_execWaitaLimitExpiry (c h) : wfOut (execWaitaLimitExpiry c h s) := by simp [execWaitaLimitExpiry, hs]
@[simp] theorem wf_execGroupJoinConfirm (c h) : wfOut (execGroupJoinConfirm c h s) := by unfold execGroupJoinConfirm; split <;> simp [hs]

@[simp] theorem wf_execBarrierEpisodeComplete (g) : wfOut (execBarrierEpisodeComplete g s) := by
  unfold execBarrierEpisodeComplete
  split
  · exact hs
  · dsimp only
    split
    · exact hs
    · rw [wfOut_occur, foldl_mem (fun _ _ => by simp), foldl_mem (fun _ _ => by rfl), foldl_mem (fun _ _ => by rfl)]
      exact hs

@[simp] theorem wf_execYieldPauseEnd (c h) : wfOut (execYieldPauseEnd c h s) := by simp [execYieldPauseEnd, hs]
@[simp] theorem wf_execInterruptEntry (c h) : wfOut (execInterruptEntry c h s) := by unfold execInterruptEntry; split <;> simp [hs]
@[simp] theorem wf_execIllegalInstruction (c h) : wfOut (execIllegalInstruction c h s) := by unfold execIllegalInstruction; (repeat' split) <;> simp [hs]

@[simp] theorem wf_afterTrap {f : State → State} (hf : Memory.wf (f s).mem) : wfOut (afterTrap s f) := by
  unfold afterTrap
  split <;> simp [hs, hf]

@[simp] theorem wf_execInstructionFetchFault (c h) : wfOut (execInstructionFetchFault c h s) := by unfold execInstructionFetchFault; (repeat' split) <;> simp [hs]
@[simp] theorem wf_escalate (x d e) : Memory.wf (s.escalate x d e).mem := by unfold State.escalate; (repeat' split) <;> simp [hs]

@[simp] theorem wf_escalateAll (l d e) : Memory.wf (s.escalateAll l d e).mem := by
  unfold State.escalateAll
  split
  · exact wf_escalate hs ..
  · exact wf_foldl (fun _ _ ht => wf_escalate ht ..) hs

@[simp] theorem wf_lineError (d c h a key) : Memory.wf (s.lineError d c h a key).mem := by simp [State.lineError, hs]
@[simp] theorem wf_checkerTrap (c h) : Memory.wf (s.checkerTrap c h).mem := by simp [State.checkerTrap, hs]

@[simp] theorem wf_dropLate (c h) : wfOption (s.dropLate c h) := by
  unfold State.dropLate
  cases (s.hartAt c h).pend.find? Pend.checkedLate with
  | none => rfl
  | some p =>
    rw [Option.map_some, wfOption_some, foldl_mem (fun _ _ => by rfl)]
    exact hs

@[simp] theorem wf_classB (d c h a) : Memory.wf (s.classB d c h a).mem := by simp [State.classB, hs]

@[simp] theorem wf_checksumFails (a load) : wfOption (s.checksumFails a load) := by
  unfold State.checksumFails
  dsimp only
  split
  · refine wfOption_map (fun k => ?_) _
    simp [hs]
  · (repeat' split) <;> simp [hs]

@[simp] theorem wf_execUncorrectableError (d c h a k) : wfOut (execUncorrectableError d c h a k s) := by
  have hsome (o : Option State) (ho : wfOption o) : wfOut ((o.map State.occur).getD s.idle) := by
    cases o with
    | none => exact hs
    | some t => exact ho
  unfold execUncorrectableError
  dsimp only
  split
  · split
    · exact hsome _ (wf_checksumFails hs ..)
    · refine hsome _ (wfOption_map (fun key => ?_) _)
      exact wf_lineError hs ..
  · split
    · exact hs
    · split
      · simp [hs]
      · split
        · refine hsome _ ?_
          have hd := wf_dropLate hs c h
          cases ho : s.dropLate c h <;> simp_all
        · exact hs
  · split
    · exact hs
    · simp [hs]
  · split
    · split <;> simp [hs]
    · exact hs

@[simp] theorem wf_checksumRetried (a) : wfOption (s.checksumRetried a) := by
  unfold State.checksumRetried
  refine wfOption_map (fun k => ?_) _
  simp [hs]

@[simp] theorem wf_execCorrectedError (d k c a) : wfOut (execCorrectedError d k c a s) := by
  have hc := wf_checksumRetried hs (arrayOf c)
  unfold execCorrectedError
  split
  · cases ho : s.checksumRetried (arrayOf c) <;> simp_all
  · split
    · dsimp only
      refine wf_logError ?_ ..
      (repeat' split) <;> exact hs
    · exact hs

@[simp] theorem wf_losesSlices (c) : Memory.wf (s.losesSlices c).mem := wf_loseTickets (by simpa using hs) _

@[simp] theorem wf_execKennelRestart (c) : wfOut (execKennelRestart c s) := by
  unfold execKennelRestart
  split
  · refine wf_losesSlices ?_ c
    rw [foldl_mem (fun _ _ => by rfl)]
    exact hs
  · exact hs

@[simp] theorem wf_dropShadow (x) : Memory.wf (s.dropShadow x).mem := by unfold State.dropShadow; extract_lets; (repeat' split) <;> simp +zetaDelta [hs]

@[simp] theorem wf_dropShadows (x) : Memory.wf (s.dropShadows x).mem := by
  unfold State.dropShadows
  exact wf_foldl (fun _ _ ht => by exact wf_dropShadow ht ..) hs

@[simp] theorem wf_execLaunchReplay (x) : wfOut (execLaunchReplay x s) := by
  have hh (l : List CoreId) : Memory.wf (l.foldl State.heelCore s).mem := by
    rw [foldl_mem (fun _ _ => by simp)]
    exact hs
  have hw (l k : List CoreId) : Memory.wf (l.foldl (fun s c => s.sweepAt x c) (k.foldl State.heelCore s)).mem :=
    wf_foldl (fun _ _ ht => by exact wf_sweepAt ht ..) (hh k)
  unfold execLaunchReplay
  split
  · exact hs
  next l _ =>
    dsimp only
    rw [wfOut_occur]
    refine wf_logError ?_ ..
    rw [State.unbind_mem, State.setPhase_mem, State.setHeel_mem]
    exact wf_dropShadows (hw _ _) x

@[simp] theorem wf_execFrameQuarantineScrub (f o) : wfOut (execFrameQuarantineScrub f o s) := by
  have hz := wf_zeroRange hs (4096 * f.toNat) 4096
  unfold execFrameQuarantineScrub
  split
  · generalize s.zeroRange (4096 * f.toNat) 4096 = t at hz
    cases o with
    | true => exact hz
    | false =>
      rw [wfOut_occur, if_neg Bool.false_ne_true]
      exact wf_logError (by exact hz) ..
  · exact hs

@[simp] theorem wf_execCoreRetirement (c) : wfOut (execCoreRetirement c s) := by
  unfold execCoreRetirement
  extract_lets x still d t
  (repeat' split) <;> simp +zetaDelta [hs]

@[simp] theorem wf_execPowerArbiterRecompute (x q) : wfOut (execPowerArbiterRecompute x q s) := by unfold execPowerArbiterRecompute; split <;> simp [hs]
@[simp] theorem wf_execColdPlateLimit (x) : wfOut (execColdPlateLimit x s) := by simp [execColdPlateLimit, hs]
@[simp] theorem wf_csrWriteHart (n w) : wfExcept (csrWriteHart s n w) := by fun_cases csrWriteHart s n w <;> simp [hs]
@[simp] theorem wf_csrWriteArith (n w) : wfExcept (csrWriteArith s n w) := by fun_cases csrWriteArith s n w <;> simp +zetaDelta [hs]
@[simp] theorem wf_csrWriteMem (n w) : wfExcept (csrWriteMem s n w) := by fun_cases csrWriteMem s n w <;> simp +zetaDelta [hs]
@[simp] theorem wf_csrWriteTime (n w) : wfExcept (csrWriteTime s n w) := by fun_cases csrWriteTime s n w <;> simp +zetaDelta [hs]
@[simp] theorem wf_csrWriteWatch (n w) : wfExcept (csrWriteWatch s n w) := by fun_cases csrWriteWatch s n w <;> simp [hs]
@[simp] theorem wf_putRecall (x go) : Memory.wf (s.putRecall x go).mem := by simp [State.putRecall, hs]
@[simp] theorem wf_csrWriteSys (n w) : wfExcept (csrWriteSys s n w) := by fun_cases csrWriteSys s n w <;> simp +zetaDelta [hs]
@[simp] theorem wf_csrWrite (n w) : wfExcept (s.csrWrite n w) := by unfold State.csrWrite; (repeat' split) <;> simp [hs]

@[simp] theorem wf_csr (i f n m d) : Memory.wf (s.csr i f n m d).mem := by
  unfold State.csr
  dsimp only
  split
  · simp [hs]
  · split
    · simp [hs]
    · split
      · simp [hs]
      next w _ =>
        have hw := wf_csrWrite hs n w
        split
        · simp [hs]
        · split <;> simp_all

@[simp] theorem wf_execLtbaseWrite (c x) : wfOut (execLtbaseWrite c x s) := by simp [execLtbaseWrite, hs]
@[simp] theorem wf_execElogbaseWrite (d x) : wfOut (execElogbaseWrite d x s) := by simp [execElogbaseWrite, hs]
@[simp] theorem wf_completeOp (c h moment) : wfOut (s.completeOp c h moment) := by fun_cases State.completeOp s c h moment <;> simp [hs]
@[simp] theorem wf_execDivideResult (c h n) : wfOut (execDivideResult c h n s) := by unfold execDivideResult; split <;> simp [hs]
@[simp] theorem wf_execFdivFsqrtResult (c h n) : wfOut (execFdivFsqrtResult c h n s) := by unfold execFdivFsqrtResult; (repeat' split) <;> simp [hs]
@[simp] theorem wf_execLocalLoadComplete (c h n) : wfOut (execLocalLoadComplete c h n s) := by unfold execLocalLoadComplete; (repeat' split) <;> simp [hs]
@[simp] theorem wf_execWfiWake (c h) : wfOut (execWfiWake c h s) := by simp [execWfiWake, hs]
@[simp] theorem wf_hostStore (a n x) : Memory.wf (s.hostStore a n x).mem := by fun_cases State.hostStore s a n x <;> simp [hs]
@[simp] theorem wf_execHostCxlMemRequest (o a z x) : wfOut (execHostCxlMemRequest o a z x s) := by unfold execHostCxlMemRequest; (repeat' split) <;> simp [hs]
@[simp] theorem wf_execQueueDoorbell (q _x) : wfOut (execQueueDoorbell q _x s) := by simp [execQueueDoorbell, hs]
@[simp] theorem wf_execCoreDoorbell (c x) : wfOut (execCoreDoorbell c x s) := hs
@[simp] theorem wf_execQreg (x) : wfOut (execQreg x s) := by simp [execQreg, hs]
@[simp] theorem wf_execDeviceRegisterWrite (c h a z x) : wfOut (execDeviceRegisterWrite c h a z x s) := by fun_cases execDeviceRegisterWrite c h a z x s <;> simp [hs]
@[simp] theorem wf_taken (x) : Memory.wf (s.taken x).mem := by unfold State.taken; split <;> simp [hs]

@[simp] theorem wf_recordRead (p va n) : (recordRead s p va n).wf := by
  unfold recordRead
  (repeat' split) <;> simp [hs]

@[simp] theorem wf_complOk (p va) : (complOk s p va).wf := by
  have hw := wf_engineCanWrite hs p 3 va.toNat 8
  unfold complOk
  split
  · exact hs
  · split
    · exact hs
    · split
      next t ht =>
        rw [ht, EngWrite.wf_ok] at hw
        have hr := wf_recordRead hw p va 8
        (repeat' split) <;> simp_all
      · exact hw

@[simp] theorem wf_readAll (p l) : wfRanges (readAll p l s) := by
  induction l generalizing s with
  | nil => exact hs
  | cons x l ih =>
    have hr := wf_recordRead hs p x.1 x.2
    unfold readAll
    (repeat' split) <;> simp_all

@[simp] theorem wf_checkRecord (p va) : (s.checkRecord p va).wf := by
  have hr := wf_recordRead hs p va 64
  unfold State.checkRecord
  dsimp only
  split
  · simp_all
  · simp_all
  next t l ht =>
    rw [ht, EngRead.wf_bytes] at hr
    have hc := wf_complOk hr p (BitVec.ofNat 64 (field (mixedNat l) 128 64))
    split
    · exact hr
    · split
      · simp_all
      · simp_all
      next u hu =>
        rw [hu, EngWrite.wf_ok] at hc
        have hb {va n r} (h : recordRead u p va n = r) : r.wf := h ▸ wf_recordRead hc ..
        split
        · exact hc
        · split
          next h => exact hb h
          next h => exact hb h
          next v k hv =>
            have ha {l r} (h : readAll p l v = r) : wfRanges r := h ▸ wf_readAll (hb hv) ..
            split
            · exact hb hv
            · split
              next h => exact ha h
              next h => exact ha h
              next h => exact ha h

@[simp] theorem wf_admitLaunch (x o c status r) : Memory.wf (s.admitLaunch x o c status r).mem := by unfold State.admitLaunch; split <;> simp [hs]

@[simp] theorem wf_execLaunchCheck (q) : wfOut (execLaunchCheck q s) := by
  unfold execLaunchCheck
  split
  · exact hs
  · split
    · exact hs
    next o _ =>
      split
      · exact hs
      next c _ _ =>
        have hc := wf_checkRecord hs (frontParty c o.ctx o.agid) (o.desc &&& 0xFFFFFFFFFFC0#64)
        (repeat' split) <;> simp_all

@[simp] theorem wf_bindCore (l n i x image c) : Memory.wf (s.bindCore l n i x image c).mem := by
  unfold State.bindCore
  rw [foldl_mem (fun _ _ => by rfl)]
  exact wf_storeBytes hs ..

@[simp] theorem wf_bindStages (l images) : Memory.wf (s.bindStages l images).mem := wf_foldl (fun _ _ ht => wf_foldl (fun _ _ hu => wf_bindCore hu ..) ht) hs

@[simp] theorem wf_readImages (p l) : wfImages (readImages p l s) := by
  induction l generalizing s with
  | nil => exact hs
  | cons x l ih =>
    have hr := wf_recordRead hs p x.image x.len
    unfold readImages
    split
    next t ht => simp_all
    next => rfl
    next t y ht =>
      have hi := ih (s := t) (by simp_all)
      (repeat' split) <;> simp_all

@[simp] theorem wf_execLaunchBind (n) : wfOut (execLaunchBind n s) := by
  unfold execLaunchBind
  split
  · exact hs
  next l _ =>
    have hi {p r} (h : readImages p l.stages s = r) : wfImages r := h ▸ wf_readImages hs p l.stages
    split
    · exact hs
    · split
      · exact hs
      · split
        next h => exact wf_waited hs (hi h)
        · simp [hs]
        next t images h =>
          have ht : Memory.wf t.mem := hi h
          rw [wfOut_occur, State.mapQueues_mem]
          exact wf_bindStages (by exact ht) ..

@[simp] theorem wf_commitShadows (x) : Memory.wf (s.commitShadows x).mem := by
  unfold State.commitShadows
  dsimp only
  split
  · exact hs
  · exact wf_foldl (fun _ _ ht => by exact wf_uncharge ht ..) hs

@[simp] theorem wf_execLaunchComplete (n) : wfOut (execLaunchComplete n s) := by
  unfold execLaunchComplete
  split
  · exact hs
  next l _ =>
    have hr := wf_report hs l
    split
    · exact wf_endLaunch (by rw [State.unbind_mem]; exact wf_commitShadows hs _) ..
    · (repeat' split) <;> simp_all

@[simp] theorem wf_failFlight (f action wave) : Memory.wf (s.failFlight f action wave).mem := by fun_cases State.failFlight s f action wave <;> simp +zetaDelta [hs]
@[simp] theorem wf_execMalformedPacket (n) : wfOut (execMalformedPacket n s) := by unfold execMalformedPacket; split <;> simp [hs]
@[simp] theorem wf_execReassemblyTimeout (n) : wfOut (execReassemblyTimeout n s) := by fun_cases execReassemblyTimeout n s <;> simp [hs]
@[simp] theorem wf_execResendTimeout (n) : wfOut (execResendTimeout n s) := by unfold execResendTimeout; split <;> simp [hs]
@[simp] theorem wf_execResendLimit (n) : wfOut (execResendLimit n s) := by unfold execResendLimit; split <;> simp [hs]
@[simp] theorem wf_execLinkFrame (n k) : wfOut (execLinkFrame n k s) := by unfold execLinkFrame; split <;> simp [hs]
@[simp] theorem wf_execLinkRetrain (n) : wfOut (execLinkRetrain n s) := by simp [execLinkRetrain, hs]
@[simp] theorem wf_execLinkRetrainComplete (n) : wfOut (execLinkRetrainComplete n s) := by simp [execLinkRetrainComplete, hs]
@[simp] theorem wf_execRpstatTrain (p) : wfOut (execRpstatTrain p s) := by simp [execRpstatTrain, hs]
@[simp] theorem wf_execRpstatIsolate (p) : wfOut (execRpstatIsolate p s) := hs
@[simp] theorem wf_execReachTrainingComplete (p i) : wfOut (execReachTrainingComplete p i s) := by simp [execReachTrainingComplete, hs]
@[simp] theorem wf_execReachLinkDown (p) : wfOut (execReachLinkDown p s) := by simp [execReachLinkDown, hs]
@[simp] theorem wf_execReachLinkDownTimeout (p) : wfOut (execReachLinkDownTimeout p s) := by unfold execReachLinkDownTimeout; split <;> simp [hs]
@[simp] theorem wf_execReachPeerReset (p) : wfOut (execReachPeerReset p s) := by simp [execReachPeerReset, hs]
@[simp] theorem wf_loadG (i o r a d size sx) : Memory.wf (s.loadG i o r a d size sx).mem := by simp [State.loadG, hs]
@[simp] theorem wf_storeG (i o r a d size) : Memory.wf (s.storeG i o r a d size).mem := by simp [State.storeG, hs]
@[simp] theorem wf_vload (i d f bc els) : Memory.wf (s.vload i d f bc els).mem := wf_preciseOr hs i (wf_access hs ..)

@[simp] theorem wf_vstore (i f flags els) : Memory.wf (s.vstore i f flags els).mem := by
  have hg (q) : wfOption (s.gate i q) := wf_gate hs i q
  unfold State.vstore
  dsimp only
  split
  · exact wf_getD (wf_ownStops hs) (wf_getD (hg _) (by simpa using hs))
  · (repeat' split) <;> simp [hs]

@[simp] theorem wf_amo (i fn r size b a d) : Memory.wf (s.amo i fn r size b a d).mem := wf_preciseOr hs i (wf_access hs ..)
@[simp] theorem wf_amoV (i fn r b a d) : Memory.wf (s.amoV i fn r b a d).mem := wf_preciseOr hs i (wf_access hs ..)
@[simp] theorem wf_storeFlag (i size data a b) : Memory.wf (s.storeFlag i size data a b).mem := by simp [State.storeFlag, hs]
@[simp] theorem wf_orderedLoad (i o a r size) : Memory.wf (s.orderedLoad i o a r size).mem := by simp [State.orderedLoad, hs]
@[simp] theorem wf_orderedStore (i o a data size) : Memory.wf (s.orderedStore i o a data size).mem := by unfold State.orderedStore; split <;> simp [hs]
@[simp] theorem wf_execMomentAccept (c) : wfOut (execMomentAccept c s) := by unfold execMomentAccept; split <;> simp [hs]
@[simp] theorem wf_execMomentComplete (c h) : wfOut (execMomentComplete c h s) := by simp [execMomentComplete, hs]
@[simp] theorem wf_execVectorAccept (c) : wfOut (execVectorAccept c s) := by unfold execVectorAccept; split <;> simp [hs]
@[simp] theorem wf_execVectorComplete (c h) : wfOut (execVectorComplete c h s) := by simp [execVectorComplete, hs]
end

end Sys2Proof.Machine
end

section
/-!
PROOF. Every step keeps memory in its canonical form (R202): the meanings, the work of the package, and the turn.
-/

namespace Sys2Proof.Machine

section
variable {s : State} (hs : Memory.wf s.mem)
include hs

/-! Meanings whose branches stand under a match -/

theorem wf_execAtsCompletion (n k o a r w z) : wfOut (execAtsCompletion n k o a r w z s) := by
  unfold execAtsCompletion
  (repeat' split) <;> simp [hs]

theorem wf_execGbar (a w l) : wfOut (execGbar a w l s) := by
  refine wf_issue hs _ (wf_preciseOr hs _ ?_)
  (repeat' split) <;> simp [hs]

theorem wf_execXcopys (i b a w l) : wfOut (execXcopys i b a w l s) := by
  refine wf_issue hs _ (wf_orFull hs ?_)
  split <;> simp [hs]

theorem wf_execXgath (c b a d w l) : wfOut (execXgath c b a d w l s) := by
  refine wf_issue hs _ (wf_orFull hs ?_)
  (repeat' split) <;> simp [hs]

theorem wf_execXscat (c b a d w l) : wfOut (execXscat c b a d w l s) := by
  refine wf_issue hs _ (wf_orFull hs ?_)
  split
  · simp [hs]
  · split
    · simp [hs]
    · dsimp only
      split
      · simp [hs]
      · exact wf_withTable hs _ _ fun t ht => by simp [ht]

theorem wf_execLeash (a d w l) : wfOut (execLeash a d w l s) := by
  refine wf_issue hs _ ?_
  split <;> simp [hs]

theorem wf_execLeashn (a d w l) : wfOut (execLeashn a d w l s) := by
  refine wf_issue hs _ ?_
  (repeat' split) <;> simp [hs]

theorem wf_execWstart (a w l) : wfOut (execWstart a w l s) := by
  refine wf_issue hs _ (wf_preciseOr hs _ ?_)
  (repeat' split) <;> simp [hs]

end

/-- Every meaning keeps memory in its canonical form. -/
theorem wf_exec {s : State} (hs : Memory.wf s.mem) (i : Instr) : wfOut (exec i s) := by
  cases i with
  | gbar a w l => exact wf_execGbar hs a w l
  | xcopys sf b a w l => exact wf_execXcopys hs sf b a w l
  | xgath c b a d w l => exact wf_execXgath hs c b a d w l
  | xscat c b a d w l => exact wf_execXscat hs c b a d w l
  | leash a d w l => exact wf_execLeash hs a d w l
  | leashn a d w l => exact wf_execLeashn hs a d w l
  | wstart a w l => exact wf_execWstart hs a w l
  | packageReset => exact wf_execPackageReset hs
  | timeTreeReference t c k => exact wf_execTimeTreeReference hs t c k
  | interruptEntry c h => exact wf_execInterruptEntry hs c h
  | vectorAccept c => exact wf_execVectorAccept hs c
  | vectorComplete c h => exact wf_execVectorComplete hs c h
  | momentAccept c => exact wf_execMomentAccept hs c
  | momentComplete c h => exact wf_execMomentComplete hs c h
  | divideResult c h n => exact wf_execDivideResult hs c h n
  | fdivFsqrtResult c h n => exact wf_execFdivFsqrtResult hs c h n
  | localLoadComplete c h n => exact wf_execLocalLoadComplete hs c h n
  | wfiWake c h => exact wf_execWfiWake hs c h
  | yieldPauseEnd c h => exact wf_execYieldPauseEnd hs c h
  | waitaPoll c h => exact wf_execWaitaPoll hs c h
  | waitaLimitExpiry c h => exact wf_execWaitaLimitExpiry hs c h
  | twaitExpiry c h => exact wf_execTwaitExpiry hs c h
  | groupJoinConfirm c h => exact wf_execGroupJoinConfirm hs c h
  | barrierEpisodeComplete g => exact wf_execBarrierEpisodeComplete hs g
  | leaseGrant a => exact wf_execLeaseGrant hs a
  | leaseExpiry a => exact wf_execLeaseExpiry hs a
  | hartStartCommand n => exact wf_execHartStartCommand hs n
  | hartStopCommand n => exact wf_execHartStopCommand hs n
  | arrayLoadBTile a => exact wf_execArrayLoadBTile hs a
  | runAccept a => exact wf_execRunAccept hs a
  | arrayRowCompute a => exact wf_execArrayRowCompute hs a
  | mxzeroAccept a => exact wf_execMxzeroAccept hs a
  | partialSums n => exact wf_execPartialSums hs n
  | runComplete a => exact wf_execRunComplete hs a
  | loadRequest n k => exact wf_execLoadRequest hs n k
  | storeRequest n k => exact wf_execStoreRequest hs n k
  | atomicRequest n k => exact wf_execAtomicRequest hs n k
  | dataResponse n k => exact wf_execDataResponse hs n k
  | acknowledgement n k => exact wf_execAcknowledgement hs n k
  | negativeAcknowledgement n k => exact wf_execNegativeAcknowledgement hs n k
  | ticket n k => exact wf_execTicket hs n k
  | ticketRewind c h => exact wf_execTicketRewind hs c h
  | replayNotice sf k => exact wf_execReplayNotice hs sf k
  | ticketFault sf k => exact wf_execTicketFault hs sf k
  | ticketTimeout c h => exact wf_execTicketTimeout hs c h
  | taggedMessage n => exact wf_execTaggedMessage hs n
  | inboxResend n => exact wf_execInboxResend hs n
  | nextDelivery c => exact wf_execNextDelivery hs c
  | horizonPublish x => exact wf_execHorizonPublish hs x
  | reactionAbort c n => exact wf_execReactionAbort hs c n
  | reactionAbortRestart c h => exact wf_execReactionAbortRestart hs c h
  | channelMessage n => exact wf_execChannelMessage hs n
  | channelHeldResend n => exact wf_execChannelHeldResend hs n
  | deqTake c q => exact wf_execDeqTake hs c q
  | streamerCommand n => exact wf_execStreamerCommand hs n
  | bulkPiece n k => exact wf_execBulkPiece hs n k
  | binBump n => exact wf_execBinBump hs n
  | streamerCommandComplete n => exact wf_execStreamerCommandComplete hs n
  | batchFinish c h => exact wf_execBatchFinish hs c h
  | stfFlagIncrement n => exact wf_execStfFlagIncrement hs n
  | eventRecord n => exact wf_execEventRecord hs n
  | collectiveWave n => exact wf_execCollectiveWave hs n
  | generationComplete c sf => exact wf_execGenerationComplete hs c sf
  | malformedPacket n => exact wf_execMalformedPacket hs n
  | reassemblyTimeout n => exact wf_execReassemblyTimeout hs n
  | resendTimeout n => exact wf_execResendTimeout hs n
  | resendLimit n => exact wf_execResendLimit hs n
  | linkFrame n k => exact wf_execLinkFrame hs n k
  | linkRetrain n => exact wf_execLinkRetrain hs n
  | linkRetrainComplete n => exact wf_execLinkRetrainComplete hs n
  | rpstatTrain p => exact wf_execRpstatTrain hs p
  | rpstatIsolate p => exact wf_execRpstatIsolate hs p
  | reachTrainingComplete p im => exact wf_execReachTrainingComplete hs p im
  | reachLinkDownTimeout p => exact wf_execReachLinkDownTimeout hs p
  | reachPeerReset p => exact wf_execReachPeerReset hs p
  | sliceWalk n k => exact wf_execSliceWalk hs n k
  | atsCompletion n k o a r w z => exact wf_execAtsCompletion hs n k o a r w z
  | priPageGroupResponse sf k o => exact wf_execPriPageGroupResponse hs sf k o
  | atsInvalidationRequest p v z => exact wf_execAtsInvalidationRequest hs p v z
  | invalidationCompletion p v z => exact wf_execInvalidationCompletion hs p v z
  | tlbinv c h x => exact wf_execTlbinv hs c h x
  | tlbinvDrainComplete c h => exact wf_execTlbinvDrainComplete hs c h
  | memoryServiceTicket sf k f => exact wf_execMemoryServiceTicket hs sf k f
  | stackRetirement k => exact wf_execStackRetirement hs k
  | migrationBlockMove => exact wf_execMigrationBlockMove hs
  | migrationBounce => exact wf_execMigrationBounce hs
  | memcapWrite x => exact wf_execMemcapWrite hs x
  | hostCxlMemRequest o a z x => exact wf_execHostCxlMemRequest hs o a z x
  | queueDoorbell q x => exact wf_execQueueDoorbell hs q x
  | coreDoorbell c x => exact wf_execCoreDoorbell hs c x
  | qreg x => exact wf_execQreg hs x
  | deviceRegisterWrite c h a z x => exact wf_execDeviceRegisterWrite hs c h a z x
  | ltbaseWrite c x => exact wf_execLtbaseWrite hs c x
  | elogbaseWrite d x => exact wf_execElogbaseWrite hs d x
  | uncorrectableError d c h a k => exact wf_execUncorrectableError hs d c h a k
  | correctedError d k c a => exact wf_execCorrectedError hs d k c a
  | kennelRestart c => exact wf_execKennelRestart hs c
  | launchReplay x => exact wf_execLaunchReplay hs x
  | frameQuarantineScrub f o => exact wf_execFrameQuarantineScrub hs f o
  | coreRetirement c => exact wf_execCoreRetirement hs c
  | heelcfgGo x => exact wf_execHeelcfgGo hs x
  | heelcfgRel x => exact wf_execHeelcfgRel hs x
  | partitionStopped x => exact wf_execPartitionStopped hs x
  | recallGo x => exact wf_execRecallGo hs x
  | recallFloodArrival c => exact wf_execRecallFloodArrival hs c
  | recallSweepEnd c => exact wf_execRecallSweepEnd hs c
  | purgeConfirmed => exact wf_execPurgeConfirmed hs
  | switchtWrite x t => exact wf_execSwitchtWrite hs x t
  | switchTimeReached c => exact wf_execSwitchTimeReached hs c
  | switchDrainDone x => exact wf_execSwitchDrainDone hs x
  | spillSweepEnd x => exact wf_execSpillSweepEnd hs x
  | resumeReinjectDone x => exact wf_execResumeReinjectDone hs x
  | powerArbiterRecompute x q => exact wf_execPowerArbiterRecompute hs x q
  | coldPlateLimit x => exact wf_execColdPlateLimit hs x
  | launchCheck q => exact wf_execLaunchCheck hs q
  | launchBind n => exact wf_execLaunchBind hs n
  | launchComplete n => exact wf_execLaunchComplete hs n
  | illegalInstruction c h => exact wf_execIllegalInstruction hs c h
  | instructionFetchFault c h => exact wf_execInstructionFetchFault hs c h
  | reachLinkDown p => exact wf_execReachLinkDown hs p
  | _ => exact wf_issue hs _ (by simp [hs])

/-! Candidate steps -/

theorem wf_joinPair {x y : State} (hx : Memory.wf x.mem) (hy : Memory.wf y.mem) (ws) (s z : State) : Memory.wf (joinPair ws s x y z).mem := by
  unfold joinPair
  (repeat' split) <;> simp [hx, hy]

/-- Candidate steps that keep memory in its canonical form, whatever the state. -/
def KeepCanonical (l : List (State → Out)) : Prop := ∀ e ∈ l, ∀ t, Memory.wf t.mem → wfOut (e t)

theorem wf_of_tryWork {s : State} {l : List (State → Out)} {o : Out} (hs : Memory.wf s.mem) (hl : KeepCanonical l) (h : tryWork s l = some o) :
    wfOut o := by
  fun_induction tryWork s l with
  | case1 => cases h
  | case2 e t s' he hd =>
    cases h
    exact he ▸ hl e List.mem_cons_self s hs
  | case3 e t s' he hd ih => exact ih (fun e he => hl e (List.mem_cons_of_mem _ he)) h
  | case4 e t he ih => exact ih (fun e he => hl e (List.mem_cons_of_mem _ he)) h

theorem KeepCanonical.nil : KeepCanonical [] := fun e he => by cases he

theorem KeepCanonical.cons {e : State → Out} {l : List (State → Out)} (he : ∀ t, Memory.wf t.mem → wfOut (e t)) (hl : KeepCanonical l) :
    KeepCanonical (e :: l) := List.forall_mem_cons.2 ⟨he, hl⟩

theorem KeepCanonical.append {l m : List (State → Out)} (hl : KeepCanonical l) (hm : KeepCanonical m) : KeepCanonical (l ++ m) :=
  List.forall_mem_append.2 ⟨hl, hm⟩

theorem KeepCanonical.flatMap {α : Type} {l : List α} {f : α → List (State → Out)} (hf : ∀ a, KeepCanonical (f a)) : KeepCanonical (l.flatMap f) :=
  fun e he => by
    obtain ⟨a, _, ha⟩ := List.mem_flatMap.1 he
    exact hf a e ha

theorem KeepCanonical.map {α : Type} {l : List α} {f : α → State → Out} (hf : ∀ a t, Memory.wf t.mem → wfOut (f a t)) : KeepCanonical (l.map f) :=
  fun e he => by
    obtain ⟨a, _, rfl⟩ := List.mem_map.1 he
    exact hf a

theorem keepCanonical_hartWork (s : State) (c : CoreId) (h : HartId) : KeepCanonical (hartWork s c h) := by
  refine .append (.append ?accepted (.flatMap fun p => ?late)) ?waiting
  all_goals simp +contextual [KeepCanonical]

theorem keepCanonical_coreWork (s : State) (c : CoreId) : KeepCanonical (coreWork s c) := by
  unfold coreWork
  refine .append (.append (.append (.append (.append ?accepts (.flatMap fun h => keepCanonical_hartWork s c h)) ?takes) ?aborts) ?delivers) ?generations
  case accepts => simp +contextual [KeepCanonical]
  case takes => exact .map fun q t ht => wf_execDeqTake ht ..
  case aborts => split <;> simp +contextual [KeepCanonical]
  case delivers => simp +contextual [KeepCanonical]
  case generations => exact .map fun i t ht => wf_execGenerationComplete ht ..

theorem keepCanonical_accWork (a : Access) : KeepCanonical (accWork a) := .flatMap fun p => by simp +contextual [KeepCanonical]

theorem keepCanonical_flightWork (f : Flight) : KeepCanonical (flightWork f) := by
  unfold flightWork
  simp +contextual [KeepCanonical]

theorem keepCanonical_netWork (s : State) : KeepCanonical (netWork s) := by
  refine .append (.append (.append (.append (.append (.append (.append (.append (.flatMap keepCanonical_accWork) (.flatMap fun m => ?harts))
    (.flatMap fun m => ?posts)) (.flatMap fun m => ?channels)) (.map fun e t ht => wf_execEventRecord ht _))
    (.map fun m t ht => wf_execPartialSums ht _)) (.flatMap fun c => ?commands)) (.map fun w t ht => wf_execCollectiveWave ht _))
    (.flatMap keepCanonical_flightWork)
  all_goals simp +contextual [KeepCanonical]

theorem keepCanonical_arrayWork (a : BitVec 7) : KeepCanonical (arrayWork a) := by
  unfold arrayWork
  simp +contextual [KeepCanonical]

theorem wf_horizonWork {s : State} (hs : Memory.wf s.mem) (x : BitVec 16) : wfOut (horizonWork x s) := by
  have hh := wf_execHorizonPublish hs x
  unfold horizonWork
  split
  · split <;> simp_all
  · exact hh

theorem keepCanonical_contextWork (x : BitVec 16) : KeepCanonical (contextWork x) := by
  unfold contextWork
  simp +contextual [KeepCanonical, wf_horizonWork]

theorem keepCanonical_packageWork (s : State) : KeepCanonical (packageWork s) := by
  refine .append (.append (.append (.append (.append (.append (.flatMap fun t => ?tickets) ?drains) (.map fun c t ht => wf_execRecallFloodArrival ht c))
    (.map fun c t ht => wf_execRecallSweepEnd ht c)) ?purge) (.map fun q t ht => wf_execLaunchCheck ht _)) (.flatMap fun l => ?launches)
  case drains =>
    intro e he
    obtain ⟨d, _, hd⟩ := List.mem_filterMap.1 he
    split at hd <;> cases hd
    exact fun t ht => wf_execInvalidationCompletion ht ..
  all_goals simp +contextual [KeepCanonical]

theorem keepCanonical_stackWork (c : Capacity) : KeepCanonical (stackWork c) := by
  refine .append ?_ ?_ <;> split <;> simp +contextual [KeepCanonical]

theorem keepCanonical_workList (s : State) : KeepCanonical (workList s) := by
  refine .append (.append (.append (.append (.append (.append ?boot (.flatMap fun k => keepCanonical_coreWork s k.1)) (keepCanonical_netWork s))
    (.flatMap fun a => keepCanonical_arrayWork a.1)) (.map fun g t ht => wf_execBarrierEpisodeComplete ht g.id)) (keepCanonical_packageWork s))
    (.flatMap keepCanonical_contextWork)
  simp +contextual [KeepCanonical]

/-! From the meanings to the step -/

section
variable {s : State} (hs : Memory.wf s.mem)
include hs

theorem wf_issuePair (c h ic ia) : wfOut (issuePair s c h ic ia) := by
  have hx := wf_exec (s := s.issuing c h .cHalf) hs ic
  have hy := wf_exec (s := s.issuingA c h ic) hs ia
  have hz := wf_exec (s := (s.issuingA c h ic).clearFlags) hs ia
  unfold issuePair
  dsimp only
  (repeat' split) <;> simp_all [wf_joinPair]

theorem wf_watchFetch (c h n) {o : Out} (ho : wfOut o) : wfOut (watchFetch s c h n o) := by
  unfold watchFetch
  split
  next r =>
    dsimp only
    (repeat' split) <;> simp_all
  · exact ho

theorem wf_issueHart (c h) : wfOut (issueHart s c h) := by
  have ht : Memory.wf (s.fetched c h).mem := by simpa using hs
  unfold issueHart
  dsimp only
  split
  · exact wf_execInterruptEntry hs ..
  · split
    next i _ => exact wf_watchFetch ht _ _ _ (wf_exec (s := (s.fetched c h).issuing c h .lone) ht i)
    · exact wf_watchFetch ht _ _ _ (wf_issuePair ht ..)
    · exact wf_execIllegalInstruction ht ..
    · exact wf_execIllegalInstruction ht ..
    · simp [waitsForFetch, hs]
    · simp [waitsForFetch, hs]
    · simp [waitsForFetch, hs]
    · exact wf_execInstructionFetchFault ht ..

theorem wf_readyHarts (c) : Memory.wf (readyHarts s c).1.mem := by
  unfold readyHarts
  generalize hartIds = l
  refine List.foldlRecOn (motive := fun (a : State × List HartId) => Memory.wf a.1.mem) l _ hs fun a ha h _ => ?_
  have hi := wf_issueHart ha c h
  (repeat' split) <;> simp_all

theorem wf_readyOrPaused (c) : Memory.wf (readyOrPaused s c).1.mem := by
  have hr := wf_readyHarts hs c
  unfold readyOrPaused
  dsimp only
  split
  · exact wf_readyHarts (by simpa using hr) c
  · exact hr

theorem wf_countCycle (c ready w) : Memory.wf (countCycle c ready w s).mem := by simpa [countCycle] using hs

theorem wf_coreCycle (c) : wfOut (coreCycle s c).1 := by
  have hr := wf_readyOrPaused hs c
  unfold coreCycle
  generalize readyOrPaused s c = b at hr
  dsimp only
  split
  · exact wf_countCycle hr c [] none
  next h _ =>
    have hi := wf_issueHart hr c h
    split
    next t ht =>
      rw [ht] at hi
      rw [wfOut_next, State.onCore_mem]
      exact wf_countCycle hi ..
    · exact hi

theorem wf_timePasses (n) : wfOut (timePasses s n) := wf_execTimeTreeReference hs ..

theorem wf_packageTurn (n) : wfOut (packageTurn n s) := by
  unfold packageTurn
  split
  next r hr => exact wf_of_tryWork hs (keepCanonical_workList s) hr
  · split
    next t ht => exact wf_timePasses (wf_of_tryWork hs (keepCanonical_stackWork s.cap) ht) n
    · exact wf_timePasses hs n

theorem wf_homeTurn {idle : State → Out} (hi : ∀ t, Memory.wf t.mem → wfOut (idle t)) : wfOut (homeTurn s idle) := by
  have hc := wf_coreCycle hs s.home
  unfold homeTurn
  dsimp only
  split
  next t ht =>
    rw [ht] at hc
    split
    · exact hc
    · exact hi t hc
  · exact hc

theorem wf_defaultTurn : wfOut (defaultTurn s) := by
  unfold defaultTurn
  dsimp only
  split
  · exact wf_packageTurn (by exact hs) _
  · exact wf_homeTurn (by exact hs) fun t ht => wf_packageTurn (by exact ht) _

theorem wf_turnOf : wfOut (turnOf s) := by
  unfold turnOf
  split
  next c t _ =>
    split
    · exact hs
    · exact wf_coreCycle (s := { s with agenda := t }) hs c
  next e t _ =>
    split
    · exact hs
    · exact wf_exec (s := { s with agenda := t }) hs e
  · split
    · exact wf_timePasses hs 1
    · exact wf_defaultTurn hs

theorem wf_step : wfOut (step s) := by
  have ht := wf_turnOf hs
  unfold step turn
  split <;> simp_all

end

/-- Settles O59: every operation on the state keeps memory's canonical form, so every meaning does, the candidates of the package's turn among
them, and a turn runs meanings. -/
theorem memoryStaysCanonical : Obligations.MemoryStaysCanonical := by
  intro s t hs ht
  have h := wf_step hs
  rwa [ht] at h

end Sys2Proof.Machine
end

section
/-!
PROOF. A vector store that was performed before a rewind is not stored again, and traps for nothing (R40, R214, R252).
-/

namespace Sys2Proof.Machine

/-- The instruction retires in the state that the meaning answers. -/
def retiresIn : Out → Bool
  | .next t => t.disp == .retired
  | _ => false

/-- The boot hart of `narrowing`, at a VST that it performed before a rewind, as its log records: 32 bytes at local address 64. -/
def storedBeforeRewind : State := narrowing.onHart fun h => { h with log := [.done h.nseq AccOp.vstore.logKind [(64, 32)] 0] }

/-- Refutes O10: its second part has no hypothesis that the access is new. The VST of `storedBeforeRewind` raises enabled flags, but its hart performed
it before a rewind: it takes its outcome from the log and retires (R252). -/
theorem not_localStoresWriteTheirBytes : ¬ Obligations.LocalStoresWriteTheirBytes := by
  rintro ⟨-, traps⟩
  have claimed := congrArg retiresIn (traps (.vst 1 2 3 true true) storedBeforeRewind _ _ rfl (by decide +kernel) (by decide +kernel)
    (by decide +kernel) (by decide +kernel))
  have hretires : retiresIn (exec (.vst 1 2 3 true true) storedBeforeRewind) = true := by decide +kernel
  rw [hretires] at claimed
  cases claimed

end Sys2Proof.Machine
end

section
/-!
PROOF. An access that is not the one its hart performed there before a rewind traps for that, wherever it goes (R196, R252).
-/

namespace Sys2Proof.Machine

/-- The cause register of the executing hart in the state that the meaning answers. -/
def trcauseIn : Out → W
  | .next t => t.hart.trap.trcause
  | _ => 0

/-- The boot hart of `peerPlace`. Before a rewind it loaded the doubleword at local address 256, as its log records. -/
def loadedBeforeRewind : State := peerPlace.onHart fun h => { h with log := [.done h.nseq (AccOp.load 4 true).logKind [(256, 8)] 0] }

/-- Refutes O13: its first part has no hypothesis that the access is new. The LDD of `loadedBeforeRewind` has a misaligned address, but it is not the
access that its hart performed there before a rewind, and traps with cause 0x1C5 for that (R252). -/
theorem not_badAccessesTrap : ¬ Obligations.BadAccessesTrap := by
  rintro ⟨misaligned, -⟩
  have claimed := congrArg trcauseIn (misaligned (.ldd 0 0 0 2 4 true true) loadedBeforeRewind _ _ rfl rfl (by decide +kernel) (by decide +kernel)
    (by decide +kernel))
  exact absurd claimed (by decide +kernel)

end Sys2Proof.Machine
end

section
/-!
PROOF. An atomic writes its number of at most 64 bytes, and zeros behind it in a longer part (R217, R218).
-/

namespace Sys2Proof.Machine

/-- A byte of memory in the state that the meaning answers. -/
def byteIn (x : Nat) : Out → Byte
  | .next t => readByte t.mem x
  | _ => 0

/-- A flag part of 65 bytes, on its way to byte 0x100 of HBM. No instruction makes one. -/
def wideFlag : Part := { sentPart with n := 1, size := 65 }

/-- An STF with that flag, whose data part is performed. -/
def wideFlagging : Access := accessOf .stf [partOf (.answered 0), wideFlag]

/-- The last of the flag's bytes holds 1, the others 0. -/
def beforeWideFlag : State := { withAcc wideFlagging with mem := [(0x140, 1)] }

/-- Refutes O18: its clause of the flag has no hypothesis on the part's size, and takes the flag for a number of that size. The model counts in 512
bits: of the 65 bytes of `wideFlag` it takes 64, and writes the last, which holds 1, as 0. -/
theorem not_requestsActOnMemory : ¬ Obligations.RequestsActOnMemory := by
  intro acts
  have served : beforeWideFlag.servedAt wideFlagging wideFlag 0x100 := ⟨⟨0, rfl⟩, by decide +kernel⟩
  obtain ⟨-, -, -, -, flag⟩ := acts beforeWideFlag 6 1 wideFlagging wideFlag 0x100 rfl rfl rfl served
  obtain ⟨t, ht, -, hwrote⟩ := flag rfl rfl (partOf (.answered 0)) rfl rfl
  have hbyte : byteIn 0x140 (exec (.stfFlagIncrement 6) beforeWideFlag) = 0 := by decide +kernel
  rw [ht] at hbyte
  have claimed := (hwrote 0x140).symm.trans hbyte
  exact absurd claimed (by decide +kernel)

end Sys2Proof.Machine
end

section
/-!
PROOF. A refused access goes back to its instruction and traps there, and so does a ticket that a hart has been parked on for too long (R201, R250 to
R254).
-/

namespace Sys2Proof.Machine

/-! The only access of a hart -/

/-- `b` is what the hart has in flight that no trap has set aside. -/
structure State.OnlyLive (s : State) (c : CoreId) (h : HartId) (b : Access) : Prop where
  mem : b ∈ s.live c h
  eq : ∀ x ∈ s.live c h, x = b

theorem mem_live_iff {s : State} {c : CoreId} {h : HartId} {x : Access} :
    x ∈ s.live c h ↔ x ∈ s.net.accs ∧ x.core = c ∧ x.hart = h ∧ x.frozen = 0 ∧ x.orphan = false := by
  simp [State.live, and_assoc]

theorem find?_of_all_eq {l : List Access} {b : Access} {p : Access → Bool} (hm : b ∈ l) (he : ∀ x ∈ l, x = b) (hp : p b = true) :
    l.find? p = some b := by
  cases l with
  | nil => cases hm
  | cons x l =>
    obtain rfl := he x List.mem_cons_self
    exact List.find?_cons_of_pos hp

theorem oldest_of_all_eq {l : List Access} {b : Access} (hm : b ∈ l) (he : ∀ x ∈ l, x = b) : oldest l = some b := by
  induction l with
  | nil => cases hm
  | cons x l ih =>
    obtain rfl := he x List.mem_cons_self
    cases l with
    | nil => rfl
    | cons y l =>
      obtain rfl := he y (List.mem_cons_of_mem _ List.mem_cons_self)
      rw [oldest, ih List.mem_cons_self fun z hz => he z (List.mem_cons_of_mem _ hz)]
      exact if_neg (lt_irrefl _)

theorem any_live_eq_false {s : State} {c : CoreId} {h : HartId} {b : Access} (hb : s.OnlyLive c h b) {p : Access → Bool} (hp : p b = false) :
    (s.live c h).any p = false :=
  List.any_eq_false.mpr fun x hx => by rw [hb.eq x hx, hp]; exact Bool.false_ne_true

/-! Going back to it -/

/-- The hart goes back to the instruction of its access `o` (R251). -/
def State.rewoundTo (s : State) (c : CoreId) (h : HartId) (o : Access) : State :=
  { s.onHartAt c h (rewindHart o) with net := { s.net with accs := rewindAccs c h o.seq ((s.hartAt c h).intSince o.seq) s.net.accs } }

section
variable {s : State} {c : CoreId} {h : HartId} {b : Access}

theorem hartAt_rewoundTo (s : State) (c : CoreId) (h : HartId) (o : Access) : (s.rewoundTo c h o).hartAt c h = rewindHart o (s.hartAt c h) :=
  State.hartAt_onHartAt_same s c h (rewindHart o)

/-- An interrupt that a rewind undoes was taken after the access that it goes back to. -/
theorem lt_of_intSince {k : Hart} {n : Nat} {m : IntMark} (hm : k.intSince n = some m) : n < m.seq := by
  simpa using List.find?_some hm

/-- A rewind to the only access of a hart leaves that access as it is. -/
theorem onlyLive_rewoundTo (hb : s.OnlyLive c h b) : (s.rewoundTo c h b).OnlyLive c h b := by
  obtain ⟨hm, hc, hh, hf, ho⟩ := mem_live_iff.mp hb.mem
  constructor
  · refine mem_live_iff.mpr ⟨List.mem_map.mpr ⟨b, List.mem_filter.mpr ⟨hm, ?_⟩, ?_⟩, hc, hh, hf, ho⟩
    · cases hi : (s.hartAt c h).intSince b.seq with
      | none => simp
      | some m => simp [lt_of_intSince hi]
    · simp
  · intro x hx
    obtain ⟨hx, hxc, hxh, hxf, hxo⟩ := mem_live_iff.mp hx
    obtain ⟨y, hy, e⟩ := List.mem_map.mp hx
    have hsame : y.core = x.core ∧ y.hart = x.hart ∧ y.frozen = x.frozen ∧ y.orphan = x.orphan := by
      rw [← e]
      split <;> exact ⟨rfl, rfl, rfl, rfl⟩
    obtain ⟨ec, eh, ef, eo⟩ := hsame
    obtain rfl := hb.eq y (mem_live_iff.mpr ⟨(List.mem_filter.mp hy).1, ec.trans hxc, eh.trans hxh, ef.trans hxf, eo.trans hxo⟩)
    rw [← e]
    simp

/-! The registers that a rewind brings back are no part of the hart's control state -/

theorem restoreReg_eq (k : Hart) (r : LogRec) : ∃ g, restoreReg k r = { k with regs := g } := by
  cases r with
  | reg _ r old full => exact ⟨_, rfl⟩
  | done => exact ⟨k.regs, rfl⟩

theorem restoreRegs_eq (k : Hart) (l : List LogRec) : ∃ g, l.foldl restoreReg k = { k with regs := g } := by
  induction l generalizing k with
  | nil => exact ⟨k.regs, rfl⟩
  | cons r l ih =>
    obtain ⟨g, hg⟩ := restoreReg_eq k r
    obtain ⟨g', hg'⟩ := ih (restoreReg k r)
    exact ⟨g', by rw [List.foldl_cons, hg', hg]⟩

theorem undoInt_regs (n : Nat) (k : Hart) (g : Regs) : undoInt n { k with regs := g } = { undoInt n k with regs := g } := by
  unfold undoInt
  rw [show Hart.intSince { k with regs := g } n = k.intSince n from rfl]
  split <;> rfl

/-- The part of a hart that a trap saves or that decides where it goes. -/
structure Hart.SameControl (k k' : Hart) : Prop where
  trap : k'.trap = k.trap
  mode : k'.mode = k.mode

theorem sameControl_rewindHart (o : Access) (k : Hart) : (undoInt o.seq k).SameControl (rewindHart o k) := by
  obtain ⟨g, hg⟩ := restoreRegs_eq k (k.log.reverse.filter (LogRec.undoneBy o.seq))
  unfold rewindHart
  rw [hg, undoInt_regs o.seq k g]
  exact ⟨rfl, rfl⟩

theorem tkp_undoInt (n : Nat) (k : Hart) : (undoInt n k).tkp = k.tkp := by
  unfold undoInt
  split <;> rfl

theorem tkp_rewindHart (o : Access) (k : Hart) : (rewindHart o k).tkp = k.tkp := by
  obtain ⟨g, hg⟩ := restoreRegs_eq k (k.log.reverse.filter (LogRec.undoneBy o.seq))
  unfold rewindHart
  rw [hg, undoInt_regs o.seq k g]
  exact tkp_undoInt ..

/-! The trap -/

/-- A hart that stands at its only access, whose part has a fault of group 1, takes it (R251). -/
theorem faultAt_of_fault {q : Part} {cause : BitVec 9} (hb : s.OnlyLive c h b) (hc : b.core = c) (hh : b.hart = h)
    (hn : (s.hartAt c h).nseq = b.seq) (hg : cause.extractLsb' 6 3 = 1) (hm : b.op.isMessage = false) :
    s.faultAt b (q, cause, 0, none) =
      (s.onAcc b.id Access.unfault).trapAt c h false cause q.va (faultInfo cause b.vec q.n 0) (s.hartAt c h).pc := by
  have hu : s.unconfirmed c h = false := any_live_eq_false hb (by simp [hn])
  have hne : (cause == 0x1C5) = false := beq_false_of_ne fun e => absurd hg (by rw [e]; decide)
  have hp : partTrap b q cause 0 = (q.va, faultInfo cause b.vec q.n 0) := by
    rw [partTrap, hm, hg]
    rfl
  unfold State.faultAt
  simp only [hc, hh, hu, hne, hp]
  rfl

/-- The first half of what answers make a hart do: it goes back to its oldest access that is held, once nothing younger is on its way (R251). -/
def State.wentBack (s : State) (c : CoreId) (h : HartId) : State :=
  match Machine.oldest ((s.live c h).filter fun a => decide (a.seq < (s.hartAt c h).nseq) && a.parts.any fun p => p.stage.stuck) with
  | none => s
  | some o =>
    if ((s.live c h).all fun a => decide (a.seq < o.seq) || a.parts.all fun p => p.stage.settled) &&
        (s.hartAt c h).pend.all (fun p => p.isReady || p.precise) then s.rewoundTo c h o
    else s

/-- The second half: a hart that has gone back takes the trap of the access that it stands at, or goes on (R251). -/
def State.tookFault (s : State) (c : CoreId) (h : HartId) : State :=
  if !(s.hartAt c h).tkp || !s.rewound c h then s
  else match (s.live c h).find? fun a => a.seq == (s.hartAt c h).nseq with
    | none => s.onHartAt c h fun x => { x with tkp := false }
    | some e =>
      if e.parked then s
      else match e.firstFault with
        | some f => s.faultAt e f
        | none => s.onHartAt c h fun x => { x with tkp := false }

theorem settle_eq (s : State) (c : CoreId) (h : HartId) : s.settle c h = (s.wentBack c h).tookFault c h := rfl

section
variable {q : Part} {cause : BitVec 9} (hb : s.OnlyLive c h b) (hq : b.parts = [q]) (hf : q.stage = .fault cause 0 none)
include hb hq hf

/-- A hart whose only access has a fault goes back to it, when every result has arrived. -/
theorem wentBack_of_fault (hs : b.seq < (s.hartAt c h).nseq) (hp : (s.hartAt c h).pend.all Pend.isReady = true) :
    s.wentBack c h = s.rewoundTo c h b := by
  have hstuck : b.parts.any (fun p => p.stage.stuck) = true := by rw [hq, List.any_cons, hf]; rfl
  have hold : oldest ((s.live c h).filter fun a => decide (a.seq < (s.hartAt c h).nseq) && a.parts.any fun p => p.stage.stuck) = some b :=
    oldest_of_all_eq (List.mem_filter.mpr ⟨hb.mem, by rw [hstuck, decide_eq_true hs]; rfl⟩) fun x hx => hb.eq x (List.mem_filter.mp hx).1
  have hsettled : ((s.live c h).all fun a => decide (a.seq < b.seq) || a.parts.all fun p => p.stage.settled) = true :=
    List.all_eq_true.mpr fun x hx => by rw [hb.eq x hx, hq, List.all_cons, hf]; exact Bool.or_true _
  have hpend : (s.hartAt c h).pend.all (fun p => p.isReady || p.precise) = true :=
    List.all_eq_true.mpr fun p hm => by rw [List.all_eq_true.mp hp p hm]; rfl
  unfold State.wentBack
  rw [hold]
  exact if_pos (by rw [hsettled, hpend]; rfl)

/-- A hart that stands at its only access, whose fault is of group 1, takes its trap. -/
theorem tookFault_of_fault (hn : (s.hartAt c h).nseq = b.seq) (ht : (s.hartAt c h).tkp = true) (hg : cause.extractLsb' 6 3 = 1)
    (hm : b.op.isMessage = false) : s.tookFault c h =
      (s.onAcc b.id Access.unfault).trapAt c h false cause q.va (faultInfo cause b.vec q.n 0) (s.hartAt c h).pc := by
  obtain ⟨-, hc, hh, -⟩ := mem_live_iff.mp hb.mem
  have hrew : s.rewound c h = true := by
    unfold State.rewound
    dsimp only
    rw [hn, any_live_eq_false hb (by rw [decide_eq_false (lt_irrefl _)]; rfl)]
    rfl
  have hfind : (s.live c h).find? (fun a => a.seq == (s.hartAt c h).nseq) = some b :=
    find?_of_all_eq hb.mem hb.eq (by rw [hn]; exact beq_self_eq_true _)
  have hparked : b.parked = false := by rw [Access.parked, hq, List.any_cons, hf]; rfl
  have hfault : b.firstFault = some (q, cause, 0, none) := by rw [Access.firstFault, hq, List.findSome?_cons, hf]
  unfold State.tookFault
  rw [ht, hrew, if_neg (by decide), hfind]
  dsimp only
  rw [hparked, hfault, if_neg (by decide)]
  exact faultAt_of_fault hb hc hh hn hg hm

/-- A hart whose only access has a fault of group 1 goes back to its instruction and traps there. -/
theorem settle_of_fault (hs : b.seq < (s.hartAt c h).nseq) (hp : (s.hartAt c h).pend.all Pend.isReady = true) (ht : (s.hartAt c h).tkp = true)
    (hg : cause.extractLsb' 6 3 = 1) (hm : b.op.isMessage = false) : s.settle c h =
      ((s.rewoundTo c h b).onAcc b.id Access.unfault).trapAt c h false cause q.va (faultInfo cause b.vec q.n 0) b.mark.pc := by
  have hx := hartAt_rewoundTo s c h b
  have hn : ((s.rewoundTo c h b).hartAt c h).nseq = b.seq := by rw [hx]; rfl
  have hpc : ((s.rewoundTo c h b).hartAt c h).pc = b.mark.pc := by rw [hx]; rfl
  have htkp : ((s.rewoundTo c h b).hartAt c h).tkp = true := by rw [hx, tkp_rewindHart, ht]
  rw [settle_eq, wentBack_of_fault hb hq hf hs hp, tookFault_of_fault (onlyLive_rewoundTo hb) hq hf hn htkp hg hm, hpc]

end

end

theorem ids_freeze (s : State) (c : CoreId) (h : HartId) : ∀ x ∈ (s.freeze c h).net.accs, ∃ a ∈ s.net.accs, x.id = a.id := by
  unfold State.freeze
  dsimp only
  split
  · intro x hx
    obtain ⟨a, ha, rfl⟩ := List.mem_map.mp hx
    refine ⟨a, ha, ?_⟩
    split <;> rfl
  · exact fun x hx => ⟨x, hx, rfl⟩

/-! The refusal and the limit -/

/-- The only access of a hart, at another stage, is what the hart has in flight. -/
theorem onlyLive_stageAt {s : State} {n k : Nat} {a : Access} (st : Stage) (ha : s.acc n = some a) (ho : a.orphan = false) (hf : a.frozen = 0)
    (hu : s.onlyAccess a) : (s.stageAt n k st).OnlyLive a.core a.hart (a.stageAt k st) := by
  have hid : (a.id == n) = true := List.find?_some (p := fun x : Access => x.id == n) ha
  constructor
  · exact mem_live_iff.mpr ⟨List.mem_map.mpr ⟨a, List.mem_of_find?_eq_some ha, if_pos hid⟩, rfl, rfl, hf, ho⟩
  · intro x hx
    obtain ⟨hx, hxc, hxh, -⟩ := mem_live_iff.mp hx
    obtain ⟨y, hy, e⟩ := List.mem_map.mp hx
    have hsame : y.core = x.core ∧ y.hart = x.hart := by
      rw [← e]
      split <;> exact ⟨rfl, rfl⟩
    obtain rfl := hu y hy (hsame.1.trans hxc) (hsame.2.trans hxh)
    exact e.symm.trans (if_pos hid)

/-- What a trap leaves behind depends on the control state of the hart alone. -/
theorem State.tookTrap.of_sameControl {s u t : State} {c : CoreId} {h : HartId} {cause : BitVec 9} {addr pc : W} (ht : u.tookTrap t c h cause addr pc)
    (hw : u.firmware c = s.firmware c) (hc : (s.hartAt c h).SameControl (u.hartAt c h)) : s.tookTrap t c h cause addr pc := by
  obtain ⟨hpc, hcause, haddr, hvec, hie, hmode, hpmode⟩ := ht
  exact ⟨hpc, hcause, haddr, hc.trap ▸ hvec, hie, by rw [hmode, hw, hc.trap, hc.mode], hpmode.trans hc.mode⟩

theorem sameControl_uninterrupted (s : State) (c : CoreId) (h : HartId) (o : Access) :
    ((s.uninterrupted c h o.seq).hartAt c h).SameControl (rewindHart o { s.hartAt c h with tkp := true }) := by
  obtain ⟨htrap, hmode⟩ := sameControl_rewindHart o { s.hartAt c h with tkp := true }
  have hu : (s.uninterrupted c h o.seq).hartAt c h = undoInt o.seq (s.hartAt c h) := State.hartAt_onHartAt_same s c h (undoInt o.seq)
  have ht : (undoInt o.seq { s.hartAt c h with tkp := true }) = { undoInt o.seq (s.hartAt c h) with tkp := true } := by
    unfold undoInt
    rw [show Hart.intSince { s.hartAt c h with tkp := true } o.seq = (s.hartAt c h).intSince o.seq from rfl]
    split <;> rfl
  rw [ht] at htrap hmode
  rw [hu]
  exact ⟨htrap, hmode⟩

/-- The part is refused, and its hart has something to go back to (R251). -/
def State.withFault (s : State) (n k : Nat) (a : Access) (cause : BitVec 9) : State :=
  (s.stageAt n k (.fault cause 0 none)).onHartAt a.core a.hart fun x => { x with tkp := true }

/-- A refusal of the only access of a hart that runs. -/
theorem exec_negativeAcknowledgement {s : State} {n k : Nat} {a : Access} {p : Part} {cause : BitVec 9} (ha : s.acc n = some a)
    (hp : a.part k = some p) (hs : p.stage = .refused cause none) (hr : s.answerReady n k = true) (ho : a.orphan = false)
    (hrun : (s.hartAt a.core a.hart).stopped = false) : exec (.negativeAcknowledgement n k) s =
      ((s.withFault n k a cause).settle a.core a.hart).occur := by
  have hprobe : a.isProbe = false := by
    unfold Access.isProbe
    rw [ho]
    split <;> rfl
  show execNegativeAcknowledgement n k s = _
  unfold execNegativeAcknowledgement
  rw [ha]
  dsimp only
  rw [hp]
  dsimp only
  rw [hs]
  dsimp only
  rw [hprobe, ho, hrun, takeAnswer_of_ready hr]
  rfl

section
variable {s : State} {n k : Nat} {a : Access} {p : Part} {cause : BitVec 9}

theorem hartAt_withFault (s : State) (n k : Nat) (a : Access) (cause : BitVec 9) :
    (s.withFault n k a cause).hartAt a.core a.hart = { s.hartAt a.core a.hart with tkp := true } := State.hartAt_onHartAt_same ..

/-- The hart of a refused access traps from the state `w` in which it has gone back to its instruction. -/
theorem settle_withFault (ha : s.acc n = some a) (hp : a.parts = [p]) (hk : p.n = k) (hg : cause.extractLsb' 6 3 = 1) (ho : a.orphan = false)
    (hf : a.frozen = 0) (hm : a.op.isMessage = false) (hseq : a.seq < (s.hartAt a.core a.hart).nseq)
    (hpend : (s.hartAt a.core a.hart).pend.all Pend.isReady = true) (hu : s.onlyAccess a) : ∃ (w : State) (info : W),
      (s.withFault n k a cause).settle a.core a.hart = w.trapAt a.core a.hart false cause p.va info a.mark.pc ∧ w.mem = s.mem ∧
      w.firmware a.core = s.firmware a.core ∧
      w.hartAt a.core a.hart = rewindHart (a.stageAt k (.fault cause 0 none)) { s.hartAt a.core a.hart with tkp := true } := by
  have hlive := onlyLive_stageAt (k := k) (.fault cause 0 none) ha ho hf hu
  have hb : (s.withFault n k a cause).OnlyLive a.core a.hart (a.stageAt k (.fault cause 0 none)) := ⟨hlive.mem, hlive.eq⟩
  have hq : (a.stageAt k (.fault cause 0 none)).parts = [{ p with stage := .fault cause 0 none }] := by simp [Access.stageAt, hp, hk]
  have hh := hartAt_withFault s n k a cause
  have htrap := settle_of_fault (q := { p with stage := .fault cause 0 none }) hb hq rfl (by rw [hh]; exact hseq) (by rw [hh]; exact hpend)
    (by rw [hh]) hg hm
  refine ⟨_, _, htrap, rfl, rfl, ?_⟩
  rw [← hh]
  exact hartAt_rewoundTo ..

end

theorem refusal_traps (s : State) (n k : Nat) (a : Access) (p : Part) (cause : BitVec 9) (ha : s.acc n = some a) (hp : a.parts = [p]) (hk : p.n = k)
    (hs : p.stage = .refused cause none) (hg : cause.extractLsb' 6 3 = 1) (hr : s.answerReady n k = true) (ho : a.orphan = false)
    (hf : a.frozen = 0) (hm : a.op.isMessage = false) (hrun : (s.hartAt a.core a.hart).stopped = false)
    (hseq : a.seq < (s.hartAt a.core a.hart).nseq) (hpend : (s.hartAt a.core a.hart).pend.all Pend.isReady = true) (hu : s.onlyAccess a) :
    ∃ t, exec (.negativeAcknowledgement n k) s = .next t ∧ t.disp = .occurred ∧ t.mem = s.mem ∧
      (s.uninterrupted a.core a.hart a.seq).tookTrap t a.core a.hart cause p.va a.mark.pc ∧
      (t.hartAt a.core a.hart).instret = a.mark.instret := by
  have hpart : a.part k = some p := by simp [Access.part, hp, hk]
  obtain ⟨w, info, hsettle, hmem, hfw, hw⟩ := settle_withFault ha hp hk hg ho hf hm hseq hpend hu
  have htook := (tookTrap_trapAt w a.core a.hart cause p.va info a.mark.pc).1
  obtain ⟨fr, lg, pk, e⟩ := hartAt_trapAt w a.core a.hart false cause p.va info a.mark.pc
  rw [hw] at e
  refine ⟨{ w.trapAt a.core a.hart false cause p.va info a.mark.pc with disp := .occurred }, ?_, rfl, ?_, ?_, congrArg Hart.instret e⟩
  · rw [exec_negativeAcknowledgement ha hpart hs hr ho hrun, hsettle]
    rfl
  · exact (State.trapAt_mem w a.core a.hart false cause p.va info a.mark.pc).trans hmem
  · exact htook.of_sameControl (s := s.uninterrupted a.core a.hart a.seq) hfw
      (hw ▸ sameControl_uninterrupted s a.core a.hart (a.stageAt k (.fault cause 0 none)))

theorem limit_traps (s : State) (c : CoreId) (h : HartId) (a : Access) (ha : (s.live c h).find? (fun b => b.seq == (s.hartAt c h).nseq) = some a)
    (ht : (s.hartAt c h).tkp = true) (hr : s.rewound c h = true) (hu : s.unconfirmed c h = false) (hp : a.parked = true)
    (hz : (s.hartAt c h).tklim ≠ 0) (hl : (s.hartAt c h).tklim.toNat ≤ (s.cycleOf c h - a.since).toNat) :
    ∃ t, exec (.ticketTimeout c h) s = .next t ∧ t.disp = .occurred ∧ s.tookTrap t c h 0x1C5 0 (s.hartAt c h).pc ∧
      (t.hartAt c h).trap.trinfo = 1 ∧ ∀ b ∈ t.net.accs, b.id ≠ a.id := by
  have hover : s.overLimit c h a.since = true := by
    unfold State.overLimit
    dsimp only
    rw [decide_eq_true hl, bne_iff_ne.mpr hz]
    rfl
  obtain ⟨htook, hinfo⟩ := tookTrap_trapAt (s.dropAcc a.id) c h 0x1C5 0 1 (s.hartAt c h).pc
  refine ⟨{ (s.dropAcc a.id).trapAt c h false 0x1C5 0 1 (s.hartAt c h).pc with disp := .occurred }, ?_, rfl, htook, hinfo, fun b hb => ?_⟩
  · show execTicketTimeout c h s = _
    unfold execTicketTimeout
    dsimp only
    rw [hu, if_neg Bool.false_ne_true, ha]
    dsimp only
    rw [ht, hr, hp, hover]
    rfl
  · obtain ⟨x, hx, e⟩ := ids_freeze (s.dropAcc a.id) c h b hb
    rw [e]
    simpa using (List.mem_filter.mp hx).2

/-- Settles O20: a refused access is the only one that its hart has, so the hart goes back to it and traps there. -/
theorem refusalsTrapPrecisely : Obligations.RefusalsTrapPrecisely := ⟨refusal_traps, limit_traps⟩

end Sys2Proof.Machine
end

section
/-!
PROOF. The new values of atomics, and the bytes that numbers store (R216).
-/

namespace Sys2Proof.Machine

/-! FP32 lanes -/

theorem fp32_add_lt (x y : Nat) : (fp32.add 0 x y).1 < 2 ^ 32 := fp32_addV_fst_lt 0 _ _

/-- The lesser or greater of two patterns is one of them, or a NaN. -/
theorem fp32_minMax_lt (isMax : Bool) {x y : Nat} (hx : x < 2 ^ 32) (hy : y < 2 ^ 32) : (fp32.minMax isMax x y).1 < 2 ^ 32 := by
  unfold Fmt.minMax
  dsimp only
  split_ifs
  · exact fp32_nan_lt
  all_goals assumption

/-- A lane above a number that lies below it. -/
theorem toNat_or_lane {r : BitVec 512} {x i : Nat} (hr : r.toNat < 2 ^ (32 * i)) (hx : x < 2 ^ 32) (hi : i < 16) :
    (r ||| (BitVec.ofNat 512 x <<< (32 * i))).toNat = x * 2 ^ (32 * i) + r.toNat := by
  have hlane : x * 2 ^ (32 * i) < 2 ^ 512 := calc
    x * 2 ^ (32 * i) < 2 ^ 32 * 2 ^ (32 * i) := Nat.mul_lt_mul_of_pos_right hx (Nat.two_pow_pos _)
    _ = 2 ^ (32 + 32 * i) := (Nat.pow_add ..).symm
    _ ≤ 2 ^ 512 := Nat.pow_le_pow_right (by decide) (by omega)
  have hword : x < 2 ^ 512 := hx.trans (Nat.pow_lt_pow_right (by decide) (by decide))
  rw [BitVec.toNat_or, BitVec.toNat_shiftLeft, BitVec.toNat_ofNat, Nat.mod_eq_of_lt hword, Nat.shiftLeft_eq, Nat.mod_eq_of_lt hlane, Nat.or_comm,
    ← Nat.shiftLeft_eq, Nat.shiftLeft_add_eq_or_of_lt hr]

/-- Lanes side by side, the first `n` of them. -/
def lanesSum (g : Nat → Nat) (n : Nat) : Nat := ((List.range n).map fun i => g i * 2 ^ (32 * i)).sum

theorem lanesSum_succ (g : Nat → Nat) (n : Nat) : lanesSum g (n + 1) = g n * 2 ^ (32 * n) + lanesSum g n := by
  rw [lanesSum, List.sum_range_succ, Nat.add_comm, lanesSum]

theorem lanesSum_lt {g : Nat → Nat} (hg : ∀ i, g i < 2 ^ 32) (n : Nat) : lanesSum g n < 2 ^ (32 * n) := by
  induction n with
  | zero => exact Nat.one_pos
  | succ n ih =>
    have hp : 2 ^ (32 * (n + 1)) = 2 ^ 32 * 2 ^ (32 * n) := by rw [← Nat.pow_add, Nat.mul_add, Nat.add_comm]
    have hl : g n * 2 ^ (32 * n) ≤ (2 ^ 32 - 1) * 2 ^ (32 * n) := Nat.mul_le_mul_right _ (Nat.le_pred_of_lt (hg n))
    rw [lanesSum_succ, hp]
    rw [Nat.sub_mul] at hl
    omega

/-- Lanes that are set one after the other stand side by side. -/
theorem toNat_setLanes {g : Nat → Nat} (hg : ∀ i, g i < 2 ^ 32) {n : Nat} (hn : n ≤ 16) :
    ((List.range n).foldl (fun r i => r ||| (BitVec.ofNat 512 (g i) <<< (32 * i))) (0 : BitVec 512)).toNat = lanesSum g n := by
  induction n with
  | zero => simp [lanesSum]
  | succ n ih =>
    have ih := ih (Nat.le_of_succ_le hn)
    rw [List.range_succ, List.foldl_append, List.foldl_cons, List.foldl_nil, toNat_or_lane (ih ▸ lanesSum_lt hg n) (hg n) hn, ih, lanesSum_succ]

theorem toNat_lanes32 {f : Nat → Nat → Nat} (hf : ∀ x y, x < 2 ^ 32 → y < 2 ^ 32 → f x y < 2 ^ 32) (a b : BitVec 512) :
    (lanes32 f a b).toNat = eachLane f a.toNat b.toNat := by
  have hg (i : Nat) : f (laneBits a.toNat 32 i) (laneBits b.toNat 32 i) < 2 ^ 32 :=
    hf _ _ (Nat.mod_lt _ (Nat.two_pow_pos _)) (Nat.mod_lt _ (Nat.two_pow_pos _))
  rw [lanes32, toNat_setLanes hg (Nat.le_refl _), lanesSum, eachLane, List.sum, List.foldr_map]
  congr 1
  funext i t
  rw [← laneBits, ← laneBits, Nat.mod_eq_of_lt (hg i)]

/-! The new value of each function, by the bytes that it stores -/

/-- The low bits of a word are those of the number that it holds. -/
theorem toNat_lowBits_modEq {size : Nat} (hs : size ≤ 64) (x : Nat) :
    (BitVec.ofNat 512 (x % 2 ^ (8 * size))).toNat ≡ x [MOD 2 ^ (8 * size)] := by
  rw [BitVec.toNat_ofNat]
  refine ((Nat.mod_modEq _ _).of_dvd (Nat.pow_dvd_pow 2 ?_)).trans (Nat.mod_modEq _ _)
  omega

theorem toNat_ofNat_old {size m : Nat} (hs : size ≤ 64) (hm : m < 2 ^ (8 * size)) : (BitVec.ofNat 512 m).toNat = m := by
  rw [BitVec.toNat_ofNat, Nat.mod_eq_of_lt (hm.trans_le (Nat.pow_le_pow_right (by decide) (by omega)))]

theorem signedLow_mod (w x : Nat) : signedLow w (x % 2 ^ w) = signedLow w x := by
  rw [signedLow, signedLow, Nat.mod_mod]

section
variable {size m : Nat} (hs : size ≤ 64) (hm : m < 2 ^ (8 * size)) (b cmp : W)
include hs hm

theorem old_mod : (BitVec.ofNat 512 m).toNat % 2 ^ (8 * size) = m := by rw [toNat_ofNat_old hs hm, Nat.mod_eq_of_lt hm]

omit hs hm in
theorem toNat_operand : (BitVec.ofNat 512 b.toNat).toNat = b.toNat := toNat_ofNat_old (size := 8) (by decide) b.isLt

theorem atomicNew_add : (atomicNew 0 size (BitVec.ofNat 512 m) (BitVec.ofNat 512 b.toNat) cmp).toNat ≡ m + b.toNat [MOD 2 ^ (8 * size)] := by
  refine (toNat_lowBits_modEq hs _).trans ?_
  rw [old_mod hs hm, toNat_operand]
  exact (Nat.mod_modEq _ _).add_left m

theorem atomicNew_and : (atomicNew 1 size (BitVec.ofNat 512 m) (BitVec.ofNat 512 b.toNat) cmp).toNat ≡ m &&& b.toNat [MOD 2 ^ (8 * size)] := by
  refine (toNat_lowBits_modEq hs _).trans ?_
  rw [old_mod hs hm, toNat_operand, Nat.ModEq, Nat.and_mod_two_pow, Nat.mod_mod, ← Nat.and_mod_two_pow]

theorem atomicNew_or : (atomicNew 2 size (BitVec.ofNat 512 m) (BitVec.ofNat 512 b.toNat) cmp).toNat ≡ m ||| b.toNat [MOD 2 ^ (8 * size)] := by
  refine (toNat_lowBits_modEq hs _).trans ?_
  rw [old_mod hs hm, toNat_operand, Nat.ModEq, Nat.or_mod_two_pow, Nat.mod_mod, ← Nat.or_mod_two_pow]

theorem atomicNew_xor : (atomicNew 3 size (BitVec.ofNat 512 m) (BitVec.ofNat 512 b.toNat) cmp).toNat ≡ m ^^^ b.toNat [MOD 2 ^ (8 * size)] := by
  refine (toNat_lowBits_modEq hs _).trans ?_
  rw [old_mod hs hm, toNat_operand, Nat.ModEq, Nat.xor_mod_two_pow, Nat.mod_mod, ← Nat.xor_mod_two_pow]

/-- A function that keeps the old value or takes the operand. -/
theorem toNat_pick_modEq (c : Bool) :
    (if c then BitVec.ofNat 512 ((BitVec.ofNat 512 b.toNat).toNat % 2 ^ (8 * size) % 2 ^ (8 * size))
      else BitVec.ofNat 512 ((BitVec.ofNat 512 m).toNat % 2 ^ (8 * size) % 2 ^ (8 * size))).toNat ≡ if c then b.toNat else m [MOD 2 ^ (8 * size)] := by
  rw [old_mod hs hm, toNat_operand]
  cases c
  · exact toNat_lowBits_modEq hs m
  · exact (toNat_lowBits_modEq hs _).trans (Nat.mod_modEq _ _)

theorem atomicNew_min : (atomicNew 4 size (BitVec.ofNat 512 m) (BitVec.ofNat 512 b.toNat) cmp).toNat ≡
    if signedLow (8 * size) m ≤ signedLow (8 * size) b.toNat then m else b.toNat [MOD 2 ^ (8 * size)] := by
  refine (toNat_pick_modEq hs hm b _).trans ?_
  rw [old_mod hs hm, toNat_operand, signed_eq_signedLow, signed_eq_signedLow, signedLow_mod]
  simp only [decide_eq_true_eq, ← not_le, ite_not]
  rfl

theorem atomicNew_max : (atomicNew 5 size (BitVec.ofNat 512 m) (BitVec.ofNat 512 b.toNat) cmp).toNat ≡
    if signedLow (8 * size) b.toNat ≤ signedLow (8 * size) m then m else b.toNat [MOD 2 ^ (8 * size)] := by
  refine (toNat_pick_modEq hs hm b _).trans ?_
  rw [old_mod hs hm, toNat_operand, signed_eq_signedLow, signed_eq_signedLow, signedLow_mod]
  simp only [decide_eq_true_eq, ← not_le, ite_not]
  rfl

theorem atomicNew_minu : (atomicNew 6 size (BitVec.ofNat 512 m) (BitVec.ofNat 512 b.toNat) cmp).toNat ≡
    min m (b.toNat % 2 ^ (8 * size)) [MOD 2 ^ (8 * size)] := by
  refine (toNat_pick_modEq hs hm b _).trans ?_
  rw [old_mod hs hm, toNat_operand, min_def]
  simp only [decide_eq_true_eq, ← not_le, ite_not]
  split
  · rfl
  · exact (Nat.mod_modEq _ _).symm

theorem atomicNew_maxu : (atomicNew 7 size (BitVec.ofNat 512 m) (BitVec.ofNat 512 b.toNat) cmp).toNat ≡
    max m (b.toNat % 2 ^ (8 * size)) [MOD 2 ^ (8 * size)] := by
  refine (toNat_pick_modEq hs hm b _).trans ?_
  rw [old_mod hs hm, toNat_operand, max_comm, max_def]
  simp only [decide_eq_true_eq, ← not_le, ite_not]
  split
  · rfl
  · exact (Nat.mod_modEq _ _).symm

omit hm in
theorem atomicNew_swap : (atomicNew 8 size (BitVec.ofNat 512 m) (BitVec.ofNat 512 b.toNat) cmp).toNat ≡ b.toNat [MOD 2 ^ (8 * size)] := by
  refine (toNat_lowBits_modEq hs _).trans ?_
  rw [toNat_operand]
  exact Nat.mod_modEq _ _

/-- Compare and swap, as the functions 9 and 10 are. -/
theorem toNat_cas_modEq :
    (if (BitVec.ofNat 512 m).toNat % 2 ^ (8 * size) == cmp.toNat % 2 ^ (8 * size)
      then BitVec.ofNat 512 ((BitVec.ofNat 512 b.toNat).toNat % 2 ^ (8 * size) % 2 ^ (8 * size))
      else BitVec.ofNat 512 ((BitVec.ofNat 512 m).toNat % 2 ^ (8 * size) % 2 ^ (8 * size))).toNat ≡
      if m = cmp.toNat % 2 ^ (8 * size) then b.toNat else m [MOD 2 ^ (8 * size)] := by
  refine (toNat_pick_modEq hs hm b _).trans ?_
  rw [old_mod hs hm]
  simp only [beq_iff_eq]
  rfl

/-- A function of FP32 operands, as the functions 11 to 13 are. -/
theorem toNat_float_modEq (f : Nat → Nat → Nat) :
    (BitVec.ofNat 512 (f ((BitVec.ofNat 512 m).toNat % 2 ^ (8 * size)) ((BitVec.ofNat 512 b.toNat).toNat % 2 ^ (8 * size)) % 2 ^ (8 * size))).toNat ≡
      f m (b.toNat % 2 ^ (8 * size)) [MOD 2 ^ (8 * size)] := by
  rw [old_mod hs hm, toNat_operand]
  exact toNat_lowBits_modEq hs _

theorem atomicNew_inc : (atomicNew 16 size (BitVec.ofNat 512 m) (BitVec.ofNat 512 b.toNat) cmp).toNat ≡
    if b.toNat % 2 ^ (8 * size) ≤ m then 0 else m + 1 [MOD 2 ^ (8 * size)] := by
  have h : atomicNew 16 size (BitVec.ofNat 512 m) (BitVec.ofNat 512 b.toNat) cmp =
      if b.toNat % 2 ^ (8 * size) ≤ m then BitVec.ofNat 512 (0 % 2 ^ (8 * size)) else BitVec.ofNat 512 ((m + 1) % 2 ^ (8 * size)) := by
    unfold atomicNew
    dsimp only
    rw [old_mod hs hm, toNat_operand]
    rfl
  rw [h]
  split
  all_goals exact toNat_lowBits_modEq hs _

end

/-- Every atomic's element is of at most a line. -/
theorem size_le_of_atomicOf {i : Instr} {s : State} {q : Ask} {new : Nat → Nat} {e : El} (h : atomicOf s i = some (q, new)) (hels : q.els = [e]) :
    e.size ≤ 64 := by
  cases i <;> cases h <;> cases hels
  case avadd | avmax => exact Nat.le_refl 64
  case afadd | afmin | afmax => exact (by decide : 4 ≤ 64)
  all_goals exact (sizeBit_le _).trans (by decide)

/-- An atomic stores the new value that its instruction gives (R216). -/
theorem atomicNew_of_atomicOf {i : Instr} {s : State} {q : Ask} {new : Nat → Nat} {fn : BitVec 5} {r : RegRef} {b : BitVec 512} {cmp : W} {e : El}
    (h : atomicOf s i = some (q, new)) (hop : q.op = .atomic fn r b cmp) (hels : q.els = [e]) {m : Nat} (hm : m < 2 ^ (8 * e.size)) :
    (atomicNew fn e.size (BitVec.ofNat 512 m) b cmp).toNat ≡ new m [MOD 2 ^ (8 * e.size)] := by
  have hs := size_le_of_atomicOf h hels
  cases i <;> cases h <;> cases hop <;> cases hels
  case aadd => exact atomicNew_add hs hm _ _
  case aand => exact atomicNew_and hs hm _ _
  case aor => exact atomicNew_or hs hm _ _
  case axor => exact atomicNew_xor hs hm _ _
  case amin => exact atomicNew_min hs hm _ _
  case amax => exact atomicNew_max hs hm _ _
  case aminu => exact atomicNew_minu hs hm _ _
  case amaxu => exact atomicNew_maxu hs hm _ _
  case aswap => exact atomicNew_swap hs _ _
  case acas | acasf => exact toNat_cas_modEq hs hm _ _
  case afadd => exact toNat_float_modEq hs hm _ fun x y => (fp32.add 0 x y).1
  case afmin => exact toNat_float_modEq hs hm _ fun x y => (fp32.minMax false x y).1
  case afmax => exact toNat_float_modEq hs hm _ fun x y => (fp32.minMax true x y).1
  case avadd b _ _ _ _ =>
    have hl := toNat_lanes32 (fun x y _ _ => fp32_add_lt x y) (BitVec.ofNat 512 m) (s.v b)
    rw [toNat_ofNat_old hs hm] at hl
    exact congrArg (· % _) hl
  case avmax b _ _ _ _ =>
    have hl := toNat_lanes32 (fun x y => fp32_minMax_lt true) (BitVec.ofNat 512 m) (s.v b)
    rw [toNat_ofNat_old hs hm] at hl
    exact congrArg (· % _) hl
  case aincw => exact atomicNew_inc hs hm _ _

/-! The bytes that a number stores -/

/-- A byte within the range is that of any number with the same low bits. -/
theorem ofNat_div_congr {size k x y : Nat} (h : x ≡ y [MOD 2 ^ (8 * size)]) (hk : k < size) :
    BitVec.ofNat 8 (x / 2 ^ (8 * k)) = BitVec.ofNat 8 (y / 2 ^ (8 * k)) := by
  have hp : 2 ^ (8 * size) = 2 ^ (8 * k) * 2 ^ (8 * (size - k)) := by rw [← Nat.pow_add]; congr 1; omega
  have hd (z : Nat) : z / 2 ^ (8 * k) % 2 ^ (8 * (size - k)) = z % 2 ^ (8 * size) / 2 ^ (8 * k) := by rw [hp, Nat.mod_mul_right_div_self]
  have hm : x / 2 ^ (8 * k) ≡ y / 2 ^ (8 * k) [MOD 2 ^ (8 * (size - k))] := by rw [Nat.ModEq, hd, hd, h]
  apply BitVec.eq_of_toNat_eq
  rw [BitVec.toNat_ofNat, BitVec.toNat_ofNat]
  exact hm.of_dvd (Nat.pow_dvd_pow 2 (by omega))

/-- A number stored at an element leaves what the element with any datum of the same low bits leaves. -/
theorem readByte_storeBytes_at {s : State} (hs : s.Canonical) {e : El} (hsize : e.size ≤ 64) {x y : Nat} (h : x ≡ y [MOD 2 ^ (8 * e.size)]) (a : Nat) :
    readByte (storeBytes s (localKey s.cur e.va.toNat) (natLe e.size x)).mem a =
      (storedByte s.cur [{ e with data := BitVec.ofNat 512 y }] a).getD (readByte s.mem a) := by
  have hy : x ≡ (BitVec.ofNat 512 y).toNat [MOD 2 ^ (8 * e.size)] := by
    rw [BitVec.toNat_ofNat]
    exact h.trans ((Nat.mod_modEq y _).of_dvd (Nat.pow_dvd_pow 2 (by omega))).symm
  rw [readByte_storeBytes_natLe hs, storedByte_eq, storedOver_cons]
  split
  · next ha => exact ofNat_div_congr hy (by omega)
  · rfl

end Sys2Proof.Machine
end

section
/-!
PROOF. A flag store and an atomic in the hart's own store act when they issue (R216 to R218).
-/

namespace Sys2Proof.Machine

/-! A new access with every element in the hart's own store -/

section
variable {s : State} {q : Ask}

/-- It is launched at once, and done. -/
theorem access_eq_ownDone (i : Instr) (hn : s.isNew = true) (ha : s.allows q = true) (hl : q.isLocal = true) :
    s.access i q =
      let r := performOwn (s.launching q) q.op (makeParts s q q.els 0) true
      r.1.dropOwn.ownDone i q.op r.2 := by
  obtain ⟨hoe, hor⟩ := ownEntry_of_isNew hn
  obtain ⟨-, -, -, ho⟩ := allows_iff.mp ha
  have hown := (allOwn_of_allows ha).trans hl
  have hparts : makeParts (s.launching q) q q.els 0 = makeParts s q q.els 0 := makeParts_congr (reach_onHart_of_eq (useSkips_of_allows ha)) _ _
  have hattempt : s.attempt i q = s.launch i q := by
    rw [State.attempt, gate_of_allows i ha, ho, hown, hoe]
    rfl
  have haccess : s.access i q = s.launch i q := by
    rw [State.access, hoe, hor]
    exact hattempt
  rw [haccess]
  unfold State.launch
  dsimp only
  rw [show (s.onHart fun h => useSkips h q) = s.launching q from rfl, hparts, hown]
  rfl

/-- The hart is as it was when its own parts have been performed. -/
theorem hart_performOwn (ha : s.allows q = true) (ps : List Part) : (performOwn (s.launching q) q.op ps true).1.dropOwn.hart = s.hart := by
  have h : (performOwn (s.launching q) q.op ps true).1 = _ := (performOwn_served (s.launching q) q.op ps true).1
  rw [h]
  exact hart_launching ha

theorem stage_of_local (ha : s.allows q = true) {e : El} (he : e ∈ q.els) (hl : q.isLocal = true) (n : Nat) :
    (madePart s q e n).stage = .sent (.own e.va.toNat) :=
  reach_of_loc (reach_of_firstStop (allows_iff.mp ha).1 he n) (eq_of_beq (List.all_eq_true.mp hl e he))

/-- One part, in the hart's own store: it has been performed. -/
theorem performOwn_one (ha : s.allows q = true) (hl : q.isLocal = true) {e : El} (hels : q.els = [e]) (hop : q.op ≠ .stf) (u : State) :
    performOwn u q.op (makeParts s q q.els 0) true =
      let x := u.perform q.op 0 (localKey u.cur e.va.toNat) e.size e.data
      (x.1, [{ madePart s q e 0 with stage := .done x.2 }]) := by
  have hst := stage_of_local ha (hels ▸ List.mem_singleton_self e) hl 0
  rw [hels, makeParts_cons, performOwn_own hst (by rw [beq_false_of_ne hop]; rfl)]
  rfl

end

/-! What is left of the hart -/

/-- What a done access leaves of its hart before it retires: its record in the log, if an older access is open. -/
def Hart.recorded (l : List LogRec) (h : Hart) : Hart := { h with log := l, nseq := h.nseq + 1 }

theorem ownDone_stf (u : State) (i : Instr) (ps : List Part) : ∃ l, u.ownDone i .stf ps = (u.onHart (Hart.recorded l)).complete := by
  unfold State.ownDone
  dsimp only
  split
  · refine ⟨u.hart.log ++ [.done u.hart.nseq AccOp.stf.logKind (ps.map fun p => (p.va, p.size)) (packParts ps)], congrArg State.complete ?_⟩
    unfold State.numbered
    rw [State.onHart_onHart]
    exact State.onHart_congr _ _ _ rfl
  · exact ⟨u.hart.log, congrArg State.complete (State.onHart_congr _ _ _ rfl)⟩

theorem logReg_eq_log (own : Bool) (r : RegRef) (b : Bool) (h : Hart) : logReg own r b h = { h with log := (logReg own r b h).log } := by
  unfold logReg; split <;> rfl

theorem ownDone_atomic (u : State) (i : Instr) (fn : BitVec 5) (r : RegRef) (b : BitVec 512) (cmp : W) (p : Part) :
    ∃ l, u.ownDone i (.atomic fn r b cmp) [p] = (u.onHart fun h => Hart.land (atomicResult r p.size p.value) (h.recorded l)).complete := by
  have hlog : u.logOwn r false = u.onHart fun h => { h with log := (logReg true r (false || u.unconfirmed u.cur u.curHart) u.hart).log } := by
    unfold State.logOwn
    exact State.onHart_congr _ _ _ (logReg_eq_log ..)
  unfold State.ownDone
  dsimp only
  rw [hlog]
  unfold State.numbered
  split
  · rw [State.onHart_onHart, State.onHart_onHart, State.onHart_onHart]
    exact ⟨(logReg true r (false || u.unconfirmed u.cur u.curHart) u.hart).log ++ [.done u.hart.nseq _ _ (packParts [p])],
      congrArg State.complete (State.onHart_congr _ _ _ rfl)⟩
  · rw [State.onHart_onHart, State.onHart_onHart]
    exact ⟨_, congrArg State.complete (State.onHart_congr _ _ _ rfl)⟩

theorem arith_complete (s : State) : s.complete.hart.arith = s.hart.arith := by
  rcases hart_complete_cases s with h | ⟨n, pc, lo, ar, p, h⟩ <;> rw [h]
  rfl

/-- A result without flags changes no flag. -/
theorem arith_land {r : OpResult} (hf : r.flags = 0) (hn : r.badNan = false) (hg : r.badNeg = false) (h : Hart) : (Hart.land r h).arith = h.arith := by
  unfold Hart.land Arith.flagged fpOr
  rw [hf, hn, hg]
  simp

theorem atomicResult_eq (r : RegRef) (size : Nat) (old : Nat) (hs : size ≤ 64) (ho : old < 2 ^ (8 * size)) :
    atomicResult r size (BitVec.ofNat 512 old) =
      oneWrite r (if size = 4 then (BitVec.ofInt 64 (signedLow 32 old)).setWidth 1024 else BitVec.ofNat 1024 old) := by
  unfold atomicResult
  rw [toNat_ofNat_old hs ho, signed_eq_signedLow, setWidth_eq_ofNat (BitVec.ofNat 512 old), toNat_ofNat_old hs ho]
  simp only [beq_iff_eq]

/-! The flag of a flag store -/

theorem bytesValue_congr {m m' : Memory} (h : ∀ a, readByte m a = readByte m' a) (key n : Nat) : bytesValue m key n = bytesValue m' key n := by
  induction n generalizing key with
  | zero => rfl
  | succ n ih => rw [bytesValue, bytesValue, h, ih]

/-- The data of a flag store are stored, and then its flag counts up. -/
theorem readByte_perform_stf {u : State} (hu : u.Canonical) {e f : El} (hf : f.size = 8) {m : Memory}
    (hm : ∀ a, readByte m a = (storedByte u.cur [e] a).getD (readByte u.mem a)) (a : Nat) :
    let v := (u.perform .stf 0 (localKey u.cur e.va.toNat) e.size e.data).1
    readByte (v.perform .stf 1 (localKey u.cur f.va.toNat) f.size f.data).1.mem a =
      (storedByte u.cur [{ f with data := BitVec.ofNat 512 (bytesValue m (localKey u.cur f.va.toNat) 8 + 1) }] a).getD (readByte m a) := by
  intro v
  have hv : ∀ a, readByte v.mem a = readByte m a := fun a => (readByte_perform_store (r := none) hu rfl e a rfl).trans (hm a).symm
  have hcur : v.cur = u.cur := by
    have h : v = _ := sameButMemory_perform u .stf 0 (localKey u.cur e.va.toNat) e.size e.data
    rw [h]
  have hnew : (v.bytesAt (localKey u.cur f.va.toNat) f.size + 1).toNat ≡ bytesValue m (localKey u.cur f.va.toNat) 8 + 1 [MOD 2 ^ (8 * f.size)] := by
    rw [← bytesValue_congr hv, bytesValue_eq_readNat, hf, State.bytesAt, show (1 : BitVec 512) = BitVec.ofNat 512 1 from rfl, ← BitVec.ofNat_add,
      BitVec.toNat_ofNat]
    exact (Nat.mod_modEq _ _).of_dvd (Nat.pow_dvd_pow 2 (by decide))
  have h := readByte_storeBytes_at (s := v) (perform_canonical hu) (e := f) (by omega) hnew a
  rw [hcur, hv] at h
  exact h

/-! The obligation -/

/-- What an atomic does at a memory key (R216). -/
theorem perform_atomic (u : State) (fn : BitVec 5) (r : RegRef) (b : BitVec 512) (cmp : W) (n key size : Nat) (x : BitVec 512) :
    u.perform (.atomic fn r b cmp) n key size x =
      (storeBytes u key (natLe size (atomicNew fn size (BitVec.ofNat 512 (bytesValue u.mem key size)) b cmp).toNat),
        BitVec.ofNat 512 (bytesValue u.mem key size)) := by
  rw [bytesValue_eq_readNat]
  rfl

/-- The elements of a flag store are its data and the doubleword of its flag. -/
theorem op_size_of_flagStoreOf {i : Instr} {s : State} {q : Ask} {e f : El} (h : flagStoreOf s i = some q) (hels : q.els = [e, f]) :
    q.op = .stf ∧ f.size = 8 := by
  cases i <;> cases h <;> cases hels
  all_goals exact ⟨rfl, rfl⟩

theorem local_flagStore_counts (i : Instr) (s : State) (q : Ask) (e f : El) (h : flagStoreOf s i = some q) (hels : q.els = [e, f])
    (hs : s.Canonical) (hi : s.issues i = true) (hn : s.isNew = true) (ha : s.allows q = true) (hl : q.isLocal = true) :
    ∃ t, exec i s = .next t ∧ t.disp = .retired ∧ t.hart.regs = s.hart.regs ∧ t.hart.arith = s.hart.arith ∧
      (∀ m : Memory, (∀ a, readByte m a = (storedByte s.cur [e] a).getD (readByte s.mem a)) →
        ∀ a, readByte t.mem a = (storedByte s.cur
          [{ f with data := BitVec.ofNat 512 (bytesValue m (localKey s.cur f.va.toNat) 8 + 1) }] a).getD (readByte m a)) := by
  obtain ⟨hop, hf⟩ := op_size_of_flagStoreOf h hels
  have hste := stage_of_local ha (e := e) (by simp [hels]) hl 0
  have hstf := stage_of_local ha (e := f) (by simp [hels]) hl 1
  have hh := hart_performOwn ha (makeParts s q q.els 0)
  have hx := access_eq_ownDone i hn ha hl
  rw [hop] at hh hx
  obtain ⟨l, hd⟩ := ownDone_stf (performOwn (s.launching q) .stf (makeParts s q q.els 0) true).1.dropOwn i
    (performOwn (s.launching q) .stf (makeParts s q q.els 0) true).2
  refine ⟨_, (exec_flagStore h hi).trans (congrArg Host.Outcome.next (hx.trans hd)), State.complete_disp _, ?_, ?_, fun m hm a => ?_⟩
  · rw [regs_complete, State.hart_onHart, hh]; rfl
  · rw [arith_complete, State.hart_onHart, hh]; rfl
  · rw [State.complete_mem, State.onHart_mem, State.dropOwn_mem, hels, makeParts_cons, makeParts_cons, performOwn_own hste rfl]
    dsimp only
    rw [performOwn_own hstf rfl]
    exact readByte_perform_stf (u := s.launching q) hs hf hm a

theorem local_atomic_exchanges (i : Instr) (s : State) (q : Ask) (new : Nat → Nat) (fn : BitVec 5) (r : RegRef) (b : BitVec 512) (cmp : W) (e : El)
    (h : atomicOf s i = some (q, new)) (hop : q.op = .atomic fn r b cmp) (hels : q.els = [e]) (hs : s.Canonical) (hi : s.issues i = true)
    (hn : s.isNew = true) (ha : s.allows q = true) (hl : q.isLocal = true) :
    let old := bytesValue s.mem (localKey s.cur e.va.toNat) e.size
    ∃ t, exec i s = .next t ∧ t.disp = .retired ∧
      (∀ a, readByte t.mem a = (storedByte s.cur [{ e with data := BitVec.ofNat 512 (new old) }] a).getD (readByte s.mem a)) ∧
      t.hart.regs = s.hart.regs.write (if e.size = 4 then (BitVec.ofInt 64 (signedLow 32 old)).setWidth 1024 else BitVec.ofNat 1024 old) r ∧
      t.hart.arith = s.hart.arith ∧ t.hart.nseq = s.hart.nseq + 1 := by
  intro old
  have hsize := size_le_of_atomicOf h hels
  have hold : old < 2 ^ (8 * e.size) := by
    rw [show old = readNat s.mem (localKey s.cur e.va.toNat) e.size from bytesValue_eq_readNat ..]
    exact readNat_lt ..
  have hnew := atomicNew_of_atomicOf h hop hels hold
  have hh := hart_performOwn ha (makeParts s q q.els 0)
  have hx := access_eq_ownDone i hn ha hl
  rw [performOwn_one ha hl hels (by rw [hop]; exact nofun), hop, perform_atomic] at hh hx
  obtain ⟨l, hd⟩ := ownDone_atomic (storeBytes (s.launching q) (localKey s.cur e.va.toNat)
    (natLe e.size (atomicNew fn e.size (BitVec.ofNat 512 old) b cmp).toNat)).dropOwn i fn r b cmp
    { madePart s q e 0 with stage := .done (BitVec.ofNat 512 old) }
  have hland : Hart.land (atomicResult r e.size (BitVec.ofNat 512 old)) (Hart.recorded l s.hart) = Hart.land (oneWrite r
      (if e.size = 4 then (BitVec.ofInt 64 (signedLow 32 old)).setWidth 1024 else BitVec.ofNat 1024 old)) (Hart.recorded l s.hart) := by
    rw [atomicResult_eq r e.size old hsize hold]
  rw [← hh] at hland
  refine ⟨_, (exec_atomic h hi).trans (congrArg Host.Outcome.next (hx.trans hd)), State.complete_disp _, fun a => ?_, ?_, ?_, ?_⟩
  · exact (congrArg (readByte · a) (State.complete_mem _)).trans (readByte_storeBytes_at (s := s.launching q) hs hsize hnew a)
  · rw [regs_complete, State.hart_onHart]
    exact (congrArg Hart.regs hland).trans (by rw [hh]; rfl)
  · rw [arith_complete, State.hart_onHart]
    exact (congrArg Hart.arith hland).trans ((arith_land rfl rfl rfl _).trans (by rw [hh]; rfl))
  · rw [nseq_complete, State.hart_onHart]
    exact congrArg (·.nseq + 1) hh

/-- Settles O11: the two clauses are `local_flagStore_counts` and `local_atomic_exchanges`, whose new values `atomicNew_of_atomicOf` gives. -/
theorem localFlagStoresAndAtomics : Obligations.LocalFlagStoresAndAtomics :=
  ⟨local_flagStore_counts, local_atomic_exchanges⟩

end Sys2Proof.Machine
end
